-- ==== Sys2Proof/Word.lean ====
section
/-! DEFINITION. The words of the machine: bytes, 64-bit register words, 96-bit time stamps, and the
sparse table type in which large arrays of the device are held. -/

-- The package read as one text is elaborated in one thread: a thread for each of its many proofs needs more memory than a check has.
set_option Elab.async false

namespace Sys2Proof

/-- One byte of memory or of a frame. -/
abbrev Byte := BitVec 8

/-- A register or core word (R6: registers are 64 bits wide). -/
abbrev Word := BitVec 64

/-- A 96-bit time stamp (R11). -/
abbrev Stamp := BitVec 96

/-- A stored control-store word: 160 microword bits and 9 SECDED bits (R68, R395). -/
abbrev CsWord := BitVec 169

/-- A microword (R68). -/
abbrev Micro := BitVec 160

/-- A pin word of Table 5.4: 8 DATA bits, 2 MODE bits, 1 MASK bit (R111). -/
abbrev PinWord := BitVec 11

/-- A sparse table: pairs (key, value), keys strictly rising, no value equal to the table's default. -/
abbrev Tab (α : Type) := List (Nat × α)

/-- Replace element `i` of a vector by its image. -/
def modv {α : Type} {n : Nat} (v : Vector α n) (i : Fin n) (f : α → α) : Vector α n :=
  v.set i (f v[i])

end Sys2Proof
end

