-- ==== Sys2Proof/Syntax.lean ====
section
/-! DEFINITION. The commands of the block: one constructor per row of the operation and event table, with what the
outside supplies (frames, bus masters, pins, sampled levels, measured results) as operands. -/

namespace Sys2Proof

/-- A received frame (Tables 3.1, 3.2): the header fields with the reserved bytes 0xD to 0xF, the payload, whether it came
with an illegal code group, without EOF or with a LENGTH that disagrees with its symbols (R42), its CRC field, and the logical lanes
whose pair arrives inverted (R232). -/
structure Frame where
  seq : BitVec 16
  ack : BitVec 16
  crdHdr : Byte
  crdData : Byte
  type : Byte
  status : Byte
  tag : BitVec 16
  queue : Byte
  payload : List Byte
  rsvd : BitVec 24
  broken : Bool
  crc : BitVec 32
  inv : BitVec 4
deriving DecidableEq, Repr

/-- An access of Porter to the register space: a load instead of a store, and 2^`size` bytes wide (R6). -/
structure PorterAcc where
  load : Bool
  size : Fin 4
deriving DecidableEq, Repr

/-- Who accesses a register (R6, R49, R52, R207): a Ward's host through its port, an Analysis Core, or Porter, the management
core. -/
inductive Master where
  | ward (w : Fin 4)
  | core (c : Fin 48)
  | porter (acc : PorterAcc)
deriving DecidableEq, Repr

/-- What a front-end comparator answers at the instant of a strobe or within a window (R156, R158): level above VOH,
level below VOL. -/
structure Level where
  hi : Bool
  lo : Bool
deriving DecidableEq, Repr

/-- What the measurement of a calibration item yields (R303, R305). For a Channel Block, 12 lists: the errors in 1/16 ps of the
measured edges of paths DRV, DEN and strobe of each of its four channels, an empty list where the phase detector sees no
transition. For a lane, 16 lists: the mismatches of one horizontal sweep at phases −32 to +31 for each RX_CTLE setting; `fail`:
a sweep ended with ABORT. -/
structure CalMeas where
  fail : Bool
  data : List (List Int)
deriving DecidableEq, Repr

/-- What a conversion yields: raw 12-bit codes of its samples and the slice of the first (R274), the voltages of a sensor at 10 µA
and 100 µA in nanovolts (R288), the raw codes of the zero reference, of the +0.75 full-scale reference and of the tone of a calibration
segment, the tone's first sample from `slice` (R306), and whether the staging FIFO of a scan record in
DRAM is full (R286). -/
structure AdcMeas where
  slice : Fin 8
  codes : List Int
  v10 : Int
  v100 : Int
  zero : List Int
  full : List Int
  tone : List Int
  stall : Bool
deriving DecidableEq, Repr

/-- What is wrong with a word of the non-volatile array (R326, R330): a single-bit error, a multi-bit error, or a cell that no longer
takes what is written. -/
inductive NvCond where | single | multi | worn
deriving DecidableEq, Repr

/-- A word of the non-volatile array that has gone wrong: its byte address / 8. -/
structure NvWord where
  word : Nat
  cond : NvCond
deriving DecidableEq, Repr

/-- What the device samples at the rising edge of RESET_N: BOOT_SEL (R370), and whether the check of Porter's ROM will fail in phase C
(Table 17.7). -/
structure BootPins where
  sel : Bool
  romBad : Bool
deriving DecidableEq, Repr

/-- Lanes of a group, bit i of `lanes` for logical lane i (R230). -/
structure GrpLanes where
  g : Fin 7
  lanes : Fin 16
deriving DecidableEq, Repr

/-- A lane that loses lock, and the logical lanes of its group that lose it with it (R243). -/
structure LaneLoss where
  lane : Fin 16
  also : Fin 16
deriving DecidableEq, Repr

/-- The bytes of an ordered set behind its first two code groups as they arrive, and whether the pairs that carry it arrive inverted
(R232, R234). -/
structure SetBytes where
  bytes : List Byte
  inv : Bool
deriving DecidableEq, Repr

/-- Bits received on a lane in a test mode, first bit first (R246). -/
structure LaneBits where
  lane : Fin 16
  bits : List Bool
deriving DecidableEq, Repr

/-- A source of timing edges by CLASS and INDEX (R273): class 0 TMI input, 1 CMH, 2 CML. -/
structure EdgeSrc where
  cls : Fin 3
  index : Fin 128
deriving DecidableEq, Repr

/-- The commands of the block. -/
inductive Instr where
  -- Frames, ports, Wards and the Journal
  | regRd (p : Fin 4) (f : Frame)
  | regWr (p : Fin 4) (f : Frame)
  | registerWrite (m : Master) (a : BitVec 32) (v : Word)
  | memRd (p : Fin 4) (f : Frame)
  | memWr (p : Fin 4) (f : Frame)
  | fcpXfer (p : Fin 4) (f : Frame)
  | fcpTransferDone (c : Fin 8) (miso : List Byte)
  | cmd (p : Fin 4) (f : Frame)
  | unknownFrame (p : Fin 7) (f : Frame)
  | nak (p : Fin 7) (f : Frame)
  | credit (p : Fin 7) (f : Frame)
  | ackTimeout (p : Fin 7)
  | linkHold (p : Fin 7)
  | eventFrameSend (w : Fin 4)
  | journalCommit
  | wrdQctlFlush (m : Master) (w : Fin 4) (q : Fin 8)
  -- Host commands taken from the front of queue q of Ward w
  | nop (w : Fin 4) (q : Fin 8)
  | regSet (w : Fin 4) (q : Fin 8)
  | fcpWrite (w : Fin 4) (q : Fin 8)
  | planBegin (w : Fin 4) (q : Fin 8)
  | planLoad (w : Fin 4) (q : Fin 8)
  | planVerify (w : Fin 4) (q : Fin 8)
  | planSeal (w : Fin 4) (q : Fin 8)
  | planRetire (w : Fin 4) (q : Fin 8)
  | planRead (w : Fin 4) (q : Fin 8)
  | planKey (w : Fin 4) (q : Fin 8)
  | burstStart (w : Fin 4) (q : Fin 8)
  | burstStop (w : Fin 4) (q : Fin 8)
  | streamArm (w : Fin 4) (q : Fin 8)
  | streamPrimed (v : Fin 16)
  | capArm (w : Fin 4) (q : Fin 8)
  | shutterArm (w : Fin 4) (q : Fin 8)
  | graphSubmit (w : Fin 4) (q : Fin 8)
  | ctxReset (w : Fin 4) (q : Fin 8)
  | tbAdjust (w : Fin 4) (q : Fin 8)
  | trigArm (w : Fin 4) (q : Fin 8)
  | timArm (w : Fin 4) (q : Fin 8)
  | acqArm (w : Fin 4) (q : Fin 8)
  | adcInject (w : Fin 4) (q : Fin 8)
  | calRun (w : Fin 4) (q : Fin 8)
  | fltInject (w : Fin 4) (q : Fin 8)
  | replay (w : Fin 4) (q : Fin 8)
  | leave (w : Fin 4) (q : Fin 8)
  | join (w : Fin 4) (q : Fin 8)
  -- Pattern sequencers
  | csLatchWrite (m : Master) (k : Fin 32) (word : Fin 8192) (hi : Bool) (v : Word)
  | csWordWrite (m : Master) (k : Fin 32) (word : Fin 8192) (v : Word)
  | psCtrlStop (m : Master) (k : Fin 32)
  | psCtrlKill (m : Master) (k : Fin 32)
  | psCtrlPause (m : Master) (k : Fin 32)
  | psCtrlResume (m : Master) (k : Fin 32)
  | psCtrlStep (m : Master) (k : Fin 32)
  | uNext (k : Fin 32)
  | uJump (k : Fin 32)
  | uCall (k : Fin 32)
  | uRet (k : Fin 32)
  | uLoop (k : Fin 32)
  | uLdlc (k : Fin 32)
  | uRepeat (k : Fin 32)
  | uBegin (k : Fin 32)
  | uEnd (k : Fin 32)
  | uFsync (k : Fin 32)
  | uBreak (k : Fin 32)
  | uJumpi (k : Fin 32)
  | holdBeat (k : Fin 32)
  | squareRelease (q : Fin 64)
  -- Channel Blocks, capture, Shutter
  | beatTake (c : Fin 32)
  | beatStart (c : Fin 32)
  | edgeEvent (c : Fin 128) (lv : Level)
  | cbDrainDone (c : Fin 32)
  | beatDelivery (k : Fin 32)
  | captureQueueWrite
  | batchTimeout (k : Fin 32)
  | batchPost (k : Fin 32)
  | burstDone (k : Fin 32)
  | capRdWrite (m : Master) (k : Fin 32) (spill : Bool) (v : Word)
  | shutterSample (s0 s1 : BitVec 32)
  | shutterRawWrite
  | shutRawRdWrite (m : Master) (v : Word)
  -- Stream engines
  | streamFetch (v : Fin 16)
  | sPad (v : Fin 16)
  | sLit (v : Fin 16)
  | sRun (v : Fin 16)
  | sPatch (v : Fin 16)
  | sDictDef (v : Fin 16)
  | sDictUse (v : Fin 16)
  | sScan (v : Fin 16)
  | sScanCfg (v : Fin 16)
  | sLoop (v : Fin 16)
  | sEndloop (v : Fin 16)
  | sSquare (v : Fin 16)
  | sEnd (v : Fin 16)
  | urTimeout (v : Fin 16)
  -- Analysis cores and Dispatcher
  | dispatcherCycle
  | coreInstruction (c : Fin 48)
  | ecall (c : Fin 48)
  | ebreak (c : Fin 48)
  | fence (c : Fin 48)
  | rxTset (c : Fin 48)
  | rxTclrr (c : Fin 48)
  | rxTclrc (c : Fin 48)
  | rxTrowv (c : Fin 48)
  | rxTcolv (c : Fin 48)
  | rxTcolocc (c : Fin 48)
  | rxTrowocc (c : Fin 48)
  | rxTpop (c : Fin 48)
  | rxCover (c : Fin 48)
  | rxTmerge (c : Fin 48)
  | rxCycle (c : Fin 48)
  | opTimeout (c : Fin 48)
  -- Memory
  | drcCommandSlot (d : Fin 4)
  | refreshDue (d : Fin 4)
  | drcInit (m : Master) (d : Fin 4)
  | drcTrainingDone (d : Fin 4) (failStep : Nat) (ca : Word) (dq : List Word)
  -- Serial lanes
  | cap (l : Fin 16) (x : SetBytes)
  | laneStepPass (l : Fin 16)
  | stepTimeout (x : GrpLanes)
  | lockTimeout (x : GrpLanes)
  | bringupRetry (g : Fin 7)
  | laneLossOfLock (x : LaneLoss) (cause : Fin 3) (errs : Nat)
  | narrow (g : Fin 7) (x : SetBytes)
  | narrowTimeout (g : Fin 7)
  | widen (l : Fin 16) (x : SetBytes)
  | retrainRetry (l : Fin 16)
  | skpSend (l : Fin 16)
  | lnTestMode (m : Master) (l : Fin 16) (mode : Nat)
  | injOne (m : Master) (l : Fin 16)
  | liveInj (m : Master) (l : Fin 16)
  | eyeScanStart (m : Master) (l : Fin 16)
  | eyeScanDone (l : Fin 16) (errs : List Nat)
  -- Time base
  | refclkWindow (count : Nat)
  | refclkMissingEdge
  | tbIncrement
  | tbTimeLoRead (p : Fin 4)
  | syncInterval (at_ : Nat)
  | delayReqSend (at_ : Nat)
  | sync (down : Bool) (f : Frame) (at_ : Nat)
  | followUp (down : Bool) (f : Frame)
  | delayReq (down : Bool) (f : Frame) (at_ : Nat)
  | delayResp (down : Bool) (f : Frame)
  | holdover
  | tbCtrlReseed (m : Master)
  | trigFire (t : Fin 32)
  | sqJoin (down : Bool) (f : Frame)
  | sqArrive (down : Bool) (f : Frame)
  | sqRelease (down : Bool) (f : Frame)
  | timEdge (src : EdgeSrc) (rising : Bool) (q : Nat)
  | timOverflow (t : Fin 8)
  | timTimeout (t : Fin 8)
  -- Analog, thermal, calibration
  | adcConversionDone (r : AdcMeas)
  | thmPeriod
  | bandChange
  | acqSample (slice : Fin 8) (code : Int) (stall : Bool)
  | acqRearm
  | acqAutoTrigger
  | acqDeferExpiry
  | acqCtrlForce (m : Master)
  | acqRdWrite (m : Master) (v : Word)
  | calSlewTick
  | calItemDone (r : CalMeas)
  -- Faults
  | faultTick
  | faultWindowEnd
  | errNPulseEnd
  | resetAction
  | fltRaise (m : Master) (n : Fin 19) (v : Word)
  | feRearm (m : Master)
  -- Twin
  | twHello (f : Frame)
  | twJnl (f : Frame) (preimage : List Byte)
  | twJnlAck (f : Frame)
  | twStart (f : Frame)
  | twStartAck (f : Frame)
  | twWrite (f : Frame)
  | twPost (f : Frame)
  | twCkpt (f : Frame)
  | twHandoff (f : Frame)
  | twDetach (f : Frame)
  | twRelease (f : Frame)
  | twHb (f : Frame)
  | twinHeartbeat
  | sideRelease
  | twinPeerToggle
  | peerTimeout
  | linkTimeout
  | recoveryRestore
  | replayRelease
  -- Power, clocks, start-up
  | powerOn
  | resetNLow
  | resetNRise (pins : BootPins)
  | rstCtrlChip (m : Master)
  | chipResetInternal
  | rstUnitPs (m : Master) (v : Word)
  | rstUnitCb (m : Master) (v : Word)
  | rstUnitVs (m : Master) (v : Word)
  | rstUnitAc (m : Master) (v : Word)
  | rstUnitTimeout (cls : Fin 4) (i : Nat)
  | tapReset
  | startupPll
  | pllLock (pll : Fin 8)
  | pllLossOfLock (pll : Fin 8)
  | startupBoot
  | startupRestore (words : List NvWord)
  | twinRoleDecision (toggled : Bool)
  | startupPorts
  | startupRun
  | clkIdleGate (dom : Nat)
  | domainWake (dom : Nat)
  | clkWake (dom : Nat)
  -- Completions
  | validationComplete
  | graphActive (c : Fin 1024)
  | ctxResetComplete (c : Fin 1024)
  | joinCopyComplete
  | prbsSync (x : LaneBits)
  | prbsSyncLost (l : Fin 16) (bits seed : List Bool)
  | porterWatchdogExpired
  | lossOfPower
deriving DecidableEq, Repr

end Sys2Proof
end

