-- ==== Sys2Proof/WellFormed.lean ====
section
/-! DEFINITION. Which commands are well formed: the frame types and payload sizes of each row, the ranges of sampled codes and of
domain and unit numbers. -/

namespace Sys2Proof

/-- The payload has a size that Table 3.1 allows. -/
def Frame.sized (f : Frame) : Bool := decide (f.payload.length ≤ 2048) && decide (f.payload.length % 8 = 0)

/-- A frame of type `ty` (Tables 3.3, 12.1, 16.7). -/
def Frame.is (f : Frame) (ty : Nat) : Bool := f.sized && decide (f.type.toNat = ty)

/-- The frame types a port recognizes on receipt: host ports, twin link, sync ring (R43, R256, R347). -/
def knownTypes (p : Nat) : List Nat :=
  (if p < 4 then [0x01, 0x02, 0x03, 0x04, 0x05, 0x06]
   else if p = 4 then [0x50, 0x51, 0x52, 0x53, 0x54, 0x55, 0x56, 0x57, 0x58, 0x59, 0x5E, 0x5F]
   else [0x40, 0x41, 0x42, 0x43]) ++ [0xC0, 0xC1]

/-- A 12-bit code of the converter (R274). -/
def adcCode (c : Int) : Bool := decide (-2048 ≤ c) && decide (c ≤ 2047)

/-- Units of a class that has unit resets: sequencers, Channel Blocks, stream engines, cores (R368). -/
def unitCount : Nat → Nat | 0 => 32 | 1 => 32 | 2 => 16 | _ => 48

/-- The command is well formed. -/
def Instr.wf : Instr → Bool
  | .regRd _ f => f.is 0x01
  | .regWr _ f => f.is 0x02
  | .registerWrite _ a _ => decide (a.toNat % 8 = 0)
  | .memRd _ f => f.is 0x03
  | .memWr _ f => f.is 0x04
  | .fcpXfer _ f => f.is 0x06
  | .fcpTransferDone _ miso => decide (miso.length ≤ 256)
  | .cmd _ f => f.is 0x05
  | .unknownFrame p f => f.sized && !(knownTypes p.val).contains f.type.toNat
  | .nak _ f => f.is 0xC0 && f.payload.isEmpty
  | .credit _ f => f.is 0xC1 && f.payload.isEmpty
  | .ackTimeout _ => true
  | .linkHold _ => true
  | .eventFrameSend _ => true
  | .journalCommit => true
  | .wrdQctlFlush _ _ _ => true
  | .nop _ _ => true
  | .regSet _ _ => true
  | .fcpWrite _ _ => true
  | .planBegin _ _ => true
  | .planLoad _ _ => true
  | .planVerify _ _ => true
  | .planSeal _ _ => true
  | .planRetire _ _ => true
  | .planRead _ _ => true
  | .planKey _ _ => true
  | .burstStart _ _ => true
  | .burstStop _ _ => true
  | .streamArm _ _ => true
  | .streamPrimed _ => true
  | .capArm _ _ => true
  | .shutterArm _ _ => true
  | .graphSubmit _ _ => true
  | .ctxReset _ _ => true
  | .tbAdjust _ _ => true
  | .trigArm _ _ => true
  | .timArm _ _ => true
  | .acqArm _ _ => true
  | .adcInject _ _ => true
  | .calRun _ _ => true
  | .fltInject _ _ => true
  | .replay _ _ => true
  | .leave _ _ => true
  | .join _ _ => true
  | .csLatchWrite _ _ _ _ _ => true
  | .csWordWrite _ _ _ _ => true
  | .psCtrlStop _ _ => true
  | .psCtrlKill _ _ => true
  | .psCtrlPause _ _ => true
  | .psCtrlResume _ _ => true
  | .psCtrlStep _ _ => true
  | .uNext _ => true
  | .uJump _ => true
  | .uCall _ => true
  | .uRet _ => true
  | .uLoop _ => true
  | .uLdlc _ => true
  | .uRepeat _ => true
  | .uBegin _ => true
  | .uEnd _ => true
  | .uFsync _ => true
  | .uBreak _ => true
  | .uJumpi _ => true
  | .holdBeat _ => true
  | .squareRelease _ => true
  | .beatTake _ => true
  | .beatStart _ => true
  | .edgeEvent _ _ => true
  | .cbDrainDone _ => true
  | .beatDelivery _ => true
  | .captureQueueWrite => true
  | .batchTimeout _ => true
  | .batchPost _ => true
  | .burstDone _ => true
  | .capRdWrite _ _ _ _ => true
  | .shutterSample _ _ => true
  | .shutterRawWrite => true
  | .shutRawRdWrite _ _ => true
  | .streamFetch _ => true
  | .sPad _ => true
  | .sLit _ => true
  | .sRun _ => true
  | .sPatch _ => true
  | .sDictDef _ => true
  | .sDictUse _ => true
  | .sScan _ => true
  | .sScanCfg _ => true
  | .sLoop _ => true
  | .sEndloop _ => true
  | .sSquare _ => true
  | .sEnd _ => true
  | .urTimeout _ => true
  | .dispatcherCycle => true
  | .coreInstruction _ => true
  | .ecall _ => true
  | .ebreak _ => true
  | .fence _ => true
  | .rxTset _ => true
  | .rxTclrr _ => true
  | .rxTclrc _ => true
  | .rxTrowv _ => true
  | .rxTcolv _ => true
  | .rxTcolocc _ => true
  | .rxTrowocc _ => true
  | .rxTpop _ => true
  | .rxCover _ => true
  | .rxTmerge _ => true
  | .rxCycle _ => true
  | .opTimeout _ => true
  | .drcCommandSlot _ => true
  | .refreshDue _ => true
  | .drcInit _ _ => true
  | .drcTrainingDone _ failStep _ dq => decide (failStep ≤ 7) && decide (dq.length = 40)
  | .cap _ x => decide (x.bytes.length = 14)
  | .laneStepPass _ => true
  | .stepTimeout _ => true
  | .lockTimeout _ => true
  | .bringupRetry _ => true
  | .laneLossOfLock _ _ _ => true
  | .narrow _ x => decide (x.bytes.length = 2)
  | .narrowTimeout _ => true
  | .widen _ x => decide (x.bytes.length = 2)
  | .retrainRetry _ => true
  | .skpSend _ => true
  | .lnTestMode _ _ mode => decide (mode ≤ 3)
  | .injOne _ _ => true
  | .liveInj _ _ => true
  | .eyeScanStart _ _ => true
  | .eyeScanDone _ errs => decide (errs.length = 64)
  | .refclkWindow _ => true
  | .refclkMissingEdge => true
  | .tbIncrement => true
  | .tbTimeLoRead _ => true
  | .syncInterval _ => true
  | .delayReqSend _ => true
  | .sync _ f _ => f.is 0x40
  | .followUp _ f => f.is 0x40
  | .delayReq _ f _ => f.is 0x40
  | .delayResp _ f => f.is 0x40
  | .holdover => true
  | .tbCtrlReseed _ => true
  | .trigFire _ => true
  | .sqJoin _ f => f.is 0x41
  | .sqArrive _ f => f.is 0x42
  | .sqRelease _ f => f.is 0x43
  | .timEdge src _ _ => decide (src.cls.val ≠ 0) || decide (src.index.val < 4)
  | .timOverflow _ => true
  | .timTimeout _ => true
  | .adcConversionDone r => r.codes.all adcCode
  | .thmPeriod => true
  | .bandChange => true
  | .acqSample _ code _ => adcCode code
  | .acqRearm => true
  | .acqAutoTrigger => true
  | .acqDeferExpiry => true
  | .acqCtrlForce _ => true
  | .acqRdWrite _ _ => true
  | .calSlewTick => true
  | .calItemDone _ => true
  | .faultTick => true
  | .faultWindowEnd => true
  | .errNPulseEnd => true
  | .resetAction => true
  | .fltRaise _ _ _ => true
  | .feRearm _ => true
  | .twHello f => f.is 0x50
  | .twJnl f _ => f.is 0x51 && decide (f.payload.length = 64)
  | .twJnlAck f => f.is 0x52
  | .twStart f => f.is 0x53
  | .twStartAck f => f.is 0x54
  | .twWrite f => f.is 0x55
  | .twPost f => f.is 0x56
  | .twCkpt f => f.is 0x57
  | .twHandoff f => f.is 0x58
  | .twDetach f => f.is 0x59
  | .twRelease f => f.is 0x5E
  | .twHb f => f.is 0x5F
  | .twinHeartbeat => true
  | .sideRelease => true
  | .twinPeerToggle => true
  | .peerTimeout => true
  | .linkTimeout => true
  | .recoveryRestore => true
  | .replayRelease => true
  | .powerOn => true
  | .resetNLow => true
  | .resetNRise _ => true
  | .rstCtrlChip _ => true
  | .chipResetInternal => true
  | .rstUnitPs _ _ => true
  | .rstUnitCb _ _ => true
  | .rstUnitVs _ _ => true
  | .rstUnitAc _ _ => true
  | .rstUnitTimeout cls i => decide (i < unitCount cls.val)
  | .tapReset => true
  | .startupPll => true
  | .pllLock _ => true
  | .pllLossOfLock _ => true
  | .startupBoot => true
  | .startupRestore _ => true
  | .twinRoleDecision _ => true
  | .startupPorts => true
  | .startupRun => true
  | .clkIdleGate dom => decide (dom ≤ 142)
  | .domainWake dom => decide (dom ≤ 142)
  | .clkWake dom => decide (dom ≤ 142)
  | .validationComplete => true
  | .graphActive _ => true
  | .ctxResetComplete _ => true
  | .joinCopyComplete => true
  | .prbsSync _ => true
  | .prbsSyncLost _ bits _ => decide (bits ≠ [])
  | .porterWatchdogExpired => true
  | .lossOfPower => true

end Sys2Proof
end

