-- ==== Sys2Proof/Decode.lean ====
section
/-! DEFINITION. The reading of a command from bits: the operation and event table gives none of its rows bits, so no word spells a
command. -/

namespace Sys2Proof

/-- The command that a word spells by the table's bits. -/
def decodeTableWord (_nbits _w : Nat) : Option Instr := none

end Sys2Proof
end

