-- ==== Sys2Proof/Machine/Bits.lean ====
section
/-! DEFINITION. Bit fields, byte strings, saturating counters and the sparse tables: the small
arithmetic every other file of the machine uses. -/

namespace Sys2Proof.Machine

/-! ### Sparse tables -/

/-- The value at key `i`; `d` is what an unlisted key reads as. -/
def tabGet {α : Type} (d : α) : Tab α → Nat → α
  | [], _ => d
  | (k, v) :: t, i => if i = k then v else tabGet d t i

/-- Put `x` before the first element that it may precede. -/
def insBy {α : Type} (le : α → α → Bool) (x : α) : List α → List α
  | [] => [x]
  | y :: t => if le x y then x :: y :: t else y :: insBy le x t

/-- The list in the order `le`; what ties keeps its order. -/
def sortBy {α : Type} (le : α → α → Bool) (l : List α) : List α := l.foldr (insBy le) []

/-- Put an entry before the first one with a higher key. -/
def tabIns {α : Type} (i : Nat) (x : α) : Tab α → Tab α
  | [] => [(i, x)]
  | (k, v) :: t => if i < k then (i, x) :: (k, v) :: t else (k, v) :: tabIns i x t

/-- The table without key `i`. -/
def tabErase {α : Type} (i : Nat) (t : Tab α) : Tab α := t.filter (fun p => !(p.1 == i))

/-- Put `x` at key `i`; no entry stays when `x` is the default `d` of that key. -/
def tabSet {α : Type} [DecidableEq α] (d : α) (t : Tab α) (i : Nat) (x : α) : Tab α :=
  if x = d then tabErase i t else tabIns i x (tabErase i t)

/-- Keys strictly rise from `lo` on, and no entry equals the default of its key. -/
def tabOk {α : Type} [DecidableEq α] (d : Nat → α) : Nat → Tab α → Bool
  | _, [] => true
  | lo, (k, v) :: t => decide (lo ≤ k) && !(decide (v = d k)) && tabOk d (k + 1) t

/-- Every key of the table lies in `[lo, hi)` is removed. -/
def tabDrop {α : Type} (lo hi : Nat) (t : Tab α) : Tab α :=
  t.filter (fun p => !(decide (lo ≤ p.1) && decide (p.1 < hi)))

/-! ### Bits of numbers -/

/-- Bits `hi..lo` of a number. -/
def nbits (hi lo v : Nat) : Nat := (v >>> lo) % 2 ^ (hi + 1 - lo)

/-- Bit `i` of a number. -/
def nbit (v i : Nat) : Bool := v.testBit i

/-- A Boolean as a bit. -/
def b2n (b : Bool) : Nat := if b then 1 else 0

/-- The signed value of an `n`-bit field. -/
def sgn (n v : Nat) : Int := if v % 2 ^ n < 2 ^ (n - 1) then (v % 2 ^ n : Nat) else ((v % 2 ^ n : Nat) : Int) - (2 ^ n : Nat)

/-- An integer as an `n`-bit two's-complement field. -/
def unsgn (n : Nat) (i : Int) : Nat := (i % ((2 ^ n : Nat) : Int)).toNat

/-- A counter that saturates at the top of its `n`-bit field. -/
def satAdd (n c k : Nat) : Nat := if c + k < 2 ^ n then c + k else 2 ^ n - 1

/-- The field `hi..lo` of a register word. -/
def getBits (w : Word) (hi lo : Nat) : Nat := nbits hi lo w.toNat

/-- The register word with field `hi..lo` replaced. -/
def setBits (w : Word) (hi lo v : Nat) : Word :=
  let m : Nat := (2 ^ (hi + 1 - lo) - 1) <<< lo
  BitVec.ofNat 64 ((w.toNat &&& ((2 ^ 64 - 1) ^^^ m)) ||| ((v % 2 ^ (hi + 1 - lo)) <<< lo))

/-- The set bits of a mask below `n`, rising. -/
def bitsOf (n m : Nat) : List Nat := (List.range n).filter (fun i => m.testBit i)

/-- A mask from a predicate. -/
def maskOf (n : Nat) (f : Nat → Bool) : Nat := (List.range n).foldl (fun a i => if f i then a ||| (1 <<< i) else a) 0

/-- Number of ones below bit `n`. -/
def popN (n m : Nat) : Nat := (bitsOf n m).length

/-! ### Byte strings, little-endian -/

/-- The little-endian value of a byte string. -/
def leNat : List Byte → Nat
  | [] => 0
  | b :: t => b.toNat + 256 * leNat t

/-- The big-endian value of a byte string. -/
def beNat (l : List Byte) : Nat := l.foldl (fun a b => a * 256 + b.toNat) 0

/-- `n` little-endian bytes of a number. -/
def toLe : Nat → Nat → List Byte
  | 0, _ => []
  | n + 1, v => BitVec.ofNat 8 v :: toLe n (v / 256)

/-- `n` big-endian bytes of a number. -/
def toBe (n v : Nat) : List Byte := (toLe n v).reverse

/-- `n` bytes of a string from offset `o`, zero beyond its end. -/
def sub (l : List Byte) (o n : Nat) : List Byte :=
  let t := (l.drop o).take n
  t ++ List.replicate (n - t.length) 0#8

/-- The little-endian number in `n` bytes from offset `o`. -/
def u (l : List Byte) (o n : Nat) : Nat := leNat (sub l o n)

/-- Zero padding up to a multiple of 8 (R54, R61). -/
def pad8 (l : List Byte) : List Byte := l ++ List.replicate ((8 - l.length % 8) % 8) 0#8

/-- Every byte of the range is 0. -/
def zeros (l : List Byte) (o n : Nat) : Bool := (sub l o n).all (fun b => decide (b = 0#8))

/-- Round `n` up to a multiple of `m`. -/
def roundUp (m n : Nat) : Nat := (n + (m - 1)) / m * m

/-- Update the first element satisfying `p`. -/
def updFirst {α : Type} (p : α → Bool) (f : α → α) : List α → List α
  | [] => []
  | x :: t => if p x then f x :: t else x :: updFirst p f t

/-- Drop the first element satisfying `p`. -/
def dropFirst {α : Type} (p : α → Bool) : List α → List α
  | [] => []
  | x :: t => if p x then t else x :: dropFirst p t

/-- All indices of a `Fin n`, rising. -/
def fins (n : Nat) : List (Fin n) := List.finRange n

end Sys2Proof.Machine
end

