-- ==== Sys2Proof/Machine/Crypto.lean ====
section
/-! DEFINITION. CRC-32C (R23), SHA-256 and ECDSA P-256 verification (R29, R30, R328), computed over natural numbers. -/

namespace Sys2Proof.Machine

/-! ### CRC-32C (R23) -/

/-- One bit of the reflected division by 0x82F6_3B78. -/
def crcBit (c : Nat) : Nat := if c % 2 = 1 then (c / 2) ^^^ 0x82F63B78 else c / 2

/-- One byte. -/
def crcByte (c : Nat) (b : Byte) : Nat :=
  crcBit (crcBit (crcBit (crcBit (crcBit (crcBit (crcBit (crcBit (c ^^^ b.toNat))))))))

/-- CRC-32C of a byte string: initial value and final exclusive-or 0xFFFF_FFFF. -/
def crc32c (l : List Byte) : Nat := (l.foldl crcByte 0xFFFFFFFF) ^^^ 0xFFFFFFFF

/-! ### SHA-256

R29 and R328 name the digest and give no tables: the constants are the first 32 fraction bits of the cube roots of the first 64
primes, and the initial digest those of the square roots of the first eight. -/

/-- The greatest number of `n` further bits below `r` whose `k`-th power does not exceed `x`. -/
def rootFrom (k x : Nat) : Nat → Nat → Nat
  | 0, r => r
  | n + 1, r => rootFrom k x n (if (r + 2 ^ n) ^ k ≤ x then r + 2 ^ n else r)

/-- The first 32 fraction bits of the `k`-th root of `p`. -/
def rootFraction (k p : Nat) : Nat := rootFrom k (p * 2 ^ (32 * k)) 37 0 % 2 ^ 32

/-- The first 64 primes. -/
def primes64 : List Nat :=
  [2, 3, 5, 7, 11, 13, 17, 19, 23, 29, 31, 37, 41, 43, 47, 53, 59, 61, 67, 71, 73, 79, 83, 89, 97, 101, 103, 107, 109, 113, 127,
   131, 137, 139, 149, 151, 157, 163, 167, 173, 179, 181, 191, 193, 197, 199, 211, 223, 227, 229, 233, 239, 241, 251, 257, 263,
   269, 271, 277, 281, 283, 293, 307, 311]

/-- The eight chaining words of a digest in progress. -/
structure Digest where
  p0 : Nat
  p1 : Nat
  p2 : Nat
  p3 : Nat
  q0 : Nat
  q1 : Nat
  q2 : Nat
  q3 : Nat
deriving DecidableEq, Repr

/-- The exclusive or of a word turned right by each of the amounts. -/
def turns (x : Nat) (by_ : List Nat) : Nat := by_.foldl (fun r n => r ^^^ ((x * 2 ^ 32 + x) / 2 ^ n % 2 ^ 32)) 0

/-- The word that follows a window of 16 message words. -/
def shaNext (w : List Nat) : Nat :=
  let u := w.getD 1 0
  let v := w.getD 14 0
  ((turns v [17, 19] ^^^ v / 1024) + w.getD 9 0 + (turns u [7, 18] ^^^ u / 8) + w.getD 0 0) % 2 ^ 32

/-- A step with the constant plus message word `kw`. -/
def Digest.mix (d : Digest) (kw : Nat) : Digest :=
  let choice := (d.q0 &&& d.q1) + ((2 ^ 32 - 1 - d.q0) &&& d.q2)
  let t := d.q3 + turns d.q0 [6, 11, 25] + choice + kw
  let most := (d.p0 &&& (d.p1 ||| d.p2)) ||| (d.p1 &&& d.p2)
  ⟨(t + turns d.p0 [2, 13, 22] + most) % 2 ^ 32, d.p0, d.p1, d.p2, (d.p3 + t) % 2 ^ 32, d.q0, d.q1, d.q2⟩

/-- The steps of a block, one for each constant; the window of message words slides along. -/
def Digest.steps : List Nat → List Nat → Digest → Digest
  | [], _, d => d
  | k :: ks, w, d => Digest.steps ks (w.drop 1 ++ [shaNext w]) (d.mix (k + w.headD 0))

/-- Word by word sum of two digests. -/
def Digest.plus (d e : Digest) : Digest :=
  let s (x y : Nat) : Nat := (x + y) % 2 ^ 32
  ⟨s d.p0 e.p0, s d.p1 e.p1, s d.p2 e.p2, s d.p3 e.p3, s d.q0 e.q0, s d.q1 e.q1, s d.q2 e.q2, s d.q3 e.q3⟩

/-- `n` blocks of 64 bytes. -/
def Digest.absorb (ks : List Nat) : Nat → List Byte → Digest → Digest
  | 0, _, d => d
  | n + 1, l, d =>
    let w := (List.range 16).map (fun i => beNat (sub l (4 * i) 4))
    Digest.absorb ks n (l.drop 64) (d.plus (Digest.steps ks w d))

/-- SHA-256, 32 bytes. -/
def sha256 (l : List Byte) : List Byte :=
  let m := l ++ 0x80#8 :: List.replicate ((119 - l.length % 64) % 64) 0#8 ++ toBe 8 (8 * l.length)
  let i (n : Nat) : Nat := rootFraction 2 (primes64.getD n 0)
  let d := Digest.absorb (primes64.map (rootFraction 3)) (m.length / 64) m ⟨i 0, i 1, i 2, i 3, i 4, i 5, i 6, i 7⟩
  [d.p0, d.p1, d.p2, d.p3, d.q0, d.q1, d.q2, d.q3].flatMap (toBe 4)

/-! ### P-256 -/

/-- The field prime. -/
def p256 : Nat := 2 ^ 256 - 2 ^ 224 + 2 ^ 192 + 2 ^ 96 - 1
/-- The order of the base point. -/
def n256 : Nat := 0xffffffff00000000ffffffffffffffffbce6faada7179e84f3b9cac2fc632551
/-- The curve coefficient b. -/
def b256 : Nat := 0x5ac635d8aa3a93e7b3ebbd55769886bc651d06b0cc53b0f63bce3c3e27d2604b
/-- The base point. -/
def g256 : Nat × Nat :=
  (0x6b17d1f2e12c4247f8bce6e563a440f277037d812deb33a0f4a13945d898c296,
   0x4fe342e2fe1a7f9b8ee7eb4a7c0f9e162bce33576b315ececbb6406837bf51f5)

/-- `b ^ e mod m`, over the low `k` bits of `e`. -/
def powMod (m b : Nat) : Nat → Nat → Nat
  | 0, _ => 1 % m
  | k + 1, e =>
    let h := powMod m b k (e / 2)
    if e % 2 = 1 then h * h % m * b % m else h * h % m

/-- Inverse modulo a prime. -/
def invMod (m a : Nat) : Nat := powMod m a 256 (m - 2)

/-- The point lies on the curve (not the point at infinity). -/
def onCurve (x y : Nat) : Bool :=
  decide (x < p256) && decide (y < p256) && decide (y * y % p256 = (x * x * x + (p256 - 3) * x + b256) % p256)

/-- Sum of two points; none is the point at infinity. -/
def ecAdd (a b : Option (Nat × Nat)) : Option (Nat × Nat) :=
  match a, b with
  | none, q => q
  | q, none => q
  | some (x1, y1), some (x2, y2) =>
    if x1 = x2 ∧ (y1 + y2) % p256 = 0 then none
    else
      let l := if x1 = x2 then (3 * x1 * x1 + (p256 - 3)) * invMod p256 (2 * y1 % p256) % p256
        else (y2 + p256 - y1) * invMod p256 ((x2 + p256 - x1) % p256) % p256
      let x3 := (l * l + 2 * p256 - x1 - x2) % p256
      some (x3, (l * (x1 + p256 - x3) + p256 - y1) % p256)

/-- `e` times a point, over the low `k` bits of `e`. -/
def ecMul (q : Option (Nat × Nat)) : Nat → Nat → Option (Nat × Nat)
  | 0, _ => none
  | k + 1, e =>
    let h := ecMul q k (e / 2)
    let d := ecAdd h h
    if e % 2 = 1 then ecAdd d q else d

/-- A key: X then Y, 32 bytes each, big-endian. -/
def keyPoint (key : List Byte) : Nat × Nat := (beNat (sub key 0 32), beNat (sub key 32 32))

/-- ECDSA P-256 over the SHA-256 digest of a message; the signature is r then s, 32 bytes each, big-endian (R29). -/
def ecdsaVerify (key sig msg : List Byte) : Bool :=
  let r := beNat (sub sig 0 32)
  let t := beNat (sub sig 32 32)
  let q := keyPoint key
  if r = 0 ∨ n256 ≤ r ∨ t = 0 ∨ n256 ≤ t ∨ !onCurve q.1 q.2 then false
  else
    let w := invMod n256 t
    let z := beNat (sha256 msg)
    match ecAdd (ecMul (some g256) 256 (z * w % n256)) (ecMul (some q) 256 (r * w % n256)) with
    | none => false
    | some (x, _) => decide (x % n256 = r)

end Sys2Proof.Machine
end

