-- ==== Sys2Proof/Config.lean ====
section
/-! DEFINITION. What an implementation fixes and the values the manual leaves open: opaque constants, of which nothing
can be proved but that they exist. -/

namespace Sys2Proof.Config

/-- A value for which the manual states nothing; applied to the model's counter of such values. -/
opaque free : Nat → Nat

/-- The vendor microcode in words 0x0000 to 0x07FF of every control store (R68): its bits are not in the manual. -/
opaque vendorMicro : Nat → Micro

/-- The serial number of RST_SERIAL. -/
opaque serial : Word

/-- The SKEW that a tone capture of calibration segment `seg` gives, its first sample from slice `first` (R306): the manual states no
computation. -/
opaque calSkew (seg first : Nat) (tone : List Int) : Int

/-- The spur level of a tone capture, corrected with the staged set (R306): the manual states no computation. -/
opaque calSpur (tone : List Int) : Nat

/-- The contents of RST_FW: versions of Porter's ROM and firmware. -/
opaque firmware : Word

end Sys2Proof.Config
end

