-- ==== Sys2Proof/Machine/RegMap.lean ====
section
/-! DEFINITION. The register map (R377 and the field tables of each chapter): the address of every register and
of every field, its access code, reset value, reserved encodings and owner. -/

namespace Sys2Proof.Machine

/-- Access codes (R9). -/
inductive Access where | ro | rw | wo | w1c | w1s | rwp
deriving DecidableEq, Repr

/-- Which unit a register belongs to (R52 and the register rule of each chapter). The `Bits` forms hold fields
of units of several Wards in one register. -/
inductive Owner where
  | dev | seq | cb | chan | chan1 | vs | core | ctx | slot | ward | tmi | tim | trig | acq | shutter | square
  | site | source | sourceBits | raiseBits | chanBits | seqBits | cbBits | vsBits | coreBits | record
deriving DecidableEq, Repr

/-- One field: bits `hi..lo`, access code, reset value, and the lowest and highest defined encoding. -/
structure Fld where
  hi : Nat
  lo : Nat
  acc : Access
  rst : Nat
  legLo : Nat
  legHi : Nat
deriving DecidableEq, Repr

/-- A field of one register instance: its address and bits. -/
structure FRef where
  addr : Nat
  hi : Nat
  lo : Nat
deriving DecidableEq, Repr

/-- The names of all registers. -/
inductive RegName where
  | JNL_PLAN_STATUS | JNL_PLAN_DIAG | JNL_PLAN_ID | JNL_PLAN_PENDING_ID | JNL_PLAN_CRC | JNL_PLAN_SEALS 
  | LNK_PORT_STATUS | LNK_PORT_CFG | LNK_PORT_CREDIT | LNK_PORT_ERR | LNK_FCP_CFG | WRD_STATUS | WRD_REFUSED 
  | WRD_QSTATUS | WRD_QCTL | PS_STATUS | PS_CTRL | PS_BURST | PS_BURST_END | PS_BEATS | PS_CS_ECC | PS_FAULT 
  | PS_DBG | PS_TRACE_PTR | PS_TRACE | PS_CKPT | PS_GR | PS_LC | PS_STACK | PS_PERIOD | PS_SQ_ENROL | PS_SQ_TRIG 
  | PS_SQ_STATUS | PS_SQ_COUNT | PS_SQ_CTRL | APG_CFG | APG_X | APG_XA | APG_XLIM | APG_XINC | APG_Y | APG_YA 
  | APG_YLIM | APG_YINC | APG_Z | APG_ZA | APG_ZLIM | APG_ZINC | APG_D | APG_DB | APG_DPOLY | APG_DCMP 
  | APG_ASCR | APG_DSCR | APG_XMAP | APG_PINMASK | VS_STATUS | VS_CFG | VS_POS | VS_LEVEL | VS_COUNT | VS_UR 
  | VS_ERR | VS_CKPT | VS_CKPT_LOOP | VS_ARM_SRC | VS_ARM_LEN | VS_ARM_RING | VS_ARM_DICT | CH_CFG | CH_STATUS 
  | CH_VIOL | CH_VIOL_FIRST | CH_CB_STATUS | CH_CB_BEATS | CH_CB_T0_LO | CH_CB_T0_HI | CH_CB_PMIN | WT_ENTRY 
  | CAP_CMP_CFG | CAP_CH_FAILS | CAP_SITE_LIMIT | CAP_SITE_STATUS | CAP_SITE_FAILS | CAP_SITE_FIRST 
  | CAP_ARM_STATUS | CAP_FCM_AREA | CAP_SPILL_BASE | CAP_SPILL_SIZE | CAP_FCM_PTR | CAP_SPILL_PTR | CAP_DELIV 
  | CAP_RSEQ | CAP_QUEUE | CAP_SHUT_CFG | CAP_SHUT_CH0 | CAP_SHUT_CH1 | CAP_SHUT_STATUS | CAP_SHUT_RAW_BASE 
  | CAP_SHUT_RAW_SIZE | CAP_SHUT_RAW_PTR | CAP_SHUT_RAW_DROP | CAP_SHUT_SUM | CAP_SHUT_HIST | DSP_CFG 
  | DSP_STATUS | DSP_STALL | DSP_ECC | DSP_WARD | DSP_CTX_STATUS | DSP_CTX_GRAPH | DSP_CTX_JSEQ | DSP_CTX_POSTS 
  | DSP_SLOT | AC_STATUS | AC_TRAP | AC_TRAP_PC | AC_TRAP_VAL | AC_LM_ECC | AC_RUNS | AC_BUSY | MEM_CFG 
  | MEM_STATUS | MEM_SRAM_ECC | MEM_RANGE_ERR | DRC_CFG | DRC_CTRL | DRC_STATUS | DRC_ECC | DRC_STAT 
  | DRC_TRAIN_CA | DRC_TRAIN_DQ | LN_CFG | LN_STATUS | LN_ERR | LN_EQ | LN_TEST | LN_PRBS | LN_PRBS_BITS 
  | LN_EYE_CTRL | LN_EYE_RESULT | LN_GRP_STATUS | LN_GRP_CFG | TB_CFG | TB_SERVO | TB_LIMITS | TB_ASYM | TB_CTRL 
  | TB_STATUS | TB_TIME_LO | TB_TIME_HI | TB_RATE | TB_OFFSET | TB_PATH | TB_SLEW | TB_COUNTS | TB_REFCLK 
  | TB_TRIG_CFG | TB_TRIG_DELAY | TB_TRIG_PERIOD | TB_TRIG_STATUS | TB_TRIG_NEXT_LO | TB_TRIG_NEXT_HI 
  | TIM_IN_CFG | TIM_CFG | TIM_BCOUNT | TIM_STATUS | TIM_LAST | TIM_MIN | TIM_MAX | TIM_SUM | TIM_SUMSQ_LO 
  | TIM_SUMSQ_HI | TIM_MEAN | TIM_SD | TIM_COUNTS | ADC_STATUS | ADC_COUNTS | ADC_CORR | ACQ_CFG | ACQ_CTRL 
  | ACQ_STATUS | ACQ_PTR | ACQ_COUNTS | THM_CFG | THM_LIMITS | THM_BAND | THM_STATUS | THM_MODEL | THM_TS_CFG 
  | THM_TEMP | CAL_CFG | CAL_STATUS | CAL_ADC_Q | CAL_LN_Q | CAL_CH_TAB | CAL_CH_USER | CAL_CH_NOW | FLT_STATUS 
  | FLT_SUMMARY | FLT_STORM | FLT_CTRL | FLT_CFG | FLT_FE | FLT_FE_STAMP_LO | FLT_FE_STAMP_HI | FLT_LOG_PTR 
  | FLT_LOG_INFO | FLT_LOG_STAMP_LO | FLT_LOG_STAMP_HI | FLT_GRP_REAL | FLT_GRP_FORCED | FLT_GRP_CONSEQ 
  | FLT_GRP_CNT | FLT_REACT | FLT_RAISE | JNL_HEAD | JNL_STATUS | JNL_WEAR | JNL_RA | JNL_REC | TWN_CFG 
  | TWN_STATUS | TWN_CKPT | TWN_MIRROR | TWN_COUNTS | PWR_CFG | CLK_EN | CLK_KEEP | CLK_CLASS | CLK_ON 
  | CLK_PLL_STATUS | RST_STATUS | RST_CTRL | RST_UNIT_PS | RST_UNIT_CB | RST_UNIT_VS | RST_UNIT_AC | RST_IDENT 
  | RST_SERIAL | RST_FW 
deriving DecidableEq, Repr

/-- One register: instance 0's address, the count and stride of each instance index, its owner and fields. -/
structure RegDesc where
  name : RegName
  base : Nat
  dims : List (Nat × Nat)
  own : Owner
  flds : List Fld
deriving DecidableEq, Repr

/-- A field that is the whole range of its encodings. -/
def fld (hi lo : Nat) (a : Access) (r : Nat) : Fld := ⟨hi, lo, a, r, 0, 2 ^ (hi + 1 - lo) - 1⟩

/-- A field with reserved encodings outside `l..h` (R7). -/
def fldL (hi lo : Nat) (a : Access) (r l h : Nat) : Fld := ⟨hi, lo, a, r, l, h⟩

/-! ### Registers of 02_townplan.md -/

def JNL_PLAN_STATUS : Nat := 0x0E080000
def JNL_PLAN_STATUS_SEALED : FRef := ⟨JNL_PLAN_STATUS, 0, 0⟩
def JNL_PLAN_STATUS_PENDING : FRef := ⟨JNL_PLAN_STATUS, 1, 1⟩
def JNL_PLAN_STATUS_RETIRED : FRef := ⟨JNL_PLAN_STATUS, 2, 2⟩
def JNL_PLAN_STATUS_ACTIVE_SLOT : FRef := ⟨JNL_PLAN_STATUS, 3, 3⟩
def JNL_PLAN_STATUS_STAGE : FRef := ⟨JNL_PLAN_STATUS, 6, 4⟩
def JNL_PLAN_STATUS_SIGNED : FRef := ⟨JNL_PLAN_STATUS, 7, 7⟩
def JNL_PLAN_STATUS_REQUIRE_SIG : FRef := ⟨JNL_PLAN_STATUS, 8, 8⟩
def JNL_PLAN_STATUS_KEY0_VALID : FRef := ⟨JNL_PLAN_STATUS, 9, 9⟩
def JNL_PLAN_STATUS_KEY1_VALID : FRef := ⟨JNL_PLAN_STATUS, 10, 10⟩
def JNL_PLAN_STATUS_RESTORE_FAIL : FRef := ⟨JNL_PLAN_STATUS, 11, 11⟩
def JNL_PLAN_STATUS_CODE : FRef := ⟨JNL_PLAN_STATUS, 23, 16⟩
def JNL_PLAN_DIAG : Nat := 0x0E080008
def JNL_PLAN_DIAG_CODE : FRef := ⟨JNL_PLAN_DIAG, 7, 0⟩
def JNL_PLAN_DIAG_SECTION : FRef := ⟨JNL_PLAN_DIAG, 15, 8⟩
def JNL_PLAN_DIAG_OFFSET : FRef := ⟨JNL_PLAN_DIAG, 47, 16⟩
def JNL_PLAN_ID : Nat := 0x0E080010
def JNL_PLAN_ID_PLAN_ID : FRef := ⟨JNL_PLAN_ID, 63, 0⟩
def JNL_PLAN_PENDING_ID : Nat := 0x0E080018
def JNL_PLAN_PENDING_ID_PLAN_ID : FRef := ⟨JNL_PLAN_PENDING_ID, 63, 0⟩
def JNL_PLAN_CRC : Nat := 0x0E080020
def JNL_PLAN_CRC_SEALED_CRC : FRef := ⟨JNL_PLAN_CRC, 31, 0⟩
def JNL_PLAN_CRC_PENDING_CRC : FRef := ⟨JNL_PLAN_CRC, 63, 32⟩
def JNL_PLAN_SEALS : Nat := 0x0E080028
def JNL_PLAN_SEALS_COUNT : FRef := ⟨JNL_PLAN_SEALS, 31, 0⟩
/-! ### Registers of 03_link_and_wards.md -/

def LNK_PORT_STATUS (i : Nat) : Nat := 0x01000000 + i * 0x1000
def LNK_PORT_STATUS_STATE (i : Nat) : FRef := ⟨LNK_PORT_STATUS i, 1, 0⟩
def LNK_PORT_STATUS_WIDTH (i : Nat) : FRef := ⟨LNK_PORT_STATUS i, 3, 2⟩
def LNK_PORT_STATUS_RATE (i : Nat) : FRef := ⟨LNK_PORT_STATUS i, 6, 4⟩
def LNK_PORT_STATUS_WARD (i : Nat) : FRef := ⟨LNK_PORT_STATUS i, 11, 8⟩
def LNK_PORT_STATUS_REPLAYS (i : Nat) : FRef := ⟨LNK_PORT_STATUS i, 31, 16⟩
def LNK_PORT_CFG (i : Nat) : Nat := 0x01000008 + i * 0x1000
def LNK_PORT_CFG_ACK_TIMEOUT (i : Nat) : FRef := ⟨LNK_PORT_CFG i, 7, 0⟩
def LNK_PORT_CFG_REPLAY_LIMIT (i : Nat) : FRef := ⟨LNK_PORT_CFG i, 11, 8⟩
def LNK_PORT_CFG_LINK_HOLD (i : Nat) : FRef := ⟨LNK_PORT_CFG i, 31, 16⟩
def LNK_PORT_CREDIT (i : Nat) : Nat := 0x01000010 + i * 0x1000
def LNK_PORT_CREDIT_DEV_HDR (i : Nat) : FRef := ⟨LNK_PORT_CREDIT i, 7, 0⟩
def LNK_PORT_CREDIT_DEV_DATA (i : Nat) : FRef := ⟨LNK_PORT_CREDIT i, 17, 8⟩
def LNK_PORT_CREDIT_HOST_HDR (i : Nat) : FRef := ⟨LNK_PORT_CREDIT i, 31, 24⟩
def LNK_PORT_CREDIT_HOST_DATA (i : Nat) : FRef := ⟨LNK_PORT_CREDIT i, 43, 32⟩
def LNK_PORT_ERR (i : Nat) : Nat := 0x01000018 + i * 0x1000
def LNK_PORT_ERR_CRC_ERR (i : Nat) : FRef := ⟨LNK_PORT_ERR i, 15, 0⟩
def LNK_PORT_ERR_SEQ_ERR (i : Nat) : FRef := ⟨LNK_PORT_ERR i, 31, 16⟩
def LNK_PORT_ERR_CRD_VIOL (i : Nat) : FRef := ⟨LNK_PORT_ERR i, 47, 32⟩
def LNK_PORT_ERR_DOWNS (i : Nat) : FRef := ⟨LNK_PORT_ERR i, 63, 48⟩
def LNK_FCP_CFG (i : Nat) : Nat := 0x01008000 + i * 0x8
def LNK_FCP_CFG_SCK_DIV (i : Nat) : FRef := ⟨LNK_FCP_CFG i, 7, 0⟩
def LNK_FCP_CFG_BUSY (i : Nat) : FRef := ⟨LNK_FCP_CFG i, 8, 8⟩
def WRD_STATUS (i : Nat) : Nat := 0x01100000 + i * 0x10000
def WRD_STATUS_ENABLED (i : Nat) : FRef := ⟨WRD_STATUS i, 0, 0⟩
def WRD_STATUS_PORT (i : Nat) : FRef := ⟨WRD_STATUS i, 2, 1⟩
def WRD_STATUS_PORT_UP (i : Nat) : FRef := ⟨WRD_STATUS i, 3, 3⟩
def WRD_STATUS_EVT_DEPTH (i : Nat) : FRef := ⟨WRD_STATUS i, 20, 8⟩
def WRD_STATUS_EVT_LOST (i : Nat) : FRef := ⟨WRD_STATUS i, 47, 32⟩
def WRD_REFUSED (i : Nat) : Nat := 0x01100008 + i * 0x10000
def WRD_REFUSED_COUNT (i : Nat) : FRef := ⟨WRD_REFUSED i, 31, 0⟩
def WRD_REFUSED_LAST_STATUS (i : Nat) : FRef := ⟨WRD_REFUSED i, 39, 32⟩
def WRD_REFUSED_LAST_QUEUE (i : Nat) : FRef := ⟨WRD_REFUSED i, 42, 40⟩
def WRD_QSTATUS (i : Nat) (j : Nat) : Nat := 0x01100100 + i * 0x10000 + j * 0x8
def WRD_QSTATUS_DEPTH (i : Nat) (j : Nat) : FRef := ⟨WRD_QSTATUS i j, 9, 0⟩
def WRD_QSTATUS_LAST_TAG (i : Nat) (j : Nat) : FRef := ⟨WRD_QSTATUS i j, 31, 16⟩
def WRD_QCTL (i : Nat) (j : Nat) : Nat := 0x01100200 + i * 0x10000 + j * 0x8
def WRD_QCTL_HALT (i : Nat) (j : Nat) : FRef := ⟨WRD_QCTL i j, 0, 0⟩
def WRD_QCTL_FLUSH (i : Nat) (j : Nat) : FRef := ⟨WRD_QCTL i j, 1, 1⟩
/-! ### Registers of 04_pattern_sequencers.md -/

def PS_STATUS (i : Nat) : Nat := 0x02000000 + i * 0x100000
def PS_STATUS_STATE (i : Nat) : FRef := ⟨PS_STATUS i, 2, 0⟩
def PS_STATUS_SHADOW (i : Nat) : FRef := ⟨PS_STATUS i, 3, 3⟩
def PS_STATUS_HELD (i : Nat) : FRef := ⟨PS_STATUS i, 4, 4⟩
def PS_STATUS_RESTARTABLE (i : Nat) : FRef := ⟨PS_STATUS i, 5, 5⟩
def PS_STATUS_BEATMODE (i : Nat) : FRef := ⟨PS_STATUS i, 6, 6⟩
def PS_STATUS_PC (i : Nat) : FRef := ⟨PS_STATUS i, 20, 8⟩
def PS_STATUS_ENTRY (i : Nat) : FRef := ⟨PS_STATUS i, 36, 24⟩
def PS_STATUS_Z (i : Nat) : FRef := ⟨PS_STATUS i, 40, 40⟩
def PS_STATUS_N (i : Nat) : FRef := ⟨PS_STATUS i, 41, 41⟩
def PS_STATUS_C (i : Nat) : FRef := ⟨PS_STATUS i, 42, 42⟩
def PS_STATUS_SFAIL (i : Nat) : FRef := ⟨PS_STATUS i, 43, 43⟩
def PS_STATUS_SP (i : Nat) : FRef := ⟨PS_STATUS i, 48, 44⟩
def PS_STATUS_SQ (i : Nat) : FRef := ⟨PS_STATUS i, 54, 49⟩
def PS_CTRL (i : Nat) : Nat := 0x02000008 + i * 0x100000
def PS_CTRL_STOP (i : Nat) : FRef := ⟨PS_CTRL i, 0, 0⟩
def PS_CTRL_KILL (i : Nat) : FRef := ⟨PS_CTRL i, 1, 1⟩
def PS_CTRL_PAUSE (i : Nat) : FRef := ⟨PS_CTRL i, 2, 2⟩
def PS_CTRL_RESUME (i : Nat) : FRef := ⟨PS_CTRL i, 3, 3⟩
def PS_CTRL_STEP (i : Nat) : FRef := ⟨PS_CTRL i, 4, 4⟩
def PS_CTRL_HOSTF (i : Nat) : FRef := ⟨PS_CTRL i, 11, 8⟩
def PS_BURST (i : Nat) : Nat := 0x02000010 + i * 0x100000
def PS_BURST_JSEQ (i : Nat) : FRef := ⟨PS_BURST i, 63, 0⟩
def PS_BURST_END (i : Nat) : Nat := 0x02000018 + i * 0x100000
def PS_BURST_END_CAUSE (i : Nat) : FRef := ⟨PS_BURST_END i, 2, 0⟩
def PS_BURST_END_PC (i : Nat) : FRef := ⟨PS_BURST_END i, 20, 8⟩
def PS_BEATS (i : Nat) : Nat := 0x02000020 + i * 0x100000
def PS_BEATS_BEATS (i : Nat) : FRef := ⟨PS_BEATS i, 63, 0⟩
def PS_CS_ECC (i : Nat) : Nat := 0x02000028 + i * 0x100000
def PS_CS_ECC_CORR (i : Nat) : FRef := ⟨PS_CS_ECC i, 15, 0⟩
def PS_CS_ECC_CORR_ADDR (i : Nat) : FRef := ⟨PS_CS_ECC i, 28, 16⟩
def PS_CS_ECC_UE (i : Nat) : FRef := ⟨PS_CS_ECC i, 29, 29⟩
def PS_CS_ECC_UE_ADDR (i : Nat) : FRef := ⟨PS_CS_ECC i, 44, 32⟩
def PS_FAULT (i : Nat) : Nat := 0x02000030 + i * 0x100000
def PS_FAULT_CAUSE (i : Nat) : FRef := ⟨PS_FAULT i, 7, 0⟩
def PS_FAULT_ADDR (i : Nat) : FRef := ⟨PS_FAULT i, 20, 8⟩
def PS_DBG (i : Nat) : Nat := 0x02000038 + i * 0x100000
def PS_DBG_BRK_EN (i : Nat) : FRef := ⟨PS_DBG i, 0, 0⟩
def PS_DBG_TRACE_EN (i : Nat) : FRef := ⟨PS_DBG i, 1, 1⟩
def PS_DBG_BP_EN (i : Nat) : FRef := ⟨PS_DBG i, 2, 2⟩
def PS_DBG_BP_ADDR (i : Nat) : FRef := ⟨PS_DBG i, 28, 16⟩
def PS_TRACE_PTR (i : Nat) : Nat := 0x02000040 + i * 0x100000
def PS_TRACE_PTR_NEXT (i : Nat) : FRef := ⟨PS_TRACE_PTR i, 9, 0⟩
def PS_TRACE_PTR_WRAPPED (i : Nat) : FRef := ⟨PS_TRACE_PTR i, 10, 10⟩
def PS_TRACE (i : Nat) (j : Nat) : Nat := 0x02002000 + i * 0x100000 + j * 0x8
def PS_TRACE_PC (i : Nat) (j : Nat) : FRef := ⟨PS_TRACE i j, 12, 0⟩
def PS_TRACE_USER (i : Nat) (j : Nat) : FRef := ⟨PS_TRACE i j, 26, 13⟩
def PS_TRACE_SILENT (i : Nat) (j : Nat) : FRef := ⟨PS_TRACE i j, 27, 27⟩
def PS_TRACE_COMMIT (i : Nat) (j : Nat) : FRef := ⟨PS_TRACE i j, 28, 28⟩
def PS_TRACE_BEAT (i : Nat) (j : Nat) : FRef := ⟨PS_TRACE i j, 63, 32⟩
def PS_CKPT (i : Nat) : Nat := 0x02000048 + i * 0x100000
def PS_CKPT_SQ (i : Nat) : FRef := ⟨PS_CKPT i, 5, 0⟩
def PS_CKPT_VALID (i : Nat) : FRef := ⟨PS_CKPT i, 6, 6⟩
def PS_CKPT_AT_ENTRY (i : Nat) : FRef := ⟨PS_CKPT i, 7, 7⟩
def PS_CKPT_BEAT (i : Nat) : FRef := ⟨PS_CKPT i, 63, 16⟩
def PS_GR (i : Nat) (j : Nat) : Nat := 0x02000100 + i * 0x100000 + j * 0x8
def PS_GR_VALUE (i : Nat) (j : Nat) : FRef := ⟨PS_GR i j, 63, 0⟩
def PS_LC (i : Nat) (j : Nat) : Nat := 0x02000180 + i * 0x100000 + j * 0x8
def PS_LC_COUNT (i : Nat) (j : Nat) : FRef := ⟨PS_LC i j, 23, 0⟩
def PS_LC_RELOAD (i : Nat) (j : Nat) : FRef := ⟨PS_LC i j, 55, 32⟩
def PS_STACK (i : Nat) (j : Nat) : Nat := 0x02000200 + i * 0x100000 + j * 0x8
def PS_STACK_RETURN (i : Nat) (j : Nat) : FRef := ⟨PS_STACK i j, 12, 0⟩
def PS_PERIOD (i : Nat) (j : Nat) : Nat := 0x02000800 + i * 0x100000 + j * 0x8
def PS_PERIOD_PERIOD (i : Nat) (j : Nat) : FRef := ⟨PS_PERIOD i j, 31, 0⟩
def PS_SQ_ENROL (i : Nat) : Nat := 0x020C0000 + i * 0x20
def PS_SQ_ENROL_SEQ (i : Nat) : FRef := ⟨PS_SQ_ENROL i, 31, 0⟩
def PS_SQ_ENROL_VS (i : Nat) : FRef := ⟨PS_SQ_ENROL i, 47, 32⟩
def PS_SQ_ENROL_GLOBAL (i : Nat) : FRef := ⟨PS_SQ_ENROL i, 48, 48⟩
def PS_SQ_ENROL_NOTIFY (i : Nat) : FRef := ⟨PS_SQ_ENROL i, 49, 49⟩
def PS_SQ_TRIG (i : Nat) : Nat := 0x020C0008 + i * 0x20
def PS_SQ_TRIG_TRIG (i : Nat) : FRef := ⟨PS_SQ_TRIG i, 31, 0⟩
def PS_SQ_STATUS (i : Nat) : Nat := 0x020C0010 + i * 0x20
def PS_SQ_STATUS_SEQ_ARR (i : Nat) : FRef := ⟨PS_SQ_STATUS i, 31, 0⟩
def PS_SQ_STATUS_VS_ARR (i : Nat) : FRef := ⟨PS_SQ_STATUS i, 47, 32⟩
def PS_SQ_STATUS_RING_ARR (i : Nat) : FRef := ⟨PS_SQ_STATUS i, 48, 48⟩
def PS_SQ_STATUS_TRIG_ARR (i : Nat) : FRef := ⟨PS_SQ_STATUS i, 49, 49⟩
def PS_SQ_STATUS_FIXED (i : Nat) : FRef := ⟨PS_SQ_STATUS i, 50, 50⟩
def PS_SQ_COUNT (i : Nat) : Nat := 0x020C0018 + i * 0x20
def PS_SQ_COUNT_RELEASES (i : Nat) : FRef := ⟨PS_SQ_COUNT i, 31, 0⟩
def PS_SQ_COUNT_MISSES (i : Nat) : FRef := ⟨PS_SQ_COUNT i, 47, 32⟩
def PS_SQ_CTRL : Nat := 0x020C0800
def PS_SQ_CTRL_LOCAL_LEAD : FRef := ⟨PS_SQ_CTRL, 31, 0⟩
def PS_SQ_CTRL_GLOBAL_LEAD : FRef := ⟨PS_SQ_CTRL, 63, 32⟩
/-! ### Registers of 05_algorithmic_patterns.md -/

def APG_CFG (i : Nat) : Nat := 0x02040000 + i * 0x100000
def APG_CFG_CHAIN (i : Nat) : FRef := ⟨APG_CFG i, 0, 0⟩
def APG_CFG_XBM (i : Nat) : FRef := ⟨APG_CFG i, 2, 1⟩
def APG_CFG_YBM (i : Nat) : FRef := ⟨APG_CFG i, 4, 3⟩
def APG_CFG_ZBM (i : Nat) : FRef := ⟨APG_CFG i, 6, 5⟩
def APG_CFG_DWIDTH (i : Nat) : FRef := ⟨APG_CFG i, 14, 8⟩
def APG_CFG_DLAT (i : Nat) : FRef := ⟨APG_CFG i, 19, 16⟩
def APG_X (i : Nat) : Nat := 0x02040008 + i * 0x100000
def APG_X_VALUE (i : Nat) : FRef := ⟨APG_X i, 23, 0⟩
def APG_X_DIR (i : Nat) : FRef := ⟨APG_X i, 24, 24⟩
def APG_XA (i : Nat) : Nat := 0x02040010 + i * 0x100000
def APG_XA_VALUE (i : Nat) : FRef := ⟨APG_XA i, 23, 0⟩
def APG_XLIM (i : Nat) : Nat := 0x02040018 + i * 0x100000
def APG_XLIM_LO (i : Nat) : FRef := ⟨APG_XLIM i, 23, 0⟩
def APG_XLIM_HI (i : Nat) : FRef := ⟨APG_XLIM i, 55, 32⟩
def APG_XINC (i : Nat) : Nat := 0x02040020 + i * 0x100000
def APG_XINC_INC (i : Nat) : FRef := ⟨APG_XINC i, 23, 0⟩
def APG_XINC_CMASK (i : Nat) : FRef := ⟨APG_XINC i, 55, 32⟩
def APG_Y (i : Nat) : Nat := 0x02040028 + i * 0x100000
def APG_Y_VALUE (i : Nat) : FRef := ⟨APG_Y i, 23, 0⟩
def APG_Y_DIR (i : Nat) : FRef := ⟨APG_Y i, 24, 24⟩
def APG_YA (i : Nat) : Nat := 0x02040030 + i * 0x100000
def APG_YA_VALUE (i : Nat) : FRef := ⟨APG_YA i, 23, 0⟩
def APG_YLIM (i : Nat) : Nat := 0x02040038 + i * 0x100000
def APG_YLIM_LO (i : Nat) : FRef := ⟨APG_YLIM i, 23, 0⟩
def APG_YLIM_HI (i : Nat) : FRef := ⟨APG_YLIM i, 55, 32⟩
def APG_YINC (i : Nat) : Nat := 0x02040040 + i * 0x100000
def APG_YINC_INC (i : Nat) : FRef := ⟨APG_YINC i, 23, 0⟩
def APG_YINC_CMASK (i : Nat) : FRef := ⟨APG_YINC i, 55, 32⟩
def APG_Z (i : Nat) : Nat := 0x02040048 + i * 0x100000
def APG_Z_VALUE (i : Nat) : FRef := ⟨APG_Z i, 7, 0⟩
def APG_Z_DIR (i : Nat) : FRef := ⟨APG_Z i, 8, 8⟩
def APG_ZA (i : Nat) : Nat := 0x02040050 + i * 0x100000
def APG_ZA_VALUE (i : Nat) : FRef := ⟨APG_ZA i, 7, 0⟩
def APG_ZLIM (i : Nat) : Nat := 0x02040058 + i * 0x100000
def APG_ZLIM_LO (i : Nat) : FRef := ⟨APG_ZLIM i, 7, 0⟩
def APG_ZLIM_HI (i : Nat) : FRef := ⟨APG_ZLIM i, 39, 32⟩
def APG_ZINC (i : Nat) : Nat := 0x02040060 + i * 0x100000
def APG_ZINC_INC (i : Nat) : FRef := ⟨APG_ZINC i, 7, 0⟩
def APG_ZINC_CMASK (i : Nat) : FRef := ⟨APG_ZINC i, 39, 32⟩
def APG_D (i : Nat) : Nat := 0x02040068 + i * 0x100000
def APG_D_VALUE (i : Nat) : FRef := ⟨APG_D i, 63, 0⟩
def APG_DB (i : Nat) (j : Nat) : Nat := 0x02040070 + i * 0x100000 + j * 0x8
def APG_DB_VALUE (i : Nat) (j : Nat) : FRef := ⟨APG_DB i j, 63, 0⟩
def APG_DPOLY (i : Nat) : Nat := 0x02040090 + i * 0x100000
def APG_DPOLY_POLY (i : Nat) : FRef := ⟨APG_DPOLY i, 63, 0⟩
def APG_DCMP (i : Nat) : Nat := 0x02040098 + i * 0x100000
def APG_DCMP_VALUE (i : Nat) : FRef := ⟨APG_DCMP i, 63, 0⟩
def APG_ASCR (i : Nat) (j : Nat) : Nat := 0x02040100 + i * 0x100000 + j * 0x8
def APG_ASCR_ROW (i : Nat) (j : Nat) : FRef := ⟨APG_ASCR i j, 55, 0⟩
def APG_DSCR (i : Nat) (j : Nat) : Nat := 0x02040300 + i * 0x100000 + j * 0x8
def APG_DSCR_ROW (i : Nat) (j : Nat) : FRef := ⟨APG_DSCR i j, 55, 0⟩
def APG_XMAP (i : Nat) (j : Nat) : Nat := 0x02060000 + i * 0x400 + j * 0x8
def APG_XMAP_ENTRY (i : Nat) (j : Nat) : FRef := ⟨APG_XMAP i j, 62, 0⟩
def APG_PINMASK (i : Nat) : Nat := 0x02064000 + i * 0x8
def APG_PINMASK_MASK (i : Nat) : FRef := ⟨APG_PINMASK i, 63, 0⟩
/-! ### Registers of 06_vector_streams.md -/

def VS_STATUS (i : Nat) : Nat := 0x04000000 + i * 0x1000
def VS_STATUS_STATE (i : Nat) : FRef := ⟨VS_STATUS i, 2, 0⟩
def VS_STATUS_PRIMED (i : Nat) : FRef := ⟨VS_STATUS i, 3, 3⟩
def VS_STATUS_BOUND (i : Nat) : FRef := ⟨VS_STATUS i, 4, 4⟩
def VS_STATUS_SEQ (i : Nat) : FRef := ⟨VS_STATUS i, 9, 5⟩
def VS_STATUS_SRC_VB (i : Nat) : FRef := ⟨VS_STATUS i, 10, 10⟩
def VS_STATUS_UNDERRUN (i : Nat) : FRef := ⟨VS_STATUS i, 11, 11⟩
def VS_STATUS_DICT_REDEF (i : Nat) : FRef := ⟨VS_STATUS i, 12, 12⟩
def VS_STATUS_LOOP_DEPTH (i : Nat) : FRef := ⟨VS_STATUS i, 18, 16⟩
def VS_STATUS_SQ (i : Nat) : FRef := ⟨VS_STATUS i, 29, 24⟩
def VS_CFG (i : Nat) : Nat := 0x04000008 + i * 0x1000
def VS_CFG_PANIC_LEVEL (i : Nat) : FRef := ⟨VS_CFG i, 7, 0⟩
def VS_CFG_UR_TIMEOUT (i : Nat) : FRef := ⟨VS_CFG i, 23, 8⟩
def VS_POS (i : Nat) : Nat := 0x04000010 + i * 0x1000
def VS_POS_OFFSET (i : Nat) : FRef := ⟨VS_POS i, 39, 0⟩
def VS_LEVEL (i : Nat) : Nat := 0x04000018 + i * 0x1000
def VS_LEVEL_RING (i : Nat) : FRef := ⟨VS_LEVEL i, 22, 0⟩
def VS_LEVEL_QUEUE (i : Nat) : FRef := ⟨VS_LEVEL i, 37, 32⟩
def VS_COUNT (i : Nat) : Nat := 0x04000020 + i * 0x1000
def VS_COUNT_SETS (i : Nat) : FRef := ⟨VS_COUNT i, 47, 0⟩
def VS_UR (i : Nat) : Nat := 0x04000028 + i * 0x1000
def VS_UR_HOLDS (i : Nat) : FRef := ⟨VS_UR i, 31, 0⟩
def VS_UR_EPISODES (i : Nat) : FRef := ⟨VS_UR i, 47, 32⟩
def VS_ERR (i : Nat) : Nat := 0x04000030 + i * 0x1000
def VS_ERR_CODE (i : Nat) : FRef := ⟨VS_ERR i, 7, 0⟩
def VS_ERR_OFFSET (i : Nat) : FRef := ⟨VS_ERR i, 47, 8⟩
def VS_CKPT (i : Nat) : Nat := 0x04000038 + i * 0x1000
def VS_CKPT_OFFSET (i : Nat) : FRef := ⟨VS_CKPT i, 39, 0⟩
def VS_CKPT_VALID (i : Nat) : FRef := ⟨VS_CKPT i, 40, 40⟩
def VS_CKPT_AT_ENTRY (i : Nat) : FRef := ⟨VS_CKPT i, 41, 41⟩
def VS_CKPT_SQ (i : Nat) : FRef := ⟨VS_CKPT i, 47, 42⟩
def VS_CKPT_QUEUED (i : Nat) : FRef := ⟨VS_CKPT i, 53, 48⟩
def VS_CKPT_LOOP (i : Nat) (j : Nat) : Nat := 0x04000040 + i * 0x1000 + j * 0x8
def VS_CKPT_LOOP_START (i : Nat) (j : Nat) : FRef := ⟨VS_CKPT_LOOP i j, 39, 0⟩
def VS_CKPT_LOOP_REMAIN (i : Nat) (j : Nat) : FRef := ⟨VS_CKPT_LOOP i j, 63, 40⟩
def VS_ARM_SRC (i : Nat) : Nat := 0x04000060 + i * 0x1000
def VS_ARM_SRC_STREAM_OFF (i : Nat) : FRef := ⟨VS_ARM_SRC i, 39, 0⟩
def VS_ARM_LEN (i : Nat) : Nat := 0x04000068 + i * 0x1000
def VS_ARM_LEN_STREAM_LEN (i : Nat) : FRef := ⟨VS_ARM_LEN i, 39, 0⟩
def VS_ARM_RING (i : Nat) : Nat := 0x04000070 + i * 0x1000
def VS_ARM_RING_RING_OFF (i : Nat) : FRef := ⟨VS_ARM_RING i, 23, 0⟩
def VS_ARM_RING_RING_SIZE (i : Nat) : FRef := ⟨VS_ARM_RING i, 47, 24⟩
def VS_ARM_DICT (i : Nat) : Nat := 0x04000078 + i * 0x1000
def VS_ARM_DICT_DICT_OFF (i : Nat) : FRef := ⟨VS_ARM_DICT i, 23, 0⟩
def VS_ARM_DICT_DICT_ENTRIES (i : Nat) : FRef := ⟨VS_ARM_DICT i, 36, 24⟩
/-! ### Registers of 07_timing_and_edges.md -/

def CH_CFG (i : Nat) : Nat := 0x05000000 + i * 0x10000
def CH_CFG_END_HOLD (i : Nat) : FRef := ⟨CH_CFG i, 0, 0⟩
def CH_CFG_DRV_REST (i : Nat) : FRef := ⟨CH_CFG i, 1, 1⟩
def CH_CFG_DISABLE (i : Nat) : FRef := ⟨CH_CFG i, 2, 2⟩
def CH_STATUS (i : Nat) : Nat := 0x05000008 + i * 0x10000
def CH_STATUS_DRV (i : Nat) : FRef := ⟨CH_STATUS i, 0, 0⟩
def CH_STATUS_DEN (i : Nat) : FRef := ⟨CH_STATUS i, 1, 1⟩
def CH_STATUS_SPILL (i : Nat) : FRef := ⟨CH_STATUS i, 13, 8⟩
def CH_VIOL (i : Nat) : Nat := 0x05000010 + i * 0x10000
def CH_VIOL_COUNT (i : Nat) : FRef := ⟨CH_VIOL i, 31, 0⟩
def CH_VIOL_FIRST (i : Nat) : Nat := 0x05000018 + i * 0x10000
def CH_VIOL_FIRST_BEAT (i : Nat) : FRef := ⟨CH_VIOL_FIRST i, 47, 0⟩
def CH_VIOL_FIRST_SLOT (i : Nat) : FRef := ⟨CH_VIOL_FIRST i, 50, 48⟩
def CH_VIOL_FIRST_CAUSE (i : Nat) : FRef := ⟨CH_VIOL_FIRST i, 55, 52⟩
def CH_VIOL_FIRST_UI (i : Nat) : FRef := ⟨CH_VIOL_FIRST i, 58, 56⟩
def CH_CB_STATUS (i : Nat) : Nat := 0x05004000 + i * 0x40000
def CH_CB_STATUS_STATE (i : Nat) : FRef := ⟨CH_CB_STATUS i, 1, 0⟩
def CH_CB_STATUS_OWNED (i : Nat) : FRef := ⟨CH_CB_STATUS i, 2, 2⟩
def CH_CB_STATUS_PERIOD_MIN (i : Nat) : FRef := ⟨CH_CB_STATUS i, 3, 3⟩
def CH_CB_STATUS_SEQ (i : Nat) : FRef := ⟨CH_CB_STATUS i, 12, 8⟩
def CH_CB_STATUS_TSET (i : Nat) : FRef := ⟨CH_CB_STATUS i, 23, 16⟩
def CH_CB_BEATS (i : Nat) : Nat := 0x05004008 + i * 0x40000
def CH_CB_BEATS_BEATS (i : Nat) : FRef := ⟨CH_CB_BEATS i, 63, 0⟩
def CH_CB_T0_LO (i : Nat) : Nat := 0x05004010 + i * 0x40000
def CH_CB_T0_LO_STAMP (i : Nat) : FRef := ⟨CH_CB_T0_LO i, 63, 0⟩
def CH_CB_T0_HI (i : Nat) : Nat := 0x05004018 + i * 0x40000
def CH_CB_T0_HI_STAMP (i : Nat) : FRef := ⟨CH_CB_T0_HI i, 31, 0⟩
def CH_CB_PMIN (i : Nat) : Nat := 0x05004020 + i * 0x40000
def CH_CB_PMIN_COUNT (i : Nat) : FRef := ⟨CH_CB_PMIN i, 31, 0⟩
def WT_ENTRY (i : Nat) (j : Nat) (k : Nat) : Nat := 0x05008000 + i * 0x10000 + j * 0x20 + k * 0x8
def WT_ENTRY_BITS (i : Nat) (j : Nat) (k : Nat) : FRef := ⟨WT_ENTRY i j k, 63, 0⟩
/-! ### Registers of 08_capture_and_fails.md -/

def CAP_CMP_CFG (i : Nat) : Nat := 0x06000000 + i * 0x10
def CAP_CMP_CFG_XCODE (i : Nat) : FRef := ⟨CAP_CMP_CFG i, 1, 0⟩
def CAP_CMP_CFG_POL_H (i : Nat) : FRef := ⟨CAP_CMP_CFG i, 2, 2⟩
def CAP_CMP_CFG_POL_L (i : Nat) : FRef := ⟨CAP_CMP_CFG i, 3, 3⟩
def CAP_CMP_CFG_SITE (i : Nat) : FRef := ⟨CAP_CMP_CFG i, 14, 8⟩
def CAP_CH_FAILS (i : Nat) : Nat := 0x06000008 + i * 0x10
def CAP_CH_FAILS_FAILS (i : Nat) : FRef := ⟨CAP_CH_FAILS i, 31, 0⟩
def CAP_CH_FAILS_WIN_ERR (i : Nat) : FRef := ⟨CAP_CH_FAILS i, 47, 32⟩
def CAP_SITE_LIMIT (i : Nat) : Nat := 0x06001000 + i * 0x20
def CAP_SITE_LIMIT_LIMIT (i : Nat) : FRef := ⟨CAP_SITE_LIMIT i, 31, 0⟩
def CAP_SITE_STATUS (i : Nat) : Nat := 0x06001008 + i * 0x20
def CAP_SITE_STATUS_FAILED (i : Nat) : FRef := ⟨CAP_SITE_STATUS i, 0, 0⟩
def CAP_SITE_STATUS_FLOODED (i : Nat) : FRef := ⟨CAP_SITE_STATUS i, 1, 1⟩
def CAP_SITE_STATUS_CAUSE (i : Nat) : FRef := ⟨CAP_SITE_STATUS i, 3, 2⟩
def CAP_SITE_STATUS_MARKER_LOST (i : Nat) : FRef := ⟨CAP_SITE_STATUS i, 4, 4⟩
def CAP_SITE_STATUS_SEQ (i : Nat) : FRef := ⟨CAP_SITE_STATUS i, 12, 8⟩
def CAP_SITE_STATUS_USED (i : Nat) : FRef := ⟨CAP_SITE_STATUS i, 13, 13⟩
def CAP_SITE_STATUS_RECORDS (i : Nat) : FRef := ⟨CAP_SITE_STATUS i, 63, 32⟩
def CAP_SITE_FAILS (i : Nat) : Nat := 0x06001010 + i * 0x20
def CAP_SITE_FAILS_UIS (i : Nat) : FRef := ⟨CAP_SITE_FAILS i, 47, 0⟩
def CAP_SITE_FIRST (i : Nat) : Nat := 0x06001018 + i * 0x20
def CAP_SITE_FIRST_BEAT (i : Nat) : FRef := ⟨CAP_SITE_FIRST i, 47, 0⟩
def CAP_SITE_FIRST_VALID (i : Nat) : FRef := ⟨CAP_SITE_FIRST i, 48, 48⟩
def CAP_ARM_STATUS (i : Nat) : Nat := 0x06002000 + i * 0x40
def CAP_ARM_STATUS_ARMED (i : Nat) : FRef := ⟨CAP_ARM_STATUS i, 0, 0⟩
def CAP_ARM_STATUS_HAS_CTX (i : Nat) : FRef := ⟨CAP_ARM_STATUS i, 1, 1⟩
def CAP_ARM_STATUS_SPILLED (i : Nat) : FRef := ⟨CAP_ARM_STATUS i, 2, 2⟩
def CAP_ARM_STATUS_CTX (i : Nat) : FRef := ⟨CAP_ARM_STATUS i, 25, 16⟩
def CAP_FCM_AREA (i : Nat) : Nat := 0x06002008 + i * 0x40
def CAP_FCM_AREA_OFF (i : Nat) : FRef := ⟨CAP_FCM_AREA i, 7, 0⟩
def CAP_FCM_AREA_SIZE (i : Nat) : FRef := ⟨CAP_FCM_AREA i, 15, 8⟩
def CAP_SPILL_BASE (i : Nat) : Nat := 0x06002010 + i * 0x40
def CAP_SPILL_BASE_OFF (i : Nat) : FRef := ⟨CAP_SPILL_BASE i, 35, 0⟩
def CAP_SPILL_SIZE (i : Nat) : Nat := 0x06002018 + i * 0x40
def CAP_SPILL_SIZE_SIZE (i : Nat) : FRef := ⟨CAP_SPILL_SIZE i, 35, 0⟩
def CAP_FCM_PTR (i : Nat) : Nat := 0x06002020 + i * 0x40
def CAP_FCM_PTR_WR (i : Nat) : FRef := ⟨CAP_FCM_PTR i, 31, 0⟩
def CAP_FCM_PTR_RD (i : Nat) : FRef := ⟨CAP_FCM_PTR i, 63, 32⟩
def CAP_SPILL_PTR (i : Nat) : Nat := 0x06002028 + i * 0x40
def CAP_SPILL_PTR_WR (i : Nat) : FRef := ⟨CAP_SPILL_PTR i, 31, 0⟩
def CAP_SPILL_PTR_RD (i : Nat) : FRef := ⟨CAP_SPILL_PTR i, 63, 32⟩
def CAP_DELIV (i : Nat) : Nat := 0x06002030 + i * 0x40
def CAP_DELIV_BEAT (i : Nat) : FRef := ⟨CAP_DELIV i, 47, 0⟩
def CAP_DELIV_VALID (i : Nat) : FRef := ⟨CAP_DELIV i, 48, 48⟩
def CAP_RSEQ (i : Nat) : Nat := 0x06002038 + i * 0x40
def CAP_RSEQ_NEXT (i : Nat) : FRef := ⟨CAP_RSEQ i, 31, 0⟩
def CAP_RSEQ_BATCHES (i : Nat) : FRef := ⟨CAP_RSEQ i, 63, 32⟩
def CAP_QUEUE : Nat := 0x06003000
def CAP_QUEUE_LEVEL : FRef := ⟨CAP_QUEUE, 10, 0⟩
def CAP_QUEUE_HIGH : FRef := ⟨CAP_QUEUE, 26, 16⟩
def CAP_QUEUE_DROPS : FRef := ⟨CAP_QUEUE, 63, 32⟩
def CAP_SHUT_CFG : Nat := 0x06004000
def CAP_SHUT_CFG_RAW : FRef := ⟨CAP_SHUT_CFG, 0, 0⟩
def CAP_SHUT_CFG_CMP : FRef := ⟨CAP_SHUT_CFG, 1, 1⟩
def CAP_SHUT_CFG_RAW_UI : FRef := ⟨CAP_SHUT_CFG, 4, 2⟩
def CAP_SHUT_CFG_STEP : FRef := ⟨CAP_SHUT_CFG, 15, 8⟩
def CAP_SHUT_CFG_OFFSET : FRef := ⟨CAP_SHUT_CFG, 39, 16⟩
def CAP_SHUT_CFG_COUNT : FRef := ⟨CAP_SHUT_CFG, 63, 40⟩
def CAP_SHUT_CH0 : Nat := 0x06004008
def CAP_SHUT_CH0_CH0 : FRef := ⟨CAP_SHUT_CH0, 6, 0⟩
def CAP_SHUT_CH0_EN0 : FRef := ⟨CAP_SHUT_CH0, 7, 7⟩
def CAP_SHUT_CH0_CH1 : FRef := ⟨CAP_SHUT_CH0, 14, 8⟩
def CAP_SHUT_CH0_EN1 : FRef := ⟨CAP_SHUT_CH0, 15, 15⟩
def CAP_SHUT_CH0_CH2 : FRef := ⟨CAP_SHUT_CH0, 22, 16⟩
def CAP_SHUT_CH0_EN2 : FRef := ⟨CAP_SHUT_CH0, 23, 23⟩
def CAP_SHUT_CH0_CH3 : FRef := ⟨CAP_SHUT_CH0, 30, 24⟩
def CAP_SHUT_CH0_EN3 : FRef := ⟨CAP_SHUT_CH0, 31, 31⟩
def CAP_SHUT_CH0_CH4 : FRef := ⟨CAP_SHUT_CH0, 38, 32⟩
def CAP_SHUT_CH0_EN4 : FRef := ⟨CAP_SHUT_CH0, 39, 39⟩
def CAP_SHUT_CH0_CH5 : FRef := ⟨CAP_SHUT_CH0, 46, 40⟩
def CAP_SHUT_CH0_EN5 : FRef := ⟨CAP_SHUT_CH0, 47, 47⟩
def CAP_SHUT_CH0_CH6 : FRef := ⟨CAP_SHUT_CH0, 54, 48⟩
def CAP_SHUT_CH0_EN6 : FRef := ⟨CAP_SHUT_CH0, 55, 55⟩
def CAP_SHUT_CH0_CH7 : FRef := ⟨CAP_SHUT_CH0, 62, 56⟩
def CAP_SHUT_CH0_EN7 : FRef := ⟨CAP_SHUT_CH0, 63, 63⟩
def CAP_SHUT_CH1 : Nat := 0x06004010
def CAP_SHUT_CH1_CH0 : FRef := ⟨CAP_SHUT_CH1, 6, 0⟩
def CAP_SHUT_CH1_EN0 : FRef := ⟨CAP_SHUT_CH1, 7, 7⟩
def CAP_SHUT_CH1_CH1 : FRef := ⟨CAP_SHUT_CH1, 14, 8⟩
def CAP_SHUT_CH1_EN1 : FRef := ⟨CAP_SHUT_CH1, 15, 15⟩
def CAP_SHUT_CH1_CH2 : FRef := ⟨CAP_SHUT_CH1, 22, 16⟩
def CAP_SHUT_CH1_EN2 : FRef := ⟨CAP_SHUT_CH1, 23, 23⟩
def CAP_SHUT_CH1_CH3 : FRef := ⟨CAP_SHUT_CH1, 30, 24⟩
def CAP_SHUT_CH1_EN3 : FRef := ⟨CAP_SHUT_CH1, 31, 31⟩
def CAP_SHUT_CH1_CH4 : FRef := ⟨CAP_SHUT_CH1, 38, 32⟩
def CAP_SHUT_CH1_EN4 : FRef := ⟨CAP_SHUT_CH1, 39, 39⟩
def CAP_SHUT_CH1_CH5 : FRef := ⟨CAP_SHUT_CH1, 46, 40⟩
def CAP_SHUT_CH1_EN5 : FRef := ⟨CAP_SHUT_CH1, 47, 47⟩
def CAP_SHUT_CH1_CH6 : FRef := ⟨CAP_SHUT_CH1, 54, 48⟩
def CAP_SHUT_CH1_EN6 : FRef := ⟨CAP_SHUT_CH1, 55, 55⟩
def CAP_SHUT_CH1_CH7 : FRef := ⟨CAP_SHUT_CH1, 62, 56⟩
def CAP_SHUT_CH1_EN7 : FRef := ⟨CAP_SHUT_CH1, 63, 63⟩
def CAP_SHUT_STATUS : Nat := 0x06004018
def CAP_SHUT_STATUS_STATE : FRef := ⟨CAP_SHUT_STATUS, 1, 0⟩
def CAP_SHUT_STATUS_ARM_ERR : FRef := ⟨CAP_SHUT_STATUS, 2, 2⟩
def CAP_SHUT_STATUS_SEQ : FRef := ⟨CAP_SHUT_STATUS, 12, 8⟩
def CAP_SHUT_STATUS_UIS : FRef := ⟨CAP_SHUT_STATUS, 47, 16⟩
def CAP_SHUT_RAW_BASE : Nat := 0x06004020
def CAP_SHUT_RAW_BASE_OFF : FRef := ⟨CAP_SHUT_RAW_BASE, 35, 0⟩
def CAP_SHUT_RAW_SIZE : Nat := 0x06004028
def CAP_SHUT_RAW_SIZE_SIZE : FRef := ⟨CAP_SHUT_RAW_SIZE, 35, 0⟩
def CAP_SHUT_RAW_PTR : Nat := 0x06004030
def CAP_SHUT_RAW_PTR_WR : FRef := ⟨CAP_SHUT_RAW_PTR, 31, 0⟩
def CAP_SHUT_RAW_PTR_RD : FRef := ⟨CAP_SHUT_RAW_PTR, 63, 32⟩
def CAP_SHUT_RAW_DROP : Nat := 0x06004038
def CAP_SHUT_RAW_DROP_DROPS : FRef := ⟨CAP_SHUT_RAW_DROP, 31, 0⟩
def CAP_SHUT_SUM (i : Nat) : Nat := 0x06004100 + i * 0x8
def CAP_SHUT_SUM_RMIN (i : Nat) : FRef := ⟨CAP_SHUT_SUM i, 4, 0⟩
def CAP_SHUT_SUM_RMAX (i : Nat) : FRef := ⟨CAP_SHUT_SUM i, 9, 5⟩
def CAP_SHUT_SUM_FMIN (i : Nat) : FRef := ⟨CAP_SHUT_SUM i, 14, 10⟩
def CAP_SHUT_SUM_FMAX (i : Nat) : FRef := ⟨CAP_SHUT_SUM i, 19, 15⟩
def CAP_SHUT_SUM_RVALID (i : Nat) : FRef := ⟨CAP_SHUT_SUM i, 20, 20⟩
def CAP_SHUT_SUM_FVALID (i : Nat) : FRef := ⟨CAP_SHUT_SUM i, 21, 21⟩
def CAP_SHUT_SUM_MULTI (i : Nat) : FRef := ⟨CAP_SHUT_SUM i, 63, 32⟩
def CAP_SHUT_HIST (i : Nat) (j : Nat) : Nat := 0x06008000 + i * 0x200 + j * 0x8
def CAP_SHUT_HIST_COUNT (i : Nat) (j : Nat) : FRef := ⟨CAP_SHUT_HIST i j, 31, 0⟩
/-! ### Registers of 09_analysis_and_dispatch.md -/

def DSP_CFG : Nat := 0x07000000
def DSP_CFG_AFFINITY_WAIT : FRef := ⟨DSP_CFG, 15, 0⟩
def DSP_CFG_OP_TIMEOUT : FRef := ⟨DSP_CFG, 47, 32⟩
def DSP_STATUS : Nat := 0x07000008
def DSP_STATUS_SLOTS_USED : FRef := ⟨DSP_STATUS, 13, 0⟩
def DSP_STATUS_FIFO_LEVEL : FRef := ⟨DSP_STATUS, 26, 16⟩
def DSP_STATUS_FIFO_HIGH : FRef := ⟨DSP_STATUS, 42, 32⟩
def DSP_STALL : Nat := 0x07000010
def DSP_STALL_CORE : FRef := ⟨DSP_STALL, 31, 0⟩
def DSP_STALL_POST : FRef := ⟨DSP_STALL, 63, 32⟩
def DSP_ECC : Nat := 0x07000018
def DSP_ECC_CORR : FRef := ⟨DSP_ECC, 15, 0⟩
def DSP_ECC_UE : FRef := ⟨DSP_ECC, 16, 16⟩
def DSP_ECC_UE_SLOT : FRef := ⟨DSP_ECC, 44, 32⟩
def DSP_WARD (i : Nat) : Nat := 0x07000100 + i * 0x8
def DSP_WARD_USED (i : Nat) : FRef := ⟨DSP_WARD i, 13, 0⟩
def DSP_WARD_QUOTA (i : Nat) : FRef := ⟨DSP_WARD i, 29, 16⟩
def DSP_CTX_STATUS (i : Nat) : Nat := 0x07080000 + i * 0x20
def DSP_CTX_STATUS_STATE (i : Nat) : FRef := ⟨DSP_CTX_STATUS i, 2, 0⟩
def DSP_CTX_STATUS_INBOX (i : Nat) : FRef := ⟨DSP_CTX_STATUS i, 10, 4⟩
def DSP_CTX_STATUS_LAST_LEFT (i : Nat) : FRef := ⟨DSP_CTX_STATUS i, 21, 16⟩
def DSP_CTX_STATUS_FAULT_STATUS (i : Nat) : FRef := ⟨DSP_CTX_STATUS i, 31, 24⟩
def DSP_CTX_STATUS_FAULT_OP (i : Nat) : FRef := ⟨DSP_CTX_STATUS i, 44, 32⟩
def DSP_CTX_STATUS_RUNNING (i : Nat) : FRef := ⟨DSP_CTX_STATUS i, 53, 48⟩
def DSP_CTX_GRAPH (i : Nat) : Nat := 0x07080008 + i * 0x20
def DSP_CTX_GRAPH_COUNT (i : Nat) : FRef := ⟨DSP_CTX_GRAPH i, 13, 0⟩
def DSP_CTX_GRAPH_DONE_OPS (i : Nat) : FRef := ⟨DSP_CTX_GRAPH i, 29, 16⟩
def DSP_CTX_GRAPH_RUNS (i : Nat) : FRef := ⟨DSP_CTX_GRAPH i, 63, 32⟩
def DSP_CTX_JSEQ (i : Nat) : Nat := 0x07080010 + i * 0x20
def DSP_CTX_JSEQ_JSEQ (i : Nat) : FRef := ⟨DSP_CTX_JSEQ i, 63, 0⟩
def DSP_CTX_POSTS (i : Nat) : Nat := 0x07080018 + i * 0x20
def DSP_CTX_POSTS_POSTED (i : Nat) : FRef := ⟨DSP_CTX_POSTS i, 31, 0⟩
def DSP_CTX_POSTS_CONSUMED (i : Nat) : FRef := ⟨DSP_CTX_POSTS i, 63, 32⟩
def DSP_SLOT (i : Nat) : Nat := 0x07100000 + i * 0x8
def DSP_SLOT_STATE (i : Nat) : FRef := ⟨DSP_SLOT i, 2, 0⟩
def DSP_SLOT_DEP (i : Nat) : FRef := ⟨DSP_SLOT i, 31, 16⟩
def DSP_SLOT_CTX (i : Nat) : FRef := ⟨DSP_SLOT i, 41, 32⟩
def DSP_SLOT_INDEX (i : Nat) : FRef := ⟨DSP_SLOT i, 60, 48⟩
def AC_STATUS (i : Nat) : Nat := 0x07400000 + i * 0x100
def AC_STATUS_STATE (i : Nat) : FRef := ⟨AC_STATUS i, 1, 0⟩
def AC_STATUS_SLOT (i : Nat) : FRef := ⟨AC_STATUS i, 28, 16⟩
def AC_STATUS_CTX (i : Nat) : FRef := ⟨AC_STATUS i, 41, 32⟩
def AC_STATUS_WAIT (i : Nat) : FRef := ⟨AC_STATUS i, 63, 48⟩
def AC_TRAP (i : Nat) : Nat := 0x07400008 + i * 0x100
def AC_TRAP_STATUS (i : Nat) : FRef := ⟨AC_TRAP i, 7, 0⟩
def AC_TRAP_SLOT (i : Nat) : FRef := ⟨AC_TRAP i, 28, 16⟩
def AC_TRAP_PC (i : Nat) : Nat := 0x07400010 + i * 0x100
def AC_TRAP_PC_PC (i : Nat) : FRef := ⟨AC_TRAP_PC i, 63, 0⟩
def AC_TRAP_VAL (i : Nat) : Nat := 0x07400018 + i * 0x100
def AC_TRAP_VAL_VAL (i : Nat) : FRef := ⟨AC_TRAP_VAL i, 63, 0⟩
def AC_LM_ECC (i : Nat) : Nat := 0x07400020 + i * 0x100
def AC_LM_ECC_CORR (i : Nat) : FRef := ⟨AC_LM_ECC i, 15, 0⟩
def AC_LM_ECC_CORR_WORD (i : Nat) : FRef := ⟨AC_LM_ECC i, 30, 16⟩
def AC_LM_ECC_UE (i : Nat) : FRef := ⟨AC_LM_ECC i, 32, 32⟩
def AC_LM_ECC_UE_WORD (i : Nat) : FRef := ⟨AC_LM_ECC i, 47, 33⟩
def AC_RUNS (i : Nat) : Nat := 0x07400028 + i * 0x100
def AC_RUNS_RUNS (i : Nat) : FRef := ⟨AC_RUNS i, 31, 0⟩
def AC_RUNS_MIGRATED (i : Nat) : FRef := ⟨AC_RUNS i, 63, 32⟩
def AC_BUSY (i : Nat) : Nat := 0x07400030 + i * 0x100
def AC_BUSY_CYCLES (i : Nat) : FRef := ⟨AC_BUSY i, 63, 0⟩
/-! ### Registers of 10_memory_system.md -/

def MEM_CFG : Nat := 0x08000000
def MEM_CFG_CH_MASK : FRef := ⟨MEM_CFG, 3, 0⟩
def MEM_CFG_GRAIN : FRef := ⟨MEM_CFG, 6, 4⟩
def MEM_CFG_RT_WEIGHT : FRef := ⟨MEM_CFG, 11, 8⟩
def MEM_CFG_REF2X_BANDS : FRef := ⟨MEM_CFG, 15, 12⟩
def MEM_CFG_ROW_CHAIN : FRef := ⟨MEM_CFG, 18, 16⟩
def MEM_STATUS : Nat := 0x08000008
def MEM_STATUS_FITTED_MIB : FRef := ⟨MEM_STATUS, 16, 0⟩
def MEM_STATUS_READY : FRef := ⟨MEM_STATUS, 20, 20⟩
def MEM_STATUS_PRESERVED : FRef := ⟨MEM_STATUS, 21, 21⟩
def MEM_SRAM_ECC : Nat := 0x08000010
def MEM_SRAM_ECC_CORR : FRef := ⟨MEM_SRAM_ECC, 15, 0⟩
def MEM_SRAM_ECC_UE : FRef := ⟨MEM_SRAM_ECC, 16, 16⟩
def MEM_SRAM_ECC_UE_ADDR : FRef := ⟨MEM_SRAM_ECC, 63, 24⟩
def MEM_RANGE_ERR : Nat := 0x08000018
def MEM_RANGE_ERR_COUNT : FRef := ⟨MEM_RANGE_ERR, 15, 0⟩
def MEM_RANGE_ERR_MASTER : FRef := ⟨MEM_RANGE_ERR, 23, 16⟩
def MEM_RANGE_ERR_OFFSET : FRef := ⟨MEM_RANGE_ERR, 63, 28⟩
def DRC_CFG (i : Nat) : Nat := 0x08010000 + i * 0x1000
def DRC_CFG_WIDTH (i : Nat) : FRef := ⟨DRC_CFG i, 0, 0⟩
def DRC_CFG_DENSITY (i : Nat) : FRef := ⟨DRC_CFG i, 1, 1⟩
def DRC_CFG_RANKS2 (i : Nat) : FRef := ⟨DRC_CFG i, 2, 2⟩
def DRC_CFG_RATE (i : Nat) : FRef := ⟨DRC_CFG i, 10, 8⟩
def DRC_CTRL (i : Nat) : Nat := 0x08010008 + i * 0x1000
def DRC_CTRL_INIT (i : Nat) : FRef := ⟨DRC_CTRL i, 0, 0⟩
def DRC_CTRL_USE_SAVED (i : Nat) : FRef := ⟨DRC_CTRL i, 1, 1⟩
def DRC_STATUS (i : Nat) : Nat := 0x08010010 + i * 0x1000
def DRC_STATUS_STATE (i : Nat) : FRef := ⟨DRC_STATUS i, 2, 0⟩
def DRC_STATUS_REF2X (i : Nat) : FRef := ⟨DRC_STATUS i, 3, 3⟩
def DRC_STATUS_FAIL_STEP (i : Nat) : FRef := ⟨DRC_STATUS i, 6, 4⟩
def DRC_STATUS_POSTPONED (i : Nat) : FRef := ⟨DRC_STATUS i, 10, 8⟩
def DRC_ECC (i : Nat) : Nat := 0x08010018 + i * 0x1000
def DRC_ECC_CORR (i : Nat) : FRef := ⟨DRC_ECC i, 15, 0⟩
def DRC_ECC_UE (i : Nat) : FRef := ⟨DRC_ECC i, 16, 16⟩
def DRC_ECC_TAG (i : Nat) : FRef := ⟨DRC_ECC i, 17, 17⟩
def DRC_ECC_UE_OFF (i : Nat) : FRef := ⟨DRC_ECC i, 63, 28⟩
def DRC_STAT (i : Nat) : Nat := 0x08010020 + i * 0x1000
def DRC_STAT_PANIC (i : Nat) : FRef := ⟨DRC_STAT i, 31, 0⟩
def DRC_STAT_BE_WAIT (i : Nat) : FRef := ⟨DRC_STAT i, 63, 32⟩
def DRC_TRAIN_CA (i : Nat) : Nat := 0x08010028 + i * 0x1000
def DRC_TRAIN_CA_CA_DLY (i : Nat) : FRef := ⟨DRC_TRAIN_CA i, 7, 0⟩
def DRC_TRAIN_CA_CS_DLY (i : Nat) : FRef := ⟨DRC_TRAIN_CA i, 15, 8⟩
def DRC_TRAIN_DQ (i : Nat) (j : Nat) : Nat := 0x08010100 + i * 0x1000 + j * 0x8
def DRC_TRAIN_DQ_RD_DLY (i : Nat) (j : Nat) : FRef := ⟨DRC_TRAIN_DQ i j, 7, 0⟩
def DRC_TRAIN_DQ_RD_EYE (i : Nat) (j : Nat) : FRef := ⟨DRC_TRAIN_DQ i j, 15, 8⟩
def DRC_TRAIN_DQ_WR_DLY (i : Nat) (j : Nat) : FRef := ⟨DRC_TRAIN_DQ i j, 23, 16⟩
def DRC_TRAIN_DQ_WR_EYE (i : Nat) (j : Nat) : FRef := ⟨DRC_TRAIN_DQ i j, 31, 24⟩
def DRC_TRAIN_DQ_WL_DLY (i : Nat) (j : Nat) : FRef := ⟨DRC_TRAIN_DQ i j, 39, 32⟩
def DRC_TRAIN_DQ_GATE (i : Nat) (j : Nat) : FRef := ⟨DRC_TRAIN_DQ i j, 47, 40⟩
/-! ### Registers of 11_serial_lanes.md -/

def LN_CFG (i : Nat) : Nat := 0x09000000 + i * 0x100
def LN_CFG_DISABLE (i : Nat) : FRef := ⟨LN_CFG i, 0, 0⟩
def LN_CFG_TX_INV (i : Nat) : FRef := ⟨LN_CFG i, 1, 1⟩
def LN_CFG_RX_INV (i : Nat) : FRef := ⟨LN_CFG i, 2, 2⟩
def LN_CFG_RETRY (i : Nat) : FRef := ⟨LN_CFG i, 15, 8⟩
def LN_STATUS (i : Nat) : Nat := 0x09000008 + i * 0x100
def LN_STATUS_STATE (i : Nat) : FRef := ⟨LN_STATUS i, 2, 0⟩
def LN_STATUS_LOCK (i : Nat) : FRef := ⟨LN_STATUS i, 3, 3⟩
def LN_STATUS_RATE (i : Nat) : FRef := ⟨LN_STATUS i, 6, 4⟩
def LN_STATUS_LOGICAL (i : Nat) : FRef := ⟨LN_STATUS i, 9, 8⟩
def LN_STATUS_PEER_RATES (i : Nat) : FRef := ⟨LN_STATUS i, 20, 16⟩
def LN_STATUS_CAUSE (i : Nat) : FRef := ⟨LN_STATUS i, 26, 24⟩
def LN_ERR (i : Nat) : Nat := 0x09000010 + i * 0x100
def LN_ERR_CODE_ERR (i : Nat) : FRef := ⟨LN_ERR i, 15, 0⟩
def LN_ERR_LOL (i : Nat) : FRef := ⟨LN_ERR i, 31, 16⟩
def LN_ERR_RETRAIN (i : Nat) : FRef := ⟨LN_ERR i, 47, 32⟩
def LN_ERR_RETRAIN_FAIL (i : Nat) : FRef := ⟨LN_ERR i, 63, 48⟩
def LN_EQ (i : Nat) : Nat := 0x09000018 + i * 0x100
def LN_EQ_TX_PRE (i : Nat) : FRef := ⟨LN_EQ i, 3, 0⟩
def LN_EQ_TX_POST (i : Nat) : FRef := ⟨LN_EQ i, 12, 8⟩
def LN_EQ_RX_CTLE (i : Nat) : FRef := ⟨LN_EQ i, 19, 16⟩
def LN_TEST (i : Nat) : Nat := 0x09000020 + i * 0x100
def LN_TEST_MODE (i : Nat) : FRef := ⟨LN_TEST i, 1, 0⟩
def LN_TEST_PATTERN (i : Nat) : FRef := ⟨LN_TEST i, 3, 2⟩
def LN_TEST_INJ_ONE (i : Nat) : FRef := ⟨LN_TEST i, 4, 4⟩
def LN_TEST_INJ_RATE (i : Nat) : FRef := ⟨LN_TEST i, 11, 8⟩
def LN_TEST_LIVE_INJ (i : Nat) : FRef := ⟨LN_TEST i, 12, 12⟩
def LN_PRBS (i : Nat) : Nat := 0x09000028 + i * 0x100
def LN_PRBS_ERRORS (i : Nat) : FRef := ⟨LN_PRBS i, 31, 0⟩
def LN_PRBS_SYNC (i : Nat) : FRef := ⟨LN_PRBS i, 32, 32⟩
def LN_PRBS_BITS (i : Nat) : Nat := 0x09000030 + i * 0x100
def LN_PRBS_BITS_BITS (i : Nat) : FRef := ⟨LN_PRBS_BITS i, 63, 0⟩
def LN_EYE_CTRL (i : Nat) : Nat := 0x09000038 + i * 0x100
def LN_EYE_CTRL_START (i : Nat) : FRef := ⟨LN_EYE_CTRL i, 0, 0⟩
def LN_EYE_CTRL_SWEEP (i : Nat) : FRef := ⟨LN_EYE_CTRL i, 1, 1⟩
def LN_EYE_CTRL_PHASE (i : Nat) : FRef := ⟨LN_EYE_CTRL i, 14, 8⟩
def LN_EYE_CTRL_VOFF (i : Nat) : FRef := ⟨LN_EYE_CTRL i, 22, 16⟩
def LN_EYE_CTRL_LOG2N (i : Nat) : FRef := ⟨LN_EYE_CTRL i, 29, 24⟩
def LN_EYE_RESULT (i : Nat) : Nat := 0x09000040 + i * 0x100
def LN_EYE_RESULT_DONE (i : Nat) : FRef := ⟨LN_EYE_RESULT i, 0, 0⟩
def LN_EYE_RESULT_ABORT (i : Nat) : FRef := ⟨LN_EYE_RESULT i, 1, 1⟩
def LN_EYE_RESULT_ERRORS (i : Nat) : FRef := ⟨LN_EYE_RESULT i, 39, 8⟩
def LN_EYE_RESULT_LEFT (i : Nat) : FRef := ⟨LN_EYE_RESULT i, 46, 40⟩
def LN_EYE_RESULT_RIGHT (i : Nat) : FRef := ⟨LN_EYE_RESULT i, 54, 48⟩
def LN_EYE_RESULT_WIDTH (i : Nat) : FRef := ⟨LN_EYE_RESULT i, 62, 56⟩
def LN_GRP_STATUS (i : Nat) : Nat := 0x09008000 + i * 0x40
def LN_GRP_STATUS_STATE (i : Nat) : FRef := ⟨LN_GRP_STATUS i, 1, 0⟩
def LN_GRP_STATUS_WIDTH (i : Nat) : FRef := ⟨LN_GRP_STATUS i, 4, 2⟩
def LN_GRP_STATUS_RATE (i : Nat) : FRef := ⟨LN_GRP_STATUS i, 7, 5⟩
def LN_GRP_STATUS_LANES (i : Nat) : FRef := ⟨LN_GRP_STATUS i, 11, 8⟩
def LN_GRP_STATUS_RETRAINING (i : Nat) : FRef := ⟨LN_GRP_STATUS i, 15, 12⟩
def LN_GRP_STATUS_NARROWS (i : Nat) : FRef := ⟨LN_GRP_STATUS i, 47, 32⟩
def LN_GRP_STATUS_BRINGUPS (i : Nat) : FRef := ⟨LN_GRP_STATUS i, 63, 48⟩
def LN_GRP_CFG (i : Nat) : Nat := 0x09008008 + i * 0x40
def LN_GRP_CFG_RATE_MASK (i : Nat) : FRef := ⟨LN_GRP_CFG i, 4, 0⟩
def LN_GRP_CFG_STEP_TIMEOUT (i : Nat) : FRef := ⟨LN_GRP_CFG i, 15, 8⟩
def LN_GRP_CFG_LOCK_TIMEOUT (i : Nat) : FRef := ⟨LN_GRP_CFG i, 31, 16⟩
def LN_GRP_CFG_RETRY (i : Nat) : FRef := ⟨LN_GRP_CFG i, 39, 32⟩
/-! ### Registers of 12_time_base.md -/

def TB_CFG : Nat := 0x0A000000
def TB_CFG_ROLE : FRef := ⟨TB_CFG, 1, 0⟩
def TB_CFG_DOMAIN : FRef := ⟨TB_CFG, 15, 8⟩
def TB_CFG_SYNC_INT : FRef := ⟨TB_CFG, 20, 16⟩
def TB_CFG_NODE_ID : FRef := ⟨TB_CFG, 47, 32⟩
def TB_SERVO : Nat := 0x0A000008
def TB_SERVO_KP : FRef := ⟨TB_SERVO, 31, 0⟩
def TB_SERVO_KI : FRef := ⟨TB_SERVO, 63, 32⟩
def TB_LIMITS : Nat := 0x0A000010
def TB_LIMITS_LOCK_THRESH : FRef := ⟨TB_LIMITS, 15, 0⟩
def TB_LIMITS_LOCK_COUNT : FRef := ⟨TB_LIMITS, 23, 16⟩
def TB_LIMITS_HOLD_SYNCS : FRef := ⟨TB_LIMITS, 31, 24⟩
def TB_LIMITS_JUMP_LIMIT : FRef := ⟨TB_LIMITS, 63, 32⟩
def TB_ASYM : Nat := 0x0A000018
def TB_ASYM_ASYM : FRef := ⟨TB_ASYM, 31, 0⟩
def TB_CTRL : Nat := 0x0A000020
def TB_CTRL_RESEED : FRef := ⟨TB_CTRL, 0, 0⟩
def TB_STATUS : Nat := 0x0A000028
def TB_STATUS_STATE : FRef := ⟨TB_STATUS, 2, 0⟩
def TB_STATUS_SCALE : FRef := ⟨TB_STATUS, 5, 4⟩
def TB_STATUS_EPOCH : FRef := ⟨TB_STATUS, 6, 6⟩
def TB_STATUS_REFCLK : FRef := ⟨TB_STATUS, 7, 7⟩
def TB_STATUS_AON_CLOCK : FRef := ⟨TB_STATUS, 8, 8⟩
def TB_STATUS_SLEWING : FRef := ⟨TB_STATUS, 9, 9⟩
def TB_STATUS_JUMP_REFUSED : FRef := ⟨TB_STATUS, 10, 10⟩
def TB_STATUS_ADJ_REFUSED : FRef := ⟨TB_STATUS, 11, 11⟩
def TB_STATUS_STEPS : FRef := ⟨TB_STATUS, 23, 16⟩
def TB_TIME_LO : Nat := 0x0A000030
def TB_TIME_LO_STAMP : FRef := ⟨TB_TIME_LO, 63, 0⟩
def TB_TIME_HI : Nat := 0x0A000038
def TB_TIME_HI_STAMP : FRef := ⟨TB_TIME_HI, 31, 0⟩
def TB_RATE : Nat := 0x0A000040
def TB_RATE_RATE : FRef := ⟨TB_RATE, 39, 0⟩
def TB_OFFSET : Nat := 0x0A000048
def TB_OFFSET_OFFSET : FRef := ⟨TB_OFFSET, 63, 0⟩
def TB_PATH : Nat := 0x0A000050
def TB_PATH_PATH : FRef := ⟨TB_PATH, 63, 0⟩
def TB_SLEW : Nat := 0x0A000058
def TB_SLEW_REMAIN : FRef := ⟨TB_SLEW, 63, 0⟩
def TB_COUNTS : Nat := 0x0A000060
def TB_COUNTS_SYNCS : FRef := ⟨TB_COUNTS, 31, 0⟩
def TB_COUNTS_MISSED : FRef := ⟨TB_COUNTS, 47, 32⟩
def TB_COUNTS_IGNORED : FRef := ⟨TB_COUNTS, 63, 48⟩
def TB_REFCLK : Nat := 0x0A000068
def TB_REFCLK_COUNT : FRef := ⟨TB_REFCLK, 15, 0⟩
def TB_REFCLK_LOSSES : FRef := ⟨TB_REFCLK, 31, 16⟩
def TB_TRIG_CFG (i : Nat) : Nat := 0x0A001000 + i * 0x40
def TB_TRIG_CFG_EVENT (i : Nat) : FRef := ⟨TB_TRIG_CFG i, 5, 0⟩
def TB_TRIG_CFG_NOTIFY (i : Nat) : FRef := ⟨TB_TRIG_CFG i, 8, 8⟩
def TB_TRIG_CFG_COUNT (i : Nat) : FRef := ⟨TB_TRIG_CFG i, 63, 32⟩
def TB_TRIG_DELAY (i : Nat) : Nat := 0x0A001008 + i * 0x40
def TB_TRIG_DELAY_DELAY (i : Nat) : FRef := ⟨TB_TRIG_DELAY i, 47, 0⟩
def TB_TRIG_PERIOD (i : Nat) : Nat := 0x0A001010 + i * 0x40
def TB_TRIG_PERIOD_PERIOD (i : Nat) : FRef := ⟨TB_TRIG_PERIOD i, 47, 0⟩
def TB_TRIG_STATUS (i : Nat) : Nat := 0x0A001018 + i * 0x40
def TB_TRIG_STATUS_STATE (i : Nat) : FRef := ⟨TB_TRIG_STATUS i, 1, 0⟩
def TB_TRIG_STATUS_FIRED (i : Nat) : FRef := ⟨TB_TRIG_STATUS i, 2, 2⟩
def TB_TRIG_STATUS_BOUND (i : Nat) : FRef := ⟨TB_TRIG_STATUS i, 3, 3⟩
def TB_TRIG_STATUS_END (i : Nat) : FRef := ⟨TB_TRIG_STATUS i, 6, 4⟩
def TB_TRIG_STATUS_BUSY (i : Nat) : FRef := ⟨TB_TRIG_STATUS i, 31, 16⟩
def TB_TRIG_STATUS_FIRINGS (i : Nat) : FRef := ⟨TB_TRIG_STATUS i, 63, 32⟩
def TB_TRIG_NEXT_LO (i : Nat) : Nat := 0x0A001020 + i * 0x40
def TB_TRIG_NEXT_LO_STAMP (i : Nat) : FRef := ⟨TB_TRIG_NEXT_LO i, 63, 0⟩
def TB_TRIG_NEXT_HI (i : Nat) : Nat := 0x0A001028 + i * 0x40
def TB_TRIG_NEXT_HI_STAMP (i : Nat) : FRef := ⟨TB_TRIG_NEXT_HI i, 31, 0⟩
def TIM_IN_CFG (i : Nat) : Nat := 0x0A003000 + i * 0x8
def TIM_IN_CFG_TERM (i : Nat) : FRef := ⟨TIM_IN_CFG i, 0, 0⟩
def TIM_IN_CFG_HYST (i : Nat) : FRef := ⟨TIM_IN_CFG i, 2, 1⟩
def TIM_IN_CFG_INV (i : Nat) : FRef := ⟨TIM_IN_CFG i, 3, 3⟩
def TIM_CFG (i : Nat) : Nat := 0x0A004000 + i * 0x100
def TIM_CFG_START_CLASS (i : Nat) : FRef := ⟨TIM_CFG i, 3, 0⟩
def TIM_CFG_START_EDGE (i : Nat) : FRef := ⟨TIM_CFG i, 4, 4⟩
def TIM_CFG_START_INDEX (i : Nat) : FRef := ⟨TIM_CFG i, 14, 8⟩
def TIM_CFG_START_EVENT (i : Nat) : FRef := ⟨TIM_CFG i, 21, 16⟩
def TIM_CFG_STOP_CLASS (i : Nat) : FRef := ⟨TIM_CFG i, 27, 24⟩
def TIM_CFG_STOP_EDGE (i : Nat) : FRef := ⟨TIM_CFG i, 28, 28⟩
def TIM_CFG_STOP_INDEX (i : Nat) : FRef := ⟨TIM_CFG i, 38, 32⟩
def TIM_CFG_CHAIN (i : Nat) : FRef := ⟨TIM_CFG i, 39, 39⟩
def TIM_CFG_STOP_EVENT (i : Nat) : FRef := ⟨TIM_CFG i, 45, 40⟩
def TIM_CFG_HOLDOFF (i : Nat) : FRef := ⟨TIM_CFG i, 63, 48⟩
def TIM_BCOUNT (i : Nat) : Nat := 0x0A004058 + i * 0x100
def TIM_BCOUNT_COUNT (i : Nat) : FRef := ⟨TIM_BCOUNT i, 24, 0⟩
def TIM_STATUS (i : Nat) : Nat := 0x0A004008 + i * 0x100
def TIM_STATUS_STATE (i : Nat) : FRef := ⟨TIM_STATUS i, 1, 0⟩
def TIM_STATUS_WAIT_STOP (i : Nat) : FRef := ⟨TIM_STATUS i, 2, 2⟩
def TIM_STATUS_END (i : Nat) : FRef := ⟨TIM_STATUS i, 6, 4⟩
def TIM_STATUS_DONE_N (i : Nat) : FRef := ⟨TIM_STATUS i, 32, 8⟩
def TIM_STATUS_NSTAT (i : Nat) : FRef := ⟨TIM_STATUS i, 57, 33⟩
def TIM_LAST (i : Nat) : Nat := 0x0A004010 + i * 0x100
def TIM_LAST_RESULT (i : Nat) : FRef := ⟨TIM_LAST i, 36, 0⟩
def TIM_LAST_SUBRES (i : Nat) : FRef := ⟨TIM_LAST i, 37, 37⟩
def TIM_LAST_ORDER (i : Nat) : FRef := ⟨TIM_LAST i, 38, 38⟩
def TIM_LAST_OVF (i : Nat) : FRef := ⟨TIM_LAST i, 39, 39⟩
def TIM_MIN (i : Nat) : Nat := 0x0A004018 + i * 0x100
def TIM_MIN_VALUE (i : Nat) : FRef := ⟨TIM_MIN i, 36, 0⟩
def TIM_MAX (i : Nat) : Nat := 0x0A004020 + i * 0x100
def TIM_MAX_VALUE (i : Nat) : FRef := ⟨TIM_MAX i, 36, 0⟩
def TIM_SUM (i : Nat) : Nat := 0x0A004028 + i * 0x100
def TIM_SUM_SUM (i : Nat) : FRef := ⟨TIM_SUM i, 63, 0⟩
def TIM_SUMSQ_LO (i : Nat) : Nat := 0x0A004030 + i * 0x100
def TIM_SUMSQ_LO_SUMSQ (i : Nat) : FRef := ⟨TIM_SUMSQ_LO i, 63, 0⟩
def TIM_SUMSQ_HI (i : Nat) : Nat := 0x0A004038 + i * 0x100
def TIM_SUMSQ_HI_SUMSQ (i : Nat) : FRef := ⟨TIM_SUMSQ_HI i, 63, 0⟩
def TIM_MEAN (i : Nat) : Nat := 0x0A004040 + i * 0x100
def TIM_MEAN_MEAN (i : Nat) : FRef := ⟨TIM_MEAN i, 44, 0⟩
def TIM_SD (i : Nat) : Nat := 0x0A004048 + i * 0x100
def TIM_SD_SD (i : Nat) : FRef := ⟨TIM_SD i, 44, 0⟩
def TIM_COUNTS (i : Nat) : Nat := 0x0A004050 + i * 0x100
def TIM_COUNTS_STOP_EARLY (i : Nat) : FRef := ⟨TIM_COUNTS i, 15, 0⟩
def TIM_COUNTS_SUBRES (i : Nat) : FRef := ⟨TIM_COUNTS i, 31, 16⟩
def TIM_COUNTS_OVF (i : Nat) : FRef := ⟨TIM_COUNTS i, 47, 32⟩
def TIM_COUNTS_MISSED (i : Nat) : FRef := ⟨TIM_COUNTS i, 63, 48⟩
/-! ### Registers of 13_analog_and_thermal.md -/

def ADC_STATUS : Nat := 0x0B000000
def ADC_STATUS_CLASS : FRef := ⟨ADC_STATUS, 2, 0⟩
def ADC_STATUS_INPUT : FRef := ⟨ADC_STATUS, 12, 8⟩
def ADC_STATUS_CORR_BAND : FRef := ⟨ADC_STATUS, 17, 16⟩
def ADC_STATUS_INJ_QUEUE : FRef := ⟨ADC_STATUS, 27, 24⟩
def ADC_COUNTS : Nat := 0x0B000008
def ADC_COUNTS_ABORTS : FRef := ⟨ADC_COUNTS, 15, 0⟩
def ADC_COUNTS_SEG_RESTARTS : FRef := ⟨ADC_COUNTS, 31, 16⟩
def ADC_COUNTS_THM_LATE : FRef := ⟨ADC_COUNTS, 47, 32⟩
def ADC_COUNTS_CLIPS : FRef := ⟨ADC_COUNTS, 63, 48⟩
def ADC_CORR (i : Nat) (j : Nat) : Nat := 0x0B000100 + i * 0x40 + j * 0x8
def ADC_CORR_OFFSET (i : Nat) (j : Nat) : FRef := ⟨ADC_CORR i j, 15, 0⟩
def ADC_CORR_GAIN (i : Nat) (j : Nat) : FRef := ⟨ADC_CORR i j, 31, 16⟩
def ADC_CORR_SKEW (i : Nat) (j : Nat) : FRef := ⟨ADC_CORR i j, 39, 32⟩
def ACQ_CFG : Nat := 0x0B001000
def ACQ_CFG_DEFER_LIMIT : FRef := ⟨ACQ_CFG, 15, 0⟩
def ACQ_CTRL : Nat := 0x0B001008
def ACQ_CTRL_FORCE : FRef := ⟨ACQ_CTRL, 0, 0⟩
def ACQ_STATUS : Nat := 0x0B001010
def ACQ_STATUS_STATE : FRef := ⟨ACQ_STATUS, 2, 0⟩
def ACQ_STATUS_MODE : FRef := ⟨ACQ_STATUS, 3, 3⟩
def ACQ_STATUS_QUEUED : FRef := ⟨ACQ_STATUS, 4, 4⟩
def ACQ_STATUS_OVERFLOW : FRef := ⟨ACQ_STATUS, 5, 5⟩
def ACQ_STATUS_END : FRef := ⟨ACQ_STATUS, 10, 8⟩
def ACQ_STATUS_WARD : FRef := ⟨ACQ_STATUS, 17, 16⟩
def ACQ_STATUS_ARM_ERR : FRef := ⟨ACQ_STATUS, 31, 24⟩
def ACQ_STATUS_RECORDS : FRef := ⟨ACQ_STATUS, 63, 32⟩
def ACQ_PTR : Nat := 0x0B001018
def ACQ_PTR_WR : FRef := ⟨ACQ_PTR, 31, 0⟩
def ACQ_PTR_RD : FRef := ⟨ACQ_PTR, 63, 32⟩
def ACQ_COUNTS : Nat := 0x0B001020
def ACQ_COUNTS_MISSED_TRIG : FRef := ⟨ACQ_COUNTS, 15, 0⟩
def ACQ_COUNTS_OVERRUNS : FRef := ⟨ACQ_COUNTS, 31, 16⟩
def ACQ_COUNTS_ABORTS : FRef := ⟨ACQ_COUNTS, 47, 32⟩
def THM_CFG : Nat := 0x0B002000
def THM_CFG_PERIOD : FRef := ⟨THM_CFG, 15, 0⟩
def THM_CFG_MODEL : FRef := ⟨THM_CFG, 16, 16⟩
def THM_CFG_BAND_SRC : FRef := ⟨THM_CFG, 31, 24⟩
def THM_LIMITS : Nat := 0x0B002008
def THM_LIMITS_RISE_WARN : FRef := ⟨THM_LIMITS, 15, 0⟩
def THM_LIMITS_RISE_LIMIT : FRef := ⟨THM_LIMITS, 31, 16⟩
def THM_LIMITS_RISE_WIN : FRef := ⟨THM_LIMITS, 47, 32⟩
def THM_BAND : Nat := 0x0B002010
def THM_BAND_E1 : FRef := ⟨THM_BAND, 7, 0⟩
def THM_BAND_E2 : FRef := ⟨THM_BAND, 15, 8⟩
def THM_BAND_E3 : FRef := ⟨THM_BAND, 23, 16⟩
def THM_STATUS : Nat := 0x0B002018
def THM_STATUS_BAND : FRef := ⟨THM_STATUS, 1, 0⟩
def THM_STATUS_BAND_VALID : FRef := ⟨THM_STATUS, 2, 2⟩
def THM_STATUS_SHUTDOWN_SEEN : FRef := ⟨THM_STATUS, 3, 3⟩
def THM_STATUS_T_BAND : FRef := ⟨THM_STATUS, 23, 8⟩
def THM_STATUS_MODEL_T : FRef := ⟨THM_STATUS, 39, 24⟩
def THM_MODEL : Nat := 0x0B002020
def THM_MODEL_TAMB : FRef := ⟨THM_MODEL, 15, 0⟩
def THM_MODEL_RTH : FRef := ⟨THM_MODEL, 31, 16⟩
def THM_MODEL_TAU : FRef := ⟨THM_MODEL, 47, 32⟩
def THM_TS_CFG (i : Nat) : Nat := 0x0B002100 + i * 0x10
def THM_TS_CFG_TYPE (i : Nat) : FRef := ⟨THM_TS_CFG i, 1, 0⟩
def THM_TS_CFG_IDEAL (i : Nat) : FRef := ⟨THM_TS_CFG i, 31, 16⟩
def THM_TS_CFG_R25 (i : Nat) : FRef := ⟨THM_TS_CFG i, 47, 32⟩
def THM_TS_CFG_BETA (i : Nat) : FRef := ⟨THM_TS_CFG i, 63, 48⟩
def THM_TEMP (i : Nat) : Nat := 0x0B002108 + i * 0x10
def THM_TEMP_T (i : Nat) : FRef := ⟨THM_TEMP i, 15, 0⟩
def THM_TEMP_VALID (i : Nat) : FRef := ⟨THM_TEMP i, 16, 16⟩
def THM_TEMP_SLOPE (i : Nat) : FRef := ⟨THM_TEMP i, 47, 32⟩
/-! ### Registers of 14_calibration.md -/

def CAL_CFG : Nat := 0x0D000000
def CAL_CFG_SLEW : FRef := ⟨CAL_CFG, 7, 0⟩
def CAL_CFG_JUMP_IDLE : FRef := ⟨CAL_CFG, 8, 8⟩
def CAL_CFG_RESID_LIMIT : FRef := ⟨CAL_CFG, 23, 16⟩
def CAL_STATUS : Nat := 0x0D000008
def CAL_STATUS_RUN : FRef := ⟨CAL_STATUS, 2, 0⟩
def CAL_STATUS_ITEM : FRef := ⟨CAL_STATUS, 15, 8⟩
def CAL_STATUS_SLEWING : FRef := ⟨CAL_STATUS, 23, 16⟩
def CAL_ADC_Q (i : Nat) : Nat := 0x0D000010 + i * 0x8
def CAL_ADC_Q_SPUR (i : Nat) : FRef := ⟨CAL_ADC_Q i, 15, 0⟩
def CAL_ADC_Q_VALID (i : Nat) : FRef := ⟨CAL_ADC_Q i, 16, 16⟩
def CAL_LN_Q (i : Nat) : Nat := 0x0D000100 + i * 0x8
def CAL_LN_Q_WIDTH (i : Nat) : FRef := ⟨CAL_LN_Q i, 6, 0⟩
def CAL_LN_Q_VALID (i : Nat) : FRef := ⟨CAL_LN_Q i, 7, 7⟩
def CAL_LN_Q_CTLE (i : Nat) : FRef := ⟨CAL_LN_Q i, 11, 8⟩
def CAL_CH_TAB (i : Nat) (j : Nat) : Nat := 0x0D020000 + i * 0x20 + j * 0x8
def CAL_CH_TAB_DRV (i : Nat) (j : Nat) : FRef := ⟨CAL_CH_TAB i j, 15, 0⟩
def CAL_CH_TAB_DEN (i : Nat) (j : Nat) : FRef := ⟨CAL_CH_TAB i j, 31, 16⟩
def CAL_CH_TAB_STB (i : Nat) (j : Nat) : FRef := ⟨CAL_CH_TAB i j, 47, 32⟩
def CAL_CH_TAB_RESID (i : Nat) (j : Nat) : FRef := ⟨CAL_CH_TAB i j, 55, 48⟩
def CAL_CH_TAB_VALID (i : Nat) (j : Nat) : FRef := ⟨CAL_CH_TAB i j, 56, 56⟩
def CAL_CH_USER (i : Nat) : Nat := 0x0D010000 + i * 0x8
def CAL_CH_USER_DRV (i : Nat) : FRef := ⟨CAL_CH_USER i, 15, 0⟩
def CAL_CH_USER_DEN (i : Nat) : FRef := ⟨CAL_CH_USER i, 31, 16⟩
def CAL_CH_USER_STB (i : Nat) : FRef := ⟨CAL_CH_USER i, 47, 32⟩
def CAL_CH_NOW (i : Nat) : Nat := 0x0D010400 + i * 0x8
def CAL_CH_NOW_DRV (i : Nat) : FRef := ⟨CAL_CH_NOW i, 15, 0⟩
def CAL_CH_NOW_DEN (i : Nat) : FRef := ⟨CAL_CH_NOW i, 31, 16⟩
def CAL_CH_NOW_STB (i : Nat) : FRef := ⟨CAL_CH_NOW i, 47, 32⟩
def CAL_CH_NOW_SLEWING (i : Nat) : FRef := ⟨CAL_CH_NOW i, 48, 48⟩
/-! ### Registers of 15_faults.md -/

def FLT_STATUS : Nat := 0x0C000000
def FLT_STATUS_OUT : FRef := ⟨FLT_STATUS, 0, 0⟩
def FLT_STATUS_ANY : FRef := ⟨FLT_STATUS, 1, 1⟩
def FLT_STATUS_MAXSEV : FRef := ⟨FLT_STATUS, 3, 2⟩
def FLT_STATUS_ERR_N_LOW : FRef := ⟨FLT_STATUS, 4, 4⟩
def FLT_STATUS_PULSE : FRef := ⟨FLT_STATUS, 5, 5⟩
def FLT_SUMMARY : Nat := 0x0C000008
def FLT_SUMMARY_GROUPS : FRef := ⟨FLT_SUMMARY, 31, 0⟩
def FLT_STORM : Nat := 0x0C000010
def FLT_STORM_STORM : FRef := ⟨FLT_STORM, 31, 0⟩
def FLT_CTRL : Nat := 0x0C000018
def FLT_CTRL_ERR_HOLD : FRef := ⟨FLT_CTRL, 0, 0⟩
def FLT_CTRL_FE_REARM : FRef := ⟨FLT_CTRL, 1, 1⟩
def FLT_CFG : Nat := 0x0C000020
def FLT_CFG_RESET_DELAY : FRef := ⟨FLT_CFG, 15, 0⟩
def FLT_FE : Nat := 0x0C000028
def FLT_FE_SOURCE : FRef := ⟨FLT_FE, 9, 0⟩
def FLT_FE_ROOT : FRef := ⟨FLT_FE, 25, 16⟩
def FLT_FE_SEV : FRef := ⟨FLT_FE, 27, 26⟩
def FLT_FE_FORCED : FRef := ⟨FLT_FE, 28, 28⟩
def FLT_FE_CONSEQ : FRef := ⟨FLT_FE, 29, 29⟩
def FLT_FE_FROZEN : FRef := ⟨FLT_FE, 30, 30⟩
def FLT_FE_VALID : FRef := ⟨FLT_FE, 31, 31⟩
def FLT_FE_SAME_TICK : FRef := ⟨FLT_FE, 37, 32⟩
def FLT_FE_STAMP_LO : Nat := 0x0C000030
def FLT_FE_STAMP_LO_STAMP : FRef := ⟨FLT_FE_STAMP_LO, 63, 0⟩
def FLT_FE_STAMP_HI : Nat := 0x0C000038
def FLT_FE_STAMP_HI_STAMP : FRef := ⟨FLT_FE_STAMP_HI, 31, 0⟩
def FLT_LOG_PTR : Nat := 0x0C000040
def FLT_LOG_PTR_NEXT : FRef := ⟨FLT_LOG_PTR, 5, 0⟩
def FLT_LOG_PTR_WRAPPED : FRef := ⟨FLT_LOG_PTR, 6, 6⟩
def FLT_LOG_INFO (i : Nat) : Nat := 0x0C000200 + i * 0x20
def FLT_LOG_INFO_SOURCE (i : Nat) : FRef := ⟨FLT_LOG_INFO i, 9, 0⟩
def FLT_LOG_INFO_SEV (i : Nat) : FRef := ⟨FLT_LOG_INFO i, 11, 10⟩
def FLT_LOG_INFO_FORCED (i : Nat) : FRef := ⟨FLT_LOG_INFO i, 12, 12⟩
def FLT_LOG_INFO_CONSEQ (i : Nat) : FRef := ⟨FLT_LOG_INFO i, 13, 13⟩
def FLT_LOG_INFO_STORM (i : Nat) : FRef := ⟨FLT_LOG_INFO i, 14, 14⟩
def FLT_LOG_INFO_ROOT (i : Nat) : FRef := ⟨FLT_LOG_INFO i, 25, 16⟩
def FLT_LOG_INFO_TICK (i : Nat) : FRef := ⟨FLT_LOG_INFO i, 63, 32⟩
def FLT_LOG_STAMP_LO (i : Nat) : Nat := 0x0C000208 + i * 0x20
def FLT_LOG_STAMP_LO_STAMP (i : Nat) : FRef := ⟨FLT_LOG_STAMP_LO i, 63, 0⟩
def FLT_LOG_STAMP_HI (i : Nat) : Nat := 0x0C000210 + i * 0x20
def FLT_LOG_STAMP_HI_STAMP (i : Nat) : FRef := ⟨FLT_LOG_STAMP_HI i, 31, 0⟩
def FLT_GRP_REAL (i : Nat) : Nat := 0x0C001000 + i * 0x20
def FLT_GRP_REAL_REAL (i : Nat) : FRef := ⟨FLT_GRP_REAL i, 31, 0⟩
def FLT_GRP_FORCED (i : Nat) : Nat := 0x0C001008 + i * 0x20
def FLT_GRP_FORCED_FORCED (i : Nat) : FRef := ⟨FLT_GRP_FORCED i, 31, 0⟩
def FLT_GRP_CONSEQ (i : Nat) : Nat := 0x0C001010 + i * 0x20
def FLT_GRP_CONSEQ_CONSEQ (i : Nat) : FRef := ⟨FLT_GRP_CONSEQ i, 31, 0⟩
def FLT_GRP_CNT (i : Nat) : Nat := 0x0C001018 + i * 0x20
def FLT_GRP_CNT_REPEATS (i : Nat) : FRef := ⟨FLT_GRP_CNT i, 31, 0⟩
def FLT_GRP_CNT_STORMS (i : Nat) : FRef := ⟨FLT_GRP_CNT i, 47, 32⟩
def FLT_REACT (i : Nat) : Nat := 0x0C002000 + i * 0x8
def FLT_REACT_ACTION (i : Nat) : FRef := ⟨FLT_REACT i, 2, 0⟩
def FLT_REACT_REPORT (i : Nat) : FRef := ⟨FLT_REACT i, 3, 3⟩
def FLT_REACT_ERRN (i : Nat) : FRef := ⟨FLT_REACT i, 4, 4⟩
def FLT_REACT_SEV (i : Nat) : FRef := ⟨FLT_REACT i, 7, 6⟩
def FLT_RAISE (i : Nat) : Nat := 0x0C004000 + i * 0x8
def FLT_RAISE_RAISE (i : Nat) : FRef := ⟨FLT_RAISE i, 31, 0⟩
/-! ### Registers of 16_journal_twin_recovery.md -/

def JNL_HEAD : Nat := 0x0E000000
def JNL_HEAD_SEQNO : FRef := ⟨JNL_HEAD, 63, 0⟩
def JNL_STATUS : Nat := 0x0E000008
def JNL_STATUS_DECISION : FRef := ⟨JNL_STATUS, 2, 0⟩
def JNL_STATUS_PENDING : FRef := ⟨JNL_STATUS, 7, 4⟩
def JNL_STATUS_RA_VALID : FRef := ⟨JNL_STATUS, 8, 8⟩
def JNL_STATUS_RA_CONFLICT : FRef := ⟨JNL_STATUS, 9, 9⟩
def JNL_STATUS_TORN : FRef := ⟨JNL_STATUS, 16, 16⟩
def JNL_STATUS_OPEN : FRef := ⟨JNL_STATUS, 63, 32⟩
def JNL_WEAR : Nat := 0x0E000010
def JNL_WEAR_PASSES : FRef := ⟨JNL_WEAR, 31, 0⟩
def JNL_WEAR_CARRIES : FRef := ⟨JNL_WEAR, 63, 32⟩
def JNL_RA : Nat := 0x0E000018
def JNL_RA_OFF : FRef := ⟨JNL_RA, 35, 0⟩
def JNL_REC (i : Nat) (j : Nat) : Nat := 0x0E400000 + i * 0x40 + j * 0x8
def JNL_REC_BYTES (i : Nat) (j : Nat) : FRef := ⟨JNL_REC i j, 63, 0⟩
def TWN_CFG : Nat := 0x0E010000
def TWN_CFG_LINK_TIMEOUT : FRef := ⟨TWN_CFG, 15, 0⟩
def TWN_STATUS : Nat := 0x0E010008
def TWN_STATUS_ROLE : FRef := ⟨TWN_STATUS, 1, 0⟩
def TWN_STATUS_PAIRED : FRef := ⟨TWN_STATUS, 2, 2⟩
def TWN_STATUS_PEER_HB : FRef := ⟨TWN_STATUS, 3, 3⟩
def TWN_STATUS_SIDE : FRef := ⟨TWN_STATUS, 4, 4⟩
def TWN_STATUS_LINK : FRef := ⟨TWN_STATUS, 5, 5⟩
def TWN_STATUS_MIRROR_OVF : FRef := ⟨TWN_STATUS, 6, 6⟩
def TWN_STATUS_CAUSE : FRef := ⟨TWN_STATUS, 15, 8⟩
def TWN_CKPT : Nat := 0x0E010010
def TWN_CKPT_SQ : FRef := ⟨TWN_CKPT, 5, 0⟩
def TWN_CKPT_VALID : FRef := ⟨TWN_CKPT, 6, 6⟩
def TWN_CKPT_ROUND : FRef := ⟨TWN_CKPT, 39, 8⟩
def TWN_MIRROR : Nat := 0x0E010018
def TWN_MIRROR_BACKLOG : FRef := ⟨TWN_MIRROR, 16, 0⟩
def TWN_MIRROR_OVERFLOWS : FRef := ⟨TWN_MIRROR, 47, 32⟩
def TWN_COUNTS : Nat := 0x0E010020
def TWN_COUNTS_FAILOVERS : FRef := ⟨TWN_COUNTS, 15, 0⟩
def TWN_COUNTS_HANDOFFS : FRef := ⟨TWN_COUNTS, 31, 16⟩
def TWN_COUNTS_DETACHES : FRef := ⟨TWN_COUNTS, 47, 32⟩
def TWN_COUNTS_JOINS : FRef := ⟨TWN_COUNTS, 63, 48⟩
/-! ### Registers of 17_power_clocks_startup.md -/

def PWR_CFG : Nat := 0x00001000
def PWR_CFG_PLL2_SLEEP : FRef := ⟨PWR_CFG, 0, 0⟩
def CLK_EN (i : Nat) : Nat := 0x00002000 + i * 0x8
def CLK_EN_EN (i : Nat) : FRef := ⟨CLK_EN i, 63, 0⟩
def CLK_KEEP (i : Nat) : Nat := 0x00002018 + i * 0x8
def CLK_KEEP_KEEP (i : Nat) : FRef := ⟨CLK_KEEP i, 63, 0⟩
def CLK_CLASS (i : Nat) : Nat := 0x00002030 + i * 0x8
def CLK_CLASS_IDLE (i : Nat) : FRef := ⟨CLK_CLASS i, 15, 0⟩
def CLK_ON (i : Nat) : Nat := 0x00002090 + i * 0x8
def CLK_ON_ON (i : Nat) : FRef := ⟨CLK_ON i, 63, 0⟩
def CLK_PLL_STATUS : Nat := 0x000020A8
def CLK_PLL_STATUS_LOCK : FRef := ⟨CLK_PLL_STATUS, 7, 0⟩
def CLK_PLL_STATUS_SLEEP : FRef := ⟨CLK_PLL_STATUS, 15, 8⟩
def RST_STATUS : Nat := 0x00003000
def RST_STATUS_CAUSE : FRef := ⟨RST_STATUS, 1, 0⟩
def RST_STATUS_PHASE : FRef := ⟨RST_STATUS, 6, 4⟩
def RST_STATUS_BOOT_SEL : FRef := ⟨RST_STATUS, 7, 7⟩
def RST_STATUS_CHIP_RESETS : FRef := ⟨RST_STATUS, 31, 16⟩
def RST_STATUS_BOOT_TIME : FRef := ⟨RST_STATUS, 63, 32⟩
def RST_CTRL : Nat := 0x00003008
def RST_CTRL_CHIP : FRef := ⟨RST_CTRL, 0, 0⟩
def RST_CTRL_KEY : FRef := ⟨RST_CTRL, 15, 8⟩
def RST_UNIT_PS : Nat := 0x00003010
def RST_UNIT_PS_PS : FRef := ⟨RST_UNIT_PS, 31, 0⟩
def RST_UNIT_CB : Nat := 0x00003018
def RST_UNIT_CB_CB : FRef := ⟨RST_UNIT_CB, 31, 0⟩
def RST_UNIT_VS : Nat := 0x00003020
def RST_UNIT_VS_VS : FRef := ⟨RST_UNIT_VS, 15, 0⟩
def RST_UNIT_AC : Nat := 0x00003028
def RST_UNIT_AC_AC : FRef := ⟨RST_UNIT_AC, 47, 0⟩
/-! ### Registers of 18_register_map.md -/

def RST_IDENT : Nat := 0x00000000
def RST_IDENT_PART : FRef := ⟨RST_IDENT, 15, 0⟩
def RST_IDENT_STEPPING : FRef := ⟨RST_IDENT, 23, 16⟩
def RST_IDENT_LAYOUT : FRef := ⟨RST_IDENT, 31, 24⟩
def RST_IDENT_CHANNELS : FRef := ⟨RST_IDENT, 39, 32⟩
def RST_IDENT_SEQUENCERS : FRef := ⟨RST_IDENT, 47, 40⟩
def RST_IDENT_CORES : FRef := ⟨RST_IDENT, 55, 48⟩
def RST_SERIAL : Nat := 0x00000008
def RST_SERIAL_SERIAL : FRef := ⟨RST_SERIAL, 63, 0⟩
def RST_FW : Nat := 0x00000010
def RST_FW_ROM_VER : FRef := ⟨RST_FW, 31, 0⟩
def RST_FW_FW_VER : FRef := ⟨RST_FW, 63, 32⟩

/-! ### The descriptors, block by block (Tables 18.2 to 18.14) -/

/-- The registers whose address bits [31:24] are 0x00. -/
def regs00 : List RegDesc := [
  ⟨.PWR_CFG, 0x00001000, [], .dev, [fld 0 0 .rw 0]⟩,
  ⟨.CLK_EN, 0x00002000, [(3, 0x8)], .dev, [fld 63 0 .rwp 0xFFFFFFFFFFFFFFFF]⟩,
  ⟨.CLK_KEEP, 0x00002018, [(3, 0x8)], .dev, [fld 63 0 .rwp 0]⟩,
  ⟨.CLK_CLASS, 0x00002030, [(12, 0x8)], .dev, [fld 15 0 .rwp 0x64]⟩,
  ⟨.CLK_ON, 0x00002090, [(3, 0x8)], .dev, [fld 63 0 .ro 0]⟩,
  ⟨.CLK_PLL_STATUS, 0x000020A8, [], .dev, [fld 7 0 .ro 0, fld 15 8 .ro 0]⟩,
  ⟨.RST_STATUS, 0x00003000, [], .dev, [fld 1 0 .ro 0, fld 6 4 .ro 0, fld 7 7 .ro 0, fld 31 16 .ro 0, fld 63 32 .ro 0]⟩,
  ⟨.RST_CTRL, 0x00003008, [], .dev, [fld 0 0 .w1s 0, fld 15 8 .wo 0]⟩,
  ⟨.RST_UNIT_PS, 0x00003010, [], .seqBits, [fld 31 0 .w1s 0]⟩,
  ⟨.RST_UNIT_CB, 0x00003018, [], .cbBits, [fld 31 0 .w1s 0]⟩,
  ⟨.RST_UNIT_VS, 0x00003020, [], .vsBits, [fld 15 0 .w1s 0]⟩,
  ⟨.RST_UNIT_AC, 0x00003028, [], .coreBits, [fld 47 0 .w1s 0]⟩,
  ⟨.RST_IDENT, 0x00000000, [], .dev, [fld 15 0 .ro 0x128, fld 23 16 .ro 0xA0, fld 31 24 .ro 1, fld 39 32 .ro 0x80, fld 47 40 .ro 0x20, fld 55 48 .ro 0x30]⟩,
  ⟨.RST_SERIAL, 0x00000008, [], .dev, [fld 63 0 .ro 0]⟩,
  ⟨.RST_FW, 0x00000010, [], .dev, [fld 31 0 .ro 0, fld 63 32 .ro 0]⟩]

/-- The registers whose address bits [31:24] are 0x01. -/
def regs01 : List RegDesc := [
  ⟨.LNK_PORT_STATUS, 0x01000000, [(4, 0x1000)], .dev, [fld 1 0 .ro 0, fld 3 2 .ro 0, fld 6 4 .ro 0, fld 11 8 .ro 0xF, fld 31 16 .ro 0]⟩,
  ⟨.LNK_PORT_CFG, 0x01000008, [(4, 0x1000)], .dev, [fldL 7 0 .rw 0x14 1 255, fldL 11 8 .rw 8 1 15, fldL 31 16 .rw 0x64 1 65535]⟩,
  ⟨.LNK_PORT_CREDIT, 0x01000010, [(4, 0x1000)], .dev, [fld 7 0 .ro 0x40, fld 17 8 .ro 0x200, fld 31 24 .ro 0, fld 43 32 .ro 0]⟩,
  ⟨.LNK_PORT_ERR, 0x01000018, [(4, 0x1000)], .dev, [fld 15 0 .rw 0, fld 31 16 .rw 0, fld 47 32 .rw 0, fld 63 48 .rw 0]⟩,
  ⟨.LNK_FCP_CFG, 0x01008000, [(8, 0x8)], .dev, [fld 7 0 .rw 0xFF, fld 8 8 .ro 0]⟩,
  ⟨.WRD_STATUS, 0x01100000, [(4, 0x10000)], .ward, [fld 0 0 .ro 0, fld 2 1 .ro 0, fld 3 3 .ro 0, fld 20 8 .ro 0, fld 47 32 .ro 0]⟩,
  ⟨.WRD_REFUSED, 0x01100008, [(4, 0x10000)], .ward, [fld 31 0 .ro 0, fld 39 32 .ro 0, fld 42 40 .ro 0]⟩,
  ⟨.WRD_QSTATUS, 0x01100100, [(4, 0x10000), (8, 0x8)], .ward, [fld 9 0 .ro 0, fld 31 16 .ro 0]⟩,
  ⟨.WRD_QCTL, 0x01100200, [(4, 0x10000), (8, 0x8)], .ward, [fld 0 0 .rw 0, fld 1 1 .wo 0]⟩]

/-- The registers whose address bits [31:24] are 0x02. -/
def regs02 : List RegDesc := [
  ⟨.PS_STATUS, 0x02000000, [(32, 0x100000)], .seq, [fld 2 0 .ro 0, fld 3 3 .ro 0, fld 4 4 .ro 0, fld 5 5 .ro 0, fld 6 6 .ro 0, fld 20 8 .ro 0, fld 36 24 .ro 0, fld 40 40 .ro 0, fld 41 41 .ro 0, fld 42 42 .ro 0, fld 43 43 .ro 0, fld 48 44 .ro 0, fld 54 49 .ro 0]⟩,
  ⟨.PS_CTRL, 0x02000008, [(32, 0x100000)], .seq, [fld 0 0 .w1s 0, fld 1 1 .w1s 0, fld 2 2 .w1s 0, fld 3 3 .w1s 0, fld 4 4 .w1s 0, fld 11 8 .rw 0]⟩,
  ⟨.PS_BURST, 0x02000010, [(32, 0x100000)], .seq, [fld 63 0 .ro 0]⟩,
  ⟨.PS_BURST_END, 0x02000018, [(32, 0x100000)], .seq, [fld 2 0 .ro 0, fld 20 8 .ro 0]⟩,
  ⟨.PS_BEATS, 0x02000020, [(32, 0x100000)], .seq, [fld 63 0 .ro 0]⟩,
  ⟨.PS_CS_ECC, 0x02000028, [(32, 0x100000)], .seq, [fld 15 0 .rw 0, fld 28 16 .ro 0, fld 29 29 .ro 0, fld 44 32 .ro 0]⟩,
  ⟨.PS_FAULT, 0x02000030, [(32, 0x100000)], .seq, [fld 7 0 .ro 0, fld 20 8 .ro 0]⟩,
  ⟨.PS_DBG, 0x02000038, [(32, 0x100000)], .seq, [fld 0 0 .rw 0, fld 1 1 .rw 0, fld 2 2 .rw 0, fld 28 16 .rw 0]⟩,
  ⟨.PS_TRACE_PTR, 0x02000040, [(32, 0x100000)], .seq, [fld 9 0 .ro 0, fld 10 10 .ro 0]⟩,
  ⟨.PS_TRACE, 0x02002000, [(32, 0x100000), (1024, 0x8)], .seq, [fld 12 0 .ro 0, fld 26 13 .ro 0, fld 27 27 .ro 0, fld 28 28 .ro 0, fld 63 32 .ro 0]⟩,
  ⟨.PS_CKPT, 0x02000048, [(32, 0x100000)], .seq, [fld 5 0 .ro 0, fld 6 6 .ro 0, fld 7 7 .ro 0, fld 63 16 .ro 0]⟩,
  ⟨.PS_GR, 0x02000100, [(32, 0x100000), (16, 0x8)], .seq, [fld 63 0 .rw 0]⟩,
  ⟨.PS_LC, 0x02000180, [(32, 0x100000), (8, 0x8)], .seq, [fld 23 0 .rw 0, fld 55 32 .rw 0]⟩,
  ⟨.PS_STACK, 0x02000200, [(32, 0x100000), (16, 0x8)], .seq, [fld 12 0 .ro 0]⟩,
  ⟨.PS_PERIOD, 0x02000800, [(32, 0x100000), (256, 0x8)], .seq, [fld 31 0 .rw 0]⟩,
  ⟨.PS_SQ_ENROL, 0x020C0000, [(64, 0x20)], .square, [fld 31 0 .rwp 0, fld 47 32 .rwp 0, fld 48 48 .rwp 0, fld 49 49 .rwp 0]⟩,
  ⟨.PS_SQ_TRIG, 0x020C0008, [(64, 0x20)], .square, [fld 31 0 .rwp 0]⟩,
  ⟨.PS_SQ_STATUS, 0x020C0010, [(64, 0x20)], .square, [fld 31 0 .ro 0, fld 47 32 .ro 0, fld 48 48 .ro 0, fld 49 49 .ro 0, fld 50 50 .ro 0]⟩,
  ⟨.PS_SQ_COUNT, 0x020C0018, [(64, 0x20)], .square, [fld 31 0 .ro 0, fld 47 32 .ro 0]⟩,
  ⟨.PS_SQ_CTRL, 0x020C0800, [], .dev, [fldL 31 0 .rw 0x100 1 4294967295, fldL 63 32 .rw 0xFA0 1 4294967295]⟩,
  ⟨.APG_CFG, 0x02040000, [(32, 0x100000)], .seq, [fld 0 0 .rw 0, fldL 2 1 .rw 0 0 2, fldL 4 3 .rw 0 0 2, fldL 6 5 .rw 0 0 2, fldL 14 8 .rw 0x40 1 64, fld 19 16 .rw 0]⟩,
  ⟨.APG_X, 0x02040008, [(32, 0x100000)], .seq, [fld 23 0 .rw 0, fld 24 24 .rw 0]⟩,
  ⟨.APG_XA, 0x02040010, [(32, 0x100000)], .seq, [fld 23 0 .rw 0]⟩,
  ⟨.APG_XLIM, 0x02040018, [(32, 0x100000)], .seq, [fld 23 0 .rw 0, fld 55 32 .rw 0xFFFFFF]⟩,
  ⟨.APG_XINC, 0x02040020, [(32, 0x100000)], .seq, [fld 23 0 .rw 1, fld 55 32 .rw 0xFFFFFF]⟩,
  ⟨.APG_Y, 0x02040028, [(32, 0x100000)], .seq, [fld 23 0 .rw 0, fld 24 24 .rw 0]⟩,
  ⟨.APG_YA, 0x02040030, [(32, 0x100000)], .seq, [fld 23 0 .rw 0]⟩,
  ⟨.APG_YLIM, 0x02040038, [(32, 0x100000)], .seq, [fld 23 0 .rw 0, fld 55 32 .rw 0xFFFFFF]⟩,
  ⟨.APG_YINC, 0x02040040, [(32, 0x100000)], .seq, [fld 23 0 .rw 1, fld 55 32 .rw 0xFFFFFF]⟩,
  ⟨.APG_Z, 0x02040048, [(32, 0x100000)], .seq, [fld 7 0 .rw 0, fld 8 8 .rw 0]⟩,
  ⟨.APG_ZA, 0x02040050, [(32, 0x100000)], .seq, [fld 7 0 .rw 0]⟩,
  ⟨.APG_ZLIM, 0x02040058, [(32, 0x100000)], .seq, [fld 7 0 .rw 0, fld 39 32 .rw 0xFF]⟩,
  ⟨.APG_ZINC, 0x02040060, [(32, 0x100000)], .seq, [fld 7 0 .rw 1, fld 39 32 .rw 0xFF]⟩,
  ⟨.APG_D, 0x02040068, [(32, 0x100000)], .seq, [fld 63 0 .rw 0]⟩,
  ⟨.APG_DB, 0x02040070, [(32, 0x100000), (4, 0x8)], .seq, [fld 63 0 .rw 0]⟩,
  ⟨.APG_DPOLY, 0x02040090, [(32, 0x100000)], .seq, [fld 63 0 .rw 0]⟩,
  ⟨.APG_DCMP, 0x02040098, [(32, 0x100000)], .seq, [fld 63 0 .rw 0]⟩,
  ⟨.APG_ASCR, 0x02040100, [(32, 0x100000), (56, 0x8)], .seq, [fld 55 0 .rw 0]⟩,
  ⟨.APG_DSCR, 0x02040300, [(32, 0x100000), (64, 0x8)], .seq, [fld 55 0 .rw 0]⟩,
  ⟨.APG_XMAP, 0x02060000, [(16, 0x400), (128, 0x8)], .chan1, [fld 62 0 .rwp 0]⟩,
  ⟨.APG_PINMASK, 0x02064000, [(2, 0x8)], .chanBits, [fld 63 0 .rw 0]⟩]

/-- The registers whose address bits [31:24] are 0x04. -/
def regs04 : List RegDesc := [
  ⟨.VS_STATUS, 0x04000000, [(16, 0x1000)], .vs, [fld 2 0 .ro 0, fld 3 3 .ro 0, fld 4 4 .ro 0, fld 9 5 .ro 0, fld 10 10 .ro 0, fld 11 11 .ro 0, fld 12 12 .ro 0, fld 18 16 .ro 0, fld 29 24 .ro 0]⟩,
  ⟨.VS_CFG, 0x04000008, [(16, 0x1000)], .vs, [fld 7 0 .rw 0x10, fldL 23 8 .rw 0x64 1 65535]⟩,
  ⟨.VS_POS, 0x04000010, [(16, 0x1000)], .vs, [fld 39 0 .ro 0]⟩,
  ⟨.VS_LEVEL, 0x04000018, [(16, 0x1000)], .vs, [fld 22 0 .ro 0, fld 37 32 .ro 0]⟩,
  ⟨.VS_COUNT, 0x04000020, [(16, 0x1000)], .vs, [fld 47 0 .ro 0]⟩,
  ⟨.VS_UR, 0x04000028, [(16, 0x1000)], .vs, [fld 31 0 .ro 0, fld 47 32 .ro 0]⟩,
  ⟨.VS_ERR, 0x04000030, [(16, 0x1000)], .vs, [fld 7 0 .ro 0, fld 47 8 .ro 0]⟩,
  ⟨.VS_CKPT, 0x04000038, [(16, 0x1000)], .vs, [fld 39 0 .ro 0, fld 40 40 .ro 0, fld 41 41 .ro 0, fld 47 42 .ro 0, fld 53 48 .ro 0]⟩,
  ⟨.VS_CKPT_LOOP, 0x04000040, [(16, 0x1000), (4, 0x8)], .vs, [fld 39 0 .ro 0, fld 63 40 .ro 0]⟩,
  ⟨.VS_ARM_SRC, 0x04000060, [(16, 0x1000)], .vs, [fld 39 0 .ro 0]⟩,
  ⟨.VS_ARM_LEN, 0x04000068, [(16, 0x1000)], .vs, [fld 39 0 .ro 0]⟩,
  ⟨.VS_ARM_RING, 0x04000070, [(16, 0x1000)], .vs, [fld 23 0 .ro 0, fld 47 24 .ro 0]⟩,
  ⟨.VS_ARM_DICT, 0x04000078, [(16, 0x1000)], .vs, [fld 23 0 .ro 0, fld 36 24 .ro 0]⟩]

/-- The registers whose address bits [31:24] are 0x05. -/
def regs05 : List RegDesc := [
  ⟨.CH_CFG, 0x05000000, [(128, 0x10000)], .chan, [fld 0 0 .rw 0, fld 1 1 .rw 0, fld 2 2 .rw 0]⟩,
  ⟨.CH_STATUS, 0x05000008, [(128, 0x10000)], .chan, [fld 0 0 .ro 0, fld 1 1 .ro 0, fld 13 8 .ro 0]⟩,
  ⟨.CH_VIOL, 0x05000010, [(128, 0x10000)], .chan, [fld 31 0 .rw 0]⟩,
  ⟨.CH_VIOL_FIRST, 0x05000018, [(128, 0x10000)], .chan, [fld 47 0 .ro 0, fld 50 48 .ro 0, fld 55 52 .ro 0, fld 58 56 .ro 0]⟩,
  ⟨.CH_CB_STATUS, 0x05004000, [(32, 0x40000)], .cb, [fld 1 0 .ro 0, fld 2 2 .ro 0, fld 3 3 .ro 0, fld 12 8 .ro 0, fld 23 16 .ro 0]⟩,
  ⟨.CH_CB_BEATS, 0x05004008, [(32, 0x40000)], .cb, [fld 63 0 .ro 0]⟩,
  ⟨.CH_CB_T0_LO, 0x05004010, [(32, 0x40000)], .cb, [fld 63 0 .ro 0]⟩,
  ⟨.CH_CB_T0_HI, 0x05004018, [(32, 0x40000)], .cb, [fld 31 0 .ro 0]⟩,
  ⟨.CH_CB_PMIN, 0x05004020, [(32, 0x40000)], .cb, [fld 31 0 .rw 0]⟩,
  ⟨.WT_ENTRY, 0x05008000, [(128, 0x10000), (256, 0x20), (4, 0x8)], .chan, [fld 63 0 .rw 0]⟩]

/-- The registers whose address bits [31:24] are 0x06. -/
def regs06 : List RegDesc := [
  ⟨.CAP_CMP_CFG, 0x06000000, [(128, 0x10)], .chan, [fld 1 0 .rw 0, fld 2 2 .rw 0, fld 3 3 .rw 0, fld 14 8 .rw 0x7F]⟩,
  ⟨.CAP_CH_FAILS, 0x06000008, [(128, 0x10)], .chan, [fld 31 0 .rw 0, fld 47 32 .rw 0]⟩,
  ⟨.CAP_SITE_LIMIT, 0x06001000, [(64, 0x20)], .site, [fldL 31 0 .rw 0x10000 1 4294967295]⟩,
  ⟨.CAP_SITE_STATUS, 0x06001008, [(64, 0x20)], .site, [fld 0 0 .ro 0, fld 1 1 .ro 0, fld 3 2 .ro 0, fld 4 4 .ro 0, fld 12 8 .ro 0, fld 13 13 .ro 0, fld 63 32 .ro 0]⟩,
  ⟨.CAP_SITE_FAILS, 0x06001010, [(64, 0x20)], .site, [fld 47 0 .ro 0]⟩,
  ⟨.CAP_SITE_FIRST, 0x06001018, [(64, 0x20)], .site, [fld 47 0 .ro 0, fld 48 48 .ro 0]⟩,
  ⟨.CAP_ARM_STATUS, 0x06002000, [(32, 0x40)], .seq, [fld 0 0 .ro 0, fld 1 1 .ro 0, fld 2 2 .ro 0, fld 25 16 .ro 0]⟩,
  ⟨.CAP_FCM_AREA, 0x06002008, [(32, 0x40)], .seq, [fld 7 0 .ro 0, fld 15 8 .ro 0]⟩,
  ⟨.CAP_SPILL_BASE, 0x06002010, [(32, 0x40)], .seq, [fld 35 0 .ro 0]⟩,
  ⟨.CAP_SPILL_SIZE, 0x06002018, [(32, 0x40)], .seq, [fld 35 0 .ro 0]⟩,
  ⟨.CAP_FCM_PTR, 0x06002020, [(32, 0x40)], .seq, [fld 31 0 .ro 0, fld 63 32 .rw 0]⟩,
  ⟨.CAP_SPILL_PTR, 0x06002028, [(32, 0x40)], .seq, [fld 31 0 .ro 0, fld 63 32 .rw 0]⟩,
  ⟨.CAP_DELIV, 0x06002030, [(32, 0x40)], .seq, [fld 47 0 .ro 0, fld 48 48 .ro 0]⟩,
  ⟨.CAP_RSEQ, 0x06002038, [(32, 0x40)], .seq, [fld 31 0 .ro 0, fld 63 32 .ro 0]⟩,
  ⟨.CAP_QUEUE, 0x06003000, [], .dev, [fld 10 0 .ro 0, fld 26 16 .rw 0, fld 63 32 .rw 0]⟩,
  ⟨.CAP_SHUT_CFG, 0x06004000, [], .shutter, [fld 0 0 .rw 0, fld 1 1 .rw 0, fld 4 2 .rw 0, fldL 15 8 .rw 0x14 1 255, fld 39 16 .rw 0, fld 63 40 .rw 0]⟩,
  ⟨.CAP_SHUT_CH0, 0x06004008, [], .shutter, [fld 6 0 .rw 0, fld 7 7 .rw 0, fld 14 8 .rw 0, fld 15 15 .rw 0, fld 22 16 .rw 0, fld 23 23 .rw 0, fld 30 24 .rw 0, fld 31 31 .rw 0, fld 38 32 .rw 0, fld 39 39 .rw 0, fld 46 40 .rw 0, fld 47 47 .rw 0, fld 54 48 .rw 0, fld 55 55 .rw 0, fld 62 56 .rw 0, fld 63 63 .rw 0]⟩,
  ⟨.CAP_SHUT_CH1, 0x06004010, [], .shutter, [fld 6 0 .rw 0, fld 7 7 .rw 0, fld 14 8 .rw 0, fld 15 15 .rw 0, fld 22 16 .rw 0, fld 23 23 .rw 0, fld 30 24 .rw 0, fld 31 31 .rw 0, fld 38 32 .rw 0, fld 39 39 .rw 0, fld 46 40 .rw 0, fld 47 47 .rw 0, fld 54 48 .rw 0, fld 55 55 .rw 0, fld 62 56 .rw 0, fld 63 63 .rw 0]⟩,
  ⟨.CAP_SHUT_STATUS, 0x06004018, [], .shutter, [fld 1 0 .ro 0, fld 2 2 .ro 0, fld 12 8 .ro 0, fld 47 16 .ro 0]⟩,
  ⟨.CAP_SHUT_RAW_BASE, 0x06004020, [], .shutter, [fld 35 0 .rw 0]⟩,
  ⟨.CAP_SHUT_RAW_SIZE, 0x06004028, [], .shutter, [fld 35 0 .rw 0]⟩,
  ⟨.CAP_SHUT_RAW_PTR, 0x06004030, [], .shutter, [fld 31 0 .ro 0, fld 63 32 .rw 0]⟩,
  ⟨.CAP_SHUT_RAW_DROP, 0x06004038, [], .shutter, [fld 31 0 .rw 0]⟩,
  ⟨.CAP_SHUT_SUM, 0x06004100, [(16, 0x8)], .shutter, [fld 4 0 .ro 0, fld 9 5 .ro 0, fld 14 10 .ro 0, fld 19 15 .ro 0, fld 20 20 .ro 0, fld 21 21 .ro 0, fld 63 32 .ro 0]⟩,
  ⟨.CAP_SHUT_HIST, 0x06008000, [(16, 0x200), (64, 0x8)], .shutter, [fld 31 0 .ro 0]⟩]

/-- The registers whose address bits [31:24] are 0x07. -/
def regs07 : List RegDesc := [
  ⟨.DSP_CFG, 0x07000000, [], .dev, [fld 15 0 .rw 0x100, fld 47 32 .rw 0]⟩,
  ⟨.DSP_STATUS, 0x07000008, [], .dev, [fld 13 0 .ro 0, fld 26 16 .ro 0, fld 42 32 .rw 0]⟩,
  ⟨.DSP_STALL, 0x07000010, [], .dev, [fld 31 0 .rw 0, fld 63 32 .rw 0]⟩,
  ⟨.DSP_ECC, 0x07000018, [], .dev, [fld 15 0 .rw 0, fld 16 16 .ro 0, fld 44 32 .ro 0]⟩,
  ⟨.DSP_WARD, 0x07000100, [(4, 0x8)], .ward, [fld 13 0 .ro 0, fld 29 16 .ro 0]⟩,
  ⟨.DSP_CTX_STATUS, 0x07080000, [(1024, 0x20)], .ctx, [fld 2 0 .ro 0, fld 10 4 .ro 0, fld 21 16 .ro 0, fld 31 24 .ro 0, fld 44 32 .ro 0, fld 53 48 .ro 0]⟩,
  ⟨.DSP_CTX_GRAPH, 0x07080008, [(1024, 0x20)], .ctx, [fld 13 0 .ro 0, fld 29 16 .ro 0, fld 63 32 .ro 0]⟩,
  ⟨.DSP_CTX_JSEQ, 0x07080010, [(1024, 0x20)], .ctx, [fld 63 0 .ro 0]⟩,
  ⟨.DSP_CTX_POSTS, 0x07080018, [(1024, 0x20)], .ctx, [fld 31 0 .ro 0, fld 63 32 .ro 0]⟩,
  ⟨.DSP_SLOT, 0x07100000, [(8192, 0x8)], .slot, [fld 2 0 .ro 0, fld 31 16 .ro 0, fld 41 32 .ro 0, fld 60 48 .ro 0]⟩,
  ⟨.AC_STATUS, 0x07400000, [(48, 0x100)], .core, [fld 1 0 .ro 0, fld 28 16 .ro 0, fld 41 32 .ro 0, fld 63 48 .ro 0]⟩,
  ⟨.AC_TRAP, 0x07400008, [(48, 0x100)], .core, [fld 7 0 .ro 0, fld 28 16 .ro 0]⟩,
  ⟨.AC_TRAP_PC, 0x07400010, [(48, 0x100)], .core, [fld 63 0 .ro 0]⟩,
  ⟨.AC_TRAP_VAL, 0x07400018, [(48, 0x100)], .core, [fld 63 0 .ro 0]⟩,
  ⟨.AC_LM_ECC, 0x07400020, [(48, 0x100)], .core, [fld 15 0 .rw 0, fld 30 16 .ro 0, fld 32 32 .ro 0, fld 47 33 .ro 0]⟩,
  ⟨.AC_RUNS, 0x07400028, [(48, 0x100)], .core, [fld 31 0 .ro 0, fld 63 32 .ro 0]⟩,
  ⟨.AC_BUSY, 0x07400030, [(48, 0x100)], .core, [fld 63 0 .ro 0]⟩]

/-- The registers whose address bits [31:24] are 0x08. -/
def regs08 : List RegDesc := [
  ⟨.MEM_CFG, 0x08000000, [], .dev, [fld 3 0 .rw 1, fldL 6 4 .rw 1 0 4, fldL 11 8 .rw 4 1 15, fld 15 12 .rw 0xC, fldL 18 16 .rw 4 1 4]⟩,
  ⟨.MEM_STATUS, 0x08000008, [], .dev, [fld 16 0 .ro 0, fld 20 20 .ro 0, fld 21 21 .ro 0]⟩,
  ⟨.MEM_SRAM_ECC, 0x08000010, [], .dev, [fld 15 0 .rw 0, fld 16 16 .ro 0, fld 63 24 .ro 0]⟩,
  ⟨.MEM_RANGE_ERR, 0x08000018, [], .dev, [fld 15 0 .rw 0, fld 23 16 .ro 0, fld 63 28 .ro 0]⟩,
  ⟨.DRC_CFG, 0x08010000, [(4, 0x1000)], .dev, [fld 0 0 .rw 0, fld 1 1 .rw 0, fld 2 2 .rw 0, fldL 10 8 .rw 0 0 4]⟩,
  ⟨.DRC_CTRL, 0x08010008, [(4, 0x1000)], .dev, [fld 0 0 .w1s 0, fld 1 1 .rw 0]⟩,
  ⟨.DRC_STATUS, 0x08010010, [(4, 0x1000)], .dev, [fld 2 0 .ro 0, fld 3 3 .ro 0, fld 6 4 .ro 0, fld 10 8 .ro 0]⟩,
  ⟨.DRC_ECC, 0x08010018, [(4, 0x1000)], .dev, [fld 15 0 .rw 0, fld 16 16 .ro 0, fld 17 17 .ro 0, fld 63 28 .ro 0]⟩,
  ⟨.DRC_STAT, 0x08010020, [(4, 0x1000)], .dev, [fld 31 0 .rw 0, fld 63 32 .rw 0]⟩,
  ⟨.DRC_TRAIN_CA, 0x08010028, [(4, 0x1000)], .dev, [fld 7 0 .rw 0, fld 15 8 .rw 0]⟩,
  ⟨.DRC_TRAIN_DQ, 0x08010100, [(4, 0x1000), (40, 0x8)], .dev, [fld 7 0 .rw 0, fld 15 8 .ro 0, fld 23 16 .rw 0, fld 31 24 .ro 0, fld 39 32 .rw 0, fld 47 40 .rw 0]⟩]

/-- The registers whose address bits [31:24] are 0x09. -/
def regs09 : List RegDesc := [
  ⟨.LN_CFG, 0x09000000, [(16, 0x100)], .dev, [fld 0 0 .rw 0, fld 1 1 .rw 0, fld 2 2 .rw 0, fldL 15 8 .rw 0xA 1 255]⟩,
  ⟨.LN_STATUS, 0x09000008, [(16, 0x100)], .dev, [fld 2 0 .ro 0, fld 3 3 .ro 0, fld 6 4 .ro 0, fld 9 8 .ro 0, fld 20 16 .ro 0, fld 26 24 .ro 0]⟩,
  ⟨.LN_ERR, 0x09000010, [(16, 0x100)], .dev, [fld 15 0 .rw 0, fld 31 16 .rw 0, fld 47 32 .rw 0, fld 63 48 .rw 0]⟩,
  ⟨.LN_EQ, 0x09000018, [(16, 0x100)], .dev, [fld 3 0 .rw 0, fld 12 8 .rw 6, fld 19 16 .rw 8]⟩,
  ⟨.LN_TEST, 0x09000020, [(16, 0x100)], .dev, [fld 1 0 .rw 0, fld 3 2 .rw 0, fld 4 4 .w1s 0, fld 11 8 .rw 0, fld 12 12 .w1s 0]⟩,
  ⟨.LN_PRBS, 0x09000028, [(16, 0x100)], .dev, [fld 31 0 .rw 0, fld 32 32 .ro 0]⟩,
  ⟨.LN_PRBS_BITS, 0x09000030, [(16, 0x100)], .dev, [fld 63 0 .rw 0]⟩,
  ⟨.LN_EYE_CTRL, 0x09000038, [(16, 0x100)], .dev, [fld 0 0 .w1s 0, fld 1 1 .rw 0, fld 14 8 .rw 0, fld 22 16 .rw 0, fldL 29 24 .rw 0x18 20 40]⟩,
  ⟨.LN_EYE_RESULT, 0x09000040, [(16, 0x100)], .dev, [fld 0 0 .ro 0, fld 1 1 .ro 0, fld 39 8 .ro 0, fld 46 40 .ro 0, fld 54 48 .ro 0, fld 62 56 .ro 0]⟩,
  ⟨.LN_GRP_STATUS, 0x09008000, [(7, 0x40)], .dev, [fld 1 0 .ro 0, fld 4 2 .ro 0, fld 7 5 .ro 0, fld 11 8 .ro 0, fld 15 12 .ro 0, fld 47 32 .rw 0, fld 63 48 .rw 0]⟩,
  ⟨.LN_GRP_CFG, 0x09008008, [(7, 0x40)], .dev, [fld 4 0 .rw 0x1F, fldL 15 8 .rw 0x64 20 255, fldL 31 16 .rw 0x3E8 100 65535, fldL 39 32 .rw 0xA 1 255]⟩]

/-- The registers whose address bits [31:24] are 0x0A. -/
def regs0A : List RegDesc := [
  ⟨.TB_CFG, 0x0A000000, [], .dev, [fldL 1 0 .rw 0 0 2, fld 15 8 .rw 0, fldL 20 16 .rw 0xA 4 20, fld 47 32 .rw 0]⟩,
  ⟨.TB_SERVO, 0x0A000008, [], .dev, [fld 31 0 .rw 0x8000000, fld 63 32 .rw 0x800000]⟩,
  ⟨.TB_LIMITS, 0x0A000010, [], .dev, [fldL 15 0 .rw 0xA 1 65535, fldL 23 16 .rw 0x10 1 255, fldL 31 24 .rw 4 1 255, fld 63 32 .rw 0x3E8]⟩,
  ⟨.TB_ASYM, 0x0A000018, [], .dev, [fld 31 0 .rw 0]⟩,
  ⟨.TB_CTRL, 0x0A000020, [], .dev, [fld 0 0 .w1s 0]⟩,
  ⟨.TB_STATUS, 0x0A000028, [], .dev, [fld 2 0 .ro 0, fld 5 4 .ro 2, fld 6 6 .ro 0, fld 7 7 .ro 0, fld 8 8 .ro 0, fld 9 9 .ro 0, fld 10 10 .w1c 0, fld 11 11 .w1c 0, fld 23 16 .ro 0]⟩,
  ⟨.TB_TIME_LO, 0x0A000030, [], .dev, [fld 63 0 .ro 0]⟩,
  ⟨.TB_TIME_HI, 0x0A000038, [], .dev, [fld 31 0 .ro 0]⟩,
  ⟨.TB_RATE, 0x0A000040, [], .dev, [fld 39 0 .ro 0]⟩,
  ⟨.TB_OFFSET, 0x0A000048, [], .dev, [fld 63 0 .ro 0]⟩,
  ⟨.TB_PATH, 0x0A000050, [], .dev, [fld 63 0 .ro 0]⟩,
  ⟨.TB_SLEW, 0x0A000058, [], .dev, [fld 63 0 .ro 0]⟩,
  ⟨.TB_COUNTS, 0x0A000060, [], .dev, [fld 31 0 .rw 0, fld 47 32 .rw 0, fld 63 48 .rw 0]⟩,
  ⟨.TB_REFCLK, 0x0A000068, [], .dev, [fld 15 0 .ro 0, fld 31 16 .rw 0]⟩,
  ⟨.TB_TRIG_CFG, 0x0A001000, [(32, 0x40)], .trig, [fld 5 0 .rw 0, fld 8 8 .rw 0, fld 63 32 .rw 1]⟩,
  ⟨.TB_TRIG_DELAY, 0x0A001008, [(32, 0x40)], .trig, [fld 47 0 .rw 0]⟩,
  ⟨.TB_TRIG_PERIOD, 0x0A001010, [(32, 0x40)], .trig, [fld 47 0 .rw 0]⟩,
  ⟨.TB_TRIG_STATUS, 0x0A001018, [(32, 0x40)], .trig, [fld 1 0 .ro 0, fld 2 2 .ro 0, fld 3 3 .ro 0, fld 6 4 .ro 0, fld 31 16 .rw 0, fld 63 32 .ro 0]⟩,
  ⟨.TB_TRIG_NEXT_LO, 0x0A001020, [(32, 0x40)], .trig, [fld 63 0 .ro 0]⟩,
  ⟨.TB_TRIG_NEXT_HI, 0x0A001028, [(32, 0x40)], .trig, [fld 31 0 .ro 0]⟩,
  ⟨.TIM_IN_CFG, 0x0A003000, [(4, 0x8)], .tmi, [fld 0 0 .rw 1, fld 2 1 .rw 0, fld 3 3 .rw 0]⟩,
  ⟨.TIM_CFG, 0x0A004000, [(8, 0x100)], .tim, [fldL 3 0 .rw 0 0 4, fld 4 4 .rw 0, fld 14 8 .rw 0, fld 21 16 .rw 0, fldL 27 24 .rw 0 0 4, fld 28 28 .rw 0, fld 38 32 .rw 0, fld 39 39 .rw 0, fld 45 40 .rw 0, fld 63 48 .rw 0]⟩,
  ⟨.TIM_BCOUNT, 0x0A004058, [(8, 0x100)], .tim, [fldL 24 0 .rw 1 1 16777216]⟩,
  ⟨.TIM_STATUS, 0x0A004008, [(8, 0x100)], .tim, [fld 1 0 .ro 0, fld 2 2 .ro 0, fld 6 4 .ro 0, fld 32 8 .ro 0, fld 57 33 .ro 0]⟩,
  ⟨.TIM_LAST, 0x0A004010, [(8, 0x100)], .tim, [fld 36 0 .ro 0, fld 37 37 .ro 0, fld 38 38 .ro 0, fld 39 39 .ro 0]⟩,
  ⟨.TIM_MIN, 0x0A004018, [(8, 0x100)], .tim, [fld 36 0 .ro 0x1FFFFFFFFF]⟩,
  ⟨.TIM_MAX, 0x0A004020, [(8, 0x100)], .tim, [fld 36 0 .ro 0]⟩,
  ⟨.TIM_SUM, 0x0A004028, [(8, 0x100)], .tim, [fld 63 0 .ro 0]⟩,
  ⟨.TIM_SUMSQ_LO, 0x0A004030, [(8, 0x100)], .tim, [fld 63 0 .ro 0]⟩,
  ⟨.TIM_SUMSQ_HI, 0x0A004038, [(8, 0x100)], .tim, [fld 63 0 .ro 0]⟩,
  ⟨.TIM_MEAN, 0x0A004040, [(8, 0x100)], .tim, [fld 44 0 .ro 0]⟩,
  ⟨.TIM_SD, 0x0A004048, [(8, 0x100)], .tim, [fld 44 0 .ro 0]⟩,
  ⟨.TIM_COUNTS, 0x0A004050, [(8, 0x100)], .tim, [fld 15 0 .rw 0, fld 31 16 .rw 0, fld 47 32 .rw 0, fld 63 48 .rw 0]⟩]

/-- The registers whose address bits [31:24] are 0x0B. -/
def regs0B : List RegDesc := [
  ⟨.ADC_STATUS, 0x0B000000, [], .dev, [fld 2 0 .ro 0, fld 12 8 .ro 0, fld 17 16 .ro 0, fld 27 24 .ro 0]⟩,
  ⟨.ADC_COUNTS, 0x0B000008, [], .dev, [fld 15 0 .rw 0, fld 31 16 .rw 0, fld 47 32 .rw 0, fld 63 48 .rw 0]⟩,
  ⟨.ADC_CORR, 0x0B000100, [(4, 0x40), (8, 0x8)], .dev, [fld 15 0 .rw 0, fld 31 16 .rw 0x8000, fld 39 32 .rw 0]⟩,
  ⟨.ACQ_CFG, 0x0B001000, [], .dev, [fld 15 0 .rw 0xA]⟩,
  ⟨.ACQ_CTRL, 0x0B001008, [], .acq, [fld 0 0 .w1s 0]⟩,
  ⟨.ACQ_STATUS, 0x0B001010, [], .dev, [fld 2 0 .ro 0, fld 3 3 .ro 0, fld 4 4 .ro 0, fld 5 5 .ro 0, fld 10 8 .ro 0, fld 17 16 .ro 0, fld 31 24 .ro 0, fld 63 32 .ro 0]⟩,
  ⟨.ACQ_PTR, 0x0B001018, [], .acq, [fld 31 0 .ro 0, fld 63 32 .rw 0]⟩,
  ⟨.ACQ_COUNTS, 0x0B001020, [], .dev, [fld 15 0 .rw 0, fld 31 16 .rw 0, fld 47 32 .rw 0]⟩,
  ⟨.THM_CFG, 0x0B002000, [], .dev, [fldL 15 0 .rw 0x3E8 200 65535, fld 16 16 .rw 0, fld 31 24 .rw 1]⟩,
  ⟨.THM_LIMITS, 0x0B002008, [], .dev, [fld 15 0 .rw 0xA0, fld 31 16 .rw 0x190, fldL 47 32 .rw 0x64 10 10000]⟩,
  ⟨.THM_BAND, 0x0B002010, [], .dev, [fld 7 0 .rw 0x28, fld 15 8 .rw 0x41, fld 23 16 .rw 0x55]⟩,
  ⟨.THM_STATUS, 0x0B002018, [], .dev, [fld 1 0 .ro 3, fld 2 2 .ro 0, fld 3 3 .ro 0, fld 23 8 .ro 0, fld 39 24 .ro 0x640]⟩,
  ⟨.THM_MODEL, 0x0B002020, [], .dev, [fld 15 0 .rw 0x640, fld 31 16 .rw 0x1F4, fldL 47 32 .rw 0x7D0 1 65535]⟩,
  ⟨.THM_TS_CFG, 0x0B002100, [(8, 0x10)], .dev, [fldL 1 0 .rw 0 0 2, fld 31 16 .rw 0x4000, fld 47 32 .rw 0x3E8, fld 63 48 .rw 0xD6B]⟩,
  ⟨.THM_TEMP, 0x0B002108, [(8, 0x10)], .dev, [fld 15 0 .ro 0, fld 16 16 .ro 0, fld 47 32 .ro 0]⟩]

/-- The registers whose address bits [31:24] are 0x0C. -/
def regs0C : List RegDesc := [
  ⟨.FLT_STATUS, 0x0C000000, [], .dev, [fld 0 0 .ro 0, fld 1 1 .ro 0, fld 3 2 .ro 0, fld 4 4 .ro 0, fld 5 5 .ro 0]⟩,
  ⟨.FLT_SUMMARY, 0x0C000008, [], .dev, [fld 31 0 .ro 0]⟩,
  ⟨.FLT_STORM, 0x0C000010, [], .dev, [fld 31 0 .w1c 0]⟩,
  ⟨.FLT_CTRL, 0x0C000018, [], .dev, [fld 0 0 .rw 0, fld 1 1 .w1s 0]⟩,
  ⟨.FLT_CFG, 0x0C000020, [], .dev, [fldL 15 0 .rwp 0x64 1 65535]⟩,
  ⟨.FLT_FE, 0x0C000028, [], .dev, [fld 9 0 .ro 0, fld 25 16 .ro 0, fld 27 26 .ro 0, fld 28 28 .ro 0, fld 29 29 .ro 0, fld 30 30 .ro 0, fld 31 31 .ro 0, fld 37 32 .ro 0]⟩,
  ⟨.FLT_FE_STAMP_LO, 0x0C000030, [], .dev, [fld 63 0 .ro 0]⟩,
  ⟨.FLT_FE_STAMP_HI, 0x0C000038, [], .dev, [fld 31 0 .ro 0]⟩,
  ⟨.FLT_LOG_PTR, 0x0C000040, [], .dev, [fld 5 0 .ro 0, fld 6 6 .ro 0]⟩,
  ⟨.FLT_LOG_INFO, 0x0C000200, [(64, 0x20)], .dev, [fld 9 0 .ro 0, fld 11 10 .ro 0, fld 12 12 .ro 0, fld 13 13 .ro 0, fld 14 14 .ro 0, fld 25 16 .ro 0, fld 63 32 .ro 0]⟩,
  ⟨.FLT_LOG_STAMP_LO, 0x0C000208, [(64, 0x20)], .dev, [fld 63 0 .ro 0]⟩,
  ⟨.FLT_LOG_STAMP_HI, 0x0C000210, [(64, 0x20)], .dev, [fld 31 0 .ro 0]⟩,
  ⟨.FLT_GRP_REAL, 0x0C001000, [(32, 0x20)], .sourceBits, [fld 31 0 .w1c 0]⟩,
  ⟨.FLT_GRP_FORCED, 0x0C001008, [(32, 0x20)], .sourceBits, [fld 31 0 .w1c 0]⟩,
  ⟨.FLT_GRP_CONSEQ, 0x0C001010, [(32, 0x20)], .sourceBits, [fld 31 0 .ro 0]⟩,
  ⟨.FLT_GRP_CNT, 0x0C001018, [(32, 0x20)], .dev, [fld 31 0 .rw 0, fld 47 32 .rw 0]⟩,
  ⟨.FLT_REACT, 0x0C002000, [(1024, 0x8)], .source, [fldL 2 0 .rwp 0 0 5, fld 3 3 .rwp 0, fld 4 4 .rwp 0, fld 7 6 .rwp 0]⟩,
  ⟨.FLT_RAISE, 0x0C004000, [(19, 0x8)], .raiseBits, [fld 31 0 .w1s 0]⟩]

/-- The registers whose address bits [31:24] are 0x0D. -/
def regs0D : List RegDesc := [
  ⟨.CAL_CFG, 0x0D000000, [], .dev, [fldL 7 0 .rw 8 1 255, fld 8 8 .rw 1, fld 23 16 .rw 0x20]⟩,
  ⟨.CAL_STATUS, 0x0D000008, [], .dev, [fld 2 0 .ro 0, fld 15 8 .ro 0, fld 23 16 .ro 0]⟩,
  ⟨.CAL_ADC_Q, 0x0D000010, [(4, 0x8)], .dev, [fld 15 0 .rw 0, fld 16 16 .rw 0]⟩,
  ⟨.CAL_LN_Q, 0x0D000100, [(16, 0x8)], .dev, [fld 6 0 .rw 0, fld 7 7 .rw 0, fld 11 8 .rw 0]⟩,
  ⟨.CAL_CH_TAB, 0x0D020000, [(128, 0x20), (4, 0x8)], .chan, [fld 15 0 .rw 0, fld 31 16 .rw 0, fld 47 32 .rw 0, fld 55 48 .rw 0, fld 56 56 .rw 0]⟩,
  ⟨.CAL_CH_USER, 0x0D010000, [(128, 0x8)], .chan, [fld 15 0 .rw 0, fld 31 16 .rw 0, fld 47 32 .rw 0]⟩,
  ⟨.CAL_CH_NOW, 0x0D010400, [(128, 0x8)], .chan, [fld 15 0 .ro 0, fld 31 16 .ro 0, fld 47 32 .ro 0, fld 48 48 .ro 0]⟩]

/-- The registers whose address bits [31:24] are 0x0E. -/
def regs0E : List RegDesc := [
  ⟨.JNL_PLAN_STATUS, 0x0E080000, [], .dev, [fld 0 0 .ro 0, fld 1 1 .ro 0, fld 2 2 .ro 0, fld 3 3 .ro 0, fld 6 4 .ro 0, fld 7 7 .ro 0, fld 8 8 .ro 0, fld 9 9 .ro 0, fld 10 10 .ro 0, fld 11 11 .ro 0, fld 23 16 .ro 0]⟩,
  ⟨.JNL_PLAN_DIAG, 0x0E080008, [], .dev, [fld 7 0 .ro 0, fld 15 8 .ro 0xFF, fld 47 16 .ro 0]⟩,
  ⟨.JNL_PLAN_ID, 0x0E080010, [], .dev, [fld 63 0 .ro 0]⟩,
  ⟨.JNL_PLAN_PENDING_ID, 0x0E080018, [], .dev, [fld 63 0 .ro 0]⟩,
  ⟨.JNL_PLAN_CRC, 0x0E080020, [], .dev, [fld 31 0 .ro 0, fld 63 32 .ro 0]⟩,
  ⟨.JNL_PLAN_SEALS, 0x0E080028, [], .dev, [fld 31 0 .ro 0]⟩,
  ⟨.JNL_HEAD, 0x0E000000, [], .dev, [fld 63 0 .ro 0]⟩,
  ⟨.JNL_STATUS, 0x0E000008, [], .dev, [fld 2 0 .ro 0, fld 7 4 .ro 0, fld 8 8 .ro 0, fld 9 9 .ro 0, fld 16 16 .ro 0, fld 63 32 .ro 0]⟩,
  ⟨.JNL_WEAR, 0x0E000010, [], .dev, [fld 31 0 .ro 0, fld 63 32 .rw 0]⟩,
  ⟨.JNL_RA, 0x0E000018, [], .dev, [fld 35 0 .ro 0]⟩,
  ⟨.JNL_REC, 0x0E400000, [(196608, 0x40), (8, 0x8)], .record, [fld 63 0 .ro 0]⟩,
  ⟨.TWN_CFG, 0x0E010000, [], .dev, [fldL 15 0 .rw 0x14 5 1000]⟩,
  ⟨.TWN_STATUS, 0x0E010008, [], .dev, [fld 1 0 .ro 0, fld 2 2 .ro 0, fld 3 3 .ro 0, fld 4 4 .ro 0, fld 5 5 .ro 0, fld 6 6 .ro 0, fld 15 8 .ro 0]⟩,
  ⟨.TWN_CKPT, 0x0E010010, [], .dev, [fld 5 0 .ro 0, fld 6 6 .ro 0, fld 39 8 .ro 0]⟩,
  ⟨.TWN_MIRROR, 0x0E010018, [], .dev, [fld 16 0 .ro 0, fld 47 32 .rw 0]⟩,
  ⟨.TWN_COUNTS, 0x0E010020, [], .dev, [fld 15 0 .rw 0, fld 31 16 .rw 0, fld 47 32 .rw 0, fld 63 48 .rw 0]⟩]

/-- The descriptors of the block that address bits [31:24] name. -/
def blockRegs : Nat → List RegDesc
  | 0x00 => regs00
  | 0x01 => regs01
  | 0x02 => regs02
  | 0x04 => regs04
  | 0x05 => regs05
  | 0x06 => regs06
  | 0x07 => regs07
  | 0x08 => regs08
  | 0x09 => regs09
  | 0x0A => regs0A
  | 0x0B => regs0B
  | 0x0C => regs0C
  | 0x0D => regs0D
  | 0x0E => regs0E
  | _ => []

/-- The instance indices of offset `o` under the given counts and strides, if `o` is a register's address. -/
def splitIdx : List (Nat × Nat) → Nat → Option (List Nat)
  | [], o => if o = 0 then some [] else none
  | (c, s) :: t, o =>
    let q := o / s
    if q < c then (splitIdx t (o % s)).map (q :: ·) else none

/-- The register at an address and its instance indices. -/
def findReg : List RegDesc → Nat → Option (RegDesc × List Nat)
  | [], _ => none
  | d :: t, a =>
    if d.base ≤ a then
      match splitIdx d.dims (a - d.base) with
      | some ix => some (d, ix)
      | none => findReg t a
    else findReg t a

/-- The block an address selects: bits [31:24], with the stream-engine and channel blocks extended
over the higher addresses of their ranges (Table 0.4). -/
def blockOf (a : Nat) : Nat :=
  let b := a / 2 ^ 24
  if b = 0x03 then 0x02 else b

/-- The register at an address, if there is one (R8, R377). -/
def regAt (a : Nat) : Option (RegDesc × List Nat) := findReg (blockRegs (blockOf a)) a

/-- Severity of a fault source of Table 15.1, 16.9 or 17.7; none if unimplemented. -/
def srcSevFixed (i : Nat) : Option Nat :=
  if i < 160 then some 2 else if i < 208 then some 1 else if i < 256 then some 2
  else if i = 256 then some 1 else if i = 257 then some 2 else if i = 258 then some 1
  else if i = 259 ∨ i = 260 then some 2
  else if 264 ≤ i ∧ i ≤ 267 then some 1 else if 268 ≤ i ∧ i ≤ 275 then some 2
  else if 288 ≤ i ∧ i ≤ 303 then some 1 else if 304 ≤ i ∧ i ≤ 310 then some 2
  else if i = 320 ∨ i = 322 then some 3 else if i = 321 ∨ i = 324 ∨ i = 325 then some 0
  else if i = 323 ∨ (328 ≤ i ∧ i ≤ 335) then some 2
  else if i = 352 ∨ i = 354 ∨ i = 361 ∨ i = 362 then some 2
  else if i = 353 then some 1
  else if i = 355 ∨ i = 359 ∨ i = 360 ∨ i = 363 then some 3
  else if i = 356 ∨ i = 357 ∨ i = 358 then some 0
  else if i = 384 ∨ i = 385 ∨ i = 395 then some 3
  else if 386 ≤ i ∧ i ≤ 392 then some 2
  else if i = 393 then some 1 else if i = 394 then some 2
  else none

/-- A source index the device implements (R311); the user sources are 416 to 1023. -/
def srcImplemented (i : Nat) : Bool := (srcSevFixed i).isSome || (decide (416 ≤ i) && decide (i < 1024))

/-- The reset value of FLT_REACT(i): Table 15.4 by severity, with SEV in bits [7:6]. -/
def reactReset (i : Nat) : Nat :=
  match srcSevFixed i with
  | some 1 => 0x48
  | some 2 => 0x99
  | some 3 => 0xDC
  | some _ => 0x08
  | none => if 416 ≤ i ∧ i < 1024 then 0x08 else 0

/-- The reset value of a register: its fields' reset values packed (R377), and the rows whose reset value
depends on the instance. -/
def resetOf (d : RegDesc) (ix : List Nat) : Nat :=
  match d.name, ix with
  | .APG_ASCR, [_, i] => 2 ^ i
  | .THM_TS_CFG, [0] => 0x0D6B03E840000001
  | .FLT_REACT, [i] => reactReset i
  | .CLK_EN, [2] => 0x7FFF
  | .CLK_ON, [0] => 1
  | _, _ => d.flds.foldl (fun a f => a ||| (f.rst <<< f.lo)) 0

/-- The reset value of the register at an address; 0 where there is no register. -/
def resetAt (a : Nat) : Word :=
  match regAt a with
  | some (d, ix) => BitVec.ofNat 64 (resetOf d ix)
  | none => 0#64

end Sys2Proof.Machine
end

