-- ==== Sys2Proof/Machine/State.lean ====
section
/-! DEFINITION. The state of the block as plain data, the reasons a step can stop, and the state after power-on reset.
Register fields are held in `regs` at their addresses; what is here beside them is the state that the rules name and no
register shows, or that a register shows only in part. -/

namespace Sys2Proof.Machine

/-- Why a step stops. -/
inductive Fault where
  /-- Raised by no command: every condition the manual reports is an effect on State. Safe. -/
  | none
deriving DecidableEq, Repr

/-- Why a command is refused by the model. -/
inductive Refusal where
  /-- The dispatcher answers this for a command without a meaning yet. Safe: the model claims nothing of it. -/
  | notModelled (mnemonic : String)
deriving DecidableEq, Repr

/-! ### Link and Wards (chapter Host link, Wards and commands) -/

/-- A data frame the device has sent or is to send: its header fields and payload, and how many event records of
which Ward it carries (R46, R60). -/
structure TxFrame where
  seq : BitVec 16
  type : Byte
  status : Byte
  tag : BitVec 16
  queue : Byte
  payload : List Byte
  evWard : Option (Fin 4)
  evCount : Nat
deriving DecidableEq, Repr

/-- A response or CMD_ACK that a host port owes, in arrival order (R51, R57): `wait` names the front-end transfer or the command
that it waits for, none once it is ready. -/
structure Owed where
  wait : Option Nat
  frame : TxFrame
deriving DecidableEq, Repr

/-- Link state of one frame port (R44 to R48): sequence numbers, credits in both directions, replay buffer,
data frames that wait for credit or buffer space, the responses and CMD_ACK frames owed in order, the sequence errors of a port
whose count no register shows, and the CMD frames that came before the queues accept commands (R371). Index 0 to 3: host ports; 4: twin link; 5, 6: sync ring. -/
structure Port where
  rxNext : BitVec 16
  nakSent : Bool
  txNext : BitVec 16
  replay : List TxFrame
  txq : List TxFrame
  crdHdr : Nat
  crdData : Nat
  peerHdr : Nat
  peerData : Nat
  owedHdr : Nat
  owedData : Nat
  replays : Nat
  holding : Bool
  resps : List Owed
  acks : List Owed
  seqErrs : Nat
  early : List Frame
deriving DecidableEq, Repr

/-- An event record (Table 3.7); `data` is what follows the CMD_DONE record of a PLAN_READ (R55). -/
structure Ev where
  code : Nat
  queue : Nat
  status : Nat
  tag : Nat
  jseq : Nat
  stamp : Stamp
  arg : Nat
  data : List Byte
deriving DecidableEq, Repr

/-- One Ward's event queue (R60), kept in stamp order; `flight` records at its front are in frames not yet
acknowledged; `haltedByPorter` is the mask of queues whose HALT Porter set (R341). -/
structure WardSt where
  evq : List Ev
  flight : Nat
  lost : Nat
  haltedByPorter : Nat
deriving DecidableEq, Repr

/-- Where a command stands between acceptance and its final record (R56 to R58, R329). -/
inductive CmdSt where
  /-- in its queue -/
  | queued
  /-- open from before a reset or failover and not started: it goes back into its queue at the end of recovery (R341) -/
  | held
  /-- started, not yet ended -/
  | running
  /-- its final record is due or being written -/
  | ending
deriving DecidableEq, Repr

/-- An accepted command that has no final record yet. `id` is the model's own name for it; `jseq` is none until
the ACCEPTED record is begun; `latest` is the SEQNO of its latest committed record (R332); `marked` its start
mark (R331), `markSent` a TW_START awaiting its acknowledgement; `own` is false for a command that the peer of a twin pair
carries. -/
structure Cmd where
  id : Nat
  ward : Fin 4
  queue : Fin 8
  port : Nat
  tag : BitVec 16
  opcode : Nat
  hdr : BitVec 64
  args : List Byte
  fence : Bool
  notify : Bool
  jseq : Option Nat
  latest : Option Nat
  committed : Bool
  started : Bool
  replayed : Bool
  st : CmdSt
  markSent : Bool
  marked : Bool
  own : Bool
deriving DecidableEq, Repr

/-- A running front-end transfer (R61): who asked, where the response goes (none: FCP_WRITE), and its MOSI bytes. -/
structure FcpXfer where
  ward : Fin 4
  port : Option (Nat × BitVec 16)
  cmd : Option Nat
  mosi : List Byte
deriving DecidableEq, Repr

/-! ### The Townplan (chapter The Townplan configuration image) -/

/-- A Ward record (Table 2.4). -/
structure WardRec where
  enable : Bool
  port : Nat
  ctxBase : Nat
  ctxCount : Nat
  seqMask : Nat
  cbMask : Nat
  vsMask : Nat
  acMask : Nat
  sqMask : Nat
  fltMask : Nat
deriving DecidableEq, Repr

/-- A memory region (Table 2.5). -/
structure Region where
  mem : Nat
  ward : Nat
  base : Nat
  size : Nat
deriving DecidableEq, Repr

/-- An ownership record (Table 2.7); `bind` is the bound sequencer. -/
structure Resource where
  cls : Nat
  index : Nat
  ward : Nat
  bind : Option Nat
deriving DecidableEq, Repr

/-- The Townplan in force (R38): Ward records, Channel Block owners, regions, resources, twin policy (Table 2.8),
and the identity of the image. -/
structure Plan where
  sealed : Bool
  wards : Vector WardRec 4
  cbOwner : Vector (Option Nat) 32
  regions : List Region
  resources : List Resource
  twinMode : Nat
  firstRole : Nat
  autoReplay : Bool
  pairId : Nat
  planId : Nat
  hdrCrc : Nat
deriving DecidableEq, Repr

/-- A Plan Store slot descriptor (R32, R36, R37). -/
structure PlanDesc where
  activeB : Bool
  sealed : Bool
  pending : Bool
  retired : Bool
deriving DecidableEq, Repr

/-- The Plan Store beside its two image slots: key slots, signature requirement, the descriptor in force and the older ones that the
ring of 128 still holds, newest first (R326), number of descriptor commits, the announced LENGTH of the staged image, the PLAN_VERIFY and its validation in progress (R31), the stage with
the code, section and offset of its verdict, which the non-volatile memory keeps (R35), and the words of the array, by byte
address / 8, that no longer take what is written (R330). -/
structure PlanStore where
  key0 : Option (List Byte)
  key1 : Option (List Byte)
  requireSig : Bool
  desc : PlanDesc
  past : List PlanDesc
  seals : Nat
  stageLen : Nat
  verify : Option Nat
  stage : Nat
  verdict : Nat × Nat × Nat
  worn : List Nat
deriving DecidableEq, Repr

/-! ### The Journal -/

/-- The kinds of Journal record (Table 16.2). -/
inductive RecKind where | accepted | started | done | abandoned | replayed | boot
deriving DecidableEq, Repr

/-- A record that is due (R329, R330): `cmd` is the command it belongs to, `body` the BODY bytes that follow JSEQ
(or the whole BODY of a BOOT record), `data` the bytes a PLAN_READ returns. -/
structure DueRec where
  kind : RecKind
  cmd : Option Nat
  body : List Byte
  data : List Byte
deriving DecidableEq, Repr

/-- The record being written (R330): the due record (none: a carried copy of R332), the command it belongs to,
its SEQNO and its 64 bytes. -/
structure Prog where
  due : Option DueRec
  cmd : Option Nat
  seqno : Nat
  bytes : List Byte
deriving DecidableEq, Repr

/-- The Journal writer: records due, the record being written with its SEQNO and whether it is a carried copy,
whether new records may begin, the next SEQNO, and the id of the next accepted command. `fwd`: the record of a STANDBY's own command
that its ACTIVE is to number, with the SEQNO once it is known (R19, R331). -/
structure Jnl where
  due : List DueRec
  prog : Option Prog
  stop : Bool
  next : Nat
  nextId : Nat
  fwd : Option (DueRec × Option Nat)
deriving DecidableEq, Repr

/-! ### Pattern sequencers (chapters Pattern sequencers and microcode; Algorithmic address and data generation) -/

/-- An address generator's state (R97): main register, A register, direction (true: decreasing). -/
structure AddrGen where
  v : Nat
  a : Nat
  dir : Bool
deriving DecidableEq, Repr

/-- The data side of a formed beat, as the delay line holds it (R108). -/
structure DataSide where
  dir : Nat
  ds : Word
  l : Nat
  a : Nat
deriving DecidableEq, Repr

/-- Architectural state of a sequencer (R66): PC and mode, registers, counters, stack, flags, repeat counter and
generator state (R97). `rep` is none outside a REPEAT, else the issues that remain. -/
structure Arch where
  pc : Nat
  beatMode : Bool
  gr : Vector Word 16
  lc : Vector Nat 8
  rl : Vector Nat 8
  stack : Vector Nat 16
  sp : Nat
  z : Bool
  n : Bool
  c : Bool
  sfail : Bool
  rep : Option Nat
  gx : AddrGen
  gy : AddrGen
  gz : AddrGen
  dr : Word
  line : List DataSide
deriving DecidableEq, Repr

/-- Sequencer states (Table 4.2). -/
inductive SeqState where | idle | setup | beat | wait | paused | fault
deriving DecidableEq, Repr

/-- What capture needs of the microword that formed a beat: logical and physical address of the delayed entry (R168),
word address, number of the stream set drawn or reused (all ones: none) and repeat count that remained (R169). -/
structure BeatInfo where
  l : Nat
  a : Nat
  word : Nat
  set : Nat
  rep : Nat
deriving DecidableEq, Repr

/-- A beat record (R76): PS_PERIOD value, timing set, pin words of the owned channels in channel order, CMPCTL, beat
number, event; with it what the rules fix at its issue: its start and length on the timing master in 0.5 ps (R138, R139),
its delivery instant D_b (R160) and the stamp of its start (R140). -/
structure BeatRec where
  period : Nat
  tset : Nat
  pins : List PinWord
  cmp : Nat
  beat : Nat
  event : Option Nat
  info : BeatInfo
  hold : Bool
  start : Nat
  len : Nat
  deliv : Nat
  stamp : Stamp
  replay : Bool
deriving DecidableEq, Repr

/-- The R165 counts of one site as a checkpoint keeps them: site, CAP_SITE_STATUS, CAP_SITE_FAILS, CAP_SITE_FIRST. -/
structure SiteSnap where
  site : Nat
  status : Word
  fails : Word
  first : Word
deriving DecidableEq, Repr

/-- A checkpoint (R85): architectural state, Square (none: the entry checkpoint), round, T_rel, beat count, and the
counts of R165. -/
structure Ckpt where
  arch : Arch
  sq : Option Nat
  round : Nat
  trel : Nat
  beats : Nat
  sites : List SiteSnap
deriving DecidableEq, Repr

/-- A sequencer that waits at a Square (R81): the Square; the arrival instant, the period P and the hold beats issued
since (BEAT mode); the release instant on the timing master once T_rel is fixed; the record of a BEGIN that waits; the start of the
beat before the one that waits (0: it is long over). -/
structure Wait where
  sq : Nat
  arr : Nat
  period : Nat
  holds : Nat
  rel : Option Nat
  begin_ : Option BeatRec
  prev : Nat
deriving DecidableEq, Repr

/-- A burst (R91 to R94, R340): its BURST_START command and JSEQ, the BURST_STOP commands that wait for its end, RESTARTABLE,
whether it is a replayed run, whether the control store or PS_PERIOD was written while PAUSED, its end cause once it has ended, and
the stream engine that its end has unbound, with the image of its arm and checkpoint (R117, R135). -/
structure Burst where
  cmd : Option Nat
  jseq : Nat
  stops : List Nat
  restartable : Bool
  replay : Bool
  dirty : Bool
  ended : Option Nat
  stream : Option (Nat × List Nat)
deriving DecidableEq, Repr

/-- One Pattern Sequencer (R66 to R95). PS_STATUS, PS_GR, PS_LC, PS_STACK and the generator state registers are read from
here; every other register of the sequencer is in `regs`. -/
structure Seq where
  st : SeqState
  arch : Arch
  /-- state at the routine's entry; some while the routine has not committed (R86) -/
  shadow : Option Arch
  entry : Nat
  cs : Tab CsWord
  latch0 : Word
  latch1 : Word
  fifo : List BeatRec
  pendStop : Bool
  pendPause : Bool
  /-- delayed flags of R161: last delivered beat failed; sites failed since the last clear; beats below `clearBeat` no
  longer set them (FCLR, Table 4.7) -/
  bfail : Bool
  allSet : Nat
  clearBeat : Nat
  /-- the record that hold beats repeat (R67) -/
  holdRec : Option BeatRec
  /-- end of the last issued beat on the timing master; none before the first beat -/
  tEnd : Option Nat
  /-- delivery instant of the last issued beat (R160) -/
  lastD : Nat
  wait : Option Wait
  /-- hold beats of an FSYNC that remain (R163) -/
  holdLeft : Nat
  /-- a draw waits for a set (R130), and its underrun has been raised -/
  urWait : Bool
  urSent : Bool
  /-- Squares released since the sequencer last arrived at them (COND SQREL) -/
  sqRel : Nat
  /-- one microword left to a STEP (R89) -/
  step : Bool
  ckpt : Option Ckpt
  /-- pin words of the last stream draw of the burst and the set's number (all ones: none) -/
  lastDraw : List PinWord
  lastSet : Nat
  /-- VS_UNBOUND has been sent in this burst (R129) -/
  unbound : Bool
  burst : Option Burst
  /-- issued beats not yet delivered to capture, oldest first -/
  inFlight : List BeatRec
  /-- number of the beat of the last FSYNC, whose results the next microword waits for (R78) -/
  fsyncBeat : Option Nat
  /-- an END has issued whose pause is taken before the burst ends (R87) -/
  ending : Bool
  /-- bursts that have ended before this one and are not yet DONE, oldest first (R92) -/
  olds : List Burst
deriving DecidableEq, Repr

/-- One Square's round (R79, R80): the members that have arrived (sequencer n: n, stream engine n: 32 + n, triggers: 48,
ring: 49) with their arrival instants, and T_rel when it is fixed, both as readings of the time base in 2⁻⁶⁴ ns; whether a
global Square's arrival has gone to the ring; the trigger members that have fired; the timing-master instants of the fixing and of
T_rel, which no later step of the time base moves (R140, R263). -/
structure Sq where
  arr : List (Nat × Nat)
  trel : Option Nat
  reported : Bool
  fired : Nat
  fixAt : Nat
  relAt : Nat
deriving DecidableEq, Repr

/-! ### Stream engines (chapter Vector stream engines and compressed vectors) -/

/-- A stream engine's checkpoint (R134). -/
structure VsCkpt where
  off : Nat
  loops : List (Nat × Nat)
  cur : List PinWord
  scan : Option (Nat × Nat)
  queued : Nat
  sq : Option Nat
deriving DecidableEq, Repr

/-- One stream engine beside its registers (R117 to R136): output queue, current set S, loop stack innermost first (offset of
the body, iterations left), scan bits per channel and channel mask, valid dictionary entries as a mask, sets the current
record has emitted, stream bytes fetched, sets emitted since the arm, whether END has been decoded, the STREAM_ARM that
has not completed, whether the burst of R117 has started, and the latest checkpoint. -/
structure VsEng where
  queue : List (List PinWord)
  cur : List PinWord
  loops : List (Nat × Nat)
  scan : Option (Nat × Nat)
  dictValid : Nat
  part : Nat
  fetched : Nat
  emitted : Nat
  ended : Bool
  arm : Option Nat
  inBurst : Bool
  ckpt : Option VsCkpt
deriving DecidableEq, Repr

/-! ### Channels and Channel Blocks (chapter Beats, waveform tables and edge placement) -/

/-- Event classes of the spacing rule (Table 7.2). -/
inductive EvClass where | drive | den | strobe
deriving DecidableEq, Repr

/-- What a placed event does at the ball (Table 7.2). -/
inductive EvKind where
  | drv (v : Bool)
  | den (v : Bool)
  | strobe
  | winOpen
  | winClose
deriving DecidableEq, Repr

/-- A placed event (R148): beat, slot, UI or sub-event, nominal time in 0.5 ps, action, expect bit and MASK of its
beat's pin word, whether it has passed to the spill queue (R150), and whether it is a sub-event of a serial event. Slot 8 is the
implicit DEN_MODE of an entry (R147). -/
structure Placed where
  beat : Nat
  slot : Nat
  ui : Nat
  t : Nat
  kind : EvKind
  expect : Bool
  mask : Bool
  spilled : Bool
  serial : Bool
deriving DecidableEq, Repr

/-- An open compare window (R159). -/
structure Window where
  beat : Nat
  ui : Nat
  fail : Bool
  mask : Bool
deriving DecidableEq, Repr

/-- A compare result of one UI (R157): true is a fail; `void`: the UI yields NONE after a window error (R159). -/
structure UiRes where
  beat : Nat
  ui : Nat
  fail : Bool
  void : Bool
deriving DecidableEq, Repr

/-- What the edge generator resolves a corrected time into (R148): timing-master cycle, DLL phase, vernier code. -/
structure EdgeCode where
  cycle : Nat
  phase : Nat
  vernier : Nat
deriving DecidableEq, Repr

/-- One channel (R148 to R152): nominal time of the last placed event of each class, events placed and not yet
occurred in placement order, the open window, the UI results not yet delivered, and how the edge generator resolved the last
event. -/
structure Chan where
  lastDrive : Option Nat
  lastDen : Option Nat
  lastStrobe : Option Nat
  placed : List Placed
  window : Option Window
  results : List UiRes
  edge : EdgeCode
deriving DecidableEq, Repr

/-- One Channel Block (R138 to R153): records taken and not started, the beat that runs, the number of the next record to
take, what the current burst has already announced (PERIOD_MIN; EDGE_VIOL by channel of the block), and whether it has played a beat
since reset, so that END_HOLD has values of a burst to keep (R152). -/
structure Cblk where
  taken : List BeatRec
  cur : Option BeatRec
  nextTake : Nat
  started : Bool
  pminSent : Bool
  violSent : Nat
  played : Bool
deriving DecidableEq, Repr

/-! ### Capture (chapter Compare, Shutter capture and fail handling) -/

/-- A record in the capture queue (R172): sequencer, site, beat of its flood marker and its 64 bytes (FLAGS without SPILLED). -/
structure QRec where
  seq : Nat
  site : Nat
  bytes : List Byte
  marker : Bool
deriving DecidableEq, Repr

/-- A batch of the fail conduit (R174): store (true: spill ring), first record number, count, first RSEQ, flags. -/
structure Batch where
  spill : Bool
  start : Nat
  count : Nat
  rseq : Nat
  flood : Bool
  last : Bool
  consumed : Bool
deriving DecidableEq, Repr

/-- One capture arm beside its registers (R166 to R174): BATCH_TIMEOUT, the open batch, closed batches not yet posted,
batches posted and not yet freed oldest first, the disarm commands that wait, flood markers of cause QUEUE that wait
for room in the queue, and the descriptors of batches that earlier arms posted and that are not yet reported consumed. -/
structure CapArm where
  timeout : Nat
  cur : Option Batch
  closed : List Batch
  posted : List Batch
  disarm : List Nat
  markers : List QRec
  stale : List (List Byte)
deriving DecidableEq, Repr

/-- The Shutter unit beside its registers (R175 to R180): raw FIFO, whether the first drop and the start of a burst of SEQ
have been seen since the arm, COUNT of the arm, UIs sampled by entry, the samples that are due: beat, UI, entry, and whether that
burst is DONE, so that the arm ends with the last of them. -/
structure Shut where
  fifo : List Word
  dropSent : Bool
  inBurst : Bool
  count : Nat
  uis : Vector Nat 16
  due : List (Nat × Nat × Nat)
  spent : Bool
deriving DecidableEq, Repr

/-! ### Analysis cores and Dispatcher (chapter Analysis cores and dataflow dispatch) -/

/-- States of a core (AC_STATUS.STATE; OFF is shown for a core without a Ward). -/
inductive CoreState where | idle | running | stalled
deriving DecidableEq, Repr

/-- An outside store that waits in the 8-entry store buffer, with the pc of its instruction (R186, R188, R190). -/
structure PendStore where
  addr : Nat
  size : Nat
  val : Nat
  pc : Word
deriving DecidableEq, Repr

/-- A run: context, operation index, slot, run number within an INBOX operation, and the batch descriptor it took. -/
structure RunInfo where
  ctx : Nat
  op : Nat
  slot : Nat
  runNo : Nat
  batch : Option (List Byte)
deriving DecidableEq, Repr

/-- One Analysis Core (R182 to R191): integer registers, pc, store buffer, wait count, run and the core cycles since
the run started; `stall` holds the completion that a full FIFO has not accepted (R200). -/
structure Core where
  st : CoreState
  x : Vector Word 32
  pc : Word
  stores : List PendStore
  wait : Nat
  run : Option RunInfo
  cycles : Nat
  stall : Option Nat
deriving DecidableEq, Repr

/-- States of an operation slot (DSP_SLOT.STATE). -/
inductive OpState where | waiting | ready | running | open | done | failed
deriving DecidableEq, Repr

/-- One operation of a loaded graph (Table 9.6): its slot, 64-byte descriptor, dependence counter, state, and for an INBOX
operation the runs it has started, those that are ready or running, and whether one has failed. -/
structure Op where
  slot : Nat
  desc : List Byte
  dep : Nat
  st : OpState
  runs : Nat
  active : Nat
  bad : Bool
deriving DecidableEq, Repr

/-- A ready item (R202): context, operation, run number and batch, and age. -/
structure Item where
  ctx : Nat
  op : Nat
  runNo : Nat
  batch : Option (List Byte)
  age : Nat
deriving DecidableEq, Repr

/-- States of a context (Table 9.7). -/
inductive CtxState where | empty | loading | active | faulted | done | resetting
deriving DecidableEq, Repr

/-- One flow context (R194 to R206): state, GRAPH_SUBMIT argument bytes, operations, PRODUCERS, descriptors in the inbox, and
those that runs have taken and that are not yet reported consumed (`held`, with the run number), runs that have not ended, operations done, the
commands that wait, JSEQ, counts, LAST descriptors taken, the first failure as DSP_CTX_STATUS shows it, and as the ARG of GRAPH_SUBMIT will (R203). -/
structure Ctx where
  st : CtxState
  args : List Byte
  ops : List Op
  producers : Nat
  inbox : List (List Byte)
  held : List (Nat × List Byte)
  running : Nat
  doneOps : Nat
  cmd : Option Nat
  resetCmds : List Nat
  jseq : Nat
  runsTotal : Nat
  posted : Nat
  consumed : Nat
  lastTaken : Nat
  faultStatus : Nat
  faultOp : Nat
  failStatus : Nat
  failOp : Nat
deriving DecidableEq, Repr

/-- An entry of the completion FIFO (R200). -/
inductive FifoEntry where
  | completion (ctx op : Nat)
  | post (ctx : Nat) (desc : List Byte)
  | failure (ctx op status : Nat)
deriving DecidableEq, Repr

/-- What is wrong with a stored ECC word (R187, R210, R218): one bit, several bits, or the address tag stored with it is this one.
No command of this block puts an error there. -/
inductive EccMark where
  | single
  | multi
  | tag (stored : Byte)
deriving DecidableEq, Repr

/-- The Dispatcher: completion FIFO, entries offered by cores in this cycle (with the core), ready items, the next age,
posts that have reserved an inbox place and wait for the FIFO (context, descriptor), and the slots of the slot store that hold an
error (R207). -/
structure Disp where
  fifo : List FifoEntry
  offers : List (Nat × FifoEntry)
  items : List Item
  age : Nat
  posts : List (Nat × List Byte)
  marks : Tab EccMark
deriving DecidableEq, Repr

/-! ### Memory (chapter On-chip memory and DRAM controller) -/

/-- A queued DRAM request (R221, R222): master, channel-local block, direction, panic mark, whether it is a
read-modify-write (R219), its place in the order of arrival, the bytes by DRAM offset that a write still has to perform, which it does
when the controller accepts it (R211), and the response of a host that waits for it (0: none). -/
structure DramReq where
  master : Nat
  off : Nat
  write : Bool
  panic : Bool
  rmw : Bool
  ord : Nat
  data : List (Nat × Byte)
  tok : Nat
deriving DecidableEq, Repr

/-- States of a DRAM channel (DRC_STATUS.STATE). -/
inductive ChState where | off | training | ready | selfRefresh | failed
deriving DecidableEq, Repr

/-- One DRAM channel controller beside its registers (R221 to R226): queues of the two ports, requests of masters that wait for
room in them, requests that have arrived, real-time grants since the last best-effort grant, whether the outstanding refreshes are
being issued back to back (R224), command slots towards the next µs of DRC_STAT.PANIC and BE_WAIT, whether the training that runs is
the short one, the record of a self-refresh entry, and the level of DRCd_RESET_N (R226, R391). Refreshes due are DRC_STATUS.POSTPONED. -/
structure Drc where
  rt : List DramReq
  be : List DramReq
  rtWait : List DramReq
  beWait : List DramReq
  ord : Nat
  wrr : Nat
  flush : Bool
  panicN : Nat
  beN : Nat
  short : Bool
  selfRef : Bool
  resetN : Bool
deriving DecidableEq, Repr

/-! ### Serial lanes (chapter Serial lanes) -/

/-- One lane beside its registers (R238 to R248): it has passed the current rate; RX_LOCK and STEP_OK of the peer's last CAP;
consecutive CAP sets received with STEP_REQ for rate `reqFor` and with READY; consecutive sets sent with the request `sentFor` (0 none,
r + 1 STEP_REQ for rate r, 16 READY); left out of the group; retraining under R244, and done with READY; an eye scan runs; the sender's
logical lane. In a test mode (R246): state of the transmit generator (0: not begun) and bits sent; received bits that seed the checker,
newest first, its generator, bits that have agreed since, and differing bits among the last 256; INJ_ONE waits for the next bit sent
(R247). -/
structure Lane where
  passed : Bool
  peerLock : Bool
  peerOk : Bool
  reqN : Nat
  reqFor : Nat
  readyN : Nat
  sent : Nat
  sentFor : Nat
  lost : Bool
  retrain : Bool
  ready : Bool
  eye : Bool
  logicalRx : Nat
  gen : Nat
  genN : Nat
  seed : List Bool
  chk : Nat
  agree : Nat
  diffs : List Bool
  injOne : Bool
deriving DecidableEq, Repr

/-- One lane group beside its registers (R238 to R245): started under Table 11.1; GROUP_ID it sends and the one it first
accepted; rate last passed; whether a step has failed, so that it goes READY at that rate; the peer's RATES and credits; the
lanes of a NARROW that waits for its answer; lanes in use in the transmit and in the receive direction, and those the transmit
direction had before that NARROW, these four as masks of this end's own lane numbers. `peerId` is the GROUP_ID first accepted, with its lane. -/
structure Group where
  started : Bool
  id : Nat
  low : Nat
  fallback : Bool
  peerRates : Nat
  peerId : Option (Nat × Nat)
  narrowing : Option Nat
  txMask : Nat
  rxMask : Nat
  txBase : Nat
  peerHdr : Nat
  peerData : Nat
deriving DecidableEq, Repr

/-! ### Time base (chapter Time base, network time and interval measurement) -/

/-- A Delay_Req that awaits its answer: sequenceId, t3, the Sync it follows, and whether G5 has changed its width since
(R256, R257). -/
structure PtpReq where
  seq : Nat
  t3 : Nat
  sync : Nat
  stale : Bool
deriving DecidableEq, Repr

/-- The time base and servo beside their registers (R251 to R263, R267, R268). `tm` is the timing-master instant in
0.5 ps; `fine` the reading in 2⁻⁶⁴ ns; `latched` the reading a TB_TIME_LO read latched; `goodWin` consecutive good REFCLK
windows; `integ`, `base` and `slew` (2⁻⁶⁴ ns) the servo integrator, base rate and outstanding slew; `perm` a step
permission; the pending exchange: Sync awaiting its Follow_Up (sequenceId, t2), sequenceId, t1 and t2 of the last measurement,
Delay_Req awaiting its answer, whether a Delay_Req is owed (the Sync it follows), t3 and t4 of an answered exchange that waits for
its Follow_Up, the last path, and a measurement that waits for a path; `joins` the masks by NODE and `arr` the arrivals (Square, round, NODE) the master holds. -/
structure TbSt where
  tm : Nat
  fine : Nat
  latched : Nat
  goodWin : Nat
  integ : Int
  base : Int
  slew : Int
  perm : Bool
  sync : Option (Nat × Nat)
  last : Option (Nat × Nat × Nat)
  req : Option PtpReq
  reqDue : Option Nat
  resp : Option (Nat × Nat × Nat)
  path : Option Int
  waiting : Bool
  good : Nat
  missed : Nat
  valid : Bool
  seqSync : Nat
  seqReq : Nat
  joins : List (Nat × Nat)
  arr : List (Nat × Nat × Nat)
deriving DecidableEq, Repr

/-- A time trigger beside its registers (R264 to R266): first firing in 2⁻⁶⁴ ns, period in 0.5 ps, COUNT, firings done since the
arm, NOTIFY. -/
structure Trig where
  first : Nat
  period : Nat
  count : Nat
  n : Nat
  notify : Bool
deriving DecidableEq, Repr

/-- A TIM unit beside its registers (R269 to R272): measurements to make, the start that waits for its stop, stop edges
kept while no start has come, the ORDER flag of the next measurement, last accepted start and stop, the TIM_ARM that waits, and
the timing-master instant at which its TIMEOUT expires. -/
structure TimU where
  count : Nat
  start : Option Nat
  stops : List Nat
  order : Bool
  lastStart : Option Nat
  lastStop : Option Nat
  cmd : Option Nat
  bound : Bool
  deadline : Option Nat
deriving DecidableEq, Repr

/-! ### Converter, acquisition, thermal (chapter Analog monitor, acquisition and thermal management) -/

/-- A waiting or running ADC_INJECT (R280). -/
structure Inj where
  cmd : Nat
  input : Nat
  avg : Nat
  restarted : Bool
deriving DecidableEq, Repr

/-- The acquisition arm (Table 13.2). -/
structure AcqArm where
  scan : Bool
  notify : Bool
  input : Nat
  src : Nat
  index : Nat
  event : Nat
  level : Int
  hyst : Int
  decim : Nat
  pre : Nat
  post : Nat
  records : Nat
  auto : Bool
  base : Nat
  size : Nat
  list : List (Nat × Nat)
  jseq : Nat
  ward : Nat
deriving DecidableEq, Repr

/-- The record or pass in progress (R282 to R285): flags, stamp, band, pre-trigger and post-trigger samples (newest
first), scan entries done (newest first: value, input, flags). -/
structure AcqRec where
  flags : Nat
  stamp : Stamp
  band : Nat
  pre : List Int
  post : List Int
  entries : List (Int × Nat × Nat)
deriving DecidableEq, Repr

/-- The converter and the acquisition engine beside their registers (R274 to R287): class that runs (0 none), its
coefficient set, sensor requests waiting (mask) and the running one, Injected requests in acceptance order, the arm, the
pre-trigger memory (newest first, each stored sample as the raw codes that DECIM joins with the slices that took them, for the
set of R275 is that of the record's start), whether the edge condition is prepared, the codes of the stored sample that is
forming, the slice of the next sample of a stream (none: its first sample says), a trigger that waits for the next sample and
whether AUTO forced it, the record or pass in progress, whether its entry restarted. -/
structure Conv where
  cls : Nat
  band : Nat
  urgent : Nat
  sensor : Nat
  inj : List Inj
  arm : Option AcqArm
  preMem : List (List (Nat × Int))
  ready : Bool
  dec : List (Nat × Int)
  nextSl : Option Nat
  pendTrig : Option Stamp
  auto : Bool
  rec_ : Option AcqRec
  restarted : Bool
deriving DecidableEq, Repr

/-- Thermal state beside its registers (R288 to R294): valid readings of each sensor, newest first (instant and T in
1/64 °C); sensors read since reset; sources raised and not yet re-armed (warn, limit); the instant since which every
reading has given another band, and the latest candidate; the fine model temperature (1/64 °C × 2²⁰); a shutdown, and while it
waits for a record in progress, the tick by which that record must have completed; the clock domains that have run since the
last period and stand gated (mask). -/
structure Thm where
  hist : Vector (List (Nat × Int)) 8
  seen : Nat
  warned : Nat
  limited : Nat
  since : Option Nat
  cand : Nat
  tb : Int
  model : Int
  shutdown : Bool
  finalDue : Option Nat
  ran : Nat
deriving DecidableEq, Repr

/-- A CAL_RUN in progress (R301 to R307): its command, target, items left (the head is in progress), band at the start,
failed items, staged ADC coefficients, and whether its Calibration request waits. -/
structure CalRun where
  cmd : Nat
  target : Nat
  mask : Nat
  items : List Nat
  band : Nat
  fails : Nat
  staged : List (Nat × Nat × Nat)
deriving DecidableEq, Repr

/-- Calibration beside its registers: slew accumulators by 3 × channel + path (R299), and the run. -/
structure CalSt where
  acc : Tab Nat
  run : Option CalRun
deriving DecidableEq, Repr

/-! ### Faults (chapter Fault collection and reaction) -/

/-- A latch within its window of 29 ticks, or whose event is still owed (R314, R316, R320): source, FORCED, tick, stamp,
severity, mark and root, its log entry, its STORM mark, whether its entry reports, whether it has reported, and whether it has
been cleared since (R321). -/
structure Latch where
  src : Nat
  forced : Bool
  tick : Nat
  stamp : Stamp
  sev : Nat
  conseq : Bool
  root : Nat
  log : Option Nat
  storm : Bool
  report : Bool
  reported : Bool
  cleared : Bool
deriving DecidableEq, Repr

/-- The fault collector beside its registers: tick count, real assertions and injections not yet taken (an injection with
its DRY flag), latches of the window in recorded order, the tick of the first-error capture, the tick at which the ERR_N
pulse ends, and a RESET action whose delay runs. -/
structure FltSt where
  tick : Nat
  pend : List Nat
  inj : List (Nat × Bool)
  win : List Latch
  feTick : Nat
  feWin : Bool
  pulse : Option Nat
  resetPend : Bool
deriving DecidableEq, Repr

/-! ### Twin and recovery (chapter Journal, replay and twin pairing) -/

/-- What a command in the Journal without a final record shows at a scan or failover (R338, R339). -/
structure OpenCmd where
  jseq : Nat
  ward : Nat
  queue : Nat
  opcode : Nat
  tag : Nat
  started : Bool
  state : Nat
  seqno : Nat
deriving DecidableEq, Repr

/-- The Recovery Area (R335, R336): the seal, the configuration shadow of Table 16.5 (registers and control stores), the
latest checkpoints, capture and stream arms with their registers, contexts with the Dispatcher's queues and the runs that had
not ended, the commands that were open with their start marks, and the mirror backlog of a twin pair. -/
structure Recov where
  sealOk : Bool
  seqno : Nat
  planId : Nat
  hdrCrc : Nat
  shadow : Tab Word
  local_ : Tab Word
  armRegs : Tab Word
  cs : Vector (Tab CsWord) 32
  ckpts : Vector (Option Ckpt) 32
  ckptFlags : Vector (Bool × Bool × Option Nat) 32
  vs : Vector VsEng 16
  arms : Vector CapArm 32
  ctxs : Tab Ctx
  disp : Disp
  runs : List RunInfo
  cmds : List Cmd
  backlog : List (Nat × List Byte)
  streams : Vector (Option (Nat × List Nat)) 32
deriving DecidableEq, Repr

/-- A replay unit that waits (R341): the id of its command, and the Ward it belongs to. -/
structure Unit_ where
  cmd : Nat
  ward : Nat
deriving DecidableEq, Repr

/-- A recovery of a Ward's units from step 3 of R341 on: the REPLAY that asked for it (none: it is automatic), the number of
units concerned, and whether steps 3 to 5 are done. -/
structure RecDue where
  ward : Nat
  cmd : Option Nat
  units : Nat
  restored : Bool
deriving DecidableEq, Repr

/-- The twin member beside its registers (R346 to R353): level of TWIN_ACT, mirror backlog (frame type and payload),
checkpoint images received before LAST, the round adopted, a LEAVE or JOIN in progress, a TW_DETACH that waits for its
acknowledgement (its cause and LEAVE command), whether Porter services its watchdog, whether TWIN_PEER toggles, and whether start-up's watch has ended. -/
structure TwinSt where
  act : Bool
  backlog : List (Nat × List Byte)
  rx : List (List Byte)
  adopted : List (Nat × List Byte)
  handoff : Option (Nat × Nat)
  join : Option Nat
  hello : Bool
  copying : Bool
  peerHead : Nat
  detach : Option (Nat × Option Nat)
  wdog : Bool
  actDead : Bool
  peerToggles : Bool
  decided : Bool
deriving DecidableEq, Repr

/-! ### Power, clocks and start-up -/

/-- Power and reset state beside its registers: the level of RESET_N, the cause of a chip reset in progress, whether the
device waits for RESET_N to rise before start-up, domains stopped by the loss of their PLL,
whether every fast clock is gated (R318, Table 13.4), what survives of DRAM, what phase D found, whether Porter's ROM fails its
check, which is a property of the device that no reset changes (Table 17.7), the tick at which the chip reset in progress started (R367), the
clock domains that a demand waits for (R364), and the tick at which phase A of start-up began (R376). -/
structure PwrSt where
  resetN : Bool
  inReset : Option Nat
  waitRise : Bool
  stopped : List Nat
  gatedAll : Bool
  selfRef : Bool
  scanHead : Option Nat
  scanTorn : Bool
  scanOpen : List OpenCmd
  romBad : Bool
  t0 : Nat
  demand : List Nat
  tA : Nat
deriving DecidableEq, Repr

/-- An 8b/10b code group: K28.5 and the other control groups, or a data group (R233). -/
structure CodeGroup where
  k : Bool
  b : Byte
deriving DecidableEq, Repr

/-- What a lane carries of a frame: its code groups, with the PAD that fills the last column and the first IDLE behind it, and whether
the pair's polarity is inverted (R42, R232, R235). -/
structure LaneOut where
  lane : Nat
  inv : Bool
  groups : List CodeGroup
deriving DecidableEq, Repr

/-- A frame or signal that leaves the device: the model's own record of outputs. -/
inductive Out where
  /-- a frame on port `p` with the ACK and credits it carries, its CRC (R41), and what each lane carries of it (R42) -/
  | frame (p : Nat) (f : TxFrame) (ack : Nat) (crdHdr crdData crc : Nat) (lanes : List LaneOut)
  /-- an ordered set on a lane: 0 CAP, 1 NARROW, 2 WIDEN, 3 SKP, 5 an invalid code group in place of the first one after SOF; `inv`:
  the pair's polarity is inverted (R232) -/
  | set (lane : Nat) (kind : Nat) (bytes : List Byte) (inv : Bool)
  /-- bits sent unencoded on a lane in a test mode, first bit first (R246) -/
  | prbs (lane : Nat) (bits : List Bool)
  /-- bytes shifted out of a front-end control port (R61) -/
  | fcp (port : Nat) (mosi : List Byte)
  /-- the 1,024 rising and 1,024 falling edges of a calibration on every DRV and DEN ball of a Channel Block (R303) -/
  | calEdges (cb : Nat)
  /-- an edge of TWIN_ACT -/
  | twinAct (v : Bool)
  /-- the load or store access fault that Porter takes at address `a` (R6, R10) -/
  | porterFault (a : Nat)
deriving DecidableEq, Repr

/-- The whole machine. `pending` is the queue of commands that wait; `outs` what left the device (the model's own);
`regs` every register at its address, unlisted ones at their reset value; `mem` SRAM windows and DRAM by device
address; `ecc` what is
wrong with stored words, by word address / 8; `rangeArmed` the next range error is the first (R217); `raHeld`
the recovery state from before a RESET action stopped the sequencers (R318, R336); `nvm` the non-volatile memory (slot A, slot B,
Journal), and `nvmEcc` what is wrong with its words, by byte address / 8 (R326). -/
structure State where
  pending : List Instr
  outs : List Out
  fresh : Nat
  regs : Tab Word
  mem : Tab Byte
  ecc : Tab EccMark
  rangeArmed : Bool
  nvm : Tab Byte
  nvmEcc : Tab EccMark
  ports : Vector Port 7
  wards : Vector WardSt 4
  cmds : List Cmd
  fcp : Vector (Option FcpXfer) 8
  plan : Plan
  store : PlanStore
  jnl : Jnl
  seqs : Vector Seq 32
  sqs : Vector Sq 64
  vs : Vector VsEng 16
  chans : Vector Chan 128
  cbs : Vector Cblk 32
  capq : List QRec
  arms : Vector CapArm 32
  shut : Shut
  cores : Vector Core 48
  ctxs : Tab Ctx
  disp : Disp
  drcs : Vector Drc 4
  lanes : Vector Lane 16
  groups : Vector Group 7
  tb : TbSt
  trigs : Vector Trig 32
  tims : Vector TimU 8
  conv : Conv
  thm : Thm
  cal : CalSt
  flt : FltSt
  ra : Option Recov
  raHeld : Option Recov
  twin : TwinSt
  units : List Unit_
  recs : List RecDue
  pwr : PwrSt
deriving DecidableEq, Repr

/-! ### Values after power-on -/

/-- An address generator after reset (R97). -/
def AddrGen.zero : AddrGen := ⟨0, 0, false⟩

/-- Architectural state after reset (R66). -/
def Arch.zero : Arch :=
  { pc := 0, beatMode := false, gr := .replicate 16 0#64, lc := .replicate 8 0, rl := .replicate 8 0,
    stack := .replicate 16 0, sp := 0, z := false, n := false, c := false, sfail := false, rep := none,
    gx := .zero, gy := .zero, gz := .zero, dr := 0#64, line := [] }

/-- A sequencer after reset (R66); its control store is written at start-up (R68). -/
def Seq.zero : Seq :=
  { st := .idle, arch := .zero, shadow := none, entry := 0, cs := [], latch0 := 0#64, latch1 := 0#64, fifo := [],
    pendStop := false, pendPause := false, bfail := false, allSet := 0, clearBeat := 0, holdRec := none, tEnd := none,
    lastD := 0, wait := none, holdLeft := 0, urWait := false, urSent := false, sqRel := 0, step := false, ckpt := none,
    lastDraw := [], lastSet := 0xFFFFFFFFFFFF, unbound := false, burst := none, inFlight := [], fsyncBeat := none, ending := false, olds := [] }

/-- A Square's round after reset (R79). -/
def Sq.zero : Sq := { arr := [], trel := none, reported := false, fired := 0, fixAt := 0, relAt := 0 }

/-- A stream engine after reset (R117). -/
def VsEng.zero : VsEng :=
  { queue := [], cur := [], loops := [], scan := none, dictValid := 0, part := 0, fetched := 0, emitted := 0,
    ended := false, arm := none, inBurst := false, ckpt := none }

/-- A channel after reset (R152). -/
def Chan.zero : Chan :=
  { lastDrive := none, lastDen := none, lastStrobe := none, placed := [], window := none, results := [], edge := ⟨0, 0, 0⟩ }

/-- A Channel Block after reset (R152). -/
def Cblk.zero : Cblk :=
  { taken := [], cur := none, nextTake := 0, started := false, pminSent := false, violSent := 0, played := false }

/-- A capture arm after reset (R166). -/
def CapArm.zero : CapArm :=
  { timeout := 0, cur := none, closed := [], posted := [], disarm := [], markers := [], stale := [] }

/-- The Shutter after reset (R175). -/
def Shut.zero : Shut :=
  { fifo := [], dropSent := false, inBurst := false, count := 0, uis := .replicate 16 0, due := [], spent := false }

/-- A core after reset (R182). -/
def Core.zero : Core :=
  { st := .idle, x := .replicate 32 0#64, pc := 0#64, stores := [], wait := 0, run := none, cycles := 0, stall := none }

/-- A context after reset (Table 9.7). -/
def Ctx.zero : Ctx :=
  { st := .empty, args := [], ops := [], producers := 0, inbox := [], held := [], running := 0, doneOps := 0, cmd := none,
    resetCmds := [], jseq := 0, runsTotal := 0, posted := 0, consumed := 0, lastTaken := 0,
    faultStatus := 0, faultOp := 0, failStatus := 0, failOp := 0 }

/-- A DRAM channel after reset (R225). -/
def Drc.zero : Drc :=
  { rt := [], be := [], rtWait := [], beWait := [], ord := 0, wrr := 0, flush := false, panicN := 0, beN := 0, short := false, selfRef := false, resetN := false }

/-- A lane after reset (R238). -/
def Lane.zero : Lane :=
  { passed := false, peerLock := false, peerOk := false, reqN := 0, reqFor := 0, readyN := 0, sent := 0, sentFor := 0, lost := false,
    retrain := false, ready := false, eye := false, logicalRx := 0, gen := 0, genN := 0, seed := [], chk := 0, agree := 0, diffs := [], injOne := false }

/-- A lane group after reset (R238). -/
def Group.zero : Group :=
  { started := false, id := 0, low := 0, fallback := false, peerRates := 0, peerId := none, narrowing := none, txMask := 0,
    rxMask := 0, txBase := 0, peerHdr := 0, peerData := 0 }

/-- A port after reset: no frame received (R44). -/
def Port.zero : Port :=
  { rxNext := 0#16, nakSent := false, txNext := 0#16, replay := [], txq := [], crdHdr := 0, crdData := 0, peerHdr := 0,
    peerData := 0, owedHdr := 0, owedData := 0, replays := 0, holding := false, resps := [], acks := [], seqErrs := 0, early := [] }

/-- A Ward's event queue after reset. -/
def WardSt.zero : WardSt := { evq := [], flight := 0, lost := 0, haltedByPorter := 0 }

/-- A Ward record that enables nothing. -/
def WardRec.off : WardRec :=
  { enable := false, port := 0, ctxBase := 0, ctxCount := 0, seqMask := 0, cbMask := 0, vsMask := 0, acMask := 0,
    sqMask := 0, fltMask := 0 }

/-- W0 of an unsealed device (R34): it owns every unit and is reached through HP0. -/
def WardRec.all : WardRec :=
  { enable := true, port := 0, ctxBase := 0, ctxCount := 1024, seqMask := 2 ^ 32 - 1, cbMask := 2 ^ 32 - 1,
    vsMask := 2 ^ 16 - 1, acMask := 2 ^ 48 - 1, sqMask := 2 ^ 64 - 1, fltMask := 2 ^ 1024 - 1 }

/-- The plan of an unsealed device (R34). -/
def Plan.unsealed : Plan :=
  { sealed := false, wards := #v[.all, .off, .off, .off], cbOwner := .replicate 32 none, regions := [], resources := [],
    twinMode := 0, firstRole := 0, autoReplay := false, pairId := 0, planId := 0, hdrCrc := 0 }

/-- The time base after reset (R12, R372). -/
def TbSt.zero : TbSt :=
  { tm := 0, fine := 0, latched := 0, goodWin := 0, integ := 0, base := 0, slew := 0, perm := true, sync := none,
    last := none, req := none, reqDue := none, resp := none, path := none, waiting := false, good := 0, missed := 0, valid := false,
    seqSync := 0, seqReq := 0, joins := [], arr := [] }

/-- A time trigger after reset. -/
def Trig.zero : Trig := ⟨0, 0, 0, 0, false⟩

/-- A TIM unit after reset. -/
def TimU.zero : TimU := ⟨0, none, [], false, none, none, none, false, none⟩

/-- The converter after reset. -/
def Conv.zero : Conv :=
  { cls := 0, band := 0, urgent := 0, sensor := 0, inj := [], arm := none, preMem := [], ready := false,
    dec := [], nextSl := none, pendTrig := none, auto := false, rec_ := none, restarted := false }

/-- Thermal state after reset (R291, R293): no reading, MODEL_T at its reset value. -/
def Thm.zero : Thm :=
  { hist := .replicate 8 [], seen := 0, warned := 0, limited := 0, since := none, cand := 3, tb := 0,
    model := 1600 * 2 ^ 20, shutdown := false, finalDue := none, ran := 0 }

/-- Calibration after reset. -/
def CalSt.zero : CalSt := ⟨[], none⟩

/-- The fault collector at power-on (R312). -/
def FltSt.zero : FltSt :=
  { tick := 0, pend := [], inj := [], win := [], feTick := 0, feWin := false, pulse := none, resetPend := false }

/-- The twin member after reset (R346): role SINGLE until a plan makes it a member. -/
def TwinSt.zero : TwinSt :=
  { act := false, backlog := [], rx := [], adopted := [], handoff := none, join := none, hello := false, copying := false,
    peerHead := 0, detach := none, wdog := true, actDead := false, peerToggles := false,
    decided := false }

/-- Power and reset state at power-on: RESET_N is low (R358). -/
def PwrSt.zero : PwrSt :=
  { resetN := false, inReset := none, waitRise := true, stopped := [], gatedAll := true, selfRef := false,
    scanHead := none, scanTorn := false, scanOpen := [], romBad := false, t0 := 0, demand := [], tA := 0 }

/-- The Plan Store as manufactured: no image, no keys. -/
def PlanStore.zero : PlanStore :=
  { key0 := none, key1 := none, requireSig := false, desc := ⟨false, false, false, false⟩, past := [], seals := 0, stageLen := 0,
    verify := none, stage := 0, verdict := (0, 0xFF, 0), worn := [] }

/-- The Journal writer before the first scan. -/
def Jnl.zero : Jnl := { due := [], prog := none, stop := true, next := 0, nextId := 0, fwd := none }

/-- The machine at power-on (R366, R371): every register at its reset value, memory and non-volatile memory with
nothing listed, no command waiting. -/
def State.reset : State :=
  { pending := [], outs := [], fresh := 0, regs := [], mem := [], ecc := [], rangeArmed := true, nvm := [], nvmEcc := [],
    ports := .replicate 7 .zero, wards := .replicate 4 .zero, cmds := [], fcp := .replicate 8 none,
    plan := .unsealed, store := .zero, jnl := .zero, seqs := .replicate 32 .zero, sqs := .replicate 64 .zero,
    vs := .replicate 16 .zero, chans := .replicate 128 .zero, cbs := .replicate 32 .zero, capq := [],
    arms := .replicate 32 .zero, shut := .zero, cores := .replicate 48 .zero, ctxs := [], disp := ⟨[], [], [], 0, [], []⟩,
    drcs := .replicate 4 .zero, lanes := .replicate 16 .zero, groups := .replicate 7 .zero, tb := .zero,
    trigs := .replicate 32 .zero, tims := .replicate 8 .zero, conv := .zero, thm := .zero, cal := .zero, flt := .zero,
    ra := none, raHeld := none, twin := .zero, units := [], recs := [], pwr := .zero }

end Sys2Proof.Machine
end

