-- ==== Sys2Proof/Machine/Ops.lean ====
section
/-! DEFINITION. The named operations over the state: register fields, time stamps, events, fault assertion, memory
bytes, ownership, and the outcome of a command. -/

namespace Sys2Proof.Machine

open Host

/-! ### Register fields -/

/-- The stored value of the register at address `a`. -/
def State.rd (s : State) (a : Nat) : Word := tabGet (resetAt a) s.regs a

/-- The register at address `a` takes the value `w`. -/
def State.wr (s : State) (a : Nat) (w : Word) : State := { s with regs := tabSet (resetAt a) s.regs a w }

/-- The value of a field. -/
def State.g (s : State) (f : FRef) : Nat := getBits (s.rd f.addr) f.hi f.lo

/-- A field takes the value `v`, cut to its width. -/
def State.p (s : State) (f : FRef) (v : Nat) : State := s.wr f.addr (setBits (s.rd f.addr) f.hi f.lo v)

/-- A Boolean field. -/
def State.gb (s : State) (f : FRef) : Bool := decide (s.g f ≠ 0)

/-- A Boolean field takes a value. -/
def State.pb (s : State) (f : FRef) (b : Bool) : State := s.p f (b2n b)

/-- The signed value of a field. -/
def State.gi (s : State) (f : FRef) : Int := sgn (f.hi + 1 - f.lo) (s.g f)

/-- A signed value in a field. -/
def State.pi (s : State) (f : FRef) (v : Int) : State := s.p f (unsgn (f.hi + 1 - f.lo) v)

/-- A saturating counter field rises by `k`. -/
def State.inc (s : State) (f : FRef) (k : Nat) : State := s.p f (satAdd (f.hi + 1 - f.lo) (s.g f) k)

/-- A register returns to its reset value. -/
def State.rst (s : State) (a : Nat) : State := s.wr a (resetAt a)

/-- Apply an update for each element of a list, in order. -/
def forEach {α β : Type} (l : List α) (s : β) (f : α → β → β) : β := l.foldl (fun t x => f x t) s

/-- An output leaves the device. -/
def State.emit (s : State) (o : Out) : State := { s with outs := s.outs ++ [o] }

/-- The next free value (a value the manual does not state). -/
def State.freeVal (s : State) : Nat := Config.free s.fresh

/-- The counter of free values moves on. -/
def State.useFree (s : State) : State := { s with fresh := s.fresh + 1 }

/-! ### Time (R11, R13, R140, R254) -/

/-- A reading in 2⁻⁶⁴ ns as a stamp (R11). -/
def mkStamp (fine scale : Nat) : Stamp :=
  let ns := fine / 2 ^ 64
  let frac := fine % 2 ^ 64 / 2 ^ 48
  BitVec.ofNat 96 ((ns / 1000000000) % 2 ^ 48 * 2 ^ 48 + (ns % 1000000000) * 2 ^ 18 + frac * 4 + scale % 4)

/-- The reading a stamp names, in 2⁻¹⁶ ns (R13: SCALE takes no part). -/
def stampFrac (v : Stamp) : Nat :=
  let n := v.toNat
  ((n / 2 ^ 48) * 1000000000 + nbits 47 18 n) * 2 ^ 16 + nbits 17 2 n

/-- The order of stamps (R13). -/
def stampKey (v : Stamp) : Nat := v.toNat / 4

/-- The increment of one 312.5 ps period in 2⁻⁶⁴ ns (R253). -/
def State.tbInc (s : State) : Nat := (20480 * ((2 ^ 48 : Int) + s.gi TB_RATE_RATE)).toNat

/-- The stamp of now. -/
def State.now (s : State) : Stamp := mkStamp s.tb.fine (s.g TB_STATUS_SCALE)

/-- The reading interpolated to timing-master instant `t` (0.5 ps), in 2⁻⁶⁴ ns (R254). -/
def State.fineAt (s : State) (t : Nat) : Nat :=
  ((s.tb.fine : Int) + ((t : Int) - (s.tb.tm : Int)) * (s.tbInc : Int) / 625).toNat

/-- The stamp of timing-master instant `t` (R254). -/
def State.stampAt (s : State) (t : Nat) : Stamp := mkStamp (s.fineAt t) (s.g TB_STATUS_SCALE)

/-- The timing-master instant, in 0.5 ps, at which the time base reads `x` (2⁻⁶⁴ ns) (R140, R254). -/
def State.instantOf (s : State) (x : Nat) : Nat :=
  ((s.tb.tm : Int) + ((x : Int) - (s.tb.fine : Int)) * 625 / (s.tbInc : Int)).toNat

/-! ### Wards and ownership (R34, R52; Tables 2.4 and 2.7) -/

/-- The record of Ward `w`. -/
def State.ward (s : State) (w : Nat) : WardRec := s.plan.wards.toList.getD w .off

/-- The Ward a predicate on records finds, the lowest first. -/
def State.findWard (s : State) (f : WardRec → Bool) : Option Nat :=
  (List.range 4).find? (fun w => (s.ward w).enable && f (s.ward w))

/-- The enabled Wards. -/
def State.enabled (s : State) : List Nat := (List.range 4).filter (fun w => (s.ward w).enable)

/-- The Ward that owns sequencer `k`. -/
def State.seqWard (s : State) (k : Nat) : Option Nat := s.findWard (fun r => nbit r.seqMask k)
/-- The Ward that owns Channel Block `k`. -/
def State.cbWard (s : State) (k : Nat) : Option Nat := s.findWard (fun r => nbit r.cbMask k)
/-- The Ward that owns stream engine `k`. -/
def State.vsWard (s : State) (k : Nat) : Option Nat := s.findWard (fun r => nbit r.vsMask k)
/-- The Ward that owns core `k`. -/
def State.coreWard (s : State) (k : Nat) : Option Nat := s.findWard (fun r => nbit r.acMask k)
/-- The Ward that owns Square `k`. -/
def State.sqWard (s : State) (k : Nat) : Option Nat := s.findWard (fun r => nbit r.sqMask k)
/-- The Ward that owns context `c`. -/
def State.ctxWard (s : State) (c : Nat) : Option Nat :=
  s.findWard (fun r => decide (r.ctxBase ≤ c) && decide (c < r.ctxBase + r.ctxCount))
/-- The Ward whose FLT_MASK holds source `i` (R317). -/
def State.fltWard (s : State) (i : Nat) : Option Nat := s.findWard (fun r => nbit r.fltMask i)
/-- The Ward reached through host port `p` (R53). -/
def State.portWard (s : State) (p : Nat) : Option Nat := s.findWard (fun r => decide (r.port = p))

/-- The ownership record of resource `i` of class `c` (Table 2.7). -/
def State.resource (s : State) (c i : Nat) : Option Resource :=
  s.plan.resources.find? (fun r => decide (r.cls = c) && decide (r.index = i))

/-- The Ward that owns resource `i` of class `c`; W0 owns every unit of an unsealed device (R34). -/
def State.resWard (s : State) (c i : Nat) : Option Nat :=
  if s.plan.sealed then (s.resource c i).map (·.ward) else some 0

/-- The sequencer resource `i` of class `c` is bound to (BIND = 1). -/
def State.resBind (s : State) (c i : Nat) : Option Nat := (s.resource c i).bind (·.bind)

/-- Ward `w` may arm resource `i` of class `c` by a host command (R18, R40). -/
def State.mayArm (s : State) (w c i : Nat) : Bool :=
  decide (s.resWard c i = some w) && decide (s.resBind c i = none)

/-- The sequencer that owns Channel Block `k` (CB_OWNER). -/
def State.cbSeq (s : State) (k : Nat) : Option Nat := s.plan.cbOwner.toList.getD k none

/-- The Channel Blocks that sequencer `k` owns, rising. -/
def State.seqCbs (s : State) (k : Nat) : List Nat := (List.range 32).filter (fun c => decide (s.cbSeq c = some k))

/-- Byte range `[off, off+len)` of memory `m` (Table 2.5) lies wholly in one Ward's regions. On an unsealed device W0
owns every byte (R34). -/
def State.ownsRange (s : State) (w m off len : Nat) : Bool :=
  if s.plan.sealed then
    let rs := s.plan.regions.filter (fun r => decide (r.mem = m) && decide (r.ward = w))
    -- regions may be adjacent: walk from the start, at most once per region
    decide (off + len ≤ rs.foldl (fun p _ =>
      match rs.find? (fun r => decide (r.base ≤ p) && decide (p < r.base + r.size)) with
      | some r => r.base + r.size
      | none => p) off)
  else decide (w = 0)

/-! ### Faults, events -/

/-- Source `i` asserts; its block holds the assertion until the collector takes it (R312). -/
def State.assertFlt (s : State) (i : Nat) : State :=
  if s.flt.pend.contains i then s else { s with flt := { s.flt with pend := s.flt.pend ++ [i] } }

/-- The severity of source `i`: fixed, or that of its entry for a user source (R311, R324). -/
def State.srcSev (s : State) (i : Nat) : Nat := (srcSevFixed i).getD (s.g (FLT_REACT_SEV i))

/-- The latch word of group `g`: sources latched REAL or FORCED. -/
def State.grpBits (s : State) (g : Nat) : Nat := s.g (FLT_GRP_REAL_REAL g) ||| s.g (FLT_GRP_FORCED_FORCED g)

/-- FLT_SUMMARY, ANY and MAXSEV follow the latches. -/
def State.fltShow (s : State) : State :=
  let gs := maskOf 32 (fun g => decide (s.grpBits g ≠ 0))
  let top := (bitsOf 32 gs).foldl (fun m g => (bitsOf 32 (s.grpBits g)).foldl (fun m b => max m (s.srcSev (32 * g + b))) m) 0
  ((s.p FLT_SUMMARY_GROUPS gs).pb FLT_STATUS_ANY (decide (gs ≠ 0))).p FLT_STATUS_MAXSEV top

/-- Put a record into an event queue kept in stamp order, behind the records already in frames (R60). -/
def evInsert (e : Ev) : List Ev → List Ev
  | [] => [e]
  | x :: t => if stampKey e.stamp < stampKey x.stamp then e :: x :: t else x :: evInsert e t

/-- Replace the state of Ward `w`. -/
def State.modWard (s : State) (w : Nat) (f : WardSt → WardSt) : State :=
  if h : w < 4 then { s with wards := modv s.wards ⟨w, h⟩ f } else s

/-- One record into a Ward's event queue: dropped and counted when it is full; after drops the first record that fits is
EVENT_LOST (R60). EVENT_LOST enters together with the next record that comes when there is room, with the stamp of that moment, and
not at the ACK that makes room (DESIGN CHOICE, log). -/
def evPush (now : Stamp) (e : Ev) (x : WardSt) : WardSt :=
  let ins (e : Ev) (x : WardSt) : WardSt := { x with evq := x.evq.take x.flight ++ evInsert e (x.evq.drop x.flight) }
  if x.evq.length < 4096 then
    if x.lost = 0 then ins e x
    else
      let y := ins ⟨5, 0xFF, 0, 0, 0, now, x.lost, []⟩ { x with lost := 0 }
      if y.evq.length < 4096 then ins e y else { y with lost := 1 }
  else { x with lost := satAdd 16 x.lost 1 }

/-- An event record to Ward `w` (R59, R60); Wards that are not enabled have none. -/
def State.post (s : State) (w : Nat) (e : Ev) : State :=
  if (s.ward w).enable then s.modWard w (evPush s.now e) else s

/-- An event of a unit or the device: code, stamp of now and ARG (Table 3.7). -/
def State.event (s : State) (w : Nat) (code arg : Nat) : State :=
  s.post w ⟨code, 0xFF, 0, 0, 0, s.now, arg % 2 ^ 32, []⟩

/-- An event to the Ward that owns a unit; none where no Ward owns it (R59). -/
def State.eventTo (s : State) (w : Option Nat) (code arg : Nat) : State :=
  match w with
  | some w => s.event w code arg
  | none => s

/-- An event with a given stamp. -/
def State.eventAt (s : State) (w : Option Nat) (code : Nat) (st : Stamp) (arg : Nat) : State :=
  match w with
  | some w => s.post w ⟨code, 0xFF, 0, 0, 0, st, arg % 2 ^ 32, []⟩
  | none => s

/-- An event to every enabled Ward (R59). -/
def State.eventAll (s : State) (code arg : Nat) : State :=
  forEach s.enabled s (fun w t => t.event w code arg)

/-! ### Memory bytes -/

/-- The byte at device address `a`; a byte nothing has written reads 0 (DESIGN CHOICE, log). -/
def State.ldB (s : State) (a : Nat) : Byte := tabGet 0#8 s.mem a

/-- The byte at device address `a` takes the value `b`. -/
def State.stB (s : State) (a : Nat) (b : Byte) : State := { s with mem := tabSet 0#8 s.mem a b }

/-- `n` bytes from address `a`. -/
def State.ld (s : State) (a n : Nat) : List Byte := (List.range n).map (fun i => s.ldB (a + i))

/-- Store a byte string at address `a`. -/
def State.st : State → Nat → List Byte → State
  | s, _, [] => s
  | s, a, b :: t => State.st (s.stB a b) (a + 1) t

/-- A little-endian number of `n` bytes at address `a`. -/
def State.ldN (s : State) (a n : Nat) : Nat := leNat (s.ld a n)

/-- `n` bytes of the non-volatile memory. -/
def State.nvLd (s : State) (a n : Nat) : List Byte := (List.range n).map (fun i => tabGet 0#8 s.nvm (a + i))

/-- A table of bytes with `l` written from address `a` on. -/
def bytesPut : Tab Byte → Nat → List Byte → Tab Byte
  | m, _, [] => m
  | m, a, b :: t => bytesPut (tabSet 0#8 m a b) (a + 1) t

/-- Write bytes of the non-volatile memory; the words they lie in get fresh check bits (R326). -/
def State.nvSt (s : State) (a : Nat) (l : List Byte) : State :=
  { s with nvm := bytesPut s.nvm a l, nvmEcc := tabDrop (a / 8) ((a + l.length + 7) / 8) s.nvmEcc }

/-- A word of `n` bytes from `a` on of the non-volatile memory has the error mark `m`. -/
def State.nvMark (s : State) (m : EccMark) (a n : Nat) : Bool :=
  s.nvmEcc.any (fun p => decide (p.2 = m) && decide (a / 8 ≤ p.1) && decide (8 * p.1 < a + n))

/-- Words of the non-volatile array have gone wrong since they were written: errors to be read, or cells that are worn out (R326,
R330). -/
def State.nvAge (s : State) (l : List NvWord) : State :=
  l.foldl (fun s x => match x.cond with
    | .single => { s with nvmEcc := tabIns x.word .single (tabErase x.word s.nvmEcc) }
    | .multi => { s with nvmEcc := tabIns x.word .multi (tabErase x.word s.nvmEcc) }
    | .worn => { s with store := { s.store with worn := x.word :: s.store.worn } }) s

/-- `n` bytes from `a` on hold a word that is worn out. -/
def State.nvWorn (s : State) (a n : Nat) : Bool := s.store.worn.any (fun w => decide (a / 8 ≤ w) && decide (8 * w < a + n))

/-- `n` bytes from `a` on hold an uncorrectable word. -/
def State.nvBad (s : State) (a n : Nat) : Bool := s.nvMark .multi a n

/-- The canonical form of memory: addresses strictly rising, no byte equal to what an unlisted address reads as. -/
def Memory.wf (m : Tab Byte) : Bool := tabOk (fun _ => (0#8 : Byte)) 0 m

/-! ### Units -/

/-- Replace sequencer `k`. -/
def State.modSeq (s : State) (k : Nat) (f : Seq → Seq) : State :=
  if h : k < 32 then { s with seqs := modv s.seqs ⟨k, h⟩ f } else s
/-- Sequencer `k`. -/
def State.seq (s : State) (k : Nat) : Seq := s.seqs.toList.getD k .zero
/-- Replace Square `q`. -/
def State.modSq (s : State) (q : Nat) (f : Sq → Sq) : State :=
  if h : q < 64 then { s with sqs := modv s.sqs ⟨q, h⟩ f } else s
/-- Square `q`. -/
def State.sq (s : State) (q : Nat) : Sq := s.sqs.toList.getD q .zero
/-- Replace stream engine `v`. -/
def State.modVs (s : State) (v : Nat) (f : VsEng → VsEng) : State :=
  if h : v < 16 then { s with vs := modv s.vs ⟨v, h⟩ f } else s
/-- Stream engine `v`. -/
def State.vse (s : State) (v : Nat) : VsEng := s.vs.toList.getD v .zero
/-- Replace channel `n`. -/
def State.modCh (s : State) (n : Nat) (f : Chan → Chan) : State :=
  if h : n < 128 then { s with chans := modv s.chans ⟨n, h⟩ f } else s
/-- Channel `n`. -/
def State.ch (s : State) (n : Nat) : Chan := s.chans.toList.getD n .zero
/-- Replace Channel Block `c`. -/
def State.modCb (s : State) (c : Nat) (f : Cblk → Cblk) : State :=
  if h : c < 32 then { s with cbs := modv s.cbs ⟨c, h⟩ f } else s
/-- Channel Block `c`. -/
def State.cb (s : State) (c : Nat) : Cblk := s.cbs.toList.getD c .zero
/-- Replace the capture arm of sequencer `k`. -/
def State.modArm (s : State) (k : Nat) (f : CapArm → CapArm) : State :=
  if h : k < 32 then { s with arms := modv s.arms ⟨k, h⟩ f } else s
/-- The capture arm of sequencer `k`. -/
def State.arm (s : State) (k : Nat) : CapArm := s.arms.toList.getD k .zero
/-- Replace core `c`. -/
def State.modCore (s : State) (c : Nat) (f : Core → Core) : State :=
  if h : c < 48 then { s with cores := modv s.cores ⟨c, h⟩ f } else s
/-- Core `c`. -/
def State.core (s : State) (c : Nat) : Core := s.cores.toList.getD c .zero
/-- Context `c`. -/
def State.ctx (s : State) (c : Nat) : Ctx := tabGet .zero s.ctxs c
/-- Replace context `c`. -/
def State.modCtx (s : State) (c : Nat) (f : Ctx → Ctx) : State := { s with ctxs := tabSet .zero s.ctxs c (f (s.ctx c)) }
/-- Replace DRAM channel `d`. -/
def State.modDrc (s : State) (d : Nat) (f : Drc → Drc) : State :=
  if h : d < 4 then { s with drcs := modv s.drcs ⟨d, h⟩ f } else s
/-- DRAM channel `d`. -/
def State.drc (s : State) (d : Nat) : Drc := s.drcs.toList.getD d .zero
/-- Replace lane `l`. -/
def State.modLane (s : State) (l : Nat) (f : Lane → Lane) : State :=
  if h : l < 16 then { s with lanes := modv s.lanes ⟨l, h⟩ f } else s
/-- Lane `l`. -/
def State.lane (s : State) (l : Nat) : Lane := s.lanes.toList.getD l .zero
/-- Replace lane group `g`. -/
def State.modGrp (s : State) (g : Nat) (f : Group → Group) : State :=
  if h : g < 7 then { s with groups := modv s.groups ⟨g, h⟩ f } else s
/-- Lane group `g`. -/
def State.grp (s : State) (g : Nat) : Group := s.groups.toList.getD g .zero
/-- Replace port `p`. -/
def State.modPort (s : State) (p : Nat) (f : Port → Port) : State :=
  if h : p < 7 then { s with ports := modv s.ports ⟨p, h⟩ f } else s
/-- Port `p`. -/
def State.port (s : State) (p : Nat) : Port := s.ports.toList.getD p .zero
/-- Replace time trigger `t`. -/
def State.modTrig (s : State) (t : Nat) (f : Trig → Trig) : State :=
  if h : t < 32 then { s with trigs := modv s.trigs ⟨t, h⟩ f } else s
/-- Time trigger `t`. -/
def State.trg (s : State) (t : Nat) : Trig := s.trigs.toList.getD t .zero
/-- Replace TIM unit `u`. -/
def State.modTim (s : State) (u : Nat) (f : TimU → TimU) : State :=
  if h : u < 8 then { s with tims := modv s.tims ⟨u, h⟩ f } else s
/-- TIM unit `u`. -/
def State.tim (s : State) (u : Nat) : TimU := s.tims.toList.getD u .zero
/-- Ward state `w`. -/
def State.wst (s : State) (w : Nat) : WardSt := s.wards.toList.getD w .zero

/-! ### Channels outside a beat (R152) -/

/-- DEN 0 and DRV at its rest value. -/
def State.chanIdle (s : State) (n : Nat) : State := (s.pb (CH_STATUS_DEN n) false).p (CH_STATUS_DRV n) (s.g (CH_CFG_DRV_REST n))

/-- A channel that is outside a burst takes its rest values: always with DISABLE, which suppresses what is still to come, else
when its Channel Block is owned and IDLE and END_HOLD does not keep the values of a last burst. -/
def State.chanRest (s : State) (n : Nat) : State :=
  if (s.cbSeq (n / 4)).isNone then s
  else if s.gb (CH_CFG_DISABLE n) then
    ((s.modCh n (fun x => { x with placed := [], window := none })).p (CH_STATUS_SPILL n) 0).chanIdle n
  else if s.g (CH_CB_STATUS_STATE (n / 4)) = 0 ∧ (!s.gb (CH_CFG_END_HOLD n) ∨ !(s.cb (n / 4)).played) then s.chanIdle n
  else s

/-- DEN of every channel is 0. -/
def State.denOff (s : State) : State := forEach (List.range 128) s (fun n s => s.pb (CH_STATUS_DEN n) false)

/-- TWIN_ACT takes a level. -/
def State.setAct (s : State) (v : Bool) : State :=
  if s.twin.act = v then s else { s with twin := { s.twin with act := v } }.emit (.twinAct v)

/-! ### Outcomes -/

/-- The device is out of operation (R319). -/
def State.out (s : State) : Bool := s.gb FLT_STATUS_OUT

/-- A Townplan is sealed and in force. -/
def State.sealedNow (s : State) : Bool := s.plan.sealed

/-- The role shown in TWN_STATUS: 0 SINGLE, 1 ACTIVE, 2 STANDBY, 3 DETACHED. -/
def State.role (s : State) : Nat := s.g TWN_STATUS_ROLE

/-- The member is ACTIVE with a STANDBY (R346). -/
def State.paired (s : State) : Bool := decide (s.role = 1) && s.gb TWN_STATUS_PAIRED

/-- The member drives the head: a single device or the ACTIVE member. -/
def State.active (s : State) : Bool := decide (s.role = 0) || decide (s.role = 1)

/-- The phase of start-up has reached RUN (R371), no reset is in progress, the fast clocks run (R318) and Porter does (R363). -/
def State.running (s : State) : Bool := decide (s.g RST_STATUS_PHASE = 5) && decide (s.pwr.inReset = none) && !s.pwr.gatedAll &&
  !s.pwr.stopped.contains 129

/-- The fast clocks run (R318, Table 13.4) and no chip reset has begun (R366): the units act. -/
def State.ticks (s : State) : Bool := !s.pwr.gatedAll && s.pwr.inReset.isNone

/-! ### Clock domains (R362 to R365, Table 17.2) -/

/-- The domain of sequencer `k`. -/
def psDom (k : Nat) : Nat := 1 + k
/-- The domain of Channel Block `c`. -/
def cbDom (c : Nat) : Nat := 33 + c
/-- The domain of stream engine `v`. -/
def vsDom (v : Nat) : Nat := 65 + v
/-- The domain of core `c`. -/
def acDom (c : Nat) : Nat := 81 + c
/-- The domain of the Dispatcher. -/
def dspDom : Nat := 130
/-- The domain of the time base. -/
def tbDom : Nat := 131
/-- The domain of the converter. -/
def adcDom : Nat := 132
/-- The domain of the capture fabric. -/
def capDom : Nat := 133
/-- The domain of DRAM channel `d`. -/
def drcDom (d : Nat) : Nat := 135 + d

/-- Domain `d` runs. -/
def State.domOn (s : State) (d : Nat) : Bool := nbit (s.g (CLK_ON_ON (d / 64))) (d % 64)

/-- CLK_EN enables domain `d`; domain 0 always. -/
def State.domEn (s : State) (d : Nat) : Bool := decide (d = 0) || nbit (s.g (CLK_EN_EN (d / 64))) (d % 64)

/-- The unit of domain `d` acts: the fast clocks and its own run (R363, R364). -/
def State.ticksOf (s : State) (d : Nat) : Bool := s.ticks && s.domOn d

/-- Something waits for the gated domain `d` (R364). -/
def State.demand (s : State) (d : Nat) : State :=
  if s.domOn d || s.pwr.demand.contains d then s else { s with pwr := { s.pwr with demand := s.pwr.demand ++ [d] } }

/-- Work comes to the unit of domain `d`: one that CLK_EN does not enable never runs for work (R364). -/
def State.demandWork (s : State) (d : Nat) : State := if s.domEn d then s.demand d else s

/-- A state as the next state of a step. -/
abbrev toNext (s : State) : Outcome State Fault Refusal := .next s

end Sys2Proof.Machine
end

