-- ==== Sys2Proof/Machine/Symbols.lean ====
section
/-! DEFINITION. What the lanes carry of a frame: 8b/10b code groups and running disparity (R233), the symbols of a frame and their
columns (R41, R42, R235), PAD and the first IDLE (R234). -/

namespace Sys2Proof.Machine

/-! ### Running disparity -/

/-- A code group changes the sign of the running disparity: one of its sub-blocks has unequal numbers of ones and zeros, not both
(IEEE 802.3 Clause 36, which R233 names. Mark: PRESUMED, log). -/
def CodeGroup.flips (c : CodeGroup) : Bool :=
  let x := c.b.toNat % 32
  let y := c.b.toNat / 32
  (c.k || [0, 1, 2, 4, 8, 15, 16, 23, 24, 27, 29, 30, 31].contains x) != [0, 4, 7].contains y

/-- The running disparity, positive or not, behind code groups that begin with a negative one, as an IDLE leaves it (R234). -/
def rdAfter (l : List CodeGroup) : Bool := l.foldl (fun p c => p != c.flips) false

/-- The first IDLE on a lane: K28.5 D5.6 with positive running disparity, else K28.5 D16.2, and negative behind it (R234). -/
def idleFirst (positive : Bool) : List CodeGroup := [⟨true, 0xBC#8⟩, ⟨false, if positive then 0xC5#8 else 0x50#8⟩]

/-! ### Frames on lanes -/

/-- The symbols of a frame: SOF, its bytes with the CRC, EOF (Table 3.1). -/
def frameSyms (bytes : List Byte) (crc : Nat) : List CodeGroup :=
  [⟨true, 0xFB#8⟩] ++ (bytes ++ toLe 4 crc).map (fun b => ⟨false, b⟩) ++ [⟨true, 0xFD#8⟩]

/-- Symbol by symbol in columns of `n` lanes: what lane `i` of them carries, with PAD in the places of the last column that EOF leaves
(R235), and the first IDLE. -/
def laneGroups (n i : Nat) (l : List CodeGroup) : List CodeGroup :=
  let own := (List.range ((l.length + n - 1) / n)).map (fun c => l.getD (n * c + i) ⟨true, 0xF7#8⟩)
  own ++ idleFirst (rdAfter own)

/-- The lanes of group `g`, in increasing logical lane (Table 11.1). -/
def grpLanes : Nat → List Nat
  | 4 => [8, 9, 10, 11]
  | 5 => [12, 13]
  | 6 => [14, 15]
  | g => [2 * g, 2 * g + 1]

/-- The lanes in use for transmission of group `g`, in increasing logical lane. -/
def State.txLanes (s : State) (g : Nat) : List Nat :=
  ((grpLanes g).zipIdx.filter (fun p => nbit (s.grp g).txMask p.2)).map (·.1)

/-- A frame on the lanes in use of group `g`, lowest logical lane first (R42, R235), with their polarities (R232). At least one IDLE
stands between two frames (DESIGN CHOICE, log). -/
def State.onLanes (s : State) (g : Nat) (l : List CodeGroup) : List LaneOut :=
  let ls := s.txLanes g
  ls.zipIdx.map (fun p => ⟨p.1, s.gb (LN_CFG_TX_INV p.1), laneGroups ls.length p.2 l⟩)

end Sys2Proof.Machine
end

