-- ==== Sys2Proof/Machine/Port.lean ====
section
/-! DEFINITION. Sending frames: credits, sequence numbers, the replay buffer (R44 to R48), and the mirror backlog of a
twin pair (R348, R349). Ports 0 to 3 are the host ports, 4 the twin link, 5 and 6 the sync ring. -/

namespace Sys2Proof.Machine

/-- Data credits a payload needs: one per 64 bytes, rounded up (R47). -/
def dataUnits (n : Nat) : Nat := (n + 63) / 64

/-- The clock domain of the lane quad of group `p` (Table 17.2). -/
def quadDomain (p : Nat) : Nat := 139 + (if p < 4 then p / 2 else if p = 4 then 2 else 3)

/-- The port carries frames: its group is UP, its lanes have their clock (R363), and after the start of a chip reset only the
twin link does (R367). -/
def State.portUp (s : State) (p : Nat) : Bool :=
  decide (s.g (LN_GRP_STATUS_STATE p) = 2) && !s.pwr.stopped.contains (quadDomain p) && !s.pwr.gatedAll && (decide (s.pwr.inReset = none) || decide (p = 4))

/-- What port `p` carries of a type of frame: everything while no chip reset has begun; then only what completes the record in
progress, TW_JNL, TW_JNL_ACK and their NAK and CREDIT (R226, R367). -/
def State.carries (s : State) (p : Nat) (type : Byte) : Bool :=
  s.portUp p && (decide (s.pwr.inReset = none) || [0x51#8, 0x52#8, 0xC0#8, 0xC1#8].contains type)

/-- The header and payload bytes of a frame, which its CRC covers (Tables 3.1, 3.2). -/
def frameBytes (type status : Byte) (seq ack : BitVec 16) (crdHdr crdData : Byte) (tag : BitVec 16) (queue : Byte)
    (rsvd : BitVec 24) (payload : List Byte) : List Byte :=
  [type, status] ++ toLe 2 payload.length ++ toLe 2 seq.toNat ++ toLe 2 ack.toNat ++ [crdHdr, crdData] ++ toLe 2 tag.toNat ++
    [queue] ++ toLe 3 rsvd.toNat ++ payload

/-- A frame leaves port `p` with the ACK of the last data frame received in order, the credits owed, and its CRC-32C (R41, R44,
R47). Credits and an ACK that are owed leave with the next frame, whichever it is, and a frame that is sent again carries those
of that moment (DESIGN CHOICE, log). -/
def State.sendOut (s : State) (p : Nat) (f : TxFrame) : State :=
  let q := s.port p
  let ack := q.rxNext - 1#16
  let h := min 255 q.owedHdr
  let d := min 255 q.owedData
  let bytes := frameBytes f.type f.status f.seq ack (BitVec.ofNat 8 h) (BitVec.ofNat 8 d) f.tag f.queue 0#24 f.payload
  let crc := crc32c bytes
  let s := s.emit (.frame p f ack.toNat h d crc (s.onLanes p (frameSyms bytes crc)))
  s.modPort p (fun q => { q with owedHdr := q.owedHdr - h, owedData := q.owedData - d })

/-- A link frame: SEQ 0, no credit, no replay (R44). -/
def State.sendLink (s : State) (p : Nat) (ty : Nat) (payload : List Byte) : State :=
  if s.carries p (BitVec.ofNat 8 ty) then
    s.sendOut p ⟨0#16, BitVec.ofNat 8 ty, 0#8, 0#16, 0#8, payload, none, 0⟩
  else s

/-- The port may send this data frame now: UP, credits of both kinds, room in the replay buffer (R46, R47). -/
def State.canSend (s : State) (p : Nat) (f : TxFrame) : Bool :=
  let q := s.port p
  s.carries p f.type && decide (q.replay.length < 128) && decide (1 ≤ q.peerHdr) && decide (dataUnits f.payload.length ≤ q.peerData)

/-- An ordered set leaves on lane `l`, with the polarity of LN_CFG.TX_INV (R232). -/
def State.laneSet (s : State) (l kind : Nat) (b : List Byte) : State := s.emit (.set l kind b (s.gb (LN_CFG_TX_INV l)))

/-- LIVE_INJ of a lane that is ACTIVE corrupts the data frame that leaves now, and is done (R247): the set of kind 5 says that an
invalid code group stands in place of the first one after SOF on that lane. -/
def State.liveInj (s : State) (p : Nat) : State :=
  forEach (grpLanes p) s (fun l s =>
    if s.gb (LN_TEST_LIVE_INJ l) && decide (s.g (LN_STATUS_STATE l) = 3) then (s.pb (LN_TEST_LIVE_INJ l) false).laneSet l 5 []
    else s)

/-- A data frame takes the next SEQ, uses credits, enters the replay buffer and leaves. -/
def State.sendData (s : State) (p : Nat) (f : TxFrame) : State :=
  let q := s.port p
  let f := { f with seq := q.txNext }
  let s := s.modPort p (fun q => { q with
    txNext := q.txNext + 1#16, replay := q.replay ++ [f], peerHdr := q.peerHdr - 1,
    peerData := q.peerData - dataUnits f.payload.length })
  (s.liveInj p).sendOut p f

/-- The first waiting data frame leaves if it may; on the twin link, the mirror backlog follows the frames (R349). -/
def State.pumpOne (s : State) (p : Nat) : State :=
  match (s.port p).txq with
  | f :: t => if s.canSend p f then (s.modPort p (fun q => { q with txq := t })).sendData p f else s
  | [] =>
    if p = 4 then
      match s.twin.backlog with
      | (ty, b) :: t =>
        let f : TxFrame := ⟨0#16, BitVec.ofNat 8 ty, 0#8, 0#16, 0#8, b, none, 0⟩
        if s.canSend 4 f then { s with twin := { s.twin with backlog := t } }.sendData 4 f else s
      | [] => s
    else s

/-- Waiting data frames leave while they may. -/
def State.pump (s : State) (p : Nat) : State :=
  (List.range ((s.port p).txq.length + (if p = 4 then s.twin.backlog.length else 0))).foldl (fun s _ => s.pumpOne p) s

/-- A data frame is queued for port `p` and leaves as soon as credit allows. -/
def State.sendFrame (s : State) (p : Nat) (f : TxFrame) : State :=
  (s.modPort p (fun q => { q with txq := q.txq ++ [f] })).pump p

/-- A data frame that no order holds up: type, STATUS, TAG, QUEUE, payload (Table 3.2). -/
def State.reply (s : State) (p ty status : Nat) (tag : BitVec 16) (queue : Nat) (payload : List Byte) : State :=
  s.sendFrame p ⟨0#16, BitVec.ofNat 8 ty, BitVec.ofNat 8 status, tag, BitVec.ofNat 8 queue, payload, none, 0⟩

/-- Responses that port `p` owes and that nothing before them holds up leave (R51). -/
def State.flushResps (s : State) (p : Nat) : State :=
  let go := (s.port p).resps.takeWhile (fun o => o.wait.isNone)
  forEach go (s.modPort p (fun q => { q with resps := q.resps.drop go.length })) (fun o s => s.sendFrame p o.frame)

/-- CMD_ACK frames that port `p` owes and that nothing before them holds up leave (R57). -/
def State.flushAcks (s : State) (p : Nat) : State :=
  let go := (s.port p).acks.takeWhile (fun o => o.wait.isNone)
  forEach go (s.modPort p (fun q => { q with acks := q.acks.drop go.length })) (fun o s => s.sendFrame p o.frame)

/-- A response to a transaction takes its place in arrival order. -/
def State.respond (s : State) (p : Nat) (o : Owed) : State :=
  (s.modPort p (fun q => { q with resps := q.resps ++ [o] })).flushResps p

/-- A CMD_ACK takes its place in arrival order. -/
def State.acknowledge (s : State) (p : Nat) (o : Owed) : State :=
  (s.modPort p (fun q => { q with acks := q.acks ++ [o] })).flushAcks p

/-- What an owed frame waited for has come: the frame gets its payload. -/
def readyOwed (wait : Nat) (payload : List Byte) (l : List Owed) : List Owed :=
  updFirst (fun o => decide (o.wait = some wait)) (fun o => { o with wait := none, frame := { o.frame with payload := payload } }) l

/-- The data frame of a type, STATUS, TAG, QUEUE and payload. -/
def dataFrame (ty status : Nat) (tag : BitVec 16) (queue : Nat) (payload : List Byte) : TxFrame :=
  ⟨0#16, BitVec.ofNat 8 ty, BitVec.ofNat 8 status, tag, BitVec.ofNat 8 queue, payload, none, 0⟩

/-- A data frame of the twin link (Table 16.7). -/
def State.twinSend (s : State) (ty : Nat) (payload : List Byte) : State := s.reply 4 ty 0 0#16 0 payload

/-- The ACTIVE begins a detach: TW_DETACH is sent, and PAIRED clears when it is acknowledged (R350). -/
def State.detachBegin (s : State) (cause : Nat) (cmd : Option Nat) : State :=
  let s := { s with twin := { s.twin with detach := some (cause, cmd), backlog := [] } }
  s.twinSend 0x59 []

/-- A mirrored entry joins the backlog; an overflow detaches the pair (R348, R349). -/
def State.mirror (s : State) (ty : Nat) (payload : List Byte) : State :=
  if (s.paired || s.twin.copying) && decide (s.twin.detach = none) then
    if s.twin.backlog.length < 65536 then
      { s with twin := { s.twin with backlog := s.twin.backlog ++ [(ty, payload)] } }.pump 4
    else ((s.pb TWN_STATUS_MIRROR_OVF true).inc TWN_MIRROR_OVERFLOWS 1).detachBegin 6 none
  else s

end Sys2Proof.Machine
end

