-- ==== Sys2Proof/Machine/Journal.lean ====
section
/-! DEFINITION. The Journal and the life of a command: records due and being written (R326 to R332), acknowledgement,
events at commit (R19, R59), the start conditions of R57 and the outcomes of R58. -/

namespace Sys2Proof.Machine

/-! ### Records -/

/-- Slots of the Journal ring (R326). -/
def jnlSlots : Nat := 196608

/-- Where slot `k` lies in the non-volatile memory: behind the two image slots. -/
def jnlAddr (k : Nat) : Nat := 4194304 + 64 * k

/-- The commit word expected for a SEQNO (R330). -/
def commitWord (n : Nat) : Nat := if n / jnlSlots % 2 = 0 then 0xC33C else 0x3CC3

/-- The state code of a record kind (Table 16.2). -/
def RecKind.code : RecKind → Nat
  | .accepted => 0 | .started => 1 | .done => 2 | .abandoned => 3 | .replayed => 4 | .boot => 5

/-- The 64 bytes of a record with its COMMIT (Table 16.2). -/
def recBytes (seqno kind flags opcode tag : Nat) (body : List Byte) (stamp : Stamp) : List Byte :=
  let a := toLe 8 seqno ++ toLe 1 kind ++ toLe 1 flags ++ toLe 2 opcode ++ toLe 2 tag
  let b := sub body 0 32 ++ toLe 12 stamp.toNat
  a ++ toLe 2 (commitWord seqno) ++ b ++ toLe 4 (crc32c (a ++ b))

/-- `n` bytes from `a` on of the non-volatile memory are read: a corrected word raises JNL_NVM_CE (R326). -/
def State.nvCe (s : State) (a n : Nat) : State := if s.nvMark .single a n then s.assertFlt 353 else s

/-- A record image is valid in slot `k` (R338). -/
def recValid (k : Nat) (r : List Byte) : Bool :=
  let n := u r 0 8
  decide (n % jnlSlots = k) && decide (u r 0x0E 2 = commitWord n) &&
    decide (u r 0x3C 4 = crc32c (r.take 0x0E ++ sub r 0x10 0x2C))

/-! ### The command table -/

/-- The command with the model's name `id`. -/
def State.cmd? (s : State) (id : Nat) : Option Cmd := s.cmds.find? (fun c => decide (c.id = id))

/-- Update the command `id`. -/
def State.modCmd (s : State) (id : Nat) (f : Cmd → Cmd) : State :=
  { s with cmds := updFirst (fun c => decide (c.id = id)) f s.cmds }

/-- A record becomes due for a command. -/
def State.addDue (s : State) (d : DueRec) : State := { s with jnl := { s.jnl with due := s.jnl.due ++ [d] } }

/-- The JSEQ of a command; 0 before its ACCEPTED record is begun. -/
def Cmd.jseqN (c : Cmd) : Nat := c.jseq.getD 0

/-- KIND of a command's record. -/
def Cmd.kind (c : Cmd) (k : RecKind) : Nat := k.code + 8 * c.ward.val + 32 * c.queue.val

/-- A command of the STANDBY that this ACTIVE member keeps the records of (R19, R331). -/
def State.ofPeer (s : State) (cmd : Option Nat) : Bool := decide (s.role = 1) && (cmd.bind s.cmd?).any (fun c => !c.own)

/-- A record is put into the slot of the next SEQNO up to its commit word (phase 1 of R330); in a pair TW_JNL carries it
to the STANDBY (R331), with QUEUE 1 where it belongs to a command of the STANDBY's own (DESIGN CHOICE, log 117). -/
def State.beginRecord (s : State) (due : Option DueRec) (cmd : Option Nat) (bytes : List Byte) : State :=
  let n := s.jnl.next
  let a := jnlAddr (n % jnlSlots)
  let s := { s with jnl := { s.jnl with prog := some ⟨due, cmd, n, bytes⟩, next := n + 1 } }
  let s := (s.nvSt a (bytes.take 0x0E)).nvSt (a + 0x10) (bytes.drop 0x10)
  if s.paired then s.reply 4 0x51 0 0#16 (b2n (s.ofPeer cmd)) bytes else s

/-- FLAGS of a new record: PAIR while paired, CARRY for a carried copy. -/
def State.recFlags (s : State) (carry : Bool) : Nat := b2n carry + 2 * b2n s.paired

/-- The carried copy of the record `r` of command `c` (R332): BODY as it was, but an ACCEPTED record's becomes JSEQ and
DIGEST bytes 0 to 23. -/
def State.carried (s : State) (c : Cmd) (r : List Byte) : List Byte :=
  let body := sub r 0x10 32
  let body := if u r 8 1 % 8 = 0 ∧ u r 9 1 % 2 = 0 then toLe 8 c.jseqN ++ body.take 24 else body
  recBytes s.jnl.next (u r 8 1) (s.recFlags true) (u r 0x0A 2) (u r 0x0C 2) body s.now

/-- BODY of a due record (Table 16.3). -/
def dueBody (c : Option Cmd) (d : DueRec) : List Byte :=
  match d.kind, c with
  | .accepted, some c => if d.body.isEmpty then sha256 (toLe 8 c.hdr.toNat ++ c.args) else d.body
  | .boot, _ => d.body
  | _, some c => toLe 8 c.jseqN ++ d.body
  | _, none => d.body

/-- The record of a command that the peer of a pair carries is not due on the STANDBY. -/
def State.dueHere (s : State) (d : DueRec) : Bool :=
  decide (s.role ≠ 2) || (match d.cmd.bind s.cmd? with
    | some c => c.own
    | none => true)

/-- The bytes of a due record under SEQNO `n`. -/
def State.dueBytes (s : State) (n : Nat) (d : DueRec) : List Byte :=
  match d.cmd.bind s.cmd? with
  | some c => recBytes n (c.kind d.kind) (s.recFlags false) c.opcode c.tag.toNat (dueBody (some c) d) s.now
  | none => recBytes n d.kind.code (s.recFlags false) 0 0 (dueBody none d) s.now

/-- The STANDBY writes no record of its own: the oldest that is due goes to the ACTIVE, which gives it its SEQNO, and the next one
waits until both Journals hold it (R19, R331; TW_JNL with QUEUE 1 and SEQNO all ones is a DESIGN CHOICE, log 117). -/
def State.forwardRecord (s : State) : State :=
  match s.jnl.fwd, s.jnl.due.find? s.dueHere with
  | none, some d =>
    { s with jnl := { s.jnl with due := dropFirst s.dueHere s.jnl.due, fwd := some (d, none) } }.reply 4 0x51 0 0#16 1
      (s.dueBytes (2 ^ 64 - 1) d)
  | _, _ => s

/-- The writer begins the next record, if none is in progress, new records may begin and Porter has its clock (R318): first a
carried copy when the slot holds the latest record of an open command (R332), else the oldest record due (R330). -/
def State.pumpJournal (s : State) : State :=
  if s.jnl.stop || s.jnl.prog.isSome || s.pwr.gatedAll then s
  else if s.role = 2 then s.forwardRecord
  else
    let slot := s.jnl.next % jnlSlots
    match s.jnl.due.find? s.dueHere with
    | none => s
    | some d =>
      match s.cmds.find? (fun c => match c.latest with
        | some k => decide (k % jnlSlots = slot)
        | none => false) with
      | some c => s.beginRecord none (some c.id) (s.carried c (s.nvLd (jnlAddr slot) 64))
      | none =>
        let c := d.cmd.bind s.cmd?
        let n := s.jnl.next
        let bytes := s.dueBytes n d
        let s := { s with jnl := { s.jnl with due := dropFirst s.dueHere s.jnl.due } }
        let s := match d.kind, c with
          | .accepted, some c => s.modCmd c.id (fun c => { c with jseq := some n })
          | _, _ => s
        s.beginRecord (some d) d.cmd bytes

/-- A record becomes due and is begun if the writer is free. -/
def State.record (s : State) (kind : RecKind) (cmd : Option Nat) (body data : List Byte) : State :=
  (s.addDue ⟨kind, cmd, body, data⟩).pumpJournal

/-! ### At commit -/

/-- An event record of a command (Table 3.7). -/
def State.cmdEvent (s : State) (c : Cmd) (code status arg : Nat) (data : List Byte) : State :=
  s.post c.ward.val ⟨code, c.queue.val, status, c.tag.toNat, c.jseqN, s.now, arg, data⟩

/-- A record of a STANDBY's own command stands in both Journals: the ACTIVE tells the STANDBY, which acts on it (R19, R331). -/
def State.peerCommit (s : State) (d : DueRec) (c : Cmd) : State :=
  let s := s.twinSend 0x52 (toLe 8 (c.latest.getD 0))
  if d.kind = .done ∨ d.kind = .abandoned then { s with cmds := s.cmds.filter (fun x => decide (x.id ≠ c.id)) } else s

/-- What the commit of a due record brings about (R19, R59, R329): CMD_ACK, CMD_STARTED, CMD_DONE, CMD_ABANDONED or
CMD_REPLAYED; a final record ends the command. -/
def State.onCommit (s : State) (d : DueRec) : State :=
  match d.cmd.bind s.cmd? with
  | none => s
  | some c =>
    if s.ofPeer d.cmd then s.peerCommit d c else
    match d.kind with
    | .accepted =>
      let s := s.modCmd c.id (fun c => { c with committed := true })
      (s.modPort c.port (fun q => { q with acks := readyOwed c.id (toLe 8 c.jseqN) q.acks })).flushAcks c.port
    | .started => if c.notify then (s.cmdEvent c 1 0 (s.freeVal % 2 ^ 32) []).useFree else s
    | .done =>
      let s := s.cmdEvent c 2 (u d.body 0 1) (u d.body 4 4) d.data
      { s with cmds := s.cmds.filter (fun x => decide (x.id ≠ c.id)) }
    | .abandoned =>
      let s := s.cmdEvent c 3 0 (u d.body 0 1) []
      { s with cmds := s.cmds.filter (fun x => decide (x.id ≠ c.id)) }
    | .replayed => (s.cmdEvent c 4 0 (s.freeVal % 2 ^ 32) []).useFree
    | .boot => s

/-- A word of the record in progress has failed verification after its rewrites: JNL_WRITE latches, the record stays torn, and no
further record is begun until the reset that its reaction leads to (R330; DESIGN CHOICE, log 93). -/
def State.recordFails (s : State) : State :=
  if s.jnl.prog.isSome then { s with jnl := { s.jnl with prog := none, stop := true } }.assertFlt 355 else s

/-- The record in progress commits (phase 2 of R330); the next record due is begun. -/
def State.commitProg (s : State) : State :=
  match s.jnl.prog with
  | none => s
  | some r =>
    let s := { s with jnl := { s.jnl with prog := none } }
    let s := s.nvSt (jnlAddr (r.seqno % jnlSlots) + 0x0E) (toLe 2 (commitWord r.seqno))
    let s := s.p JNL_HEAD_SEQNO r.seqno
    let s := if r.seqno % jnlSlots = jnlSlots - 1 then
        let t := s.p JNL_WEAR_PASSES (s.g JNL_WEAR_PASSES + 1)
        if t.g JNL_WEAR_PASSES = 90000000 then t.assertFlt 356 else t
      else s
    let s := match r.cmd with
      | some id => s.modCmd id (fun c => { c with latest := some r.seqno })
      | none => s
    let s := match r.due with
      | some d => s.onCommit d
      | none => s.inc JNL_WEAR_CARRIES 1
    s.pumpJournal

/-! ### Outcomes of a command (R58, R329) -/

/-- The command has no final record, neither written nor due: there is exactly one (R329). -/
def State.cmdOpen (s : State) (id : Nat) : Bool := s.cmds.any (fun c => decide (c.id = id) && decide (c.st ≠ .ending))

/-- A command ends with DONE, STATUS and ARG: its final record becomes due. -/
def State.finishData (s : State) (id status arg : Nat) (data : List Byte) : State :=
  if s.cmdOpen id then
    (s.modCmd id (fun c => { c with st := .ending })).record .done (some id)
      (toLe 1 status ++ [0#8, 0#8, 0#8] ++ toLe 4 arg) data
  else s

/-- A command ends with DONE, without data. -/
def State.finish (s : State) (id status arg : Nat) : State := s.finishData id status arg []

/-- A command ends with DONE; the manual states no ARG for it, so ARG is a free value. -/
def State.finishF (s : State) (id status : Nat) : State := s.useFree.finish id status (s.freeVal % 2 ^ 32)

/-- The command of an optional name ends with DONE. -/
def State.finishOpt (s : State) (id : Option Nat) (status arg : Nat) : State :=
  match id with
  | some id => s.finish id status arg
  | none => s

/-- A command ends with ABANDONED and a reason of Table 16.4. -/
def State.abandon (s : State) (id reason : Nat) : State :=
  if s.cmdOpen id then
    (s.modCmd id (fun c => { c with st := .ending })).record .abandoned (some id) (toLe 1 reason) []
  else s

/-- A command that its start checks refuse completes at once with that status and gets no STARTED record (R58, R329). -/
def State.refuseArg (s : State) (c : Cmd) (status arg : Nat) : State := s.finish c.id status arg

/-- The same where the manual states no ARG. -/
def State.refuse (s : State) (c : Cmd) (status : Nat) : State := s.finishF c.id status

/-- A command that passes its start checks starts: STARTED becomes due (R329). -/
def State.started (s : State) (c : Cmd) : State :=
  (s.modCmd c.id (fun c => { c with st := .running, started := true })).record .started (some c.id) [] []

/-- A command that starts and completes at once with OK and ARG. -/
def State.completeArg (s : State) (c : Cmd) (arg : Nat) : State := (s.started c).finish c.id 0 arg

/-- The same where the manual states no ARG. -/
def State.complete (s : State) (c : Cmd) : State := (s.started c).finishF c.id 0

/-- The opcodes of the Townplan commands (Table 3.5). -/
def isPlanOp (op : Nat) : Bool := decide (0x10 ≤ op) && decide (op ≤ 0x16)

/-- The commands that start a burst, an arm or a graph: a device out of operation starts none (R319). -/
def armsOp (op : Nat) : Bool :=
  [0x20, 0x30, 0x40, 0x41, 0x50, 0x61, 0x62, 0x70, 0x71, 0x80].contains op

/-- What stands at the front of a queue: nothing that may start, a command that needs its start mark acknowledged by the
STANDBY (R331), or a command that starts. -/
inductive StartRes where
  | no
  | mark (c : Cmd)
  | go (c : Cmd)
deriving DecidableEq, Repr

/-- The start conditions of R57 for queue `q` of Ward `w` and opcode `op`: a command that the peer of a pair carries does not
start here, and one that starts a burst, an arm or a graph waits while OUT = 1 (R319; whether it waits is a DESIGN CHOICE, log 107). -/
def State.startable (s : State) (w q op : Nat) : StartRes :=
  match s.cmds.find? (fun c => c.own && decide (c.ward.val = w) && decide (c.queue.val = q) && decide (c.st = .queued)) with
  | none => .no
  | some c =>
    let earlier := (s.cmds.takeWhile (fun x => decide (x.id ≠ c.id))).filter (·.own)
    let fenceOk := !c.fence || earlier.all (fun x => !(decide (x.ward = c.ward) && decide (x.queue = c.queue)))
    let planOk := !isPlanOp op || earlier.all (fun x => !isPlanOp x.opcode)
    let haltOk := !s.gb (WRD_QCTL_HALT w q) || decide (op = 0xA0)
    let outOk := !(s.out && armsOp op)
    if c.opcode = op ∧ c.committed ∧ fenceOk ∧ planOk ∧ haltOk ∧ outOk ∧ s.running ∧ !s.thm.shutdown then
      if s.paired && !c.marked then .mark c else .go c
    else .no

/-- Take the command at the front of a queue, if it is of this opcode and may start, and give it to its meaning, once its start mark
is secured: in the Recovery Area, and in a pair on the STANDBY too, whose acknowledgement comes first (R331). -/
def State.runCmd (s : State) (w q : Nat) (op : Nat) (f : Cmd → State → State) : State :=
  match s.startable w q op with
  | .no => s
  | .mark c =>
    if c.markSent then s
    else (s.modCmd c.id (fun c => { c with markSent := true })).twinSend 0x53 (toLe 8 c.jseqN)
  | .go c => f { c with marked := true } (s.modCmd c.id (fun c => { c with marked := true }))

end Sys2Proof.Machine
end

