-- ==== Sys2Proof/Machine/Memory.lean ====
section
/-! DEFINITION. SRAM windows and DRAM: the address space (R209, R214 to R217), error correction (R210, R218 to R220), the
channel controllers' queues, refresh and training (R221 to R226). -/

namespace Sys2Proof.Machine

/-! ### The address space -/

/-- The memory a device address lies in and the offset within it: 0 DRAM, 1 Vector Buffer, 2 Fail Capture Memory, 3
Acquisition Buffer, 4 local memories, 5 Porter memory (Table 10.1). -/
def memOf (a : Nat) : Option (Nat × Nat) :=
  if 0x1000000000 ≤ a ∧ a < 0x2000000000 then some (0, a - 0x1000000000)
  else if 0x0100000000 ≤ a ∧ a < 0x0100F00000 then some (1, a - 0x0100000000)
  else if 0x0101000000 ≤ a ∧ a < 0x0101800000 then some (2, a - 0x0101000000)
  else if 0x0102000000 ≤ a ∧ a < 0x0102100000 then some (3, a - 0x0102000000)
  else if 0x0104000000 ≤ a ∧ a < 0x0104C00000 then some (4, a - 0x0104000000)
  else if 0x0108000000 ≤ a ∧ a < 0x0108100000 then some (5, a - 0x0108000000)
  else none

/-- The device address of offset `o` of memory `m` (codes of `memOf`). -/
def memBase : Nat → Nat
  | 0 => 0x1000000000 | 1 => 0x0100000000 | 2 => 0x0101000000 | 3 => 0x0102000000 | 4 => 0x0104000000 | _ => 0x0108000000

/-- Channel size in MiB of the geometry in DRC_CFG(0); all fitted channels carry the same (Table 10.3). -/
def State.chMib (s : State) : Nat :=
  let base := if s.g (DRC_CFG_WIDTH 0) = 0 then 8192 else 4096
  let base := if s.g (DRC_CFG_DENSITY 0) = 1 then 2 * base else base
  if s.g (DRC_CFG_RANKS2 0) = 1 then 2 * base else base

/-- The local memory of core `c` in the SRAM window. -/
def coreMem (c : Nat) : Nat := memBase 4 + c * 0x40000

/-- Number of fitted channels. -/
def State.chN (s : State) : Nat := popN 4 (s.g MEM_CFG_CH_MASK)

/-- The fitted size F in bytes (R214). -/
def State.dramF (s : State) : Nat := s.chN * s.chMib * 2 ^ 20

/-- The interleaving grain in bytes (Table 10.7). -/
def State.grain (s : State) : Nat :=
  match s.g MEM_CFG_GRAIN with
  | 0 => 256 | 1 => 1024 | 2 => 4096 | 3 => 65536 | _ => 1048576

/-- The channel of DRAM offset `o` (R215). -/
def State.dramCh (s : State) (o : Nat) : Nat := o / s.grain % s.chN

/-- The channel-local offset of DRAM offset `o` (R215). -/
def State.dramL (s : State) (o : Nat) : Nat := o / (s.grain * s.chN) * s.grain + o % s.grain

/-- The DRAM offset of channel-local offset `l` of channel `d`: the inverse of R215. -/
def State.dramO (s : State) (d l : Nat) : Nat := l / s.grain * (s.grain * s.chN) + d * s.grain + l % s.grain

/-- Bank-group bits of the geometry (Table 10.3). -/
def State.bgBits (s : State) : Nat := if s.g (DRC_CFG_WIDTH 0) = 0 then 3 else 2

/-- Rank, row, bank and bank group of channel-local offset `l`, as one number: everything but the burst and byte (R216). -/
def State.dramRow (s : State) (l : Nat) : Nat :=
  let b := s.bgBits
  l / 2 ^ (6 + b + 2 + 6) * 2 ^ (b + 2) + l / 64 % 2 ^ (b + 2)

/-- Channel `d` is READY. -/
def State.chReady (s : State) (d : Nat) : Bool := decide (s.g (DRC_STATUS_STATE d) = 2)

/-- DRAM offset `o` is a range error (R217). -/
def State.rangeBad (s : State) (o : Nat) : Bool := decide (s.dramF ≤ o) || !s.chReady (s.dramCh o)

/-- A range error is counted and raised; the first since the last write is recorded (R217). -/
def State.rangeErr (s : State) (master o : Nat) : State :=
  let s := s.inc MEM_RANGE_ERR_COUNT 1
  let s := if s.rangeArmed then
      { (s.p MEM_RANGE_ERR_MASTER master).p MEM_RANGE_ERR_OFFSET o with rangeArmed := false }
    else s
  s.assertFlt 260

/-- The Ward that owns offset `o` of memory `m`. -/
def State.memWard (s : State) (m o : Nat) : Option Nat :=
  if m = 4 then s.coreWard (o / 0x40000)
  else if m = 5 then none
  else if s.plan.sealed then
    (s.plan.regions.find? (fun r => decide (r.mem = m) && decide (r.base ≤ o) && decide (o < r.base + r.size))).map (·.ward)
  else some 0

/-- Ward `w` owns every byte of the range `[o, o+n)` of memory `m` (R50, R52). -/
def State.memOwned (s : State) (w m o n : Nat) : Bool :=
  if m = 5 then false
  else if m = 4 then
    (List.range ((o + n - 1) / 0x40000 - o / 0x40000 + 1)).all (fun i => decide (s.coreWard (o / 0x40000 + i) = some w))
  else s.ownsRange w m o n

/-! ### Error correction -/

/-- The mark of the ECC word that holds address `a`. -/
def State.eccAt (s : State) (a : Nat) : Option EccMark := tabGet none (s.ecc.map (fun p => (p.1, some p.2))) (a / 8)

/-- A word is written whole with fresh check bits. -/
def State.eccClear (s : State) (a : Nat) : State := { s with ecc := s.ecc.filter (fun p => decide (p.1 ≠ a / 8)) }

/-- An uncorrectable word at offset `o` of memory `m` is read by a master: fault, registers, MEM_UE event (R220). -/
def State.eccUe (s : State) (master m o : Nat) (tag : Bool) : State :=
  if m = 0 then
    let d := s.dramCh o
    let s := ((s.pb (DRC_ECC_UE d) true).pb (DRC_ECC_TAG d) tag).p (DRC_ECC_UE_OFF d) (s.dramL o / 8 * 8)
    (s.assertFlt (268 + d)).eventTo (s.memWard 0 o) 0x0701 (master + 256 * d)
  else
    let s := (s.pb MEM_SRAM_ECC_UE true).p MEM_SRAM_ECC_UE_ADDR ((memBase m + o) / 8 * 8)
    (s.assertFlt 259).eventTo (s.memWard m o) 0x0701 (master + 256 * (if m = 5 then 7 else m + 3))

/-- The SECDED logic of a core's local memory over the word at address `a` (R187): a correction is counted with its word, an
uncorrectable word is recorded; each with its fault source. -/
def State.lmRead (s : State) (a : Nat) : State × Bool :=
  let c := (a - memBase 4) / 0x40000
  let w := (a - coreMem c) / 8
  match s.eccAt a with
  | some .single => (((s.inc (AC_LM_ECC_CORR c) 1).p (AC_LM_ECC_CORR_WORD c) w).assertFlt (160 + c), false)
  | some .multi => (((s.pb (AC_LM_ECC_UE c) true).p (AC_LM_ECC_UE_WORD c) w).assertFlt (208 + c), true)
  | _ => (s, false)

/-- The address tag of the ECC word at channel-local offset `l`: the exclusive-or of the four bytes of `l >> 3` (R218). -/
def addrTag (l : Nat) : Byte := (toLe 4 (l / 8)).foldl (· ^^^ ·) 0#8

/-- The word at offset `o` of memory `m` is read by the SECDED logic: the state with the correction counted or the error
reported, and whether it is uncorrectable (R187, R210, R218). A tag counts in DRAM only; one wrong bit of it is accepted. -/
def State.eccRead (s : State) (master m o : Nat) : State × Bool :=
  if m = 4 then s.lmRead (memBase m + o)
  else
    let corrected (s : State) : State :=
      if m = 0 then (s.inc (DRC_ECC_CORR (s.dramCh o)) 1).assertFlt (264 + s.dramCh o)
      else (s.inc MEM_SRAM_ECC_CORR 1).assertFlt 258
    match s.eccAt (memBase m + o) with
    | none => (s, false)
    | some .multi => (s.eccUe master m o false, true)
    | some .single => (corrected s, false)
    | some (.tag b) =>
      let wrong := popN 8 (b ^^^ addrTag (s.dramL o / 8 * 8)).toNat
      if m ≠ 0 ∨ wrong = 0 then (s, false)
      else if wrong = 1 then (corrected s, false)
      else (s.eccUe master m o true, true)

/-! ### Accesses -/

/-- The addresses of the ECC words that the range `[a, a+n)` touches. -/
def wordsOf (a n : Nat) : List Nat := (List.range ((a + n - 1) / 8 - a / 8 + 1)).map (fun i => (a / 8 + i) * 8)

/-- The queue of a port has room for a request that comes now (R221). -/
def Drc.room (x : Drc) (rt : Bool) : Bool :=
  if rt then decide (x.rt.length < 32) && x.rtWait.isEmpty else decide (x.be.length < 32) && x.beWait.isEmpty

/-- The controller has accepted a request: its write is performed (R211). -/
def DramReq.accepted (r : DramReq) : DramReq := { r with data := [], tok := 0 }

/-- A request enters the queue of its port, or waits while the queue holds 32 (R221). -/
def Drc.enter (x : Drc) (rt : Bool) (r : DramReq) : Drc :=
  if x.room rt then (if rt then { x with rt := x.rt ++ [r.accepted] } else { x with be := x.be ++ [r.accepted] })
  else if rt then { x with rtWait := x.rtWait ++ [r] }
  else { x with beWait := x.beWait ++ [r] }

/-- The requests that wait and for which the queues have room now. -/
def Drc.entering (x : Drc) : List DramReq := x.rtWait.take (32 - x.rt.length) ++ x.beWait.take (32 - x.be.length)

/-- Requests that wait enter the queues that have room, in order. -/
def Drc.refill (x : Drc) : Drc :=
  let n := 32 - x.rt.length
  let m := 32 - x.be.length
  { x with rt := x.rt ++ (x.rtWait.take n).map DramReq.accepted, rtWait := x.rtWait.drop n,
           be := x.be ++ (x.beWait.take m).map DramReq.accepted, beWait := x.beWait.drop m }

/-- The requests that wait for room in a queue. -/
def State.waitingReqs (s : State) : List DramReq := (List.range 4).flatMap (fun d => (s.drc d).rtWait ++ (s.drc d).beWait)

/-- A request of this master waits for room in a queue: it issues nothing more until it has entered (R221). -/
def State.memWaits (s : State) (master : Nat) : Bool := s.waitingReqs.any (fun r => decide (r.master = master))

/-- Reads of this master that no channel has issued yet. -/
def State.outstanding (s : State) (master : Nat) : Nat :=
  ((List.range 4).flatMap (fun d => (s.drc d).rt ++ (s.drc d).be ++ (s.drc d).rtWait ++ (s.drc d).beWait)).countP
    (fun r => decide (r.master = master) && !r.write)

/-- Masters of the real-time port (Table 10.11). -/
def rtMaster (master : Nat) : Bool := (decide (0x30 ≤ master) && decide (master < 0x40)) || decide (master = 0x90) || decide (master = 0xA0)

/-- The controller of DRAM offset `o` accepts a request of this master at once. -/
def State.dramRoom (s : State) (master o : Nat) : Bool := (s.drc (s.dramCh o)).room (rtMaster master)

/-- The request of one 64-byte burst goes to its channel's port of the master (R221, R396). -/
def State.dramQueue (s : State) (master o : Nat) (write panic rmw : Bool) (data : List (Nat × Byte) := []) (tok : Nat := 0) : State :=
  s.modDrc (s.dramCh o) (fun x =>
    let r : DramReq := ⟨master, s.dramL o / 64 * 64, write, panic, rmw, x.ord, data, tok⟩
    { x with ord := x.ord + 1 }.enter (rtMaster master) r)

/-- What an access met: a range error, an uncorrectable word. -/
structure Hit where
  range : Bool
  ue : Bool
deriving DecidableEq, Repr

/-- The bursts of a read of a DRAM range are queued. -/
def State.dramBursts (s : State) (master o n : Nat) (panic : Bool) (tok : Nat) : State :=
  forEach (List.range ((o + n - 1) / 64 - o / 64 + 1)) s (fun i t => t.dramQueue master ((o / 64 + i) * 64) false panic false [] tok)

/-- Range errors of a DRAM range: one for the access, with its first bad offset (R217). -/
def State.firstBad (s : State) (o n : Nat) : Option Nat :=
  ((List.range n).find? (fun i => s.rangeBad (o + i))).map (o + ·)

/-- The byte that the last write of this master to DRAM offset `o` will store, which still waits for its queue (R211). -/
def State.waitingByte (s : State) (master o : Nat) : Option Byte :=
  ((s.waitingReqs.filter (fun r => decide (r.master = master))).flatMap (·.data)).reverse.findSome? (fun p => if p.1 = o then some p.2 else none)

/-- A read of `n > 0` bytes at device address `a` by a master (R217, R218, R220): offending bytes read 0. A master sees its own writes
that wait (R211). `tok` names the response that waits with a request. -/
def State.busRead (s : State) (master a n : Nat) (panic : Bool := false) (tok : Nat := 0) : State × List Byte × Hit :=
  match memOf a with
  | none => (s, List.replicate n 0#8, ⟨true, false⟩)
  | some (m, o) =>
    let bad := if m = 0 then s.firstBad o n else none
    let own (i : Nat) : Option Byte := if m = 0 then s.waitingByte master (o + i) else none
    let bytes := (List.range n).map (fun i => if m = 0 ∧ s.rangeBad (o + i) then 0#8 else (own i).getD (s.ldB (a + i)))
    let s := match bad with
      | some b => s.rangeErr master b
      | none => if m = 0 then s.dramBursts master o n panic tok else s
    let r := (wordsOf o n).foldl (fun (acc : State × Bool) w =>
      if m = 0 ∧ s.rangeBad w then acc
      else
        let t := acc.1.eccRead master m w
        (t.1, acc.2 || t.2)) (s, false)
    (r.1, bytes, ⟨bad.isSome, r.2⟩)

/-- Bytes of one word of a local memory are stored: a word covered in part is merged, so a single-bit error is corrected first,
and a word with several wrong bits stays one until it is written whole. Mark: DESIGN CHOICE (R187 names loads and fetches). -/
def State.lmWord (s : State) (a : Nat) (bytes : List Byte) : State :=
  if bytes.length = 8 then (s.st a bytes).eccClear a
  else match s.eccAt a with
    | some .multi => s.st a bytes
    | some .single => ((s.lmRead a).1.st a bytes).eccClear a
    | _ => (s.st a bytes).eccClear a

/-- One ECC word of a write: its bytes from offset `o`; a word covered in part is read first, and an uncorrectable one
keeps its bits (R219). -/
def State.writeWord (s : State) (master m o : Nat) (bytes : List Byte) : State × Bool :=
  let full := decide (bytes.length = 8)
  let r := if full then (s, false) else s.eccRead master m (o / 8 * 8)
  if m = 4 then (s.lmWord (memBase m + o) bytes, false)
  else if r.2 then r
  else ((r.1.st (memBase m + o) bytes).eccClear (memBase m + o), false)

/-- A byte string cut at the 8-byte boundaries of its address, each piece with its address; `n` bounds the pieces. -/
def cutWords : Nat → Nat → List Byte → List (Nat × List Byte)
  | 0, _, _ => []
  | n + 1, a, b =>
    let k := 8 - a % 8
    if b.isEmpty then [] else (a, b.take k) :: cutWords n (a + k) (b.drop k)

/-- Bytes stored in a local memory through its alias. -/
def State.lmStore (s : State) (a : Nat) (b : List Byte) : State :=
  (cutWords (b.length + 1) a b).foldl (fun s w => s.lmWord w.1 w.2) s

/-- A read by Porter: an uncorrectable word is reported by PORTER_MEM_UE (R220, R354). -/
def State.porterRead (s : State) (a n : Nat) : State × List Byte :=
  let r := s.busRead 0x08 a n
  (if r.2.2.ue then r.1.assertFlt 359 else r.1, r.2.1)

/-- A byte string is performed word by word at offset `o` of memory `m`; whether a word was uncorrectable. -/
def State.writeWords (s : State) (master m o : Nat) (bytes : List Byte) : State × Bool :=
  (cutWords (bytes.length + 1) o bytes).foldl (fun (acc : State × Bool) w =>
    if m = 0 ∧ s.rangeBad w.1 then acc
    else
      let t := acc.1.writeWord master m w.1 w.2
      (t.1, acc.2 || t.2)) (s, false)

/-- A byte string cut at the 64-byte boundaries of its offset, each piece with its offset; `n` bounds the pieces. -/
def cutBursts : Nat → Nat → List Byte → List (Nat × List Byte)
  | 0, _, _ => []
  | n + 1, o, b =>
    let k := 64 - o % 64
    if b.isEmpty then [] else (o, b.take k) :: cutBursts n (o + k) (b.drop k)

/-- One burst of a DRAM write: one that covers an ECC word in part is a read-modify-write (R219). It is performed when its controller
accepts it: at once, or once the queue has room for it (R211, R221). -/
def State.writeBurst (s : State) (master o : Nat) (bytes : List Byte) (tok : Nat) : State × Bool :=
  let rmw := decide (o % 8 ≠ 0) || decide (bytes.length % 8 ≠ 0)
  let t := s.dramQueue master o true false rmw (bytes.zipIdx.map (fun p => (o + p.2, p.1))) tok
  if s.dramRoom master o then t.writeWords master 0 o bytes else (t, false)

/-- A write at device address `a` by a master: bytes out of range are lost (R217, R219). -/
def State.busWrite (s : State) (master a : Nat) (bytes : List Byte) (tok : Nat := 0) : State × Hit :=
  match memOf a with
  | none => (s, ⟨true, false⟩)
  | some (m, o) =>
    match (if m = 0 then s.firstBad o bytes.length else none) with
    | some b =>
      let r := (s.rangeErr master b).writeWords master m o bytes
      (r.1, ⟨true, r.2⟩)
    | none =>
      let r := if m = 0 then
          (cutBursts (bytes.length + 1) o bytes).foldl (fun (acc : State × Bool) w =>
            let t := acc.1.writeBurst master w.1 w.2 tok
            (t.1, acc.2 || t.2)) (s, false)
        else s.writeWords master m o bytes
      (r.1, ⟨false, r.2⟩)

/-- A waiting request has entered its queue: what it writes is performed (R211). -/
def State.performWaiting (s : State) (r : DramReq) : State :=
  match r.data with
  | [] => s
  | (o, b) :: t => (s.writeWords r.master 0 o (b :: t.map (·.2))).1

/-- Responses of hosts that waited for requests leave once these have entered their queues (R50, R51, R221). Values from 8 on name
such a request. -/
def State.hostsReady (s : State) : State :=
  let busy (o : Owed) : Bool := match o.wait with
    | some t => decide (t < 8) || s.waitingReqs.any (fun r => decide (r.tok = t))
    | none => false
  forEach [0, 1, 2, 3] s (fun p s =>
    (s.modPort p (fun q => { q with resps := q.resps.map (fun o => if busy o then o else { o with wait := none }) })).flushResps p)

/-- Waiting requests of channel `d` enter its queues, their writes are performed in order. -/
def State.drcRefill (s : State) (d : Nat) : State :=
  let new := (s.drc d).entering
  if new.isEmpty then s
  else (forEach new (s.modDrc d Drc.refill) (fun r s => s.performWaiting r)).hostsReady

/-! ### The channel controllers (R221, R222, R224) -/

/-- What one activation serves of the requests `l` to its row, with room for `n` accesses: the places of the requests it finishes, and
of a read-modify-write of which it makes only the read. A request behind an earlier one to its block, in `all`, that is not served is
passed over (R211). A read-modify-write is two accesses, its write directly behind its read (R219). -/
def activation (all : List DramReq) : Nat → List DramReq → List Nat × Option Nat
  | _, [] => ([], none)
  | 0, _ => ([], none)
  | n + 1, y :: l =>
    if all.any (fun z => decide (z.off / 64 = y.off / 64) && decide (z.ord < y.ord)) then activation all (n + 1) l
    else if y.rmw then
      if n = 0 then ([], some y.ord)
      else
        let r := activation (all.filter (fun z => decide (z.ord ≠ y.ord))) (n - 1) l
        (y.ord :: r.1, r.2)
    else
      let r := activation (all.filter (fun z => decide (z.ord ≠ y.ord))) n l
      (y.ord :: r.1, r.2)

/-- Issue request `r` of a channel, or first an earlier request of either port to the same block (R211), with the queued
requests to its row served directly behind it in arrival order, up to ROW_CHAIN accesses per activation (R221). A read-modify-write
whose read alone fits stays at its place for its write (R219). While a panic-marked real-time request stays queued no best-effort
request is chained (R222). -/
def State.drcIssue (s : State) (d : Nat) (r : DramReq) : State :=
  let x := s.drc d
  let all := x.rt ++ x.be
  let first := (all.filter (fun y => decide (y.off / 64 = r.off / 64) && decide (y.ord < r.ord))).foldl (fun a b => if b.ord < a.ord then b else a) r
  let panic := x.rt.any (fun y => y.panic && decide (y.ord ≠ first.ord))
  let same := (if panic then x.rt else all).filter (fun y => decide (s.dramRow y.off = s.dramRow first.off) && decide (y.ord ≠ first.ord))
  let (gone, half) := activation all (max 1 (s.g MEM_CFG_ROW_CHAIN)) (first :: sortBy (fun (a b : DramReq) => decide (a.ord ≤ b.ord)) same)
  let keep (l : List DramReq) : List DramReq := (l.filter (fun y => !gone.contains y.ord)).map (fun y =>
    if half = some y.ord then { y with rmw := false } else y)
  (s.modDrc d (fun x => { x with rt := keep x.rt, be := keep x.be })).drcRefill d

/-- A refresh is issued; the rate of the band in force takes effect, a change to 2× only after the postponed ones
(R224). -/
def State.drcRefresh (s : State) (d : Nat) : State :=
  let left := s.g (DRC_STATUS_POSTPONED d) - 1
  let two := nbit (s.g MEM_CFG_REF2X_BANDS) (s.g THM_STATUS_BAND)
  let s := s.p (DRC_STATUS_POSTPONED d) left
  let s := s.modDrc d (fun x => { x with flush := x.flush && decide (left ≠ 0) })
  if two ∧ left ≠ 0 then s else s.pb (DRC_STATUS_REF2X d) two

/-- The choice of one command slot (R222). With 4 refreshes outstanding all of them are issued back to back (R224). -/
def State.drcChoose (s : State) (d : Nat) : State :=
  let x := s.drc d
  let due := s.g (DRC_STATUS_POSTPONED d)
  if 4 ≤ due ∨ (x.flush ∧ 0 < due) then (s.modDrc d (fun x => { x with flush := true })).drcRefresh d
  else match x.rt.find? (·.panic) with
    | some r => s.drcIssue d r
    | none =>
      if 0 < due then s.drcRefresh d
      else match x.rt, x.be with
        | r :: _, [] => (s.drcIssue d r).modDrc d (fun x => { x with wrr := x.wrr + 1 })
        | r :: _, b :: _ =>
          if x.wrr < s.g MEM_CFG_RT_WEIGHT then (s.drcIssue d r).modDrc d (fun x => { x with wrr := x.wrr + 1 })
          else (s.drcIssue d b).modDrc d (fun x => { x with wrr := 0 })
        | [], b :: _ => (s.drcIssue d b).modDrc d (fun x => { x with wrr := 0 })
        | [], [] => s

/-- Command slots of one µs: a slot is the time of one 64-byte burst at the channel's rate (Table 10.9). -/
def State.slotsPerUs (s : State) (d : Nat) : Nat := 200 + 50 * s.g (DRC_CFG_RATE d)

/-- What the slot counts in DRC_STAT: a panic-marked real-time request was queued; a best-effort request was queued and none was
issued. `x` is the controller before the slot. Mark: DESIGN CHOICE (a slot of every kind counts as one burst). -/
def State.drcCount (s : State) (d : Nat) (x : Drc) : State :=
  let n := s.slotsPerUs d
  let p := x.panicN + b2n (x.rt.any (·.panic))
  let b := x.beN + b2n (!x.be.isEmpty && x.be.all (fun r => (s.drc d).be.contains r))
  let s := if n ≤ p then s.inc (DRC_STAT_PANIC d) 1 else s
  let s := if n ≤ b then s.inc (DRC_STAT_BE_WAIT d) 1 else s
  s.modDrc d (fun y => { y with panicN := if n ≤ p then 0 else p, beN := if n ≤ b then 0 else b })

/-- One command slot of a READY channel. -/
def State.drcSlot (s : State) (d : Nat) : State :=
  if s.chReady d then (s.drcChoose d).drcCount d (s.drc d) else s

/-- DRC_COMMAND_SLOT. -/
def execDrcCommandSlot (d : Fin 4) (s : State) : Host.Outcome State Fault Refusal := .next (if !s.ticksOf (drcDom d.val) then s else s.drcSlot d.val)

/-- A refresh becomes due; at most 4 are outstanding (R224). -/
def execRefreshDue (d : Fin 4) (s : State) : Host.Outcome State Fault Refusal :=
  .next (if !s.ticksOf (drcDom d.val) then s else if s.chReady d.val ∧ s.g (DRC_STATUS_POSTPONED d.val) < 4 then
    s.p (DRC_STATUS_POSTPONED d.val) (s.g (DRC_STATUS_POSTPONED d.val) + 1) else s)

/-! ### States and training (R225, R226) -/

/-- A channel changes state, with its event; MEM_STATUS.READY follows (R225). -/
def State.drcState (s : State) (d st : Nat) : State :=
  let s := s.p (DRC_STATUS_STATE d) st
  let fit := bitsOf 4 (s.g MEM_CFG_CH_MASK)
  let s := s.pb MEM_STATUS_READY (fit.all s.chReady)
  s.eventAll 0x0702 (d + 16 * st)

/-- INIT acts on this channel (R225). -/
def State.initActs (s : State) (d : Nat) : Bool :=
  nbit (s.g MEM_CFG_CH_MASK) d && [0, 3, 4].contains (s.g (DRC_STATUS_STATE d))

/-- A channel starts: TRAINING, INIT reads 1, DRCd_RESET_N is high from its first INIT on (R391); its clock domain is awaited, and
PLL3 leaves power-down with the first channel (R225, R363, R364). -/
def State.drcStart (s : State) (d : Nat) (short : Bool) : State :=
  let s := (s.modDrc d (fun x => { x with short := short, selfRef := false, resetN := true })).demandWork (drcDom d)
  let s := (s.pb (DRC_CTRL_INIT d) true).p (DRC_STATUS_FAIL_STEP d) 0
  let s := s.p CLK_PLL_STATUS_SLEEP (s.g CLK_PLL_STATUS_SLEEP &&& (0xFF ^^^ 8))
  s.drcState d 1

/-- Every memory write under R219 leaves fresh words: the training area of a rank is written as zeros (R225). -/
def State.zeroTrain (s : State) (d : Nat) : State :=
  let ranks := if s.g (DRC_CFG_RANKS2 0) = 1 then 2 else 1
  let rankSize := s.chMib * 2 ^ 20 / ranks
  forEach (List.range (ranks * 16)) s (fun i t =>
    let a := memBase 0 + t.dramO d (i / 16 * rankSize + i % 16 * 256)
    { t with mem := tabDrop a (a + 256) t.mem, ecc := tabDrop (a / 8) (a / 8 + 32) t.ecc })

/-- Write DQ centering that fails leaves the training area of every rank with contents that are lost: bytes the manual does not
state (R225). -/
def State.loseTrain (s : State) (d : Nat) : State :=
  let ranks := if s.g (DRC_CFG_RANKS2 0) = 1 then 2 else 1
  let rankSize := s.chMib * 2 ^ 20 / ranks
  forEach (List.range (ranks * 4096)) s (fun i t =>
    let a := memBase 0 + t.dramO d (i / 4096 * rankSize + i % 4096)
    ((t.stB a (BitVec.ofNat 8 t.freeVal)).eccClear a).useFree)

/-- A training of this kind can end so: with success, or at one of the steps it runs (Table 10.5). -/
def Drc.canEnd (x : Drc) (failStep : Nat) : Bool :=
  if x.short then [0, 1, 5, 6].contains failStep else decide (failStep ≤ 7)

/-- The Recovery Area lies at F − 256 MiB (R335). -/
def State.raBase (s : State) : Nat := s.dramF - 2 ^ 28

/-- With the channels READY and an image in force, Porter checks that no region reaches into the Recovery Area (R335). -/
def State.raCheck (s : State) : State :=
  if s.gb MEM_STATUS_READY then
    let s := s.p JNL_RA_OFF s.raBase
    if s.plan.sealed then
      s.pb JNL_STATUS_RA_CONFLICT (s.plan.regions.any (fun r => decide (r.mem = 0) && decide (s.raBase < r.base + r.size) &&
        decide (r.base < s.dramF)))
    else s
  else s

/-- Training of a channel ends: results of the steps that ran, then READY or FAILED (R225); PRESERVED when every fitted channel
is back from self-refresh (R226). `dq` are the 40 lanes. -/
def State.drcTrained (s : State) (d failStep : Nat) (ca : Word) (dq : List Word) : State :=
  let short := (s.drc d).short
  let ran (k : Nat) : Bool := (!short || k = 1 || k = 5 || k = 6) && (failStep = 0 || decide (k < failStep))
  let s := if ran 2 then s.p (DRC_TRAIN_CA_CS_DLY d) (getBits ca 15 8) else s
  let s := if ran 3 then s.p (DRC_TRAIN_CA_CA_DLY d) (getBits ca 7 0) else s
  let s := forEach (List.range 40) s (fun j s =>
    let w := dq.getD j 0#64
    let s := if ran 4 then s.p (DRC_TRAIN_DQ_WL_DLY d j) (getBits w 39 32) else s
    let s := if ran 5 then s.p (DRC_TRAIN_DQ_GATE d j) (getBits w 47 40) else s
    let s := if ran 6 then (s.p (DRC_TRAIN_DQ_RD_DLY d j) (getBits w 7 0)).p (DRC_TRAIN_DQ_RD_EYE d j) (getBits w 15 8) else s
    if ran 7 then (s.p (DRC_TRAIN_DQ_WR_DLY d j) (getBits w 23 16)).p (DRC_TRAIN_DQ_WR_EYE d j) (getBits w 31 24) else s)
  let s := s.pb (DRC_CTRL_INIT d) false
  if failStep = 0 then
    let s := if short then s else s.zeroTrain d
    let s := s.drcState d 2
    let kept := (bitsOf 4 (s.g MEM_CFG_CH_MASK)).all (fun k => (s.drc k).selfRef)
    (if kept && s.gb MEM_STATUS_READY then s.pb MEM_STATUS_PRESERVED true else s).raCheck
  else
    let s := s.modDrc d (fun x => { x with selfRef := false })
    let s := if failStep = 7 then s.loseTrain d else s
    ((s.p (DRC_STATUS_FAIL_STEP d) failStep).assertFlt (272 + d)).drcState d 4

end Sys2Proof.Machine
end

