-- ==== Sys2Proof/Machine/Acq.lean ====
section
/-! DEFINITION. The converter and the acquisition engine: request classes (R274 to R280) and records (R281 to R287). -/

namespace Sys2Proof.Machine

/-! ### The converter -/

/-- The ADC has its clocks, and start-up has reached phase D: requests are made and bands judged (R288). -/
def State.adcClock (s : State) : Bool :=
  decide (3 ≤ s.g RST_STATUS_PHASE) && s.ticks && !s.pwr.stopped.contains adcDom && !s.gb TB_STATUS_AON_CLOCK && !s.thm.shutdown

/-- The ADC runs: its domain is on too (R364). -/
def State.adcRuns (s : State) : Bool := s.adcClock && s.domOn adcDom

/-- A raw code `x` corrected with OFFSET and GAIN (R275). -/
def corrWith (offset : Int) (gain : Nat) (x : Int) : Int := max (-32768) (min 32767 ((16 * x - offset) * (gain : Int) / 32768))

/-- A raw code `x` of slice `sl` corrected with set `b` (R275). -/
def State.correct (s : State) (b sl : Nat) (x : Int) : Int := corrWith (s.gi (ADC_CORR_OFFSET b sl)) (s.g (ADC_CORR_GAIN b sl)) x

/-- A raw code that sets CLIP (R275). -/
def clips (x : Int) : Bool := decide (x = -2048) || decide (x = 2047)

/-- The mean of `n` values, rounded half up. -/
def meanUp (sum : Int) (n : Nat) : Int := (2 * sum + n) / (2 * n)

/-- The mean of the corrected codes of a conversion whose first sample slice `r.slice` took, and whether one clipped. -/
def State.convMean (s : State) (r : AdcMeas) : Int × Bool :=
  let ys := r.codes.zipIdx.map (fun p => s.correct s.conv.band ((r.slice.val + p.2) % 8) p.1)
  (meanUp (ys.foldl (· + ·) 0) ys.length, r.codes.any clips)

/-- The value of a stored sample with set `b`: the mean of its codes, each corrected for its slice (R275, Table 13.2). -/
def State.storedVal (s : State) (b : Nat) (g : List (Nat × Int)) : Int :=
  meanUp ((g.map (fun p => s.correct b p.1 p.2)).foldl (· + ·) 0) g.length

/-- A code of a stored sample is clipped. -/
def clipped (g : List (Nat × Int)) : Bool := g.any (fun p => clips p.2)

/-- Clipped codes are counted (R275). -/
def State.countClips (s : State) (codes : List Int) : State := s.inc ADC_COUNTS_CLIPS (codes.filter clips).length

/-- The converter yields `n` codes of 12 bits. -/
def codesOk (codes : List Int) (n : Nat) : Bool :=
  decide (codes.length = n) && codes.all (fun x => decide (-2048 ≤ x) && decide (x ≤ 2047))

/-- A stream record is in progress (R279). -/
def State.streaming (s : State) : Bool :=
  match s.conv.arm with
  | some a => !a.scan && s.conv.rec_.isSome
  | none => false

/-- The highest class that has a request, 0 if none (Table 13.1). -/
def State.convWant (s : State) : Nat :=
  if s.conv.urgent ≠ 0 then 1
  else if s.conv.inj ≠ [] then 2
  else if (s.cal.run.map (·.target)) = some 2 then 3
  else match s.conv.arm with
    | some a => if !a.scan || s.conv.rec_.isSome then 4 else 0
    | none => 0

/-- The input of the running scan: the stream's input or the next entry of the list. -/
def State.scanInput (s : State) : Nat :=
  match s.conv.arm with
  | none => 0
  | some a => if a.scan then (a.list.getD ((s.conv.rec_.map (·.entries.length)).getD 0) (0, 0)).1 else a.input

/-- A conversion of class `c` starts, with the coefficients of the band in force; a scan pass keeps its own (R275). The input
shown during a calibration segment is not stated. Another class breaks the rotation of a stream's samples. -/
def State.convStart (s : State) (c : Nat) : State :=
  let b := if c = 4 then (s.conv.rec_.map (·.band)).getD (s.g THM_STATUS_BAND) else s.g THM_STATUS_BAND
  let i := ((bitsOf 8 s.conv.urgent).head?).getD 0
  let s := { s with conv := { s.conv with cls := c, band := b, nextSl := if c = 4 then s.conv.nextSl else none } }
  let s := (s.p ADC_STATUS_CLASS c).p ADC_STATUS_CORR_BAND b
  match c with
  | 1 => { s with conv := { s.conv with sensor := i, urgent := s.conv.urgent - 2 ^ i } }.p ADC_STATUS_INPUT (16 + i)
  | 2 => s.p ADC_STATUS_INPUT ((s.conv.inj.head?.map (·.input)).getD 0)
  | 3 => s.useFree.p ADC_STATUS_INPUT s.freeVal
  | _ => s.p ADC_STATUS_INPUT s.scanInput

/-- The converter is free and serves the next request (R277). -/
def State.convNext (s : State) : State :=
  let s := { s with conv := { s.conv with cls := 0 } }.p ADC_STATUS_CLASS 0
  if s.convWant = 0 ∨ !s.adcRuns then s else s.convStart s.convWant

/-! ### Records (R282, R283, R285 to R287) -/

/-- Bytes of a slot (R282). -/
def AcqArm.slot (a : AcqArm) : Nat := roundUp 64 (if a.scan then 64 + 4 * a.post else 64 + 2 * (a.pre + a.post))

/-- A slot of the ring is free. -/
def State.acqRoom (s : State) (a : AcqArm) : Bool :=
  decide ((s.g ACQ_PTR_WR + 2 ^ 32 - s.g ACQ_PTR_RD) % 2 ^ 32 < a.size / a.slot)

/-- The bytes of a record (Table 13.3). -/
def acqBytes (a : AcqArm) (r : AcqRec) (recno : Nat) : List Byte :=
  let le16 (v : Int) : List Byte := toLe 2 (unsgn 16 v)
  let n := if a.scan then r.entries.length else r.post.length
  let hdr := toLe 1 (if a.scan then 0x11 else 0x10) ++ toLe 1 r.flags ++ toLe 1 (if a.scan then 0xFF else a.input) ++
    toLe 1 r.band ++ toLe 4 recno ++ toLe 4 r.pre.length ++ toLe 4 n ++ toLe 12 r.stamp.toNat ++ toLe 2 (a.decim - 1) ++
    toLe 2 0 ++ toLe 4 a.jseq ++ List.replicate 28 0#8
  hdr ++ r.pre.reverse.flatMap le16 ++ r.post.reverse.flatMap le16 ++
    r.entries.reverse.flatMap (fun e => le16 e.1 ++ toLe 1 e.2.1 ++ toLe 1 e.2.2)

/-- The record or pass in progress is written with more flags (R282). -/
def State.acqWrite (s : State) (flags : Nat) : State :=
  match s.conv.arm, s.conv.rec_ with
  | some a, some r =>
    let n := s.g ACQ_STATUS_RECORDS
    let s := (s.busWrite 0xA0 (a.base + s.g ACQ_PTR_WR % (a.size / a.slot) * a.slot)
      (acqBytes a { r with flags := r.flags ||| flags } n)).1
    let s := (s.p ACQ_PTR_WR (s.g ACQ_PTR_WR + 1)).p ACQ_STATUS_RECORDS (n + 1)
    let s := { s with conv := { s.conv with rec_ := none, restarted := false } }
    if a.notify then s.eventTo (some a.ward) 0x0A02 n else s
  | _, _ => s

/-- The arm ends with a cause (R287). -/
def State.acqEnd (s : State) (cause : Nat) : State :=
  match s.conv.arm with
  | none => s
  | some a =>
    let s := { s with conv := { s.conv with arm := none, rec_ := none, preMem := [], dec := [], nextSl := none, pendTrig := none,
                                            auto := false, restarted := false } }
    let s := ((s.p ACQ_STATUS_STATE 4).p ACQ_STATUS_END cause).pb ACQ_STATUS_QUEUED false
    (s.pb ACQ_CTRL_FORCE false).eventTo (some a.ward) 0x0A01 (cause + 256 * (s.g ACQ_STATUS_RECORDS % 2 ^ 24))

/-- Data cannot be stored: the arm ends with OVERFLOW (R286). -/
def State.acqOverflow (s : State) : State := ((s.pb ACQ_STATUS_OVERFLOW true).assertFlt 325).acqEnd 3

/-- A record or pass begins with its trigger, if a slot is free. -/
def State.acqBegin (s : State) (a : AcqArm) (r : AcqRec) : State :=
  if s.acqRoom a then
    { s with conv := { s.conv with rec_ := some r, pendTrig := none, auto := false } }.p ACQ_STATUS_STATE 2
      |>.pb ACQ_CTRL_FORCE false
  else s.acqOverflow

/-- A scan pass begins (R285). -/
def State.scanBegin (s : State) (a : AcqArm) (flags : Nat) : State :=
  s.acqBegin a ⟨flags, s.now, s.g THM_STATUS_BAND, [], [], []⟩

/-- The record or pass in progress ends: RECORDS may be reached, a queued pass may start, a stream waits for its re-arm. -/
def State.acqClose (s : State) (flags : Nat) : State :=
  match s.conv.arm with
  | none => s
  | some a =>
    let s := s.acqWrite flags
    if a.records ≠ 0 ∧ s.g ACQ_STATUS_RECORDS = a.records then s.acqEnd 1
    else if a.scan then
      if s.gb ACQ_STATUS_QUEUED then (s.pb ACQ_STATUS_QUEUED false).scanBegin a 0x20 else s.p ACQ_STATUS_STATE 1
    else s.p ACQ_STATUS_STATE 3

/-- The stream record in progress is closed with ABORT (R279). -/
def State.acqAbort (s : State) : State := (s.inc ACQ_COUNTS_ABORTS 1).acqClose 4

/-- A request of a higher class arrives: it aborts the running conversion, or waits for a stream record (R277 to R279). -/
def State.convServe (s : State) : State :=
  let w := s.convWant
  let c := s.conv.cls
  if !s.adcRuns ∨ w = 0 ∨ (c ≠ 0 ∧ c ≤ w) then s
  else if c = 0 then s.convStart w
  else if c = 4 ∧ s.streaming then
    if w = 1 ∧ s.g ACQ_CFG_DEFER_LIMIT = 0 then s.acqAbort.convNext else s
  else
    let scan := (s.conv.arm.map (·.scan)).getD false
    let s := (if c = 4 ∧ !scan then s.p ACQ_STATUS_STATE 3 else s).inc ADC_COUNTS_ABORTS 1
    let s := if c = 3 then s.inc ADC_COUNTS_SEG_RESTARTS 1 else s
    let s := if c = 2 then
        { s with conv := { s.conv with inj := s.conv.inj.zipIdx.map (fun p => if p.2 = 0 then { p.1 with restarted := true } else p.1) } }
      else if c = 4 then { s with conv := { s.conv with restarted := scan } } else s
    s.convNext

/-! ### Triggers (R284, R285) -/

/-- A trigger reaches the engine at `stamp`; `flags` 2 marks a forced one. -/
def State.acqTrig (s : State) (stamp : Stamp) (auto : Bool) : State :=
  match s.conv.arm with
  | none => s
  | some a =>
    let armed := decide (s.g ACQ_STATUS_STATE = 1)
    if a.scan then
      if armed then (s.scanBegin a (2 * b2n auto)).convServe
      else if s.gb ACQ_STATUS_QUEUED then s.inc ACQ_COUNTS_OVERRUNS 1
      else s.pb ACQ_STATUS_QUEUED true
    else if !armed then s.inc ACQ_COUNTS_MISSED_TRIG 1
    else if s.conv.pendTrig.isSome then s
    else { s with conv := { s.conv with pendTrig := some stamp, auto := auto } }

/-- A time trigger fires (`src` 5) or a sequencer sends an EVENT (`src` 6). -/
def State.acqEvent (s : State) (src index event : Nat) (stamp : Stamp) : State :=
  match s.conv.arm with
  | some a =>
    if a.src = src ∧ a.index = index ∧ (src = 5 ∨ a.event = event) then s.acqTrig stamp false else s
  | none => s

/-- HOST fires by ACQ_CTRL.FORCE, which reads 1 until a stored sample takes it. -/
def State.acqForce (s : State) : State :=
  match s.conv.arm with
  | some a =>
    if a.src = 0 then
      let s := if !a.scan ∧ s.g ACQ_STATUS_STATE = 1 then s.pb ACQ_CTRL_FORCE true else s
      s.acqTrig s.now false
    else s
  | none => s

/-! ### Samples -/

/-- The trigger of a stored sample `v`: an event whose stamp is reached, an edge, a level (R284). -/
def State.sampleTrig (s : State) (a : AcqArm) (v : Int) : Bool :=
  (match s.conv.pendTrig with
    | some t => decide (stampKey t ≤ stampKey s.now)
    | none => false) ||
  (match a.src with
    | 1 => s.conv.ready && decide (a.level ≤ v)
    | 2 => s.conv.ready && decide (v ≤ a.level)
    | 3 => decide (a.level ≤ v)
    | 4 => decide (v ≤ a.level)
    | _ => false)

/-- The sample prepares the edge condition. -/
def AcqArm.prepares (a : AcqArm) (v : Int) : Bool :=
  match a.src with
  | 1 => decide (v ≤ a.level - a.hyst)
  | 2 => decide (a.level + a.hyst ≤ v)
  | _ => false

/-- A sample that cannot trigger: an edge it shows is a missed trigger (R283). A level is none, for LEVEL_ABOVE and LEVEL_BELOW
fire on an armed sample (R284). -/
def State.acqMiss (s : State) (a : AcqArm) (v : Int) : State :=
  let edge := (decide (a.src = 1) && s.conv.ready && decide (a.level ≤ v)) ||
    (decide (a.src = 2) && s.conv.ready && decide (v ≤ a.level))
  let s := if edge then s.inc ACQ_COUNTS_MISSED_TRIG 1 else s
  { s with conv := { s.conv with ready := (s.conv.ready && !edge) || a.prepares v } }

/-- The records of this arm pass through the 8 KiB staging FIFO to DRAM (R286). -/
def AcqArm.staged (a : AcqArm) : Bool := decide (0x1000000000 ≤ a.base)

/-- The record in progress meets a full staging FIFO: it is closed with OVERFLOW and what it holds (R286). -/
def State.acqStall (s : State) : State := (s.acqWrite 8).acqOverflow.convNext

/-- A stored sample `g` enters the pre-trigger memory or the record (R283); `full`: the staging FIFO has no room for it. The whole
record uses the set of the band in force at its trigger sample, the samples before the trigger too (R275). -/
def State.acqStore (s : State) (a : AcqArm) (g : List (Nat × Int)) (full : Bool) : State :=
  match s.conv.rec_ with
  | none =>
    let v := s.storedVal s.conv.band g
    if s.sampleTrig a v then
      let b := s.g THM_STATUS_BAND
      let pre := s.conv.preMem.take a.pre
      let post := if full then [] else [g]
      let short := decide (pre.length < a.pre)
      let fl := b2n short + 2 * b2n s.conv.auto + 16 * b2n ((post ++ pre).any clipped)
      let r : AcqRec := ⟨fl, s.now, b, pre.map (s.storedVal b), post.map (s.storedVal b), []⟩
      let s := { s with conv := { s.conv with band := b, ready := a.prepares v, preMem := [] } }.p ADC_STATUS_CORR_BAND b
      let s := s.acqBegin a r
      if s.conv.arm.isNone then s.convNext else if full then s.acqStall
      else if a.post = 1 then (s.acqClose 0).convNext else s
    else
      { s with conv := { s.conv with ready := s.conv.ready || a.prepares v, preMem := (g :: s.conv.preMem).take 65536 } }
  | some r =>
    if full then s.acqStall
    else
      let v := s.storedVal r.band g
      let s := s.acqMiss a v
      let s := { s with conv := { s.conv with
        rec_ := some { r with post := v :: r.post, flags := r.flags ||| (16 * b2n (clipped g)) } } }
      if r.post.length + 1 = a.post then (s.acqClose 0).convNext else s

/-- A sample of the stream's input; DECIM of them make one stored sample (Table 13.2). The slices take turns from one sample of the
stream to the next, so `slice` tells that of its first sample only (R274). While the stream waits to be armed again its input
can still show triggers, which are missed (R283). -/
def State.acqSample (s : State) (slice : Nat) (code : Int) (stall : Bool) : State :=
  match s.conv.arm with
  | none => s
  | some a =>
    let st := s.g ACQ_STATUS_STATE
    let mine := decide (s.conv.cls = 4)
    if a.scan ∨ !codesOk [code] 1 ∨ !(decide (st = 3) || (mine && (decide (st = 1) || decide (st = 2)))) then s
    else
      let sl := if mine then s.conv.nextSl.getD slice else slice
      let s := if st = 3 then s else s.countClips [code]
      let g := (sl, code) :: s.conv.dec
      let s := { s with conv := { s.conv with
        dec := if g.length < a.decim then g else [], nextSl := if mine then some ((sl + 1) % 8) else none } }
      if g.length < a.decim then s
      else if st = 3 then s.acqMiss a (s.storedVal s.conv.band g)
      else s.acqStore a g (stall && a.staged)

/-- ACQ_SAMPLE. -/
def execAcqSample (slice : Fin 8) (code : Int) (stall : Bool) (s : State) : Host.Outcome State Fault Refusal :=
  .next (if !s.ticksOf adcDom then s else s.acqSample slice.val code stall)

/-- The re-arm delay has passed and no other conversion runs: the stream is armed with an empty pre-trigger memory (R283). -/
def execAcqRearm (s : State) : Host.Outcome State Fault Refusal :=
  .next (if !s.ticksOf adcDom then s else if s.conv.arm.isSome ∧ s.conv.cls = 4 ∧ s.g ACQ_STATUS_STATE = 3 then
    let b := s.g THM_STATUS_BAND
    let s := { s with conv := { s.conv with band := b, preMem := [], dec := [] } }
    (s.p ACQ_STATUS_STATE 1).p ADC_STATUS_CORR_BAND b
  else s)

/-- AUTO_TIME has passed since the engine was armed or re-armed, and no trigger has occurred (R284). -/
def execAcqAutoTrigger (s : State) : Host.Outcome State Fault Refusal :=
  .next (if !s.ticksOf adcDom then s else match s.conv.arm with
    | some a => if a.auto ∧ s.g ACQ_STATUS_STATE = 1 ∧ s.conv.pendTrig = none then s.acqTrig s.now true else s
    | none => s)

/-- An Urgent request has waited DEFER_LIMIT behind a stream record (R279). -/
def execAcqDeferExpiry (s : State) : Host.Outcome State Fault Refusal :=
  .next (if !s.ticksOf adcDom then s else if s.streaming ∧ s.conv.urgent ≠ 0 then s.acqAbort.convNext else s)

/-! ### Commands -/

/-- Injected requests that wait, without the one that runs or has run and is to run again (Table 13.5). -/
def State.injWaiting (s : State) : Nat :=
  s.conv.inj.length - (if s.conv.cls = 2 ∨ (s.conv.inj.head?.map (·.restarted)) = some true then 1 else 0)

/-- ADC_INJECT (R280). -/
def adcInject (c : Cmd) (s : State) : State :=
  let i := u c.args 0 1
  if !s.plan.sealed then s.refuse c 8
  else if !s.mayArm c.ward.val 5 i ∨ 8 ≤ s.injWaiting then s.refuse c 6
  else if c.args.length ≠ 8 ∨ 15 < i ∨ !zeros c.args 1 1 ∨ !zeros c.args 4 4 then s.refuse c 0x0D
  else
    let s := (s.started c).demandWork adcDom
    { s with conv := { s.conv with inj := s.conv.inj ++ [(⟨c.id, i, u c.args 2 2 + 1, false⟩ : Inj)] } }.convServe

/-- ADC_INJECT. -/
def execAdcInject (w : Fin 4) (q : Fin 8) (s : State) : Host.Outcome State Fault Refusal :=
  .next (s.runCmd w.val q.val 0x71 adcInject)

/-- The arguments of ACQ_ARM as an arm (Table 13.2). -/
def acqArgs (c : Cmd) : AcqArm :=
  let b := c.args
  let n := u b 0x10 4
  let dram := nbit (u b 1 1) 1
  { scan := decide (u b 0 1 = 1), notify := nbit (u b 1 1) 3, input := u b 2 1, src := u b 3 1, index := u b 4 1,
    event := u b 5 1, level := sgn 16 (u b 6 2), hyst := u b 8 2, decim := u b 0xA 2 + 1, pre := u b 0xC 4, post := n,
    records := u b 0x14 4, auto := nbit (u b 1 1) 2,
    base := memBase (if dram then 0 else 3) + u b 0x20 8, size := u b 0x28 8,
    list := (List.range (if u b 0 1 = 1 then min n 32 else 0)).map (fun i => (u b (0x30 + 4 * i) 1, u b (0x32 + 4 * i) 2 + 1)),
    jseq := c.jseqN, ward := c.ward.val }

/-- A reserved value or a value outside Table 13.2. -/
def acqBad (c : Cmd) (a : AcqArm) : Bool :=
  let b := c.args
  let len := if a.scan then 0x30 + 4 * a.post else 0x30
  decide (b.length ≠ len) || decide (1 < u b 0 1) || decide (15 < u b 1 1) ||
    decide (15 < a.input) || (a.scan && decide (a.input ≠ 0)) || decide (6 < a.src) ||
    (a.scan && decide (1 ≤ a.src) && decide (a.src ≤ 4)) || decide (31 < a.index) || decide (63 < a.event) ||
    decide (32767 < a.hyst) || decide (65536 < a.pre) || (a.scan && decide (a.pre ≠ 0)) || decide (a.post < 1) ||
    decide ((if a.scan then 32 else 16777216) < a.post) ||
    (if a.auto then decide (u b 0x18 4 = 0) else decide (u b 0x18 4 ≠ 0)) || !zeros b 0x1C 4 ||
    decide (u b 0x20 8 % 64 ≠ 0) || decide (a.size % 64 ≠ 0) || a.list.any (fun e => decide (15 < e.1)) ||
    (List.range a.list.length).any (fun i => decide (u b (0x31 + 4 * i) 1 ≠ 0))

/-- ACQ_ARM is refused: ARM_ERR keeps its ARG (R281). -/
def State.acqRefuse (s : State) (c : Cmd) (status : Nat) : State := (s.p ACQ_STATUS_ARM_ERR s.freeVal).refuse c status

/-- ACQ_ARM is refused with BAD_ARGUMENT and ARG 0 or 1. -/
def State.acqRefuseArg (s : State) (c : Cmd) (arg : Nat) : State := (s.p ACQ_STATUS_ARM_ERR arg).refuseArg c 0x0D arg

/-- ACQ_ARM (R281). -/
def acqArm (c : Cmd) (s : State) : State :=
  let w := c.ward.val
  let a := acqArgs c
  let m := if nbit (u c.args 1 1) 1 then 0 else 3
  let inputs := if a.scan then a.list.map (·.1) else [a.input]
  if !s.plan.sealed then s.acqRefuse c 8
  else if nbit (u c.args 1 1) 0 then
    if u c.args 1 1 ≠ 1 ∨ !zeros c.args 0 1 ∨ !zeros c.args 2 (c.args.length - 2) then s.acqRefuseArg c 0
    else
      let s := s.started c
      let mine := decide (s.conv.cls = 4)
      let s := if s.conv.arm.isSome then (s.acqWrite 0).acqEnd 2 else s
      (if mine then s.convNext else s).finishF c.id 0
  else if !s.ownsRange w m (u c.args 0x20 8) a.size ∨ (a.src = 5 ∧ s.resWard 4 a.index ≠ some w) ∨
      (a.src = 6 ∧ s.seqWard a.index ≠ some w) then s.acqRefuse c 3
  else if s.conv.arm.isSome ∨ inputs.any (fun i => !s.mayArm w 5 i) then s.acqRefuse c 6
  else if acqBad c a then s.acqRefuseArg c 0
  else if a.size < a.slot then s.acqRefuseArg c 1
  else
    let s := s.started c
    let s := { s with conv := { s.conv with arm := some a, preMem := [], ready := false, dec := [], nextSl := none,
                                            pendTrig := none, auto := false, rec_ := none, restarted := false } }
    let e := s.g ACQ_STATUS_ARM_ERR
    let s := ((s.rst ACQ_COUNTS).rst ACQ_PTR).rst ACQ_STATUS
    let s := ((s.p ACQ_STATUS_STATE 1).pb ACQ_STATUS_MODE a.scan).p ACQ_STATUS_WARD w
    (((s.p ACQ_STATUS_ARM_ERR e).demandWork adcDom).finishF c.id 0).convServe

/-- ACQ_ARM. -/
def execAcqArm (w : Fin 4) (q : Fin 8) (s : State) : Host.Outcome State Fault Refusal :=
  .next (s.runCmd w.val q.val 0x70 acqArm)

end Sys2Proof.Machine
end

