-- ==== Sys2Proof/Machine/Tim.lean ====
section
/-! DEFINITION. The time interval measurement units (R269 to R272). -/

namespace Sys2Proof.Machine

/-- A timing-master instant in 0.5 ps as Q = 32 C + φ (R269). -/
def quantQ (t : Nat) : Nat := t * 32 / 625

/-- STATE of unit `u`: 0 IDLE, 1 ARMED, 2 DONE. -/
def State.timState (s : State) (u : Nat) : Nat := s.g (TIM_STATUS_STATE u)

/-- Statistics, counts and DONE_N are cleared (R272). -/
def State.timClear (s : State) (u : Nat) : State :=
  let s := ((s.rst (TIM_LAST u)).rst (TIM_MIN u)).rst (TIM_MAX u)
  let s := ((s.rst (TIM_SUM u)).rst (TIM_SUMSQ_LO u)).rst (TIM_SUMSQ_HI u)
  let s := ((s.rst (TIM_MEAN u)).rst (TIM_SD u)).rst (TIM_COUNTS u)
  s.rst (TIM_STATUS u)

/-- A unit is armed for `count` measurements, with a TIMEOUT in µs (0: none). -/
def State.timArmUnit (s : State) (u count : Nat) (cmd : Option Nat) (bound : Bool) (timeout : Nat) : State :=
  let s := s.timClear u
  let dl := if timeout = 0 then none else some (s.tb.tm + timeout * 2000000)
  let s := s.modTim u (fun _ => ⟨count, none, [], false, none, none, cmd, bound, dl⟩)
  s.p (TIM_STATUS_STATE u) 1

/-- The run ends: MEAN and SD in exact integer arithmetic (R271), end cause, completion of the command or TIM_DONE. -/
def State.timEnd (s : State) (u cause : Nat) : State :=
  let n := s.g (TIM_STATUS_NSTAT u)
  let sum := s.g (TIM_SUM_SUM u)
  let sq := s.g (TIM_SUMSQ_LO_SUMSQ u) + 2 ^ 64 * s.g (TIM_SUMSQ_HI_SUMSQ u)
  let mean := if n = 0 then 0 else (sum * 256 + n / 2) / n
  let sd := if n = 0 then 0 else Nat.sqrt ((n * sq - sum * sum) * 65536) / n
  let x := s.tim u
  let s := (s.p (TIM_MEAN_MEAN u) mean).p (TIM_SD_SD u) sd
  let s := ((s.p (TIM_STATUS_STATE u) 2).p (TIM_STATUS_WAIT_STOP u) 0).p (TIM_STATUS_END u) cause
  let s := s.modTim u (fun x => { x with start := none, stops := [], cmd := none, bound := false, deadline := none })
  let s := if x.bound then s.eventTo (s.resWard 2 u) 0x0906 (u + 16 * cause) else s
  s.finishOpt x.cmd 0 cause

/-- A measurement ends with result `r` and flags SUBRES, ORDER, OVF; an included result enters the statistics (R270,
R271). -/
def State.timResult (s : State) (u r : Nat) (subres order ovf : Bool) : State :=
  let s := (s.p (TIM_LAST_RESULT u) r).pb (TIM_LAST_SUBRES u) subres
  let s := (s.pb (TIM_LAST_ORDER u) order).pb (TIM_LAST_OVF u) ovf
  let s := s.p (TIM_STATUS_DONE_N u) (s.g (TIM_STATUS_DONE_N u) + 1)
  let s := if subres then s.inc (TIM_COUNTS_SUBRES u) 1 else s
  let s := if ovf then s.inc (TIM_COUNTS_OVF u) 1 else s
  let s := if ovf then s else
    let sq := s.g (TIM_SUMSQ_LO_SUMSQ u) + 2 ^ 64 * s.g (TIM_SUMSQ_HI_SUMSQ u) + r * r
    let s := s.p (TIM_STATUS_NSTAT u) (s.g (TIM_STATUS_NSTAT u) + 1)
    let s := (s.p (TIM_MIN_VALUE u) (min r (s.g (TIM_MIN_VALUE u)))).p (TIM_MAX_VALUE u) (max r (s.g (TIM_MAX_VALUE u)))
    let s := s.p (TIM_SUM_SUM u) (s.g (TIM_SUM_SUM u) + r)
    (s.p (TIM_SUMSQ_LO_SUMSQ u) sq).p (TIM_SUMSQ_HI_SUMSQ u) (sq / 2 ^ 64)
  let s := (s.p (TIM_STATUS_WAIT_STOP u) 0).modTim u (fun x => { x with start := none, order := false })
  if s.g (TIM_STATUS_DONE_N u) = (s.tim u).count then s.timEnd u 1 else s

/-- The stop at `q` ends the measurement that started at `qs`; with CHAIN it starts the next one (R270). -/
def State.timStop (s : State) (u qs q : Nat) : State :=
  let order := (s.tim u).order
  let s := s.modTim u (fun x => { x with lastStop := some q })
  let s := if qs + 1 ≤ q then s.timResult u (q - qs) false order false else s.timResult u 0 true order false
  if s.timState u = 1 ∧ s.gb (TIM_CFG_CHAIN u) then
    (s.p (TIM_STATUS_WAIT_STOP u) 1).modTim u (fun x => { x with start := some q, lastStart := some q })
  else s

/-- The edge at `q` follows the last accepted edge of its role too closely: within 625 ps or HOLDOFF (R269). -/
def State.timHeld (s : State) (u q : Nat) (last : Option Nat) : Bool :=
  match last with
  | none => false
  | some l => decide (q < l + 64) || decide ((q - l) * 625 < s.g (TIM_CFG_HOLDOFF u) * 64000)

/-- At `q` no stop can come any more for a start whose 2³² − 1 coarse periods are over: the measurement ends with OVF (R270). -/
def State.timLapse (s : State) (u q : Nat) : State :=
  match (s.tim u).start with
  | some qs => if qs / 32 + 2 ^ 32 - 1 < q / 32 then s.timResult u 0x1FFFFFFFFF false false true else s
  | none => s

/-- A start edge at `q`, not held off: it is ignored while a measurement waits for its stop; stop edges that came before it are its
stop, or early (R269, R270). -/
def State.timStart (s : State) (u q : Nat) : State :=
  let x := s.tim u
  if s.timHeld u q x.lastStart then s.inc (TIM_COUNTS_MISSED u) 1
  else if x.start.isSome then s
  else
    let early := x.stops.filter (fun t => decide (t + 2 ≤ q))
    let hit := x.stops.find? (fun t => decide (q ≤ t + 1))
    let s := s.inc (TIM_COUNTS_STOP_EARLY u) early.length
    let s := s.modTim u (fun x => { x with start := some q, lastStart := some q, stops := [], order := !early.isEmpty })
    let s := s.p (TIM_STATUS_WAIT_STOP u) 1
    match hit with
    | some t => s.timStop u q t
    | none => s

/-- A stop edge at `q`: it ends the measurement that waits, or is kept until the next start decides what it was. -/
def State.timStopEdge (s : State) (u q : Nat) : State :=
  let x := s.tim u
  if s.timHeld u q x.lastStop then s.inc (TIM_COUNTS_MISSED u) 1
  else match x.start with
    | none => s.modTim u (fun x => { x with stops := x.stops ++ [q] })
    | some qs =>
      if q + 2 ≤ qs then (s.inc (TIM_COUNTS_STOP_EARLY u) 1).modTim u (fun x => { x with order := true })
      else s.timStop u qs q

/-- The edge of a source at Q = `q` reaches unit `u` as a start, a stop or both: where it is both, it is the stop of a waiting
measurement, else the start (DEDUCED from the example). -/
def State.timRole (s : State) (u q : Nat) (isStart isStop : Bool) : State :=
  if s.timState u ≠ 1 ∨ !(isStart || isStop) then s
  else
    let s := s.timLapse u q
    if s.timState u ≠ 1 then s
    else if isStop ∧ (isStart → (s.tim u).start.isSome) then s.timStopEdge u q
    else if isStart then s.timStart u q
    else s

/-- An internal source of class `cls` (3 trigger, 4 sequencer event) acts at instant `t`. -/
def State.timSource (s : State) (cls index event t : Nat) : State :=
  forEach (List.range 8) s (fun u s =>
    s.timRole u (quantQ t)
      (decide (s.g (TIM_CFG_START_CLASS u) = cls) && decide (s.g (TIM_CFG_START_INDEX u) = index) &&
        (decide (cls = 3) || decide (s.g (TIM_CFG_START_EVENT u) = event)))
      (decide (s.g (TIM_CFG_STOP_CLASS u) = cls) && decide (s.g (TIM_CFG_STOP_INDEX u) = index) &&
        (decide (cls = 3) || decide (s.g (TIM_CFG_STOP_EVENT u) = event))))

/-- The EDGE code an edge has behind its input: a TMI input with INV shows the other edge (Table 12.7). -/
def State.edgeCode (s : State) (cls i : Nat) (rising : Bool) : Nat :=
  b2n (rising == (decide (cls = 0) && s.gb (TIM_IN_CFG_INV i)))

/-- An edge of a source at Q = `q` reaches every unit that selects that edge of that source (R269, R270, R273). -/
def execTimEdge (src : EdgeSrc) (rising : Bool) (q : Nat) (s : State) : Host.Outcome State Fault Refusal :=
  let cls := src.cls
  let i := src.index
  let e := s.edgeCode cls.val i.val rising
  .next (if !s.ticksOf tbDom then s else forEach (List.range 8) s (fun u s =>
    s.timRole u q
      (decide (s.g (TIM_CFG_START_CLASS u) = cls.val) && decide (s.g (TIM_CFG_START_INDEX u) = i.val) &&
        decide (s.g (TIM_CFG_START_EDGE u) = e))
      (decide (s.g (TIM_CFG_STOP_CLASS u) = cls.val) && decide (s.g (TIM_CFG_STOP_INDEX u) = i.val) &&
        decide (s.g (TIM_CFG_STOP_EDGE u) = e))))

/-- No stop came within 2³² − 1 coarse periods: the measurement ends with OVF and the result all ones (R270). -/
def execTimOverflow (t : Fin 8) (s : State) : Host.Outcome State Fault Refusal :=
  .next (if !s.ticksOf tbDom then s else if s.timState t.val = 1 then s.timLapse t.val (quantQ s.tb.tm) else s)

/-- The TIMEOUT of a TIM_ARM expires (R272). -/
def execTimTimeout (t : Fin 8) (s : State) : Host.Outcome State Fault Refusal :=
  .next (if !s.ticksOf tbDom then s else
    match (s.tim t.val).deadline with
    | some d => if s.timState t.val = 1 ∧ d ≤ s.tb.tm then s.timEnd t.val 3 else s
    | none => s)

/-- The source of class `cls` and index `i` is one Ward `w` may use: class 0 its TMI input, 1 and 2 a channel of its
Channel Blocks, 3 its time trigger (R40, R272). -/
def State.timSrcBusy (s : State) (w cls i : Nat) : Bool :=
  match cls with
  | 0 => decide (i < 4) && decide (s.resWard 3 i ≠ some w)
  | 1 => decide (s.cbWard (i / 4) ≠ some w)
  | 2 => decide (s.cbWard (i / 4) ≠ some w)
  | 3 => decide (i < 32) && decide (s.resWard 4 i ≠ some w)
  | _ => false

/-- A selected sequencer that is outside Ward `w` (R272). -/
def State.timForeign (s : State) (w cls i : Nat) : Bool := decide (cls = 4) && decide (i < 32) && decide (s.seqWard i ≠ some w)

/-- Ward `w` may use both sources that unit `u` selects (R18, R40, R272). -/
def State.timSrcOk (s : State) (w u : Nat) : Bool :=
  let sc := s.g (TIM_CFG_START_CLASS u)
  let si := s.g (TIM_CFG_START_INDEX u)
  let tc := s.g (TIM_CFG_STOP_CLASS u)
  let ti := s.g (TIM_CFG_STOP_INDEX u)
  !s.timSrcBusy w sc si && !s.timSrcBusy w tc ti && !s.timForeign w sc si && !s.timForeign w tc ti

/-- The units bound to sequencer `k` are armed at the start of its burst (R272); a unit whose sources its Ward may not use is not
armed (R40; that nothing else shows it is the model's choice, log). -/
def State.timBoundArm (s : State) (k : Nat) : State :=
  forEach (List.range 8) s (fun u s =>
    if s.resBind 2 u = some k ∧ s.timState u ≠ 1 ∧ (s.resWard 2 u).any (fun w => s.timSrcOk w u) then
      s.timArmUnit u (s.g (TIM_BCOUNT_COUNT u)) none true 0 else s)

/-- Their runs end with the burst (R272). -/
def State.timBoundEnd (s : State) (k : Nat) : State :=
  forEach (List.range 8) s (fun u s =>
    if s.resBind 2 u = some k ∧ s.timState u = 1 then s.timEnd u 4 else s)

/-- The number of sources of a class. -/
def timClassSize : Nat → Nat | 0 => 4 | 1 => 128 | 2 => 128 | 3 => 32 | 4 => 32 | _ => 0

/-- TIM_ARM (R272). -/
def timArm (c : Cmd) (s : State) : State :=
  let w := c.ward.val
  let u0 := u c.args 0 1
  let fl := u c.args 1 1
  let count := u c.args 4 4
  let sc := s.g (TIM_CFG_START_CLASS u0)
  let si := s.g (TIM_CFG_START_INDEX u0)
  let tc := s.g (TIM_CFG_STOP_CLASS u0)
  let ti := s.g (TIM_CFG_STOP_INDEX u0)
  if !s.plan.sealed then s.refuse c 8
  else if fl = 1 then
    if !s.mayArm w 2 u0 then s.refuse c 6
    else if c.args.length ≠ 16 ∨ 7 < u0 ∨ !zeros c.args 2 14 then s.refuse c 0x0D
    else
      let s := s.started c
      (if s.timState u0 = 1 then s.timEnd u0 2 else s).finishF c.id 0
  else if u0 < 8 ∧ (s.timForeign w sc si ∨ s.timForeign w tc ti) then s.refuse c 3
  else if !s.mayArm w 2 u0 ∨ s.timState u0 = 1 ∨ s.timSrcBusy w sc si ∨ s.timSrcBusy w tc ti then s.refuse c 6
  else if c.args.length ≠ 16 ∨ 7 < u0 ∨ fl ≠ 0 ∨ !zeros c.args 2 2 ∨ count = 0 ∨ 16777216 < count ∨ !zeros c.args 12 4 ∨
      timClassSize sc ≤ si ∨ timClassSize tc ≤ ti then s.refuse c 0x0D
  else (s.started c).timArmUnit u0 count (some c.id) false (u c.args 8 4)

/-- TIM_ARM. -/
def execTimArm (w : Fin 4) (q : Fin 8) (s : State) : Host.Outcome State Fault Refusal :=
  .next (s.runCmd w.val q.val 0x62 timArm)

end Sys2Proof.Machine
end

