-- ==== Sys2Proof/Machine/Operands.lean ====
section
/-! DEFINITION. Operand forms of a microword: its fields (Table 4.3), the control-store code (R395), and the encodings that
make it illegal (R73, R99, R101, R103). -/

namespace Sys2Proof.Machine

/-! ### Fields of a microword (Table 4.3) -/

/-- Bits `hi..lo` of a microword. -/
def mf (w : Micro) (hi lo : Nat) : Nat := nbits hi lo w.toNat

/-- SEQ. -/
def uSeq (w : Micro) : Nat := mf w 159 154
/-- COND. -/
def uCond (w : Micro) : Nat := mf w 153 148
/-- TARGET. -/
def uTarget (w : Micro) : Nat := mf w 147 135
/-- LCSEL. -/
def uLcsel (w : Micro) : Nat := mf w 134 132
/-- TSET. -/
def uTset (w : Micro) : Nat := mf w 131 124
/-- XOP. -/
def uXop (w : Micro) : Nat := mf w 123 116
/-- YOP. -/
def uYop (w : Micro) : Nat := mf w 115 108
/-- ZOP. -/
def uZop (w : Micro) : Nat := mf w 107 102
/-- DOP. -/
def uDop (w : Micro) : Nat := mf w 101 92
/-- MAP. -/
def uMap (w : Micro) : Nat := mf w 91 88
/-- CMPCTL. -/
def uCmp (w : Micro) : Nat := mf w 87 80
/-- VSCTL. -/
def uVs (w : Micro) : Nat := mf w 79 72
/-- SQCTL. -/
def uSq (w : Micro) : Nat := mf w 71 64
/-- IMM. -/
def uImm (w : Micro) : Nat := mf w 63 32
/-- REGOP. -/
def uReg (w : Micro) : Nat := mf w 31 16
/-- USER. -/
def uUser (w : Micro) : Nat := mf w 15 2
/-- COMMIT. -/
def uCommit (w : Micro) : Bool := nbit w.toNat 1
/-- YIELD. -/
def uYield (w : Micro) : Bool := nbit w.toNat 0
/-- VSCTL.SRC. -/
def vsSrc (w : Micro) : Nat := uVs w / 64
/-- The microword draws a set: SRC ≠ 0 and HOLD = 0 (Table 4.8). -/
def uDraws (w : Micro) : Bool := decide (vsSrc w ≠ 0) && !nbit (uVs w) 5
/-- SQCTL.ACT. -/
def sqAct (w : Micro) : Nat := uSq w / 64
/-- SQCTL.NUM. -/
def sqNum (w : Micro) : Nat := uSq w % 64

/-! ### The control-store code (R395) -/

/-- The code position of data bit `i`: the (i + 1)-th position from 3 that is not a power of two. -/
def dpos (i : Nat) : Nat :=
  if i < 1 then 3 else if i < 4 then i + 4 else if i < 11 then i + 5 else if i < 26 then i + 6
  else if i < 57 then i + 7 else if i < 120 then i + 8 else i + 9

/-- The exclusive or of the positions of the ones among the first `n` data bits: bit k of it is check bit k. -/
def synUpTo (d : Micro) : Nat → BitVec 8
  | 0 => 0#8
  | n + 1 => synUpTo d n ^^^ (if d.getLsbD n then BitVec.ofNat 8 (dpos n) else 0#8)

/-- The exclusive or of the first `n` bits of a string. -/
def parUpTo {k : Nat} (b : BitVec k) : Nat → Bool
  | 0 => false
  | n + 1 => parUpTo b n ^^ b.getLsbD n

/-- A microword with its 9 check bits above it. -/
def csEncode (d : Micro) : CsWord :=
  let c := synUpTo d 160
  BitVec.ofBool (parUpTo d 160 ^^ parUpTo c 8) ++ c ++ d

/-- What a fetch finds: the word to execute, and whether it was corrected; none for an uncorrectable word. -/
def csDecode (w : CsWord) : Option (Micro × Bool) :=
  let d : Micro := w.extractLsb' 0 160
  let s := (w.extractLsb' 160 8 ^^^ synUpTo d 160).toNat
  let p := parUpTo w 169
  if p then
    if s = 0 then some (d, true)
    else if s ≤ 168 then
      match (List.range 160).find? (fun i => decide (dpos i = s)) with
      | some i => some (d ^^^ (1#160 <<< i), true)
      | none => some (d, true)
    else none
  else if s = 0 then some (d, false) else none

/-- The bits of a stored word, corrected where they can be (R70). -/
def csRead (w : CsWord) : CsWord :=
  match csDecode w with
  | some (d, true) => csEncode d
  | _ => w

/-- Control-store word `w` before anything but Porter's boot has written it (R68): vendor microcode below 0x0800, else 0 with
its check bits. -/
def csDefault (w : Nat) : CsWord := if w < 0x800 then csEncode (Config.vendorMicro w) else 0#169

/-- Word `w` of a control store, with its check bits. -/
def csAt (cs : Tab CsWord) (w : Nat) : CsWord := tabGet (csDefault w) cs w

/-! ### Illegal microwords (R73) -/

/-- A reserved encoding in a field, or a nonzero reserved bit; `chain` is APG_CFG.CHAIN (R101). -/
def uReserved (w : Micro) (chain : Nat) : Bool :=
  let op := uReg w / 4096
  let dst := uReg w / 256 % 16
  let src := uReg w / 16 % 16
  let mod := uReg w % 16
  decide (0x0B < uSeq w) || decide (0x15 < uCond w % 32) ||
    -- CMPCTL.FMODE, VSCTL
    decide (2 ≤ uCmp w / 4 % 4) || decide (vsSrc w = 3) || decide (uVs w % 32 ≠ 0) ||
    -- REGOP: MOD, CMP without FSET, LDG and STG sources, LDLCR
    decide (2 ≤ mod) || (decide (op = 0xC) && decide (mod % 2 = 0)) ||
    ((decide (op = 0xD) || decide (op = 0xE)) && decide (3 < src)) || (decide (op = 0xF) && decide (8 ≤ dst)) ||
    -- generator fields
    decide (uXop w / 32 % 4 ≠ 0) || decide (uYop w / 32 % 4 ≠ 0) ||
    decide (0xE < uXop w % 32) || decide (0xE < uYop w % 32) || decide (0xE < uZop w % 32) ||
    decide ((if chain = 0 then uXop w else uYop w) % 32 = 3) ||
    decide (uDop w / 256 = 3) || decide (0xF < uDop w % 64)

end Sys2Proof.Machine
end

