-- ==== Sys2Proof/Machine/Flags.lean ====
section
/-! DEFINITION. The flags of a sequencer: what REGOP does with registers and with Z, N and C (Table 4.6), and COND
(Table 4.5). -/

namespace Sys2Proof.Machine

/-- General register `i`. -/
def Arch.grv (a : Arch) (i : Nat) : Word := a.gr.toList.getD i 0#64

/-- General register `i` takes a value. -/
def Arch.setGr (a : Arch) (i : Nat) (v : Word) : Arch :=
  if h : i < 16 then { a with gr := a.gr.set i v } else a

/-- Loop counter `i`. -/
def Arch.lcv (a : Arch) (i : Nat) : Nat := a.lc.toList.getD i 0

/-- Reload register `i`. -/
def Arch.rlv (a : Arch) (i : Nat) : Nat := a.rl.toList.getD i 0

/-- Loop counter `i` takes a value. -/
def Arch.setLc (a : Arch) (i v : Nat) : Arch := if h : i < 8 then { a with lc := a.lc.set i v } else a

/-- Reload register `i` takes a value. -/
def Arch.setRl (a : Arch) (i v : Nat) : Arch := if h : i < 8 then { a with rl := a.rl.set i v } else a

/-- The generator register of an LDG or STG index: X, Y, Z, DR, zero-extended. -/
def Arch.gen (a : Arch) (i : Nat) : Word :=
  match i with
  | 0 => BitVec.ofNat 64 a.gx.v
  | 1 => BitVec.ofNat 64 a.gy.v
  | 2 => BitVec.ofNat 64 a.gz.v
  | _ => a.dr

/-- A generator register takes a value, truncated to its width; `dw` is DWIDTH. -/
def Arch.setGen (a : Arch) (dw i : Nat) (v : Word) : Arch :=
  match i with
  | 0 => { a with gx := { a.gx with v := v.toNat % 2 ^ 24 } }
  | 1 => { a with gy := { a.gy with v := v.toNat % 2 ^ 24 } }
  | 2 => { a with gz := { a.gz with v := v.toNat % 2 ^ 8 } }
  | _ => { a with dr := BitVec.ofNat 64 (v.toNat % 2 ^ dw) }

/-- The result of an arithmetic or logic REGOP on `x = GR[DST]` and `y = GR[SRC]`, and its C: none where C is left
unchanged. The last bit shifted out by a shift of 0 is not stated: it is the free value `fv`. -/
def regopVal (op : Nat) (x y : Word) (imm : Nat) (fv : Bool) : Word × Option Bool :=
  let n := imm % 64
  match op with
  | 0x1 => (BitVec.ofNat 64 imm, some false)
  | 0x2 => (BitVec.ofNat 64 (imm * 2 ^ 32 + x.toNat % 2 ^ 32), some false)
  | 0x3 => (y, some false)
  | 0x4 => (x + y, some (decide (2 ^ 64 ≤ x.toNat + y.toNat)))
  | 0x5 =>
    let i := (BitVec.ofNat 32 imm).signExtend 64
    (x + i, some (decide (2 ^ 64 ≤ x.toNat + i.toNat)))
  | 0x6 => (x - y, some (decide (x.toNat < y.toNat)))
  | 0x7 => (x &&& y, some false)
  | 0x8 => (x ||| y, some false)
  | 0x9 => (x ^^^ y, some false)
  | 0xA => (x <<< n, some (if n = 0 then fv else x.getLsbD (64 - n)))
  | 0xB => (x >>> n, some (if n = 0 then fv else x.getLsbD (n - 1)))
  | 0xC => (x - y, some (decide (x.toNat < y.toNat)))
  | _ => (x, none)

/-- Z and N from a result, C as the table states. -/
def Arch.flags (a : Arch) (fset : Bool) (r : Word) (c : Option Bool) : Arch :=
  if fset then { a with z := decide (r = 0#64), n := r.getLsbD 63, c := c.getD a.c } else a

/-- REGOP (Table 4.6). `dw` is DWIDTH. With FSET, a STG takes Z and N from all of GR[DST], not from the bits that the generator
register keeps (DESIGN CHOICE, log). -/
def Arch.regop (a : Arch) (dw reg imm : Nat) (fv : Bool) : Arch :=
  let op := reg / 4096
  let dst := reg / 256 % 16
  let src := reg / 16 % 16
  let fset := nbit reg 0
  match op with
  | 0x0 => a
  | 0xC =>
    let r := regopVal op (a.grv dst) (a.grv src) imm fv
    a.flags fset r.1 r.2
  | 0xD => (a.setGr dst (a.gen src)).flags fset (a.gen src) (some false)
  | 0xE => (a.setGen dw src (a.grv dst)).flags fset (a.grv dst) none
  | 0xF =>
    let v := (a.grv src).toNat % 2 ^ 24
    ((a.setLc (dst % 8) v).setRl (dst % 8) v).flags fset (BitVec.ofNat 64 v) none
  | _ =>
    let r := regopVal op (a.grv dst) (a.grv src) imm fv
    (a.setGr dst r.1).flags fset r.1 r.2

/-- A shift by 0 that sets the flags uses the free value. -/
def regopFree (reg imm : Nat) : Bool :=
  let op := reg / 4096
  (decide (op = 0xA) || decide (op = 0xB)) && nbit reg 0 && decide (imm % 64 = 0)

/-! ### COND (Table 4.5) -/

/-- The boundary flag of an address generator (R102). -/
def AddrGen.atEnd (g : AddrGen) (lo hi : Nat) : Bool := if g.dir then decide (g.v = lo) else decide (g.v = hi)

/-- DWIDTH of sequencer `k`. -/
def State.dwidth (s : State) (k : Nat) : Nat := s.g (APG_CFG_DWIDTH k)

/-- The sites of sequencer `k`: those that channels of its Channel Blocks name (R164). -/
def State.seqSites (s : State) (k : Nat) : List Nat :=
  let chs := (s.seqCbs k).flatMap (fun c => (List.range 4).map (4 * c + ·))
  (List.range 64).filter (fun t => chs.any (fun n => decide (s.g (CAP_CMP_CFG_SITE n) = t)))

/-- The stream engine bound to sequencer `k` (R117). -/
def State.seqVs (s : State) (k : Nat) : Option Nat :=
  (List.range 16).find? (fun v => s.gb (VS_STATUS_BOUND v) && decide (s.g (VS_STATUS_SEQ v) = k))

/-- END has been decoded and the stream emits no more sets than are drawn (R132). -/
def State.vsEnd (s : State) (k : Nat) : Bool :=
  match s.seqVs k with
  | some v => (s.vse v).ended && decide ((s.vse v).emitted ≤ s.g (VS_COUNT_SETS v))
  | none => false

/-- The condition of bits [4:0]; `w` gives LCSEL and the Square. -/
def State.condBase (s : State) (k : Nat) (w : Micro) : Bool :=
  let x := s.seq k
  let a := x.arch
  match uCond w % 32 with
  | 0x00 => true
  | 0x01 => decide (a.lcv (uLcsel w) = 0)
  | 0x02 => a.z
  | 0x03 => a.n
  | 0x04 => a.c
  | 0x05 => a.gx.atEnd (s.g (APG_XLIM_LO k)) (s.g (APG_XLIM_HI k))
  | 0x06 => a.gy.atEnd (s.g (APG_YLIM_LO k)) (s.g (APG_YLIM_HI k))
  | 0x07 => a.gz.atEnd (s.g (APG_ZLIM_LO k)) (s.g (APG_ZLIM_HI k))
  | 0x08 => decide (a.dr.toNat % 2 ^ s.dwidth k = s.g (APG_DCMP_VALUE k) % 2 ^ s.dwidth k)
  | 0x09 => a.sfail
  | 0x0A => x.bfail
  | 0x0B => !(s.seqSites k).isEmpty && (s.seqSites k).all (fun t => nbit x.allSet t)
  | 0x0C => (s.seqSites k).any (fun t => s.gb (CAP_SITE_STATUS_FLOODED t))
  | 0x0D => s.vsEnd k
  | 0x0E => nbit x.sqRel (sqNum w)
  | 0x0F => (List.range 32).any (fun t => decide (s.resBind 4 t = some k) && s.gb (TB_TRIG_STATUS_FIRED t))
  | 0x10 => nbit (s.g (PS_CTRL_HOSTF k)) 0
  | 0x11 => nbit (s.g (PS_CTRL_HOSTF k)) 1
  | 0x12 => nbit (s.g (PS_CTRL_HOSTF k)) 2
  | 0x13 => nbit (s.g (PS_CTRL_HOSTF k)) 3
  | 0x14 => decide (a.sp = 0)
  | 0x15 => decide (a.sp = 16)
  | _ => false

/-- COND of a microword; bit 5 inverts. -/
def State.cond (s : State) (k : Nat) (w : Micro) : Bool := s.condBase k w ^^ decide (32 ≤ uCond w)

end Sys2Proof.Machine
end

