-- ==== Sys2Proof/Machine/Apg.lean ====
section
/-! DEFINITION. Algorithmic generation: address and data generator ops (R99 to R104), scramblers (R105 to R107), the delay
line (R108, R109) and the forming of pin words (R110 to R113). -/

namespace Sys2Proof.Machine

/-! ### Address generators -/

/-- The configuration of one address generator: LO, HI, INC, CMASK, boundary mode, width. -/
structure GenCfg where
  lo : Nat
  hi : Nat
  inc : Nat
  cmask : Nat
  mode : Nat
  width : Nat
deriving DecidableEq, Repr

/-- A step with size `n` (R100): the generator and its carry out. -/
def AddrGen.step (g : AddrGen) (c : GenCfg) (n : Nat) : AddrGen × Bool :=
  let nx (dir : Bool) : Int := if dir then (g.v : Int) - n else (g.v : Int) + n
  let inside (x : Int) : Bool := decide ((c.lo : Int) ≤ x) && decide (x ≤ (c.hi : Int))
  if inside (nx g.dir) then ({ g with v := (nx g.dir).toNat }, false)
  else match c.mode with
    | 0 => ({ g with v := if g.dir then c.hi else c.lo }, true)
    | 2 => ({ g with dir := !g.dir, v := if inside (nx !g.dir) then (nx !g.dir).toNat else g.v }, true)
    | _ => (g, true)

/-- An op code of Table 5.2 with the carry of the preceding generator: the generator and its carry out. -/
def AddrGen.op (g : AddrGen) (c : GenCfg) (code imm : Nat) (cin : Bool) : AddrGen × Bool :=
  let m := 2 ^ c.width
  match code with
  | 0x01 => g.step c c.inc
  | 0x02 => g.step c 1
  | 0x03 => if cin then g.step c c.inc else (g, false)
  | 0x04 => ({ g with v := c.lo }, false)
  | 0x05 => ({ g with v := c.hi }, false)
  | 0x06 => ({ g with v := g.a }, false)
  | 0x07 => ({ g with a := g.v }, false)
  | 0x08 => ({ g with v := g.a, a := g.v }, false)
  | 0x09 => ({ g with v := imm % m }, false)
  | 0x0A => ({ g with v := (g.v + imm) % m }, false)
  | 0x0B => ({ g with v := g.v ^^^ c.cmask }, false)
  | 0x0C => ({ g with dir := false }, false)
  | 0x0D => ({ g with dir := true }, false)
  | 0x0E => ({ g with dir := !g.dir }, false)
  | _ => (g, false)

/-- Configuration of the X generator. -/
def State.cfgX (s : State) (k : Nat) : GenCfg :=
  ⟨s.g (APG_XLIM_LO k), s.g (APG_XLIM_HI k), s.g (APG_XINC_INC k), s.g (APG_XINC_CMASK k), s.g (APG_CFG_XBM k), 24⟩
/-- Configuration of the Y generator. -/
def State.cfgY (s : State) (k : Nat) : GenCfg :=
  ⟨s.g (APG_YLIM_LO k), s.g (APG_YLIM_HI k), s.g (APG_YINC_INC k), s.g (APG_YINC_CMASK k), s.g (APG_CFG_YBM k), 24⟩
/-- Configuration of the Z generator. -/
def State.cfgZ (s : State) (k : Nat) : GenCfg :=
  ⟨s.g (APG_ZLIM_LO k), s.g (APG_ZLIM_HI k), s.g (APG_ZINC_INC k), s.g (APG_ZINC_CMASK k), s.g (APG_CFG_ZBM k), 8⟩

/-! ### Data generator -/

/-- DFN on DR (Table 5.3), within `w` bits; `x` and `y` are the address registers before this microword's ops (R103 does not say
which: DESIGN CHOICE, log 110). -/
def dfn (code w imm : Nat) (db : Nat → Nat) (poly x y dr : Nat) : Nat :=
  let r := match code with
    | 0x01 => db 0
    | 0x02 => db 1
    | 0x03 => db 2
    | 0x04 => db 3
    | 0x05 => imm * 2 ^ 32 + imm
    | 0x06 => dr + 1
    | 0x07 => dr + (2 ^ w - 1)
    | 0x08 => dr * 2
    | 0x09 => dr / 2
    | 0x0A => dr * 2 + dr / 2 ^ (w - 1)
    | 0x0B => dr / 2 + dr % 2 * 2 ^ (w - 1)
    | 0x0C => (2 ^ w - 1) - dr
    | 0x0D => if dr % 2 = 1 then (dr / 2) ^^^ (poly % 2 ^ w) else dr / 2
    | 0x0E => x
    | 0x0F => y * 2 ^ 24 + x
    | _ => dr
  r % 2 ^ w

/-- The generator ops of a microword (R72, R101): addresses in chain order, then DR. -/
def State.genOps (s : State) (k : Nat) (w : Micro) (a : Arch) : Arch :=
  let imm := uImm w
  let cx := s.cfgX k
  let cy := s.cfgY k
  let dw := s.dwidth k
  let dr := dfn (uDop w % 64) dw imm (fun j => s.g (APG_DB_VALUE k j)) (s.g (APG_DPOLY_POLY k)) a.gx.v a.gy.v
    (a.dr.toNat % 2 ^ dw)
  let (gx, gy, c2) :=
    if s.g (APG_CFG_CHAIN k) = 0 then
      let x := a.gx.op cx (uXop w % 32) imm false
      let y := a.gy.op cy (uYop w % 32) imm x.2
      (x.1, y.1, y.2)
    else
      let y := a.gy.op cy (uYop w % 32) imm false
      let x := a.gx.op cx (uXop w % 32) imm y.2
      (x.1, y.1, x.2)
  let z := a.gz.op (s.cfgZ k) (uZop w % 32) imm c2
  { a with gx := gx, gy := gy, gz := z.1, dr := BitVec.ofNat 64 dr }

/-! ### Addresses, data, delay line -/

/-- The logical address L of a beat: each output under its OSEL, before the ops. -/
def logAddr (w : Micro) (a : Arch) : Nat :=
  let o (g : AddrGen) (sel : Bool) : Nat := if sel then g.a else g.v
  o a.gz (nbit (uZop w) 5) * 2 ^ 48 + o a.gy (nbit (uYop w) 7) * 2 ^ 24 + o a.gx (nbit (uXop w) 7)

/-- Parity of a number below 2⁶⁴. -/
def parity64 (n : Nat) : Bool := parUpTo (BitVec.ofNat 64 n) 64

/-- The physical address A (R106). -/
def State.physAddr (s : State) (k l : Nat) : Nat := maskOf 56 (fun i => parity64 (l &&& s.g (APG_ASCR_ROW k i)))

/-- The output data DS of a beat (R105). -/
def State.outData (s : State) (k : Nat) (w : Micro) (a : Arch) (l : Nat) : Word :=
  let d := a.dr.toNat % 2 ^ s.dwidth k
  let d := if nbit (uDop w) 7 then (2 ^ 64 - 1) - d else d
  let d := if nbit (uDop w) 6 then d ^^^ maskOf 64 (fun j => parity64 (l &&& s.g (APG_DSCR_ROW k j))) else d
  BitVec.ofNat 64 d

/-- The data side that a microword enters into the delay line (R108). -/
def State.dataSide (s : State) (k : Nat) (w : Micro) (a : Arch) : DataSide :=
  let l := logAddr w a
  ⟨uDop w / 256, s.outData k w a l, l, s.physAddr k l⟩

/-- The delay line holds the data sides of the last 15 formed beats, oldest first; at BEGIN they are empty (R109). -/
def lineStart : List DataSide := List.replicate 15 ⟨0, 0#64, 0, 0⟩

/-- The entry that a formation takes: the one entered DLAT formed beats before `own`, the beat's own data side (R108). -/
def State.lineTake (s : State) (k : Nat) (line : List DataSide) (own : DataSide) : DataSide :=
  ((line ++ [own]).reverse).getD (s.g (APG_CFG_DLAT k)) own

/-! ### Pin words -/

/-- Bit `u` of a channel from the generator bus (Table 5.4): `a` the beat's physical address, `dir` its own direction, `e` the
delayed entry. -/
def busBit (sel u a dir : Nat) (e : DataSide) : Bool :=
  if sel < 0x38 then nbit a sel
  else if sel = 0x38 then false
  else if sel = 0x39 then true
  else if sel = 0x3A then decide (u % 2 = 1)
  else if sel = 0x3B then decide (u % 2 = 0)
  else if sel = 0x3C then decide (dir = 1)
  else if sel = 0x3D then decide (dir = 2)
  else if sel < 0x40 then false
  else e.ds.getLsbD (sel - 0x40)

/-- The pin word of a generator beat on channel `c` under Crossing map entry `x` (R113). -/
def genPin (x a dir : Nat) (e : DataSide) (pinmask : Bool) : PinWord :=
  let data := maskOf 8 (fun u => busBit (nbits (7 * u + 6) (7 * u) x) u a dir e ^^ nbit x 61)
  let modesel := nbits 58 56 x
  let mode := if modesel = 4 then (match e.dir with | 1 => 1 | 2 => 2 | _ => 0) else modesel
  let ms := nbits 60 59 x
  let mask := decide (ms = 1) || (decide (ms = 2) && pinmask)
  BitVec.ofNat 11 (b2n mask * 1024 + mode % 4 * 256 + data)

/-- The channels of sequencer `k`, rising. -/
def State.seqChans (s : State) (k : Nat) : List Nat := (s.seqCbs k).flatMap (fun c => (List.range 4).map (4 * c + ·))

/-- The pin words of a formed beat (R113); `set` are the stream words, word i for the i-th owned channel. -/
def State.formPins (s : State) (k : Nat) (w : Micro) (l : Nat) (e : DataSide) (set : List PinWord) : List PinWord :=
  let a := s.physAddr k l
  (s.seqChans k).zipIdx.map (fun p =>
    let x := s.g (APG_XMAP_ENTRY (uMap w) p.1)
    if vsSrc w = 1 ∨ (vsSrc w = 2 ∧ nbit x 62) then set.getD p.2 0#11
    else genPin x a (uDop w / 256) e (nbit (s.g (APG_PINMASK_MASK (p.1 / 64))) (p.1 % 64)))

end Sys2Proof.Machine
end

