-- ==== Sys2Proof/Machine/Wave.lean ====
section
/-! DEFINITION. Waveform Table entries (R143 to R147), the instants of a beat that follow from its record (R138, R142, R160),
and the images of checkpoints that a twin pair exchanges (R347, R349). -/

namespace Sys2Proof.Machine

/-! ### Waveform Table entries -/

/-- Entry `t` of channel `n` as one 256-bit number (R143). -/
def State.wtEntry (s : State) (n t : Nat) : Nat :=
  (List.range 4).foldl (fun a q => a + s.g (WT_ENTRY_BITS n t q) * 2 ^ (64 * q)) 0

/-- Number of UIs of an entry (R145). -/
def wtUis (e : Nat) : Nat := nbits 250 248 e + 1

/-- The period used for UI positions and beat length: below 625 ps it is clamped (R142). -/
def effPeriod (p : Nat) : Nat := max 1250 p

/-- The offset of UI `u` (R145). -/
def uiPos (e p u : Nat) : Nat := u * effPeriod p / wtUis e

/-- An event that takes effect: slot, UI, time after the beat start, action, and whether it is a sub-event of a serial event. -/
structure WaveEv where
  slot : Nat
  ui : Nat
  off : Nat
  kind : EvKind
  serial : Bool
deriving DecidableEq, Repr

/-- The events of slot `k` of entry `e` that take effect in a beat with pin word `pw`, CMPCTL `cmp` and period `p` (R146, R147). -/
def slotEvents (e p cmp : Nat) (pw : PinWord) (k : Nat) : List WaveEv :=
  let t := nbits (24 * k + 23) (24 * k) e
  let ty := nbits (192 + 4 * k + 3) (192 + 4 * k) e
  let sel := nbits (224 + 3 * k + 2) (224 + 3 * k) e
  let n := wtUis e
  let mode := pw.toNat / 256 % 4
  let drives := decide (mode % 2 = 1)
  let edge := decide (2 ≤ mode) && nbit cmp 7 && !nbit cmp 6
  let win := decide (2 ≤ mode) && nbit cmp 7 && nbit cmp 6
  let one (c : Bool) (kd : EvKind) : List WaveEv := if c then [⟨k, sel, t, kd, false⟩] else []
  match ty with
  | 0x1 => if drives then [⟨k, 0, t, .drv false, false⟩] else []
  | 0x2 => if drives then [⟨k, 0, t, .drv true, false⟩] else []
  | 0x3 => one (drives && decide (sel < n)) (.drv (pw.getLsbD sel))
  | 0x4 => one (drives && decide (sel < n)) (.drv !(pw.getLsbD sel))
  | 0x5 => if drives then (List.range n).map (fun u => ⟨k, u, t + uiPos e p u, .drv (pw.getLsbD u), true⟩) else []
  | 0x6 => [⟨k, 0, t, .den drives, false⟩]
  | 0x7 => [⟨k, 0, t, .den false, false⟩]
  | 0x8 => one (edge && decide (sel < n)) .strobe
  | 0x9 => if edge then (List.range n).map (fun u => ⟨k, u, t + uiPos e p u, .strobe, true⟩) else []
  | 0xA => one (win && decide (sel < n)) .winOpen
  | 0xB => one (win && decide (sel < n)) .winClose
  | _ => []

/-- The events of a beat on a channel in placement order: an entry without a DEN event has an implicit DEN_MODE at 0 (R147),
in no slot of its own: it is given number 8. -/
def waveEvents (e p cmp : Nat) (pw : PinWord) : List WaveEv :=
  let hasDen := (List.range 8).any (fun k =>
    let ty := nbits (192 + 4 * k + 3) (192 + 4 * k) e
    decide (ty = 6) || decide (ty = 7))
  let evs := (List.range 8).flatMap (slotEvents e p cmp pw)
  if hasDen then evs else ⟨8, 0, 0, .den (decide (pw.toNat / 256 % 2 = 1)), false⟩ :: evs

/-- The class of an event (Table 7.2). -/
def EvKind.cls : EvKind → EvClass
  | .drv _ => .drive
  | .den _ => .den
  | _ => .strobe

/-! ### The instants of a beat -/

/-- E_b after the start of the beat: its length, or its last strobe-class event (R160). -/
def State.beatSpan (s : State) (k : Nat) (r : BeatRec) : Nat :=
  (s.seqChans k).zipIdx.foldl (fun m p =>
    if s.gb (CH_CFG_DISABLE p.1) then m
    else
      (waveEvents (s.wtEntry p.1 r.tset) r.period r.cmp (r.pins.getD p.2 0#11)).foldl (fun m e =>
        if e.kind.cls = .strobe then max m e.off else m) m) r.len

/-- The record with its start, length and delivery instant D_b = max(E_b + 24 ns, D_{b−1}) (R138, R160). -/
def State.timed (s : State) (k : Nat) (r : BeatRec) (start len lastD : Nat) : BeatRec :=
  let r := { r with start := start, len := len, stamp := s.stampAt start }
  { r with deliv := max (start + (if r.hold then len else s.beatSpan k r) + 48000) lastD }

/-- The first multiple of 312.5 ps on the time base that is at least `x` (2⁻⁶⁴ ns). -/
def gridAfter (x : Nat) : Nat := roundUp (5 * 2 ^ 60) x

/-- S_0 of a BEGIN without WAIT whose record enters the FIFO now: the first grid reading at least 50 ns later (R139). -/
def State.firstStart (s : State) : Nat := s.instantOf (gridAfter (s.fineAt (s.tb.tm + 100000)))

/-! ### Checkpoint images -/

/-- A number in two or more words, low word first. -/
def wide (k n : Nat) : List Nat := (List.range k).map (fun i => n / 2 ^ (64 * i) % 2 ^ 64)

/-- The number in words `o` to `o + k − 1`. -/
def unwide (l : List Nat) (o k : Nat) : Nat := (List.range k).foldl (fun a i => a + l.getD (o + i) 0 * 2 ^ (64 * i)) 0

/-- An optional number as one word. -/
def optW : Option Nat → Nat
  | none => 0
  | some n => n + 1

/-- The optional number of a word. -/
def wOpt : Nat → Option Nat
  | 0 => none
  | n + 1 => some n

/-- The words of an address generator. -/
def AddrGen.words (g : AddrGen) : List Nat := [g.v, g.a, b2n g.dir]

/-- The address generator in three words. -/
def AddrGen.ofWords (l : List Nat) (o : Nat) : AddrGen := ⟨l.getD o 0, l.getD (o + 1) 0, decide (l.getD (o + 2) 0 ≠ 0)⟩

/-- Architectural state as words: 65 words, then 4 for each delay-line entry. -/
def Arch.words (a : Arch) : List Nat :=
  [a.pc, b2n a.beatMode, a.sp, b2n a.z, b2n a.n, b2n a.c, b2n a.sfail, optW a.rep] ++ a.gr.toList.map (·.toNat) ++
    a.lc.toList ++ a.rl.toList ++ a.stack.toList ++ a.gx.words ++ a.gy.words ++ a.gz.words ++ [a.dr.toNat, a.line.length] ++
    a.line.flatMap (fun e => [e.dir, e.ds.toNat, e.l, e.a])

/-- Architectural state from words. -/
def Arch.ofWords (l : List Nat) : Arch :=
  let b (i : Nat) : Bool := decide (l.getD i 0 ≠ 0)
  { pc := l.getD 0 0, beatMode := b 1, gr := .ofFn (fun (i : Fin 16) => BitVec.ofNat 64 (l.getD (8 + i.val) 0)),
    lc := .ofFn (fun (i : Fin 8) => l.getD (24 + i.val) 0), rl := .ofFn (fun (i : Fin 8) => l.getD (32 + i.val) 0),
    stack := .ofFn (fun (i : Fin 16) => l.getD (40 + i.val) 0), sp := l.getD 2 0, z := b 3, n := b 4, c := b 5, sfail := b 6,
    rep := wOpt (l.getD 7 0), gx := .ofWords l 56, gy := .ofWords l 59, gz := .ofWords l 62,
    dr := BitVec.ofNat 64 (l.getD 65 0),
    line := (List.range (l.getD 66 0)).map (fun j =>
      ⟨l.getD (67 + 4 * j) 0, BitVec.ofNat 64 (l.getD (68 + 4 * j) 0), l.getD (69 + 4 * j) 0, l.getD (70 + 4 * j) 0⟩) }

/-- A sequencer's checkpoint image: JSEQ of its burst, what R340 asks of it, and the checkpoint. -/
def ckptImage (jseq : Nat) (restartable dirty : Bool) (c : Ckpt) : List Nat :=
  [jseq, b2n restartable, b2n dirty, optW c.sq, c.round, c.beats] ++ wide 3 c.trel ++ [c.sites.length] ++
    c.sites.flatMap (fun t => [t.site, t.status.toNat, t.fails.toNat, t.first.toNat]) ++ c.arch.words

/-- The checkpoint in an image. -/
def ckptOf (l : List Nat) : Ckpt :=
  let n := l.getD 9 0
  { sq := wOpt (l.getD 3 0), round := l.getD 4 0, beats := l.getD 5 0, trel := unwide l 6 3,
    sites := (List.range n).map (fun j => ⟨l.getD (10 + 4 * j) 0, BitVec.ofNat 64 (l.getD (11 + 4 * j) 0),
      BitVec.ofNat 64 (l.getD (12 + 4 * j) 0), BitVec.ofNat 64 (l.getD (13 + 4 * j) 0)⟩),
    arch := .ofWords (l.drop (10 + 4 * n)) }

/-- A stream engine's checkpoint image: the registers of its arm, its valid dictionary entries, and the checkpoint. -/
def vsImage (arm : List Nat) (dict : Nat) (c : VsCkpt) : List Nat :=
  arm ++ wide 64 dict ++ [c.off, c.queued, optW c.sq, b2n c.scan.isSome, (c.scan.getD (0, 0)).1] ++ wide 2 (c.scan.getD (0, 0)).2 ++
    [c.loops.length] ++ c.loops.flatMap (fun p => [p.1, p.2]) ++ [c.cur.length] ++ c.cur.map (·.toNat)

/-- The stream engine's checkpoint in the words that follow the arm (5 words) and the dictionary (64 words). -/
def vsCkptOf (img : List Nat) : VsCkpt :=
  let l := img.drop 69
  let n := l.getD 7 0
  { off := l.getD 0 0, queued := l.getD 1 0, sq := wOpt (l.getD 2 0),
    scan := if l.getD 3 0 = 0 then none else some (l.getD 4 0, unwide l 5 2),
    loops := (List.range n).map (fun j => (l.getD (8 + 2 * j) 0, l.getD (9 + 2 * j) 0)),
    cur := (List.range (l.getD (8 + 2 * n) 0)).map (fun j => BitVec.ofNat 11 (l.getD (9 + 2 * n + j) 0)) }

/-- A byte string in pieces of at most `k` bytes; `f` bounds the pieces. -/
def pieces (k : Nat) : Nat → List Byte → List (List Byte)
  | 0, _ => []
  | f + 1, l => if l.length ≤ k then [l] else l.take k :: pieces k f (l.drop k)

/-- The TW_CKPT payloads of a round (Table 16.7): member images cut to 2,016 bytes, LAST on the final frame. -/
def ckptFrames (sq round : Nat) (members : List (Nat × List Nat)) : List (List Byte) :=
  let fs : List (Nat × List Byte) := members.flatMap (fun m =>
    let b := m.2.flatMap (toLe 8)
    (pieces 2016 (b.length + 1) b).map (fun p => (m.1, p)))
  fs.zipIdx.map (fun p =>
    toLe 1 sq ++ toLe 1 (b2n (decide (p.2 + 1 = fs.length))) ++ toLe 1 p.1.1 ++ List.replicate 5 0#8 ++ toLe 4 round ++
      List.replicate 4 0#8 ++ p.1.2)

/-- The words of a byte string. -/
def wordsOfBytes (b : List Byte) : List Nat := (List.range (b.length / 8)).map (fun i => u b (8 * i) 8)

end Sys2Proof.Machine
end

