-- ==== Sys2Proof/Machine/Halt.lean ====
section
/-! DEFINITION. How a burst ends (R86, R90, R92), how a Channel Block is stopped (R153), and what ends with a burst: the
binding of a stream engine (R117), the Shutter's arm (R180), the open batch (R174) and bound TIM runs (R272). -/

namespace Sys2Proof.Machine

/-! ### What ends with a burst -/

/-- The Shutter's arm ends with a cause (R180). -/
def State.shutEnd (s : State) (cause : Nat) : State :=
  let w := s.resWard 6 0
  let s := { s with shut := { s.shut with due := [], inBurst := false, spent := false } }
  (s.p CAP_SHUT_STATUS_STATE 2).eventTo w 0x0503 cause

/-- The open batch of sequencer `k` closes (R174). -/
def State.closeBatch (s : State) (k : Nat) (last : Bool) : State :=
  s.modArm k (fun x => match x.cur with
    | some b => { x with cur := none, closed := x.closed ++ [{ b with last := last }] }
    | none => x)

/-- The arm of sequencer `k` groups its records into batches (R174). -/
def State.batching (s : State) (k : Nat) : Bool := s.gb (CAP_ARM_STATUS_ARMED k) && s.gb (CAP_ARM_STATUS_HAS_CTX k)

/-- Every record of sequencer `k` has left the capture queue. -/
def State.capIdle (s : State) (k : Nat) : Bool :=
  s.capq.all (fun r => decide (r.seq ≠ k)) && (s.arm k).markers.isEmpty

/-- No burst of sequencer `k` has beats to come but those in flight: it has ended, or a burst before it is not yet DONE, for whose
beats its BEGIN waits. -/
def State.noBeats (s : State) (k : Nat) : Bool :=
  !(s.seq k).olds.isEmpty || (match (s.seq k).burst with
    | some b => b.ended.isSome
    | none => true)

/-- No beat of the burst of sequencer `k` is to come before its BEGIN: none, or it is still in SETUP mode. -/
def State.cbNoMore (s : State) (k : Nat) : Bool := s.noBeats k || !(s.seq k).arch.beatMode

/-- The burst of sequencer `k` has ended and all its beats are delivered. -/
def State.drained (s : State) (k : Nat) : Bool := s.noBeats k && (s.seq k).inFlight.isEmpty

/-- What the end of a burst brings once its beats are delivered: the Shutter's arm ends when no sample is due, the last
batch closes when its records are written. -/
def State.afterDrain (s : State) (k : Nat) : State :=
  if s.drained k then
    let s := if s.g CAP_SHUT_STATUS_STATE = 1 ∧ s.g CAP_SHUT_STATUS_SEQ = k ∧ s.shut.inBurst ∧ s.shut.due = [] then s.shutEnd 3
      else s
    if s.capIdle k then s.closeBatch k true else s
  else s

/-- The binding of engine `v` ends: ring, output queue and decode state are discarded, the engine is IDLE (R117). -/
def State.vsUnbind (s : State) (v : Nat) : State :=
  let s := s.modVs v (fun x => { VsEng.zero with ckpt := x.ckpt })
  let s := ((s.p (VS_STATUS_STATE v) 0).pb (VS_STATUS_BOUND v) false).p (VS_STATUS_LOOP_DEPTH v) 0
  (s.p (VS_LEVEL_RING v) 0).p (VS_LEVEL_QUEUE v) 0

/-! ### Squares: arrivals shown and withdrawn -/

/-- Square `q` counts member `m` among the arrivals of its round. -/
def Sq.has (x : Sq) (m : Nat) : Bool := x.arr.any (fun p => decide (p.1 = m))

/-- PS_SQ_STATUS shows the round. -/
def State.sqShow (s : State) (q : Nat) : State :=
  let x := s.sq q
  let s := s.p (PS_SQ_STATUS_SEQ_ARR q) (maskOf 32 x.has)
  let s := s.p (PS_SQ_STATUS_VS_ARR q) (maskOf 16 (fun v => x.has (32 + v)))
  ((s.pb (PS_SQ_STATUS_TRIG_ARR q) (x.has 48)).pb (PS_SQ_STATUS_RING_ARR q) (x.has 49)).pb (PS_SQ_STATUS_FIXED q) x.trel.isSome

/-- Member `m` is no longer among the arrivals of Square `q`. -/
def State.sqRemove (s : State) (q m : Nat) : State :=
  (s.modSq q (fun x => { x with arr := x.arr.filter (fun p => decide (p.1 ≠ m)) })).sqShow q

/-- Sequencer or engine `m` is IDLE: it has arrived at no Square, in a round whose T_rel is fixed no more than in another (R79, R133).
A sequencer that its own fault stops withdraws too (DESIGN CHOICE, log). -/
def State.sqWithdraw (s : State) (m : Nat) : State :=
  forEach (List.range 64) s (fun q s => if (s.sq q).has m then s.sqRemove q m else s)

/-! ### The end of a burst -/

/-- The registers that hold the arm of engine `v`. -/
def vsArmRegs (v : Nat) : List Nat := [VS_STATUS v, VS_ARM_SRC v, VS_ARM_LEN v, VS_ARM_RING v, VS_ARM_DICT v]

/-- The start of a stream, as a checkpoint. -/
def VsCkpt.start : VsCkpt := ⟨0, [], [], none, 0, none⟩

/-- The image of engine `v`: its arm, its dictionary and its latest checkpoint. -/
def State.vsImg (s : State) (v : Nat) : List Nat :=
  vsImage ((vsArmRegs v).map (fun a => (s.rd a).toNat)) (s.vse v).dictValid ((s.vse v).ckpt.getD .start)

/-- The state that registers show: that of the routine's entry until it commits (R86). -/
def Seq.shown (x : Seq) : Arch := x.shadow.getD x.arch

/-- A burst runs on sequencer `k`. -/
def State.bursting (s : State) (k : Nat) : Bool :=
  match (s.seq k).st with
  | .setup => true
  | .beat => true
  | .wait => true
  | .paused => true
  | _ => false

/-- The burst of sequencer `k` ends with a cause; what a routine without a commit point wrote is discarded (R86, R90, R92). The
commands that stopped it complete (R94). Its stream is unbound (R117); a STREAM_ARM that has not completed by then completes with
ARG 0 (DESIGN CHOICE, log). `pc` is the PC it leaves. -/
def State.seqEnd (s : State) (k cause pc : Nat) (fault : Bool) : State :=
  if !s.bursting k then s
  else
    let stops := ((s.seq k).burst.map (·.stops)).getD []
    let s := s.modSeq k (fun x => { x with
      st := if fault then .fault else .idle, arch := { x.shown with pc := pc }, shadow := none, pendStop := false,
      pendPause := false, wait := none, holdLeft := 0, urWait := false, urSent := false, step := false, ending := false,
      burst := x.burst.map (fun b => { b with
        ended := some cause, stops := [], stream := (s.seqVs k).bind (fun v => if (s.vse v).inBurst then some (v, s.vsImg v) else none) }) })
    let s := (forEach stops s (fun id s => s.finish id 0 cause)).sqWithdraw k
    let s := (s.p (PS_BURST_END_CAUSE k) cause).p (PS_BURST_END_PC k) pc
    let s := match s.seqVs k with
      | some v => if (s.vse v).inBurst then ((s.sqWithdraw (32 + v)).vsUnbind v).finishOpt (s.vse v).arm 0 0 else s
      | none => s
    (s.timBoundEnd k).afterDrain k

/-- A sequencer that stops at once has the PC of its routine's entry, if the routine has not committed (R90). -/
def State.stopPc (s : State) (k : Nat) : Nat :=
  match (s.seq k).shadow with
  | some _ => (s.seq k).entry
  | none => (s.seq k).arch.pc

/-- Sequencer `k` stops at once (R90). -/
def State.seqHalt (s : State) (k cause : Nat) : State := s.seqEnd k cause (s.stopPc k) false

/-- The source index of a sequencer's own fault (Table 4.11). -/
def seqSource (k cause : Nat) : Nat := if cause = 1 then k else if cause = 5 then 64 + k else 32 + k

/-- Sequencer `k` stops with a fault of its own at word `addr` (R90, Table 4.11). -/
def State.seqFault (s : State) (k cause addr : Nat) : State :=
  let s := (s.p (PS_FAULT_CAUSE k) cause).p (PS_FAULT_ADDR k) addr
  (s.assertFlt (seqSource k cause)).seqEnd k 4 (s.stopPc k) true

/-- Sequencer `k` is stopped at the word `addr` by a reaction to another source: CAUSE 0x07 (R90, R317). -/
def State.seqReactAt (s : State) (k addr : Nat) : State :=
  if s.bursting k then ((s.p (PS_FAULT_CAUSE k) 7).p (PS_FAULT_ADDR k) addr).seqHalt k 4 else s

/-- Sequencer `k` is stopped by a reaction at the word at PC. -/
def State.seqReact (s : State) (k : Nat) : State := s.seqReactAt k (s.seq k).arch.pc

/-! ### Channel Blocks -/

/-- The four channels of Channel Block `c`. -/
def cbChans (c : Nat) : List Nat := [4 * c, 4 * c + 1, 4 * c + 2, 4 * c + 3]

/-- Number of the first beat that has not started on Channel Block `c`. -/
def Cblk.notStarted (x : Cblk) : Nat := x.nextTake - x.taken.length

/-- The records of sequencer `k` that will never play because all its Channel Blocks are stopped are dropped (R92, R153). -/
def State.dropUnplayed (s : State) (k : Nat) : State :=
  let cbs := s.seqCbs k
  if cbs ≠ [] ∧ cbs.all (fun c => decide (s.g (CH_CB_STATUS_STATE c) = 3)) then
    let n := cbs.foldl (fun m c => max m (s.cb c).notStarted) 0
    (s.modSeq k (fun x => { x with fifo := [], inFlight := x.inFlight.filter (fun r => decide (r.beat < n)) })).afterDrain k
  else s

/-- Channel Block `c` is stopped: taken records and pending events are discarded, DEN is 0, DRV keeps its value (R153). -/
def State.cbStop (s : State) (c : Nat) : State :=
  let s := s.p (CH_CB_STATUS_STATE c) 3
  let s := s.modCb c (fun x => { x with cur := none, nextTake := x.notStarted, taken := [] })
  let s := forEach (cbChans c) s (fun n s =>
    ((s.modCh n (fun x => { x with placed := [], window := none })).pb (CH_STATUS_DEN n) false).p (CH_STATUS_SPILL n) 0)
  match s.cbSeq c with
  | some k => s.dropUnplayed k
  | none => s

/-- Every sequencer and Channel Block of Ward `w` is stopped, and HALT is set on its queues (STOP_WARD, R317). -/
def State.stopWard (s : State) (w : Nat) : State :=
  let s := forEach (bitsOf 32 (s.ward w).seqMask) s (fun k s => s.seqReact k)
  let s := forEach (bitsOf 32 (s.ward w).cbMask) s (fun c s => s.cbStop c)
  forEach (List.range 8) s (fun q s => s.pb (WRD_QCTL_HALT w q) true)

/-! ### Targets and slew of the channel corrections (R298 to R300) -/

/-- The target of path `p` (0 DRV, 1 DEN, 2 strobe) of channel `n` (R298). -/
def State.calTarget (s : State) (n p : Nat) : Int :=
  let b := s.g THM_STATUS_BAND
  let t := match p with
    | 0 => s.gi (CAL_CH_TAB_DRV n b) + s.gi (CAL_CH_USER_DRV n)
    | 1 => s.gi (CAL_CH_TAB_DEN n b) + s.gi (CAL_CH_USER_DEN n)
    | _ => s.gi (CAL_CH_TAB_STB n b) + s.gi (CAL_CH_USER_STB n)
  max (-32768) (min 32767 t)

/-- The field that shows the applied correction of path `p`. -/
def calNow (n p : Nat) : FRef :=
  match p with
  | 0 => CAL_CH_NOW_DRV n
  | 1 => CAL_CH_NOW_DEN n
  | _ => CAL_CH_NOW_STB n

/-- Path `p` of channel `n` has reached its target. -/
def State.calThere (s : State) (n p : Nat) : Bool := decide (s.gi (calNow n p) = s.calTarget n p)

/-- The accumulator of a path takes a value. -/
def State.calAcc (s : State) (n p v : Nat) : State := { s with cal := { s.cal with acc := tabSet 0 s.cal.acc (3 * n + p) v } }

/-- A channel of an IDLE Channel Block takes its targets at once (R300). -/
def State.calJumps (s : State) (n : Nat) : Bool := s.gb CAL_CFG_JUMP_IDLE && decide (s.g (CH_CB_STATUS_STATE (n / 4)) = 0)

/-- Path `p` of channel `n` takes its target. -/
def State.calJump (s : State) (n p : Nat) : State := (s.pi (calNow n p) (s.calTarget n p)).calAcc n p 0

/-- SLEWING of channel `n` shows whether a path is short of its target. -/
def State.calMark (s : State) (n : Nat) : State :=
  s.pb (CAL_CH_NOW_SLEWING n) (!(s.calThere n 0 && s.calThere n 1 && s.calThere n 2))

/-- The count of slewing channels; when it falls to 0, CAL_SETTLED goes to every enabled Ward (R299). -/
def State.calCount (s : State) : State :=
  let old := s.g CAL_STATUS_SLEWING
  let n := ((List.range 128).filter (fun n => s.gb (CAL_CH_NOW_SLEWING n))).length
  let s := s.p CAL_STATUS_SLEWING n
  if n = 0 ∧ old ≠ 0 then (s.eventAll 0x0B01 s.freeVal).useFree else s

/-- The targets of channels have changed (R298, R300). -/
def State.calRetarget (s : State) (chs : List Nat) : State :=
  (forEach chs s (fun n s =>
    let s := if s.calJumps n then forEach [0, 1, 2] s (fun p s => s.calJump n p) else s
    s.calMark n)).calCount

/-- One tick of 62.5 ns on path `p` of channel `n` (R299). -/
def State.calSlew (s : State) (n p : Nat) : State :=
  let t := s.calTarget n p
  let a := s.gi (calNow n p)
  let acc := tabGet 0 s.cal.acc (3 * n + p) + s.g CAL_CFG_SLEW
  let k := min (acc / 128) (t - a).natAbs
  let a' := if a < t then a + k else a - k
  (s.pi (calNow n p) a').calAcc n p (if a' = t then 0 else acc - 128 * k)

/-- Channels with work at a tick: a path is short of its target, or an accumulator has not been cleared yet (R299). -/
def State.calMoving (s : State) (n : Nat) : Bool :=
  s.gb (CAL_CH_NOW_SLEWING n) || [0, 1, 2].any (fun p => decide (tabGet 0 s.cal.acc (3 * n + p) ≠ 0))

/-- CAL_SLEW_TICK: every path that is short of its target moves; an accumulator whose path is there is cleared. -/
def State.calTick (s : State) : State :=
  (forEach ((List.range 128).filter s.calMoving) s (fun n s =>
    let s := forEach [0, 1, 2] s (fun p s => if s.calJumps n then s.calJump n p else s.calSlew n p)
    s.calMark n)).calCount

/-- Channel Block `c` becomes IDLE (Table 7.8): with JUMP_IDLE = 1 its channels take their targets at once (R300). -/
def State.cbIdle (s : State) (c : Nat) : State :=
  let s := s.p (CH_CB_STATUS_STATE c) 0
  if s.gb CAL_CFG_JUMP_IDLE && (cbChans c).any (fun n => s.gb (CAL_CH_NOW_SLEWING n)) then s.calRetarget (cbChans c) else s

end Sys2Proof.Machine
end

