-- ==== Sys2Proof/Machine/Recv.lean ====
section
/-! DEFINITION. Receiving frames: acknowledgement and credits of any frame, and the delivery rule of data frames (R43 to
R48). -/

namespace Sys2Proof.Machine

/-- The twin state event (R355). -/
def State.twinEvent (s : State) (cause : Nat) : State :=
  let s := s.p TWN_STATUS_CAUSE cause
  s.eventAll 0x0D03 (s.role + 4 * s.g TWN_STATUS_PAIRED + 256 * cause)

/-- The record in progress loses its PAIR mark and is written again, once the pair is dissolved (R350). -/
def State.unpairProg (s : State) : State :=
  match s.jnl.prog with
  | none => s
  | some r =>
    let a := r.bytes.take 9 ++ [BitVec.ofNat 8 (u r.bytes 9 1 % 2)] ++ sub r.bytes 0xA 4
    let b := sub r.bytes 0x10 0x2C
    let bytes := a ++ sub r.bytes 0xE 2 ++ b ++ toLe 4 (crc32c (a ++ b))
    let at_ := jnlAddr (r.seqno % jnlSlots)
    let s := { s with jnl := { s.jnl with prog := some { r with bytes := bytes } } }
    (s.nvSt at_ (bytes.take 0x0E)).nvSt (at_ + 0x10) (bytes.drop 0x10)

/-- The pair is dissolved on the ACTIVE: PAIRED clears, and the STANDBY's commands are no longer its concern (R350). -/
def State.unpair (s : State) (cause : Nat) : State :=
  let s := (s.pb TWN_STATUS_PAIRED false).inc TWN_COUNTS_DETACHES 1
  let due := s.jnl.due.filter (fun d => !s.ofPeer d.cmd)
  let s := { s with cmds := s.cmds.filter (·.own), jnl := { s.jnl with due := due } }
  s.unpairProg.twinEvent cause

/-- TW_DETACH is acknowledged, or the STANDBY is silent for twice LINK_TIMEOUT: PAIRED clears, unless it is a STANDBY that has left
already, and a LEAVE that asked for it completes (R350, R352). -/
def State.detachDone (s : State) (cause : Nat) : State :=
  let cmd := s.twin.detach.bind (·.2)
  let s := { s with twin := { s.twin with detach := none, backlog := [] } }
  let s := if s.role = 3 then s else s.unpair cause
  match cmd with
  | some id => s.finishF id 0
  | none => s

/-- The ACK `a` covers the frame with this SEQ (R44, R46). -/
def covers (a seq : BitVec 16) : Bool := decide ((a - seq).toNat < 32768)

/-- The event records that acknowledged frames carry leave their queue (R60). -/
def State.dropEvents (s : State) (l : List TxFrame) : State :=
  forEach l s (fun f t => match f.evWard with
    | some w => t.modWard w.val (fun x => { x with evq := x.evq.drop f.evCount, flight := x.flight - f.evCount })
    | none => t)

/-- ACK and credits of a received frame that is not corrupt: acknowledged frames leave the replay buffer, credits are
added, and waiting frames go out (R44 to R47). Those of a frame that is then discarded as a duplicate, out of order or without credit
count too (DESIGN CHOICE, log). -/
def State.rxHeader (s : State) (p : Nat) (f : Frame) : State :=
  let q := s.port p
  let gone := q.replay.takeWhile (fun x => covers f.ack x.seq)
  let s := s.modPort p (fun q => { q with
    replay := q.replay.drop gone.length, replays := if gone.isEmpty then q.replays else 0,
    peerHdr := q.peerHdr + f.crdHdr.toNat, peerData := q.peerData + f.crdData.toNat })
  let s := s.dropEvents gone
  let s := if p = 4 ∧ gone.any (fun x => decide (x.type = 0x59#8)) then
      match s.twin.detach with
      | some (cause, _) => s.detachDone cause
      | none => s
    else s
  s.pump p

/-- Count an error of a host port. -/
def State.portErr (s : State) (p : Nat) (f : FRef) : State := if p < 4 then s.inc f 1 else s

/-- Count a sequence error (R43, R45, R255): in LNK_PORT_ERR for a host port, beside the registers for the twin link and the
ring. -/
def State.seqErr (s : State) (p : Nat) : State :=
  if p < 4 then s.inc (LNK_PORT_ERR_SEQ_ERR p) 1 else s.modPort p (fun q => { q with seqErrs := q.seqErrs + 1 })

/-- One NAK; further NAKs wait for a delivery in order (R45). -/
def State.nakOnce (s : State) (p : Nat) : State :=
  if (s.port p).nakSent then s
  else (s.modPort p (fun q => { q with nakSent := true })).sendLink p 0xC0 []

/-- A data frame that is delivered: it takes SEQ and credits, whose return is owed. -/
def State.deliver (s : State) (p : Nat) (f : Frame) : State :=
  let n := dataUnits f.payload.length
  s.modPort p (fun q => { q with
    rxNext := q.rxNext + 1#16, nakSent := false, owedHdr := q.owedHdr + 1, owedData := q.owedData + n })

/-- A frame reaches the receiver of port `p` with a polarity that LN_CFG.RX_INV of a lane in use does not set right, so that its code
groups are in error (R232). -/
def State.rxInverted (s : State) (p : Nat) (inv : BitVec 4) : Bool :=
  (grpLanes p).zipIdx.any (fun x => nbit (s.grp p).rxMask x.2 && (nbit inv.toNat x.2 != s.gb (LN_CFG_RX_INV x.1)))

/-- A received frame is corrupt: broken, in wrong polarity, or its CRC is not that of its header and payload (R42). -/
def State.corrupted (s : State) (p : Nat) (f : Frame) : Bool :=
  f.broken || s.rxInverted p f.inv || decide (f.crc.toNat ≠ crc32c (frameBytes f.type f.status f.seq f.ack f.crdHdr f.crdData f.tag f.queue f.rsvd f.payload))

/-- Port `p` receives this type of frame: its group is UP, and its receiver is not between the loss of a lane and its narrowing, when everything that
comes is discarded (R242). -/
def State.portHears (s : State) (p : Nat) (type : Byte) : Bool := s.carries p type && (s.grp p).narrowing.isNone

/-- A received data frame: the resulting state, and whether the frame is delivered (R45, R47). A port that does not hear receives
nothing. -/
def State.rxData (s : State) (p : Nat) (f : Frame) : State × Bool :=
  let q := s.port p
  let n := dataUnits f.payload.length
  if !s.portHears p f.type then (s, false)
  else if s.corrupted p f then ((s.portErr p (LNK_PORT_ERR_CRC_ERR p)).nakOnce p, false)
  else
    let s := s.rxHeader p f
    if f.seq = q.rxNext then
      -- buffers free at delivery, so the peer's credit is what was advertised less what is owed back
      if q.crdHdr < q.owedHdr + 1 ∨ q.crdData < q.owedData + n then
        ((s.portErr p (LNK_PORT_ERR_CRD_VIOL p)).nakOnce p, false)
      else (s.deliver p f, true)
    else if covers (q.rxNext - 1#16) f.seq then (s.sendLink p 0xC1 [], false)
    else ((s.seqErr p).nakOnce p, false)

/-- A received data frame acts if it is delivered. -/
def State.onData (s : State) (p : Nat) (f : Frame) (act : State → State) : State :=
  match s.rxData p f with
  | (t, true) => act t
  | (t, false) => t

/-- A received link frame that is not corrupt (R44, R45). -/
def State.onLink (s : State) (p : Nat) (f : Frame) (act : State → State) : State :=
  if !s.portHears p f.type then s
  else if s.corrupted p f then (s.portErr p (LNK_PORT_ERR_CRC_ERR p)).nakOnce p
  else act (s.rxHeader p f)

end Sys2Proof.Machine
end

