-- ==== Sys2Proof/Machine/TimeBase.lean ====
section
/-! DEFINITION. REFCLK, the time base and its servo, host adjustments, and arming of time triggers (R251 to R265). -/

namespace Sys2Proof.Machine

/-! ### Time triggers (R263 to R266) -/

/-- STATE of trigger `t`: 0 IDLE, 1 ARMED, 2 DONE. -/
def State.trigState (s : State) (t : Nat) : Nat := s.g (TB_TRIG_STATUS_STATE t)

/-- The reading of firing `n`, in 2⁻⁶⁴ ns: TIME + n × PERIOD (R266). -/
def Trig.at_ (x : Trig) (n : Nat) : Nat := x.first + n * x.period * 2 ^ 64 / 2000

/-- NEXT shows the next firing. -/
def State.trigShow (s : State) (t : Nat) : State :=
  let v := (mkStamp ((s.trg t).at_ (s.trg t).n) 0).toNat
  (s.p (TB_TRIG_NEXT_LO_STAMP t) v).p (TB_TRIG_NEXT_HI_STAMP t) (v / 2 ^ 64)

/-- A trigger is armed: FIRED clears. -/
def State.trigArmT (s : State) (t first period count : Nat) (notify : Bool) : State :=
  let s := s.modTrig t (fun _ => ⟨first, period, count, 0, notify⟩)
  let s := ((s.p (TB_TRIG_STATUS_STATE t) 1).pb (TB_TRIG_STATUS_FIRED t) false).p (TB_TRIG_STATUS_END t) 0
  s.trigShow t

/-- An armed trigger ends: 1 COUNT, 2 DISARM, 3 STEP (R266). -/
def State.trigEnd (s : State) (t cause : Nat) : State :=
  let s := (s.p (TB_TRIG_STATUS_STATE t) 2).p (TB_TRIG_STATUS_END t) cause
  s.eventTo (s.resWard 4 t) 0x0905 (t + 256 * cause)

/-- A step disarms every armed trigger (R263). -/
def State.trigDisarmAll (s : State) : State :=
  forEach (List.range 32) s (fun t s => if s.trigState t = 1 then s.trigEnd t 3 else s)

/-- EVENT `num` of sequencer `k` with reading `x` (2⁻⁶⁴ ns) arms the triggers bound to it (R265). -/
def State.trigBoundArm (s : State) (k num x : Nat) : State :=
  forEach (List.range 32) s (fun t s =>
    if s.resBind 4 t = some k ∧ s.g (TB_TRIG_CFG_EVENT t) = num then
      if s.trigState t = 1 then s.inc (TB_TRIG_STATUS_BUSY t) 1
      else s.trigArmT t (x + s.g (TB_TRIG_DELAY_DELAY t) * 2 ^ 64 / 2000) (s.g (TB_TRIG_PERIOD_PERIOD t))
        (s.g (TB_TRIG_CFG_COUNT t)) (s.gb (TB_TRIG_CFG_NOTIFY t))
    else s)

/-- TRIG_ARM (R264). -/
def trigArm (c : Cmd) (s : State) : State :=
  let w := c.ward.val
  let t := u c.args 0 1
  let fl := u c.args 1 1
  let count := u c.args 4 4
  let time := BitVec.ofNat 96 (u c.args 8 12)
  let period := u c.args 0x14 8
  if !s.plan.sealed then s.refuse c 8
  else if fl % 2 = 1 then
    if !s.mayArm w 4 t then s.refuse c 6
    else if c.args.length ≠ 32 ∨ 31 < t ∨ fl ≠ 1 ∨ !zeros c.args 2 30 then s.refuse c 0x0D
    else
      let s := s.started c
      (if s.trigState t = 1 then s.trigEnd t 2 else s).finishF c.id 0
  else if !s.mayArm w 4 t ∨ s.trigState t = 1 then s.refuse c 6
  else if c.args.length ≠ 32 ∨ 31 < t ∨ 3 < fl ∨ !zeros c.args 2 2 ∨ time.toNat % 4 ≠ 0 ∨
      999999999 < nbits 47 18 time.toNat ∨ (period ≠ 0 ∧ period < 200000) ∨ !zeros c.args 0x1C 4 ∨
      (period = 0 ∧ count ≠ 1) ∨ stampFrac time * 2 ^ 48 < s.tb.fine + 2000 * 2 ^ 64 then s.refuse c 0x0D
  else ((s.started c).trigArmT t (stampFrac time * 2 ^ 48) period count (decide (fl / 2 = 1))).finishF c.id 0

/-- TRIG_ARM. -/
def execTrigArm (w : Fin 4) (q : Fin 8) (s : State) : Host.Outcome State Fault Refusal :=
  .next (s.runCmd w.val q.val 0x61 trigArm)

/-! ### Rate, slew and steps -/

/-- 100 ppm and 200 ppm in units of 2⁻⁴⁸ (R258, R262). -/
def ppm100 : Int := 28147497671
/-- The clamp of R258. -/
def rmax : Int := 56294995342

/-- Clamp to `±m`. -/
def clampI (m x : Int) : Int := max (-m) (min m x)

/-- TB_RATE shows base rate and slew together, TB_SLEW the outstanding slew (R262). -/
def State.tbShow (s : State) : State :=
  let sl : Int := if s.tb.slew = 0 then 0 else if 0 < s.tb.slew then ppm100 else -ppm100
  let s := s.pi TB_RATE_RATE (clampI rmax (s.tb.base + sl))
  let s := s.pi TB_SLEW_REMAIN (Int.tdiv s.tb.slew (2 ^ 48))
  s.pb TB_STATUS_SLEWING (decide (s.tb.slew ≠ 0))

/-- SCALE that belongs to the servo state, the role and the epoch (Table 12.3, R259). -/
def State.tbScale (s : State) : Nat :=
  if s.gb TB_STATUS_AON_CLOCK then 2
  else if s.g TB_CFG_ROLE = 2 then
    match s.g TB_STATUS_STATE with
    | 3 => 0
    | 4 => 1
    | _ => 2
  else if s.gb TB_STATUS_EPOCH then 0 else 2

/-- The servo state changes, with its event (R259). -/
def State.tbState (s : State) (st : Nat) : State :=
  let old := s.g TB_STATUS_STATE
  let s := s.p TB_STATUS_STATE st
  let s := s.p TB_STATUS_SCALE s.tbScale
  if old = st then s else s.eventAll 0x0901 (st + 16 * s.g TB_STATUS_SCALE)

/-- A step by `d` units of 2⁻¹⁶ ns: the epoch is set, triggers are disarmed, TB_STEP is sent (R254, R263). -/
def State.tbStep (s : State) (d : Int) : State :=
  let s := { s with tb := { s.tb with fine := ((s.tb.fine : Int) + d * 2 ^ 48).toNat } }
  let s := (s.pb TB_STATUS_EPOCH true).inc TB_STATUS_STEPS 1
  let s := s.p TB_STATUS_SCALE s.tbScale
  let ns := max (-(2 ^ 31)) (min (2 ^ 31 - 1) (d / 65536))
  s.trigDisarmAll.eventAll 0x0902 (unsgn 32 ns)

/-- TB_CFG.ROLE has been written (Table 12.3, R259): SLAVE starts FREE, MASTER shows MASTER, NONE stays FREE. -/
def State.tbRole (s : State) : State :=
  let s := { s with tb := { s.tb with sync := none, req := none, reqDue := none, resp := none, waiting := false, good := 0, missed := 0 } }
  s.tbState (if s.g TB_CFG_ROLE = 1 then 5 else 0)

/-- What one increment takes of the outstanding slew, in 2⁻⁶⁴ ns: at most 100 ppm, base and slew together within 200 ppm, and
exactly the remainder at the end (R262). -/
def State.slewPart (s : State) : Int :=
  max (20480 * max (-ppm100) (-rmax - s.tb.base)) (min (20480 * min ppm100 (rmax - s.tb.base)) s.tb.slew)

/-- In each 312.5 ps period the time base adds its increment, with the slew's part (R253, R262). -/
def execTbIncrement (s : State) : Host.Outcome State Fault Refusal :=
  .next (if s.gb TB_STATUS_AON_CLOCK ∨ s.pwr.gatedAll ∨ s.pwr.stopped.contains 131 ∨ s.pwr.inReset.isSome then s
    else
      let part : Int := s.slewPart
      let inc : Int := 20480 * (2 ^ 48 + s.tb.base) + part
      let fine := ((s.tb.fine : Int) + inc).toNat
      let s := { s with tb := { s.tb with tm := s.tb.tm + 625, fine := fine, slew := s.tb.slew - part } }
      if part = 0 then s else s.tbShow)

/-- A read of TB_TIME_LO latches the whole reading (R253). -/
def State.tbLatch (s : State) : State :=
  let v := s.now.toNat
  let s := { s with tb := { s.tb with latched := v } }
  (s.p TB_TIME_LO_STAMP v).p TB_TIME_HI_STAMP (v / 2 ^ 64)

/-- TB_CTRL.RESEED: a step permission; a slave's servo enters ACQUIRE (R258). -/
def State.tbReseed (s : State) : State :=
  let s := { s.pb TB_CTRL_RESEED true with tb := { s.tb with perm := true } }
  if s.g TB_CFG_ROLE = 2 then s.tbState 1 else s

/-! ### REFCLK (R251, R252) -/

/-- REFCLK is lost: fault, count, event; the time base goes on from the oscillator (R252). -/
def State.refclkLost (s : State) : State :=
  let s := (s.inc TB_REFCLK_LOSSES 1).eventAll 0x0907 (s.freeVal % 2 ^ 32)
  let s := (s.useFree.pb TB_STATUS_REFCLK false).pb TB_STATUS_AON_CLOCK true
  (s.p TB_STATUS_SCALE 2).assertFlt 320

/-- A window of 3,000 oscillator cycles ends with this count (R251). The count also measures the oscillator: outside 28.5
to 31.5 MHz raises AON_OSC (Table 17.7). -/
def execRefclkWindow (count : Nat) (s : State) : Host.Outcome State Fault Refusal :=
  .next (
    let ok := decide (9000 ≤ count) && decide (count ≤ 11000)
    let s := s.p TB_REFCLK_COUNT (min count 65535)
    if ok then
      let s := { s with tb := { s.tb with goodWin := s.tb.goodWin + 1 } }
      let s := if 2 ≤ s.tb.goodWin ∧ !s.gb TB_STATUS_AON_CLOCK then s.pb TB_STATUS_REFCLK true else s
      if s.gb TB_STATUS_REFCLK ∧ (count * 63 < 600000 ∨ 600000 < count * 57) then s.assertFlt 393 else s
    else
      let s := { s with tb := { s.tb with goodWin := 0 } }
      if s.gb TB_STATUS_REFCLK then s.refclkLost else s)

/-- A gap longer than 8 oscillator cycles between REFCLK edges (R251). -/
def execRefclkMissingEdge (s : State) : Host.Outcome State Fault Refusal :=
  .next (if s.gb TB_STATUS_REFCLK then { s with tb := { s.tb with goodWin := 0 } }.refclkLost else s)

/-! ### Messages (R255 to R257; layout of IEEE 1588-2019) -/

/-- A message: type, correctionField, flagField, port 1 (G5) or 2 (G6), sequenceId, body, padded for its frame. -/
def State.ptpMsg (s : State) (ty corr flags port seq : Nat) (body : List Byte) : List Byte :=
  pad8 (toLe 1 ty ++ [2#8] ++ toBe 2 (34 + body.length) ++ toLe 1 (s.g TB_CFG_DOMAIN) ++ [0#8] ++ toBe 2 flags ++
    toBe 8 corr ++ List.replicate 4 0#8 ++ List.replicate 6 0#8 ++ toBe 2 (s.g TB_CFG_NODE_ID) ++ toBe 2 port ++
    toBe 2 seq ++ [0#8, 0#8] ++ body)

/-- The 10-byte timestamp of a reading in 2⁻¹⁶ ns: seconds and nanoseconds. -/
def ptpTime (x : Nat) : List Byte := toBe 6 (x / 65536 / 1000000000) ++ toBe 4 (x / 65536 % 1000000000)

/-- The reading a message carries: timestamp at byte 34, correctionField ns × 2¹⁶. -/
def ptpReading (b : List Byte) : Nat := (beNat (sub b 34 6) * 1000000000 + beNat (sub b 40 4)) * 65536 + beNat (sub b 8 8)

/-- sequenceId of a message. -/
def ptpSeq (b : List Byte) : Nat := beNat (sub b 30 2)

/-- The message is one the device uses: type, version 2, its domain (R256). -/
def State.ptpOk (s : State) (ty : Nat) (b : List Byte) : Bool :=
  decide (u b 0 1 % 16 = ty) && decide (u b 1 1 % 16 = 2) && decide (u b 4 1 = s.g TB_CFG_DOMAIN)

/-- A message is ignored (R256). -/
def State.ptpIgnore (s : State) : State := s.inc TB_COUNTS_IGNORED 1

/-- The reading at instant `t`, in 2⁻¹⁶ ns. -/
def State.frac16 (s : State) (t : Nat) : Nat := s.fineAt t / 2 ^ 48

/-- A received PTP frame is a link frame of G5 or, downstream, G6 (R255). -/
def State.onPtp (s : State) (down : Bool) (f : Frame) (act : State → State) : State :=
  s.onLink (if down then 6 else 5) f act

/-- The servo takes a measurement (R258). -/
def State.servo (s : State) (offset : Int) : State :=
  let s := (s.pi TB_OFFSET_OFFSET offset).inc TB_COUNTS_SYNCS 1
  let s := { s with tb := { s.tb with valid := true, missed := 0, waiting := false } }
  let st := s.g TB_STATUS_STATE
  if st = 1 ∧ s.tb.perm then
    let s := { s.pb TB_CTRL_RESEED false with tb := { s.tb with perm := false, good := 0 } }
    (s.tbStep (-offset)).tbState 2
  else
    let kp : Int := s.g TB_SERVO_KP
    let ki : Int := s.g TB_SERVO_KI
    let p := -((offset * kp) / 65536)
    let i := clampI rmax (s.tb.integ - (offset * ki) / 65536)
    let thr := s.g TB_LIMITS_LOCK_THRESH * 65536
    let mag := offset.natAbs * 1000
    let s := { s with tb := { s.tb with integ := i, base := clampI rmax (p + i) } }.tbShow
    if st = 2 then
      if mag ≤ thr then
        let n := s.tb.good + 1
        let s := { s with tb := { s.tb with good := n } }
        if s.g TB_LIMITS_LOCK_COUNT ≤ n then s.tbState 3 else s
      else { s with tb := { s.tb with good := 0 } }
    else if st = 3 then
      if 4 * thr < mag then { s with tb := { s.tb with good := 0 } }.tbState 2 else s
    else { s with tb := { s.tb with good := 0 } }.tbState 2

/-- The offset of the last Sync and Follow_Up with path `path` (R257). -/
def State.measure (s : State) (path : Int) : State :=
  match s.tb.last with
  | none => s
  | some (_, t1, t2) => s.servo ((t2 : Int) - t1 - path - s.gi TB_ASYM_ASYM)

/-- The exchange of the last measurement is complete: its path is taken (R257). -/
def State.takePath (s : State) : State :=
  match s.tb.last, s.tb.resp with
  | some (q, t1, t2), some (q', t3, t4) =>
    if q = q' then
      let path := (((t2 : Int) - t1) + ((t4 : Int) - t3)) / 2
      { s with tb := { s.tb with resp := none, path := some path } }.pi TB_PATH_PATH path
    else s
  | _, _ => s

/-- G5 has changed its width: no path is kept, and an exchange that began before gives none (R243, R257). -/
def State.dropPath (s : State) : State :=
  { s with tb := { s.tb with path := none, resp := none, req := s.tb.req.map (fun r => { r with stale := true }) } }

/-- The sync interval expires: Sync and Follow_Up go downstream; a slave judges the interval that ended (R256, R259). -/
def execSyncInterval (at_ : Nat) (s : State) : Host.Outcome State Fault Refusal :=
  .next (if !s.ticks then s else if s.g TB_CFG_ROLE = 0 then s
    else
      let q := s.tb.seqSync
      let t1 := s.frac16 at_
      let s := s.sendLink 6 0x40 (s.ptpMsg 0 0 0x0200 2 q (List.replicate 10 0#8))
      let s := s.sendLink 6 0x40 (s.ptpMsg 8 (t1 % 65536) 0 2 q (ptpTime t1))
      let s := { s with tb := { s.tb with seqSync := (q + 1) % 65536 } }
      if s.g TB_CFG_ROLE ≠ 2 then s
      else if s.tb.valid then { s with tb := { s.tb with valid := false, missed := 0 } }
      else { s.inc TB_COUNTS_MISSED 1 with tb := { s.tb with missed := s.tb.missed + 1 } })

/-- A Sync arrives; its first bit passed the ball at instant `at_` (R257). -/
def execSync (down : Bool) (f : Frame) (at_ : Nat) (s : State) : Host.Outcome State Fault Refusal :=
  .next (s.onPtp down f (fun s =>
    if s.g TB_CFG_ROLE ≠ 2 ∨ down ∨ !s.ptpOk 0 f.payload then s.ptpIgnore
    else
      let s := { s with tb := { s.tb with sync := some (ptpSeq f.payload, s.frac16 at_), reqDue := some (ptpSeq f.payload) } }
      if s.g TB_STATUS_STATE = 0 then s.tbState 1 else s))

/-- A Follow_Up arrives and, with its Sync, gives a measurement (R257, R258). -/
def execFollowUp (down : Bool) (f : Frame) (s : State) : Host.Outcome State Fault Refusal :=
  .next (s.onPtp down f (fun s =>
    match s.tb.sync with
    | some (q, t2) =>
      if s.g TB_CFG_ROLE ≠ 2 ∨ down ∨ !s.ptpOk 8 f.payload ∨ q ≠ ptpSeq f.payload then s.ptpIgnore
      else
        let s := { s with tb := { s.tb with sync := none, last := some (q, ptpReading f.payload, t2) } }.takePath
        match s.tb.path with
        | some p => s.measure p
        | none => { s with tb := { s.tb with waiting := true } }
    | none => s.ptpIgnore))

/-- Half an interval after a Sync, the slave sends Delay_Req upstream (R256). -/
def execDelayReqSend (at_ : Nat) (s : State) : Host.Outcome State Fault Refusal :=
  .next (if !s.ticks then s else if s.g TB_CFG_ROLE ≠ 2 then s
    else match s.tb.reqDue with
    | none => s
    | some n =>
      let q := s.tb.seqReq
      let s := s.sendLink 5 0x40 (s.ptpMsg 1 0 0 1 q (List.replicate 10 0#8))
      { s with tb := { s.tb with reqDue := none, req := some ⟨q, s.frac16 at_, n, false⟩, seqReq := (q + 1) % 65536 } })

/-- A Delay_Req from downstream is answered with its receive timestamp (R256, R257, R259). -/
def execDelayReq (down : Bool) (f : Frame) (at_ : Nat) (s : State) : Host.Outcome State Fault Refusal :=
  .next (s.onPtp down f (fun s =>
    if s.g TB_CFG_ROLE = 0 ∨ !down ∨ !s.ptpOk 1 f.payload then s.ptpIgnore
    else
      let t4 := s.frac16 at_
      s.sendLink 6 0x40 (s.ptpMsg 9 (t4 % 65536) 0 2 (ptpSeq f.payload) (ptpTime t4 ++ sub f.payload 20 10))))

/-- A Delay_Resp gives t4, hence the path with the t1 and t2 of the same exchange; a measurement that waited for a path is taken
(R257). -/
def execDelayResp (down : Bool) (f : Frame) (s : State) : Host.Outcome State Fault Refusal :=
  .next (s.onPtp down f (fun s =>
    match s.tb.req with
    | some r =>
      if s.g TB_CFG_ROLE ≠ 2 ∨ down ∨ !s.ptpOk 9 f.payload ∨ r.seq ≠ ptpSeq f.payload then s.ptpIgnore
      else
        let resp := if r.stale then s.tb.resp else some (r.sync, r.t3, ptpReading f.payload)
        let s := { s with tb := { s.tb with req := none, resp := resp } }.takePath
        match s.tb.path with
        | some p => if s.tb.waiting then s.measure p else s
        | none => s
    | none => s.ptpIgnore))

/-- HOLD_SYNCS intervals without a valid measurement: the servo enters HOLDOVER (R259). -/
def execHoldover (s : State) : Host.Outcome State Fault Refusal :=
  .next (if !s.ticks then s else if s.g TB_CFG_ROLE = 2 ∧ (s.g TB_STATUS_STATE = 2 ∨ s.g TB_STATUS_STATE = 3) ∧
      s.g TB_LIMITS_HOLD_SYNCS ≤ s.tb.missed then (s.tbState 4).assertFlt 321 else s)

/-! ### Host adjustments (R261, R262) -/

/-- A jump by `d` units of 2⁻¹⁶ ns: a step before the epoch, a slew after it (R262). -/
def tbJump (c : Cmd) (d : Int) (s : State) : State :=
  if !s.gb TB_STATUS_EPOCH then ((s.started c).tbStep d).finishF c.id 0
  else
    let sum := d * 2 ^ 48 + s.tb.slew
    let lim := s.g TB_LIMITS_JUMP_LIMIT
    if lim = 0 ∨ lim * 2 ^ 64 < sum.natAbs then
      let s := s.pb TB_STATUS_JUMP_REFUSED true
      (s.eventAll 0x0903 (min (2 ^ 32 - 1) (sum.natAbs / 2 ^ 64 / 1000))).refuse c 0x0D
    else ({ s.started c with tb := { (s.started c).tb with slew := sum } }.tbShow).finishF c.id 0

/-- TB_ADJUST (R261). -/
def tbAdjust (c : Cmd) (s : State) : State :=
  let mode := u c.args 0 1
  let v := sgn 64 (u c.args 8 8)
  let time := BitVec.ofNat 96 (u c.args 8 12)
  if !s.plan.sealed then s.refuse c 8
  else if c.ward.val ≠ 0 then s.refuse c 3
  else if s.g TB_CFG_ROLE = 2 then (s.pb TB_STATUS_ADJ_REFUSED true).refuse c 6
  else if c.args.length ≠ 24 ∨ 2 < mode ∨ !zeros c.args 1 7 ∨ !zeros c.args 0x14 4 then s.refuse c 0x0D
  else if mode = 0 then
    if time.toNat % 4 ≠ 0 ∨ 999999999 < nbits 47 18 time.toNat then s.refuse c 0x0D
    else tbJump c ((stampFrac time : Int) - (s.tb.fine / 2 ^ 48 : Nat)) s
  else if !zeros c.args 0x10 4 then s.refuse c 0x0D
  else if mode = 1 then tbJump c v s
  else if v < -ppm100 ∨ ppm100 < v then s.refuse c 0x0D
  else ({ s.started c with tb := { (s.started c).tb with base := v } }.tbShow).finishF c.id 0

/-- TB_ADJUST. -/
def execTbAdjust (w : Fin 4) (q : Fin 8) (s : State) : Host.Outcome State Fault Refusal :=
  .next (s.runCmd w.val q.val 0x60 tbAdjust)

end Sys2Proof.Machine
end

