-- ==== Sys2Proof/Machine/Squares.lean ====
section
/-! DEFINITION. Squares: arrival, T_rel, hold beats, release and checkpoints (R79 to R85, R134), on one device and on the sync
ring (R84, R267, R268). -/

namespace Sys2Proof.Machine

/-! ### Issuing beat records (R65, R76) -/

/-- Sequencer `k` owns Channel Blocks that are not stopped. -/
def State.liveCbs (s : State) (k : Nat) : List Nat := (s.seqCbs k).filter (fun c => decide (s.g (CH_CB_STATUS_STATE c) ≠ 3))

/-- The beat FIFO of sequencer `k` has room (R76). -/
def State.fifoRoom (s : State) (k : Nat) : Bool := decide ((s.seq k).fifo.length < 64)

/-- An EVENT acts: it arms bound triggers, is a source of the TIM units and of the acquisition engine (R74, R265, R272, R284).
`t` is its instant. -/
def State.seqEvent (s : State) (k num t : Nat) : State :=
  ((s.trigBoundArm k num (s.fineAt t)).timSource 4 k num t).acqEvent 6 k num (s.stampAt t)

/-- A record of sequencer `k` enters its beat FIFO with start `start` and length `len`. A sequencer without Channel Blocks
keeps none, and its EVENT acts at the beat's start all the same (R65). -/
def State.issue (s : State) (k : Nat) (r : BeatRec) (start len : Nat) : State :=
  let r := { s.timed k r start len (s.seq k).lastD with beat := s.g (PS_BEATS_BEATS k) }
  let s := s.p (PS_BEATS_BEATS k) (r.beat + 1)
  let keep := !(s.liveCbs k).isEmpty
  let s := s.modSeq k (fun x => { x with
    fifo := if keep then x.fifo ++ [r] else x.fifo, inFlight := x.inFlight ++ [r],
    tEnd := some (start + len), lastD := r.deliv, holdRec := if r.hold then x.holdRec else some r })
  match r.event, keep with
  | some e, false => s.seqEvent k e start
  | _, _ => s

/-- The hold record of a sequencer (R67): timing set and pin words of its last record, nothing compared, no event. -/
def Seq.holdBeat (x : Seq) : Option BeatRec := x.holdRec.map (fun r => { r with cmp := 0, event := none, hold := true })

/-- A hold beat of length `len` (none: the period) is issued. -/
def State.issueHold (s : State) (k : Nat) (len : Option Nat) : State :=
  match (s.seq k).holdBeat, (s.seq k).tEnd with
  | some r, some t => s.issue k r t (len.getD (effPeriod r.period))
  | _, _ => s

/-! ### Fixing T_rel (R80 to R83) -/

/-- Member `k` cannot meet T_rel: it stops with SQ_MISS, and the others release (R83). -/
def State.sqMiss (s : State) (k q : Nat) : State :=
  let s := s.inc (PS_SQ_COUNT_MISSES q) 1
  (s.seqFault k 5 (s.seq k).arch.pc).sqRemove q k

/-- The lengthened hold beat is the last of `n`: hold records issued beyond it are taken back (R81). -/
def State.trimHolds (s : State) (k n rel : Nat) (w : Wait) : State :=
  let e := w.holds - n
  let stretch (l : List BeatRec) : List BeatRec :=
    let l := l.take (l.length - e)
    match l.getLast? with
    | some r => l.dropLast ++ [{ r with len := rel - r.start, deliv := max (rel + 48000) r.deliv }]
    | none => l
  let s := s.p (PS_BEATS_BEATS k) (s.g (PS_BEATS_BEATS k) - e)
  s.modSeq k (fun x =>
    let fl := stretch x.inFlight
    let d := (fl.getLast?.map (·.deliv)).getD x.lastD
    { x with fifo := stretch x.fifo, inFlight := fl, tEnd := some rel, lastD := d,
             wait := some { w with holds := n, rel := some rel } })

/-- The start S_{b−2} that gives the take instant of the n-th hold beat b of a wait in BEAT mode (R141): the first hold beat
follows the beat of the WAIT, which ends at the arrival. -/
def Wait.takeFrom (w : Wait) (n : Nat) : Nat :=
  if n ≤ 1 then w.prev else if n = 2 then w.arr - w.period else w.arr + (n - 3) * w.period

/-- T_rel of Square `q`, the timing-master instant `rel`, was fixed at instant `a` for sequencer `k` that waits there (R140). The beat
that R81 lengthens, the n-th hold beat, is taken at S_{b−2} − 45 ns; if that had passed, the member misses, and so it does if there is
no whole hold beat to lengthen (R83). -/
def State.waitFix (s : State) (k q rel a : Nat) : State :=
  match (s.seq k).wait with
  | none => s
  | some w =>
    if w.sq ≠ q then s
    else if w.begin_.isSome ∨ !(s.seq k).arch.beatMode ∨ rel = w.arr then
      s.modSeq k (fun x => { x with wait := some { w with rel := some rel } })
    else
      let n := (rel - w.arr) / w.period
      if n = 0 ∨ w.takeFrom n ≤ a + 90000 then s.sqMiss k q
      else if w.holds < n then s.modSeq k (fun x => { x with wait := some { w with rel := some rel } })
      else if !(s.liveCbs k).isEmpty ∧ (s.seq k).fifo.length ≤ w.holds - n then s.sqMiss k q
      else s.trimHolds k n rel w

/-- T_rel of Square `q` is fixed at reading `a`; both become timing-master instants (R140, R263). -/
def State.sqFix (s : State) (q trel a : Nat) : State :=
  let rel := s.instantOf trel
  let at_ := s.instantOf a
  let s := (s.modSq q (fun x => { x with trel := some trel, fixAt := at_, relAt := rel })).sqShow q
  forEach (List.range 32) s (fun k s => s.waitFix k q rel at_)

/-- Every local member of Square `q` has arrived in this round. -/
def State.sqLocal (s : State) (q : Nat) : Bool :=
  let x := s.sq q
  let seqs := bitsOf 32 (s.g (PS_SQ_ENROL_SEQ q))
  let vs := bitsOf 16 (s.g (PS_SQ_ENROL_VS q))
  let tr := s.g (PS_SQ_TRIG_TRIG q)
  seqs.all x.has && vs.all (fun v => x.has (32 + v)) && (decide (tr = 0) || x.has 48) &&
    (!seqs.isEmpty || !vs.isEmpty || decide (tr ≠ 0))

/-- The number of the current round: releases since the seal (R267). -/
def State.sqRound (s : State) (q : Nat) : Nat := s.g (PS_SQ_COUNT_RELEASES q)

/-! ### The ring (R84, R267, R268) -/

/-- T_REL for global Square `q` has come from the ring: the ring has arrived. -/
def State.ringRelease (s : State) (q trel : Nat) : State :=
  if s.gb (PS_SQ_ENROL_GLOBAL q) ∧ (s.sq q).trel = none then
    (s.modSq q (fun x => { x with arr := x.arr ++ [(49, s.tb.fine)] })).sqFix q trel s.tb.fine
  else s

/-- When every member of the set of Square `q` and the master itself, if enrolled, has arrived for round `r`, the master fixes
T_rel and sends SQ_RELEASE (R84, R268). A set without members releases nothing. -/
def State.ringJudge (s : State) (q r : Nat) : State :=
  let own := s.g TB_CFG_NODE_ID
  let got (n : Nat) : Bool := s.tb.arr.contains (q, r, n)
  let members := (s.tb.joins.filter (fun p => nbit p.2 q)).map (·.1) ++ (if s.gb (PS_SQ_ENROL_GLOBAL q) then [own] else [])
  if !members.isEmpty && members.all got then
    let trel := gridAfter (s.tb.fine + s.g PS_SQ_CTRL_GLOBAL_LEAD * 2 ^ 64)
    let s := { s with tb := { s.tb with arr := s.tb.arr.filter (fun p => !(decide (p.1 = q) && decide (p.2.1 = r))) } }
    let s := s.reply 6 0x43 0 0#16 0
      (toLe 1 q ++ List.replicate 3 0#8 ++ toLe 4 r ++ toLe 12 (mkStamp trel (s.g TB_STATUS_SCALE)).toNat ++ List.replicate 4 0#8)
    s.ringRelease q trel
  else s

/-- The master counts the arrival of `node` for round `r` of Square `q` (R268). -/
def State.ringArrive (s : State) (q r node : Nat) : State :=
  { s with tb := { s.tb with arr := s.tb.arr ++ [(q, r, node)] } }.ringJudge q r

/-- The local arrivals of a global Square are complete: every device reports them on the ring, the master counts its own at once and
consumes its report when it comes round (R84, R267). -/
def State.ringReport (s : State) (q : Nat) : State :=
  if (s.sq q).reported then s
  else
    let s := (s.modSq q (fun x => { x with reported := true })).reply 6 0x42 0 0#16 0
      (toLe 2 (s.g TB_CFG_NODE_ID) ++ toLe 1 q ++ [0#8] ++ toLe 4 (s.sqRound q) ++ List.replicate 8 0#8)
    if s.g TB_CFG_ROLE = 1 then s.ringArrive q (s.sqRound q) (s.g TB_CFG_NODE_ID) else s

/-! ### Arrival (R79, R80) -/

/-- All local members have arrived: T_rel is fixed, or the arrival is reported on the ring. -/
def State.sqTry (s : State) (q : Nat) : State :=
  if (s.sq q).trel.isSome ∨ !s.sqLocal q then s
  else if s.gb (PS_SQ_ENROL_GLOBAL q) then s.ringReport q
  else
    let latest := (s.sq q).arr.foldl (fun m p => max m p.2) 0
    s.sqFix q (gridAfter (latest + s.g PS_SQ_CTRL_LOCAL_LEAD * 2 ^ 64)) latest

/-- Member `m` arrives at Square `q` at reading `a`; a second arrival in one round has no effect (R79). One that comes when T_rel is
fixed moves it no more. -/
def State.sqArrive (s : State) (q m a : Nat) : State :=
  if (s.sq q).has m then s
  else ((s.modSq q (fun x => { x with arr := x.arr ++ [(m, a)] })).sqShow q).sqTry q

/-- A time trigger fires: a Square whose triggers have all fired counts them as arrived (R79, R266). -/
def State.sqTrigger (s : State) (t a : Nat) : State :=
  forEach (List.range 64) s (fun q s =>
    let m := s.g (PS_SQ_TRIG_TRIG q)
    if nbit m t ∧ (s.sq q).trel = none then
      let s := s.modSq q (fun x => { x with fired := x.fired ||| (1 <<< t) })
      if (s.sq q).fired &&& m = m then s.sqArrive q 48 a else s
    else s)

/-! ### Checkpoints (R85, R134) -/

/-- The R165 counts of the sites of sequencer `k`. -/
def State.siteSnaps (s : State) (k : Nat) : List SiteSnap :=
  (s.seqSites k).map (fun t => ⟨t, s.rd (CAP_SITE_STATUS t), s.rd (CAP_SITE_FAILS t), s.rd (CAP_SITE_FIRST t)⟩)

/-- Sequencer `k` takes a checkpoint at Square `sq` (none: the entry checkpoint). -/
def State.takeCkpt (s : State) (k : Nat) (sq : Option Nat) (trel : Nat) : State :=
  let c : Ckpt :=
    ⟨(s.seq k).shown, sq, (sq.map s.sqRound).getD 0, trel, s.g (PS_BEATS_BEATS k), s.siteSnaps k⟩
  let s := s.modSeq k (fun x => { x with ckpt := some c })
  let s := ((s.p (PS_CKPT_SQ k) (sq.getD 0)).pb (PS_CKPT_VALID k) true).pb (PS_CKPT_AT_ENTRY k) sq.isNone
  s.p (PS_CKPT_BEAT k) c.beats

/-- Engine `v` takes a checkpoint (R134). -/
def State.takeVsCkpt (s : State) (v : Nat) (sq : Option Nat) : State :=
  let x := s.vse v
  let c : VsCkpt := match sq with
    | some _ => ⟨s.g (VS_POS_OFFSET v), x.loops, x.cur, x.scan, x.queue.length, sq⟩
    -- QUEUED of the entry checkpoint is 0, whatever the queue holds (DESIGN CHOICE, log)
    | none => ⟨0, [], [], none, 0, none⟩
  let s := s.modVs v (fun x => { x with ckpt := some c })
  let s := ((s.p (VS_CKPT_OFFSET v) c.off).pb (VS_CKPT_VALID v) true).pb (VS_CKPT_AT_ENTRY v) sq.isNone
  let s := (s.p (VS_CKPT_SQ v) (sq.getD 0)).p (VS_CKPT_QUEUED v) c.queued
  forEach (List.range 4) s (fun i s =>
    let p := c.loops.reverse.getD i (0, 0)
    (s.p (VS_CKPT_LOOP_START v i) p.1).p (VS_CKPT_LOOP_REMAIN v i) p.2)

/-- The images of the latest checkpoints of the given sequencers and engines. -/
def State.ckptMembers (s : State) (seqs vs : List Nat) : List (Nat × List Nat) :=
  let a := seqs.filterMap (fun k => (s.seq k).ckpt.map (fun c =>
    (k, ckptImage (s.g (PS_BURST_JSEQ k)) (((s.seq k).burst.map (·.restartable)).getD false)
      (((s.seq k).burst.map (·.dirty)).getD false) c)))
  let b := vs.filterMap (fun v => (s.vse v).ckpt.map (fun _ => (32 + v, s.vsImg v)))
  a ++ b

/-- The checkpoints of a round go to the STANDBY (R348, R349). -/
def State.mirrorCkpts (s : State) (sq round : Nat) (seqs vs : List Nat) : State :=
  if s.paired then forEach (ckptFrames sq round (s.ckptMembers seqs vs)) s (fun b s => s.mirror 0x57 b) else s

/-! ### The Channel Blocks as the beats of a burst begin -/

/-- The Channel Blocks of sequencer `k` count the beats of a new burst and announce afresh (Table 7.8, R155). -/
def State.cbClear (s : State) (k : Nat) : State :=
  forEach (s.seqCbs k) s (fun c s =>
    ((s.modCb c (fun x => { x with pminSent := false, violSent := 0 })).pb (CH_CB_STATUS_PERIOD_MIN c) false).p (CH_CB_BEATS_BEATS c) 0)

/-- The Channel Blocks of sequencer `k` are ready for the records of a burst from beat `b` on; results of earlier bursts that were
never delivered are gone. -/
def State.cbFresh (s : State) (k b : Nat) : State :=
  forEach (s.seqCbs k) s (fun c s =>
    forEach (cbChans c) (s.modCb c (fun x => { x with taken := [], cur := none, nextTake := b, started := false })) (fun n s =>
      s.modCh n (fun x => { x with results := [] })))

/-! ### Interrupts (R87 to R89) -/

/-- A routine boundary before the next microword of sequencer `k` (R86). What a SETUP routine that ends without a commit point has
written is committed here (DESIGN CHOICE, log). -/
def State.boundary (s : State) (k : Nat) : State :=
  s.modSeq k (fun x => { x with entry := x.arch.pc, shadow := if x.arch.beatMode then none else some x.arch })

/-- The sequencer pauses (R89). -/
def State.seqPause (s : State) (k : Nat) : State :=
  let s := s.modSeq k (fun x => { x with st := .paused, pendPause := false, step := false })
  s.eventTo (s.seqWard k) 0x0101 (s.seq k).arch.pc

/-- STOP or PAUSE is taken: STOP ends the burst and discards a PAUSE (R88). -/
def State.takeIntr (s : State) (k : Nat) : State :=
  let x := s.seq k
  if x.pendStop then s.seqEnd k 2 x.arch.pc false
  else if x.pendPause then s.seqPause k
  else s

/-- The sequencer stops waiting; its arrival is withdrawn while T_rel is not fixed. A BEGIN that waited issues its beat when
the burst goes on (DEDUCED, log). -/
def State.leaveWait (s : State) (k : Nat) : State :=
  match (s.seq k).wait with
  | none => s
  | some w =>
    let s := s.modSeq k (fun x => { x with wait := none, st := if x.arch.beatMode then .beat else .setup })
    let s := if w.rel.isNone then s.sqRemove w.sq k else s
    match w.begin_ with
    | some r => if (s.seq k).pendStop then s else s.issue k r s.firstStart (effPeriod r.period)
    | none => s

/-- Before its first commit point a routine is discarded: its state and PC are those of its entry (R87). -/
def State.rollBack (s : State) (k : Nat) : State :=
  s.modSeq k (fun x => match x.shadow with
    | some a => { x with arch := { a with pc := x.entry }, shadow := some { a with pc := x.entry } }
    | none => x)

/-- An interrupt has become effective: before the first commit point the routine is discarded and it is taken at once; in
WAIT it is taken while T_rel is not fixed; in PAUSED a STOP ends the burst, from the entry of a routine that has not committed;
otherwise it waits for a window (R87, R89). -/
def State.intr (s : State) (k : Nat) : State :=
  let x := s.seq k
  match x.st with
  | .setup => if x.shadow.isSome then (s.rollBack k).takeIntr k else s
  | .wait => if (x.wait.bind (·.rel)).isNone then (s.leaveWait k).takeIntr k else s
  | .paused => if x.pendStop then (s.rollBack k).takeIntr k else s.modSeq k (fun x => { x with pendPause := false })
  | _ => s

/-- STOP is requested; ignored unless a burst runs (Table 4.13). -/
def State.reqStop (s : State) (k : Nat) : State :=
  if s.bursting k then (s.modSeq k (fun x => { x with pendStop := true })).intr k else s

/-- PAUSE is requested. -/
def State.reqPause (s : State) (k : Nat) : State :=
  if s.bursting k then (s.modSeq k (fun x => { x with pendPause := true })).intr k else s

/-- KILL: the sequencer stops at once (R90). -/
def State.reqKill (s : State) (k : Nat) : State := s.seqHalt k 3

/-! ### Release (R80, R81, R85) -/

/-- Sequencer `k`, released from Square `q`, goes on: a waiting BEGIN's beat starts at T_rel; the checkpoint is taken; an
interrupt that waited is taken before the next microword (R81, R85, R87). A member that does not wait has a checkpoint of its state
as it stands; while its SETUP routine has not committed that is the routine's entry state, and no boundary is set then (DESIGN
CHOICE, log). -/
def State.releaseSeq (s : State) (k q trel rel : Nat) : State :=
  let w := (s.seq k).wait.filter (fun w => decide (w.sq = q))
  let s := s.modSeq k (fun x => { x with sqRel := x.sqRel ||| (1 <<< q) })
  match w with
  | none =>
    let s := s.takeCkpt k (some q) trel
    if (s.seq k).shadow.isSome ∨ !s.bursting k then s else s.boundary k
  | some w =>
    let s := s.modSeq k (fun x => { x with wait := none, st := if x.arch.beatMode then .beat else .setup })
    let s := match w.begin_ with
      | some r => s.issue k r (w.rel.getD rel) (effPeriod r.period)
      | none => s
    let s := (s.takeCkpt k (some q) trel).boundary k
    if (s.seq k).step ∧ !(s.seq k).pendStop then s.seqPause k else s.takeIntr k

/-- Engine `v` waits at Square `q`. -/
def State.vsAt (s : State) (v q : Nat) : Bool := decide (s.g (VS_STATUS_STATE v) = 4) && decide (s.g (VS_STATUS_SQ v) = q)

/-- Engine `v`, released from its Square, decodes on (R133). -/
def State.releaseVs (s : State) (v q : Nat) : State :=
  if s.vsAt v q then
    s.p (VS_STATUS_STATE v) (if s.g (VS_COUNT_SETS v) ≠ 0 then 3 else if s.gb (VS_STATUS_PRIMED v) then 2 else 1)
  else s

/-- Every waiting BEAT-mode member has issued the hold beats that end at T_rel. -/
def State.holdsOut (s : State) (q : Nat) : Bool :=
  (List.range 32).all (fun k => match (s.seq k).wait with
    | some w => decide (w.sq ≠ q) || w.begin_.isSome || !(s.seq k).arch.beatMode || decide ((s.seq k).tEnd = w.rel)
    | none => true)

/-- The timing-master instant of T_rel is reached: the Square releases its members, each takes a checkpoint, an engine that has gone to
ERROR since it arrived too, and the engines before a sequencer's held STOP can end their binding (R134), and the next round opens (R79
to R85, R263). -/
def State.squareRelease (s : State) (q : Nat) : State :=
  match (s.sq q).trel with
  | none => s
  | some trel =>
    if s.tb.tm < (s.sq q).relAt ∨ !s.holdsOut q then s
    else
      let x := s.sq q
      let seqs := (List.range 32).filter x.has
      let vs := (List.range 16).filter (fun v => x.has (32 + v))
      let round := s.sqRound q
      let s := (s.modSq q (fun _ => .zero)).sqShow q
      let s := forEach vs s (fun v s => s.takeVsCkpt v (some q))
      let s := forEach seqs s (fun k s => s.releaseSeq k q trel x.relAt)
      let s := forEach vs s (fun v s => s.releaseVs v q)
      let s := s.mirrorCkpts q round seqs vs
      let s := s.p (PS_SQ_COUNT_RELEASES q) (round + 1)
      if s.gb (PS_SQ_ENROL_NOTIFY q) then s.eventTo (s.sqWard q) 0x0102 q else s

end Sys2Proof.Machine
end

