-- ==== Sys2Proof/Machine/Channel.lean ====
section
/-! DEFINITION. Channel Blocks: taking and starting beats (R138 to R142), placement and spill (R148 to R150), the events at the
balls with strobes and windows (R156 to R159), and the end of a burst (R152). -/

namespace Sys2Proof.Machine

/-! ### Taking records -/

/-- Channel Block `c` takes its next record; a record leaves the beat FIFO when every Channel Block that plays has it (R141). -/
def State.beatTake (s : State) (c : Nat) : State :=
  match s.cbSeq c with
  | none => s
  | some k =>
    let x := s.cb c
    match (s.seq k).fifo.find? (fun r => decide (r.beat = x.nextTake)) with
    | none => s
    | some r =>
      if s.g (CH_CB_STATUS_STATE c) = 3 then s
      else
        let s := s.modCb c (fun x => { x with taken := x.taken ++ [r], nextTake := x.nextTake + 1 })
        let lo := (s.liveCbs k).foldl (fun m d => min m (s.cb d).nextTake) (r.beat + 1)
        s.modSeq k (fun x => { x with fifo := x.fifo.filter (fun r => decide (lo ≤ r.beat)) })

/-- BEAT_TAKE. -/
def execBeatTake (c : Fin 32) (s : State) : Host.Outcome State Fault Refusal := .next (if !s.ticksOf (cbDom c.val) then s else s.beatTake c.val)

/-! ### Placement -/

/-- A violation of cause 1 SPACING or 2 SPILL_FULL on channel `n` (R149, R150); an implicit DEN_MODE shows SLOT 0. -/
def State.chViol (s : State) (n beat slot ui cause : Nat) : State :=
  let s := s.inc (CH_VIOL_COUNT n) 1
  let s := if s.g (CH_VIOL_FIRST_CAUSE n) = 0 then
      (((s.p (CH_VIOL_FIRST_BEAT n) beat).p (CH_VIOL_FIRST_SLOT n) (slot % 8)).p (CH_VIOL_FIRST_CAUSE n) cause).p (CH_VIOL_FIRST_UI n) ui
    else s
  let s := s.assertFlt (96 + n / 4)
  if nbit (s.cb (n / 4)).violSent (n % 4) then s
  else
    (s.modCb (n / 4) (fun x => { x with violSent := x.violSent ||| (1 <<< (n % 4)) })).eventTo (s.cbWard (n / 4)) 0x0401
      (n + 256 * cause)

/-- Nominal time of the last placed event of a class. -/
def Chan.last (x : Chan) : EvClass → Option Nat
  | .drive => x.lastDrive
  | .den => x.lastDen
  | .strobe => x.lastStrobe

/-- The class takes a new last time. -/
def Chan.setLast (x : Chan) (t : Nat) : EvClass → Chan
  | .drive => { x with lastDrive := some t }
  | .den => { x with lastDen := some t }
  | .strobe => { x with lastStrobe := some t }

/-- One event of beat `r` is placed on channel `n`, or is a spacing violation (R149). -/
def State.placeOne (s : State) (n : Nat) (r : BeatRec) (pw : PinWord) (e : WaveEv) : State :=
  let t := r.start + e.off
  let bad := match (s.ch n).last e.kind.cls with
    | some l => decide (t < l + 150)
    | none => false
  if bad then s.chViol n r.beat e.slot (if e.serial then e.ui else 0) 1
  else
    let p : Placed := ⟨r.beat, e.slot, e.ui, t, e.kind, pw.getLsbD e.ui, pw.getLsbD 10, false, e.serial⟩
    s.modCh n (fun x => { (x.setLast t e.kind.cls) with placed := x.placed ++ [p] })

/-- Entries of a spill queue: one for each event of each beat (R150). -/
def spillKeys (l : List Placed) : List (Nat × Nat) := ((l.filter (·.spilled)).map (fun p => (p.beat, p.slot))).dedup

/-- The first placed sub-event of each event. -/
def firstOfEach : List (Nat × Nat) → List Placed → List Placed
  | _, [] => []
  | seen, p :: t =>
    if seen.contains (p.beat, p.slot) then firstOfEach seen t else p :: firstOfEach ((p.beat, p.slot) :: seen) t

/-- The events of channel `n` that have not occurred pass to the spill queue; an event that would be the 33rd entry is dropped,
one violation however many sub-events it has left (R150). The last time of its class stays (DESIGN CHOICE, log). -/
def State.spill (s : State) (n : Nat) : State :=
  let l := (s.ch n).placed
  let kept := (l.map (fun p => (p.beat, p.slot))).eraseDups.take 32
  let (keep, drop) := l.partition (fun p => kept.contains (p.beat, p.slot))
  let s := s.modCh n (fun x => { x with placed := keep.map (fun p => { p with spilled := true }) })
  let s := forEach (firstOfEach [] drop) s (fun p s => s.chViol n p.beat p.slot (if p.serial then p.ui else 0) 2)
  s.p (CH_STATUS_SPILL n) (spillKeys (s.ch n).placed).length

/-! ### Starting a beat -/

/-- The Shutter's samples of a beat on Channel Block `c`: every UI of every enabled entry, in raw mode one (R177, R179). -/
def State.shutDue (s : State) (k c : Nat) (r : BeatRec) : State :=
  if s.g CAP_SHUT_STATUS_STATE = 1 ∧ s.g CAP_SHUT_STATUS_SEQ = k ∧ nbit r.cmp 1 ∧ !r.hold ∧ !s.shut.spent then
    forEach (List.range 16) s (fun i s =>
      let e := nbits (8 * (i % 8) + 7) (8 * (i % 8)) (s.rd (if i < 8 then CAP_SHUT_CH0 else CAP_SHUT_CH1)).toNat
      let n := e % 128
      if 128 ≤ e ∧ n / 4 = c then
        let uis := (List.range (wtUis (s.wtEntry n r.tset))).filter (fun u =>
          !s.gb CAP_SHUT_CFG_RAW || (decide (i = 0) && decide (u = s.g CAP_SHUT_CFG_RAW_UI)))
        { s with shut := { s.shut with due := s.shut.due ++ uis.map (fun u => (r.beat, u, i)) } }
      else s)
  else s

/-- The next taken beat starts on Channel Block `c` (R138, R140, R142): the beat before it ends and spills, its events are placed,
its EVENT acts with the lowest Channel Block that plays. -/
def State.beatStart (s : State) (c : Nat) : State :=
  match (s.cb c).taken, s.cbSeq c with
  | r :: t, some k =>
    let s := forEach (cbChans c) s (fun n s => s.spill n)
    let first := !(s.cb c).started
    let s := s.modCb c (fun x => { x with taken := t, cur := some r, started := true, played := true })
    let s := ((s.p (CH_CB_STATUS_STATE c) 1).p (CH_CB_STATUS_TSET c) r.tset).p (CH_CB_BEATS_BEATS c) (s.g (CH_CB_BEATS_BEATS c) + 1)
    let st := s.stampAt r.start
    let s := if first then (s.p (CH_CB_T0_LO_STAMP c) st.toNat).p (CH_CB_T0_HI_STAMP c) (st.toNat / 2 ^ 64) else s
    let s := if r.period < 1250 then
        let s := ((s.inc (CH_CB_PMIN_COUNT c) 1).pb (CH_CB_STATUS_PERIOD_MIN c) true).assertFlt (96 + c)
        if (s.cb c).pminSent then s
        else (s.modCb c (fun x => { x with pminSent := true })).eventTo (s.cbWard c) 0x0402 c
      else s
    let chs := (s.seqChans k)
    let s := forEach (cbChans c) s (fun n s =>
      if s.gb (CH_CFG_DISABLE n) then s
      else
        let pw := r.pins.getD (chs.idxOf n) 0#11
        forEach (waveEvents (s.wtEntry n r.tset) r.period r.cmp pw) s (fun e s => s.placeOne n r pw e))
    let s := s.shutDue k c r
    if (s.liveCbs k).head? = some c then
      let s := s.modSeq k (fun x => { x with inFlight := x.inFlight.map (fun y => if y.beat = r.beat then { y with stamp := st } else y) })
      match r.event with
      | some e => s.seqEvent k e r.start
      | none => s
    else s
  | _, _ => s

/-- BEAT_START. -/
def execBeatStart (c : Fin 32) (s : State) : Host.Outcome State Fault Refusal := .next (if !s.ticksOf (cbDom c.val) then s else s.beatStart c.val)

/-! ### Events at the balls -/

/-- A UI passes under XCODE with expect bit `e` (Table 8.1). -/
def passes (xcode : Nat) (e h l : Bool) : Bool :=
  match xcode with
  | 0 => if e then h else l
  | 1 => h == e
  | 2 => l == !e
  | _ => if e then !h && !l else h || l

/-- Channel `n` judges levels `lv` against expect bit `e`, after polarity (R156). -/
def State.judge (s : State) (n : Nat) (e : Bool) (lv : Level) : Bool :=
  passes (s.g (CAP_CMP_CFG_XCODE n)) e (lv.hi ^^ s.gb (CAP_CMP_CFG_POL_H n)) (lv.lo ^^ s.gb (CAP_CMP_CFG_POL_L n))

/-- A UI result; of two strobes of one UI, either may fail it; a UI that a window error has voided stays NONE (R157 to R159). -/
def Chan.addRes (x : Chan) (beat ui : Nat) (fail : Bool) : Chan :=
  if x.results.any (fun r => decide (r.beat = beat) && decide (r.ui = ui)) then
    { x with results := x.results.map (fun r => if r.beat = beat ∧ r.ui = ui then { r with fail := r.fail || fail } else r) }
  else { x with results := x.results ++ [⟨beat, ui, fail, false⟩] }

/-- A UI yields NONE, whatever it has or gets (R159). -/
def Chan.voidRes (x : Chan) (beat ui : Nat) : Chan :=
  { x with results := x.results.filter (fun r => !(decide (r.beat = beat) && decide (r.ui = ui))) ++ [⟨beat, ui, false, true⟩] }

/-- A window error at an event of UI `at_`, if it is an event: an open window is discarded, and the UIs of the event and of the
window yield NONE (R157, R159). -/
def State.winErr (s : State) (n : Nat) (at_ : Option (Nat × Nat)) : State :=
  let uis := at_.toList ++ ((s.ch n).window.map (fun w => (w.beat, w.ui))).toList
  (s.modCh n (fun x => { (uis.foldl (fun x p => x.voidRes p.1 p.2) x) with window := none })).inc (CAP_CH_FAILS_WIN_ERR n) 1

/-- What an event does on channel `n` (Table 7.2, R158, R159). -/
def State.chEvent (s : State) (n : Nat) (p : Placed) (lv : Level) : State :=
  let fail := !s.judge n p.expect lv
  match p.kind with
  | .drv v => s.pb (CH_STATUS_DRV n) v
  | .den v => s.pb (CH_STATUS_DEN n) (v && s.active)
  | .strobe => s.modCh n (fun x => x.addRes p.beat p.ui (fail && !p.mask))
  | .winOpen =>
    if (s.ch n).window.isSome then s.winErr n (some (p.beat, p.ui))
    else s.modCh n (fun x => { x with window := some ⟨p.beat, p.ui, fail, p.mask⟩ })
  | .winClose =>
    match (s.ch n).window with
    | some w =>
      if w.beat = p.beat ∧ w.ui = p.ui then
        s.modCh n (fun x => { (x.addRes p.beat p.ui ((w.fail || fail) && !p.mask)) with window := none })
      else s.winErr n (some (p.beat, p.ui))
    | none => s.winErr n (some (p.beat, p.ui))

/-- The correction of an event's path on channel `n` (R148, R298). -/
def State.corr (s : State) (n : Nat) (k : EvKind) : Int :=
  match k.cls with
  | .drive => s.gi (CAL_CH_NOW_DRV n)
  | .den => s.gi (CAL_CH_NOW_DEN n)
  | .strobe => s.gi (CAL_CH_NOW_STB n)

/-- The event of channel `n` that occurs next: the earliest corrected instant, in placement order where equal. -/
def State.nextEvent (s : State) (n : Nat) : Option Placed :=
  (s.ch n).placed.foldl (fun (a : Option Placed) p =>
    match a with
    | none => some p
    | some b => if (p.t : Int) + s.corr n p.kind < (b.t : Int) + s.corr n b.kind then some p else some b) none

/-- The edge generator resolves a corrected time (0.5 ps) into cycle, DLL phase and vernier code (R148). -/
def resolveEdge (t : Nat) : EdgeCode :=
  let r := t % 625
  let ph := r * 32 / 625
  ⟨t / 625, ph, (r * 32 - ph * 625 + 16) / 32⟩

/-- The next event of channel `n` occurs; `lv` is the level at it, of a WIN_CLOSE a level within its window, one that fails if
any does. -/
def State.edgeEvent (s : State) (n : Nat) (lv : Level) : State :=
  match s.nextEvent n with
  | none => s
  | some p =>
    let code := resolveEdge ((p.t : Int) + s.corr n p.kind).toNat
    let s := s.modCh n (fun x => { x with placed := x.placed.erase p, edge := code })
    (s.chEvent n p lv).p (CH_STATUS_SPILL n) (spillKeys (s.ch n).placed).length

/-- EDGE_EVENT. -/
def execEdgeEvent (c : Fin 128) (lv : Level) (s : State) : Host.Outcome State Fault Refusal := .next (if !s.ticksOf (cbDom (c.val / 4)) then s else s.edgeEvent c.val lv)

/-! ### The end of a burst for a Channel Block (R152) -/

/-- The last beat has ended: what is pending spills (DRAINING); with nothing pending, the burst ends for the Channel Block. -/
def State.cbDrain (s : State) (c : Nat) : State :=
  match s.cbSeq c with
  | none => s
  | some k =>
    let x := s.cb c
    let st := s.g (CH_CB_STATUS_STATE c)
    if !s.cbNoMore k ∨ (st ≠ 1 ∧ st ≠ 2) ∨ x.taken ≠ [] ∨ (s.seq k).fifo.any (fun r => decide (x.nextTake ≤ r.beat)) then s
    else
      let s := forEach (cbChans c) s (fun n s => s.spill n)
      if (cbChans c).any (fun n => !(s.ch n).placed.isEmpty) then s.p (CH_CB_STATUS_STATE c) 2
      else
        let s := forEach (cbChans c) s (fun n s =>
          let s := if (s.ch n).window.isSome then s.winErr n none else s
          if s.gb (CH_CFG_END_HOLD n) && !s.gb (CH_CFG_DISABLE n) then s else s.chanIdle n)
        (s.modCb c (fun x => { x with cur := none, started := false })).cbIdle c

/-- CB_DRAIN_DONE. -/
def execCbDrainDone (c : Fin 32) (s : State) : Host.Outcome State Fault Refusal := .next (if !s.ticksOf (cbDom c.val) then s else s.cbDrain c.val)

end Sys2Proof.Machine
end

