-- ==== Sys2Proof/Machine/Capture.lean ====
section
/-! DEFINITION. Delivery of beats (R160, R161), sites (R164, R165), fail records (R168 to R173), batches (R174) and CAP_ARM
(R166, R167). Posting a batch to its context stands with the Dispatcher. -/

namespace Sys2Proof.Machine

/-! ### Records -/

/-- The channels of site `t`, rising: site channel i is the i-th (R164). -/
def State.siteChans (s : State) (t : Nat) : List Nat := (List.range 128).filter (fun n => decide (s.g (CAP_CMP_CFG_SITE n) = t))

/-- Failing UIs of channel `n` in beat `b`. -/
def State.failUis (s : State) (n b : Nat) : Nat :=
  maskOf 8 (fun u => (s.ch n).results.any (fun r => decide (r.beat = b) && decide (r.ui = u) && r.fail && !r.void))

/-- The JSEQ of the burst whose beats are delivered: the oldest that is not DONE, since the beats of a later one wait for it (R92,
Table 8.4). -/
def Seq.beatJseq (x : Seq) (own : Nat) : Nat := (x.olds.head?.map (·.jseq)).getD own

/-- A fail record of site `t`, group `g`, with FLAGS.SPILLED 0 (Tables 8.4, R169). -/
def State.failRec (s : State) (k t g rseq : Nat) (r : BeatRec) (fails : List Nat) : List Byte :=
  let vec := decide (r.cmp / 4 % 4 = 1)
  toLe 1 (if vec then 2 else 1) ++ toLe 1 t ++ toLe 1 k ++ toLe 1 (r.cmp % 2 + 4 * b2n r.replay) ++ toLe 4 rseq ++
    toLe 6 r.beat ++ toLe 1 r.tset ++ toLe 1 g ++
    toLe 8 (if vec then r.info.set % 2 ^ 48 else r.info.a % 2 ^ 56) ++
    toLe 8 (if vec then r.info.word % 2 ^ 13 + r.info.rep % 2 ^ 24 * 2 ^ 16 else r.info.l % 2 ^ 56) ++
    toLe 12 r.stamp.toNat ++ toLe 4 ((s.seq k).beatJseq (s.g (PS_BURST_JSEQ k))) ++
    (List.range 16).map (fun i => BitVec.ofNat 8 (fails.getD (16 * g + i) 0))

/-- The flood marker in place of a record: its BEAT, STAMP and RSEQ, a cause, all else 0 (R170). -/
def markerOf (rec_ : List Byte) (cause : Nat) : List Byte :=
  [3#8] ++ List.replicate 3 0#8 ++ sub rec_ 4 10 ++ List.replicate 2 0#8 ++ toLe 1 cause ++ List.replicate 15 0#8 ++
    sub rec_ 0x20 12 ++ List.replicate 20 0#8

/-- A record enters the capture queue. -/
def State.capEnq (s : State) (q : QRec) : State :=
  let s := { s with capq := s.capq ++ [q] }
  (s.p CAP_QUEUE_LEVEL s.capq.length).p CAP_QUEUE_HIGH (max s.capq.length (s.g CAP_QUEUE_HIGH))

/-- Markers that wait enter the queue when it has room (R170). -/
def State.capRefill (s : State) : State :=
  forEach (List.range 32) s (fun k s =>
    forEach (s.arm k).markers s (fun q s =>
      if s.capq.length < 1024 then
        (s.modArm k (fun x => { x with markers := x.markers.drop 1 })).capEnq q
      else s))

/-- Site `t` becomes FLOODED with cause 1 LIMIT, 2 STORE or 3 QUEUE in place of a record (R170). -/
def State.flood (s : State) (k t cause : Nat) (rec_ : List Byte) : State :=
  let s := (s.pb (CAP_SITE_STATUS_FLOODED t) true).p (CAP_SITE_STATUS_CAUSE t) cause
  let s := s.eventTo (s.seqWard k) 0x0501 (t + 256 * cause)
  if cause = 2 then s.pb (CAP_SITE_STATUS_MARKER_LOST t) true
  else (s.modArm k (fun x => { x with markers := x.markers ++ [⟨k, t, markerOf rec_ cause, true⟩] })).capRefill

/-- Records of site `t` in the capture queue. -/
def State.queued (s : State) (t : Nat) : Nat := (s.capq.filter (fun q => decide (q.site = t) && !q.marker)).length

/-- A record of site `t`, group `g` is written, or floods the site (R168, R170, R172). -/
def State.failWrite (s : State) (k t g : Nat) (r : BeatRec) (fails : List Nat) : State :=
  if s.gb (CAP_SITE_STATUS_FLOODED t) then s
  else
    let b := s.failRec k t g (s.g (CAP_RSEQ_NEXT k)) r fails
    let full := decide (s.g (CAP_SITE_LIMIT_LIMIT t) ≤ s.g (CAP_SITE_STATUS_RECORDS t) + s.queued t)
    let s := s.p (CAP_RSEQ_NEXT k) (s.g (CAP_RSEQ_NEXT k) + 1)
    if full then s.flood k t 1 b
    else if 1024 ≤ s.capq.length then (s.inc CAP_QUEUE_DROPS 1).flood k t 3 b
    else s.capEnq ⟨k, t, b, false⟩

/-! ### Delivery -/

/-- Counts of a site at delivery: failing UIs, FAILED, FIRST (R165). -/
def State.siteCount (s : State) (t b n : Nat) : State :=
  if n = 0 then s
  else
    let s := (s.inc (CAP_SITE_FAILS_UIS t) n).pb (CAP_SITE_STATUS_FAILED t) true
    if s.gb (CAP_SITE_FIRST_VALID t) then s else (s.p (CAP_SITE_FIRST_BEAT t) b).pb (CAP_SITE_FIRST_VALID t) true

/-- All results of beat `r` of sequencer `k` take effect (R160, R161, R165, R168). -/
def State.deliverBeat (s : State) (k : Nat) (r : BeatRec) : State :=
  let chs := s.seqChans k
  let ms := chs.map (fun n => (n, s.failUis n r.beat))
  let m (n : Nat) : Nat := ((ms.find? (fun p => decide (p.1 = n))).map (·.2)).getD 0
  let failed := ms.any (fun p => decide (p.2 ≠ 0))
  let s := (s.p (CAP_DELIV_BEAT k) r.beat).pb (CAP_DELIV_VALID k) true
  let s := forEach chs s (fun n s =>
    (s.inc (CAP_CH_FAILS_FAILS n) (popN 8 (m n))).modCh n (fun x => { x with results := x.results.filter (fun q => decide (q.beat ≠ r.beat)) }))
  let sites := (s.seqSites k).filter (fun t => (s.siteChans t).any (fun n => decide (m n ≠ 0)))
  let s := forEach sites s (fun t s => s.siteCount t r.beat ((s.siteChans t).foldl (fun a n => a + popN 8 (m n)) 0))
  let s := s.modSeq k (fun x =>
    let keep := decide (x.clearBeat ≤ r.beat)
    let set (a : Arch) : Arch := if failed && keep then { a with sfail := true } else a
    { x with bfail := failed, arch := set x.arch, shadow := x.shadow.map set,
             allSet := if keep then sites.foldl (fun a t => a ||| (1 <<< t)) x.allSet else x.allSet })
  if s.gb (CAP_ARM_STATUS_ARMED k) && !nbit r.cmp 4 then
    forEach sites s (fun t s =>
      let fails := (s.siteChans t).map m
      forEach (List.range 8) s (fun g s =>
        if ((fails.drop (16 * g)).take 16).any (fun f => decide (f ≠ 0)) then s.failWrite k t g r fails else s))
  else s

/-- D_b of the oldest beat: every Channel Block that plays has started it, and its strobes have occurred (R160). -/
def State.beatDelivery (s : State) (k : Nat) : State :=
  match (s.seq k).inFlight with
  | [] => s
  | r :: t =>
    let cbs := s.liveCbs k
    let ready := cbs.all (fun c => decide (r.beat < (s.cb c).notStarted) &&
      (cbChans c).all (fun n => (s.ch n).placed.all (fun p => !(decide (p.beat = r.beat) && decide (p.kind.cls = .strobe)))))
    if ready then ((s.deliverBeat k r).modSeq k (fun x => { x with inFlight := t })).afterDrain k else s

/-! ### CAP_ARM (R166, R167) -/

/-- A disarm that waits completes when every beat is delivered, every record written and every batch posted. -/
def State.disarmTry (s : State) (k : Nat) : State :=
  match (s.arm k).disarm with
  | [] => s
  | ids =>
    if s.drained k && s.capIdle k then
      let s := s.closeBatch k true
      if (s.arm k).closed.isEmpty then
        let s := s.modArm k (fun x => { x with disarm := [] })
        forEach ids (s.pb (CAP_ARM_STATUS_ARMED k) false) (fun id s => s.finishF id 0)
      else s
    else s

/-- BEAT_DELIVERY. -/
def execBeatDelivery (k : Fin 32) (s : State) : Host.Outcome State Fault Refusal := .next (if !s.ticksOf capDom then s else (s.beatDelivery k.val).disarmTry k.val)

/-- Capacity of the FCM area of sequencer `k`, in records. -/
def State.fcmCap (s : State) (k : Nat) : Nat :=
  (if s.g (CAP_FCM_AREA_SIZE k) = 0 then 128 else s.g (CAP_FCM_AREA_SIZE k)) * 1024

/-- The sites' and channels' counts are cleared (R165). -/
def State.clearCounts (s : State) (k : Nat) : State :=
  let s := forEach (s.seqSites k) s (fun t s =>
    let s := (s.rst (CAP_SITE_FAILS t)).rst (CAP_SITE_FIRST t)
    s.rst (CAP_SITE_STATUS t))
  forEach (s.seqChans k) s (fun n s => s.p (CAP_CH_FAILS_FAILS n) 0)

/-- The descriptor of a batch (Table 8.5). -/
def State.batchDesc (s : State) (k : Nat) (b : Batch) : List Byte :=
  let cap := if b.spill then s.g (CAP_SPILL_SIZE_SIZE k) / 64 else s.fcmCap k
  let base := if b.spill then memBase 0 + s.g (CAP_SPILL_BASE_OFF k) else memBase 2 + s.g (CAP_FCM_AREA_OFF k) * 65536
  toLe 2 (s.g (CAP_ARM_STATUS_CTX k)) ++ toLe 1 k ++ toLe 1 (b2n b.spill + 2 * b2n b.last + 4 * b2n b.flood) ++ toLe 2 b.count ++
    toLe 2 0 ++ toLe 4 b.rseq ++ toLe 4 0 ++ toLe 8 (base + b.start % cap * 64) ++ toLe 8 0

/-- CAP_ARM. -/
def capArm (c : Cmd) (s : State) : State :=
  let b := c.args
  let w := c.ward.val
  let k := u b 0 1
  let ctx := u b 2 2
  let to_ := u b 4 4
  let fo := u b 8 4
  let fs := u b 0xC 4
  let so := u b 0x10 8
  let ss := u b 0x18 8
  let idle := decide ((s.seq k).st = .idle)
  if !s.plan.sealed then s.refuse c 8
  else if s.seqWard k ≠ some w then s.refuse c 3
  else if nbit (u b 1 1) 0 then
    if b.length ≠ 32 ∨ u b 1 1 ≠ 1 ∨ !zeros b 2 30 then s.refuse c 0x0D
    else if !idle then s.refuse c 6
    else if !s.gb (CAP_ARM_STATUS_ARMED k) then s.complete c
    else ((s.started c).modArm k (fun x => { x with disarm := x.disarm ++ [c.id] })).disarmTry k
  else
    let mixed := (s.seqSites k).any (fun t => (s.siteChans t).any (fun n => decide (s.cbSeq (n / 4) ≠ some k)))
    let hit := (List.range 32).any (fun j => decide (j ≠ k) && s.gb (CAP_ARM_STATUS_ARMED j) &&
      (let jo := s.g (CAP_FCM_AREA_OFF j) * 65536
       let po := s.g (CAP_SPILL_BASE_OFF j)
       let ps := s.g (CAP_SPILL_SIZE_SIZE j)
       (decide (fo < jo + 64 * s.fcmCap j) && decide (jo < fo + fs)) ||
         (decide (ss ≠ 0) && decide (ps ≠ 0) && decide (so < po + ps) && decide (po < so + ss))))
    if (ctx ≠ 0xFFFF ∧ s.ctxWard ctx ≠ some w) ∨ !s.ownsRange w 2 fo fs ∨ (ss ≠ 0 ∧ !s.ownsRange w 0 so ss) then s.refuse c 3
    else if b.length ≠ 32 ∨ 1 < u b 1 1 ∨ 1000000 < to_ ∨ fo % 65536 ≠ 0 ∨ fs % 65536 ≠ 0 ∨ fs < 65536 ∨ 2 ^ 23 < fs ∨
        so % 4096 ≠ 0 ∨ ss % 4096 ≠ 0 ∨ 2 ^ 34 < ss ∨ (ss = 0 ∧ so ≠ 0) ∨ mixed ∨ hit then s.refuse c 0x0D
    else if s.gb (CAP_ARM_STATUS_ARMED k) ∨ !idle then s.refuse c 6
    else
      let s := (s.started c).clearCounts k
      let left := (s.arm k).stale ++ ((s.arm k).posted.filter (fun b => !b.consumed)).map (s.batchDesc k)
      let s := s.modArm k (fun _ => { CapArm.zero with timeout := to_, stale := left })
      let s := forEach [CAP_ARM_STATUS k, CAP_FCM_PTR k, CAP_SPILL_PTR k, CAP_RSEQ k] s (fun a s => s.rst a)
      let s := ((s.pb (CAP_ARM_STATUS_ARMED k) true).pb (CAP_ARM_STATUS_HAS_CTX k) (decide (ctx ≠ 0xFFFF))).p (CAP_ARM_STATUS_CTX k)
        (if ctx = 0xFFFF then 0 else ctx)
      let s := (s.p (CAP_FCM_AREA_OFF k) (fo / 65536)).p (CAP_FCM_AREA_SIZE k) (fs / 65536 % 128)
      (((s.p (CAP_SPILL_BASE_OFF k) so).p (CAP_SPILL_SIZE_SIZE k) ss).demandWork capDom).finishF c.id 0

/-- CAP_ARM. -/
def execCapArm (w : Fin 4) (q : Fin 8) (s : State) : Host.Outcome State Fault Refusal :=
  .next (s.runCmd w.val q.val 0x40 capArm)

/-! ### The writer and its batches (R171, R172, R174) -/

/-- A written record joins the open batch, or opens one (R174). -/
def State.batchAdd (s : State) (k : Nat) (spill : Bool) (recno cap rseq : Nat) (flood : Bool) : State :=
  if !s.gb (CAP_ARM_STATUS_HAS_CTX k) then s
  else
    let joins := match (s.arm k).cur with
      | some b => decide (b.spill = spill) && decide ((b.rseq + b.count) % 2 ^ 32 = rseq) && decide (b.start + b.count = recno) &&
          decide (recno % cap ≠ 0)
      | none => false
    let s := if joins then s else s.closeBatch k false
    let s := s.modArm k (fun x => { x with cur := match x.cur with
      | some b => some { b with count := b.count + 1, flood := b.flood || flood }
      | none => some ⟨spill, recno, 1, rseq, flood, false, false⟩ })
    if ((s.arm k).cur.map (·.count)) = some 64 then s.closeBatch k false else s

/-- The record takes the next slot of the FCM area or the spill ring (R171); in a pair it is mirrored (R348). -/
def State.capPut (s : State) (q : QRec) (spill : Bool) : State :=
  let k := q.seq
  let cap := if spill then s.g (CAP_SPILL_SIZE_SIZE k) / 64 else s.fcmCap k
  let n := if spill then s.g (CAP_SPILL_PTR_WR k) else s.g (CAP_FCM_PTR_WR k)
  let base := if spill then memBase 0 + s.g (CAP_SPILL_BASE_OFF k) else memBase 2 + s.g (CAP_FCM_AREA_OFF k) * 65536
  let bytes := if spill ∧ !q.marker then
      q.bytes.take 3 ++ [BitVec.ofNat 8 (u q.bytes 3 1 ||| 2)] ++ q.bytes.drop 4
    else q.bytes
  let s := ((s.busWrite 0x90 (base + n % cap * 64) bytes).1).mirror 0x55 (toLe 8 (base + n % cap * 64) ++ bytes)
  let s := s.p (if spill then CAP_SPILL_PTR_WR k else CAP_FCM_PTR_WR k) (n + 1)
  let s := if spill ∧ !s.gb (CAP_ARM_STATUS_SPILLED k) then
      (s.pb (CAP_ARM_STATUS_SPILLED k) true).eventTo (s.seqWard k) 0x0502 k
    else s
  let s := if q.marker then s else s.inc (CAP_SITE_STATUS_RECORDS q.site) 1
  s.batchAdd k spill n cap (u q.bytes 4 4) q.marker

/-- The writer moves the oldest record: to the FCM area, else to the spill ring, else its site is flooded (R170 to R172). While a write
of its waits for room in a DRAM queue it waits (R221). -/
def State.captureWrite (s : State) : State :=
  match s.capq with
  | [] => s
  | q :: t =>
    if s.memWaits 0x90 then s else
    let k := q.seq
    let s := { s with capq := t }
    let s := s.p CAP_QUEUE_LEVEL t.length
    let flooded := s.gb (CAP_SITE_STATUS_FLOODED q.site)
    let lvl (wr rd : Nat) : Nat := (wr + 2 ^ 32 - rd) % 2 ^ 32
    let s :=
      if !q.marker ∧ flooded ∧ s.g (CAP_SITE_STATUS_CAUSE q.site) = 2 then s
      else if lvl (s.g (CAP_FCM_PTR_WR k)) (s.g (CAP_FCM_PTR_RD k)) < s.fcmCap k then s.capPut q false
      else if lvl (s.g (CAP_SPILL_PTR_WR k)) (s.g (CAP_SPILL_PTR_RD k)) < s.g (CAP_SPILL_SIZE_SIZE k) / 64 then s.capPut q true
      else if q.marker then s.pb (CAP_SITE_STATUS_MARKER_LOST q.site) true
      else if flooded then s
      else s.flood k q.site 2 q.bytes
    ((s.capRefill).afterDrain k).disarmTry k

/-- CAPTURE_QUEUE_WRITE. -/
def execCaptureQueueWrite (s : State) : Host.Outcome State Fault Refusal := .next (if !s.ticksOf capDom then s else s.captureWrite)

/-- BATCH_TIMEOUT has passed since the first record of the open batch (R174). -/
def execBatchTimeout (k : Fin 32) (s : State) : Host.Outcome State Fault Refusal :=
  .next (if !s.ticksOf capDom then s else if (s.arm k.val).timeout ≠ 0 ∧ (s.arm k.val).cur.isSome then s.closeBatch k.val false else s)

/-- A batch is consumed: RD advances over the consumed prefix of its store (R173). -/
def State.batchConsumed (s : State) (k : Nat) (spill : Bool) (start : Nat) : State :=
  let s := s.modArm k (fun x => { x with posted := x.posted.map (fun b =>
    if b.spill = spill ∧ b.start = start then { b with consumed := true } else b) })
  let mine := (s.arm k).posted.filter (fun b => decide (b.spill = spill))
  let done_ := mine.takeWhile (·.consumed)
  let s := match done_.getLast? with
    | some b => s.p (if spill then CAP_SPILL_PTR_RD k else CAP_FCM_PTR_RD k) (b.start + b.count)
    | none => s
  s.modArm k (fun x => { x with posted := x.posted.filter (fun b => !(decide (b.spill = spill) && done_.contains b)) })

end Sys2Proof.Machine
end

