-- ==== Sys2Proof/Machine/Shutter.lean ====
section
/-! DEFINITION. The Shutter unit (R175 to R180). -/

namespace Sys2Proof.Machine

/-- The enabled entries with their channels, rising. -/
def State.shutEntries (s : State) : List (Nat × Nat) :=
  (List.range 16).filterMap (fun i =>
    let e := nbits (8 * (i % 8) + 7) (8 * (i % 8)) (s.rd (if i < 8 then CAP_SHUT_CH0 else CAP_SHUT_CH1)).toNat
    if 128 ≤ e then some (i, e % 128) else none)

/-- An arm for sequencer `k` is valid (R176). -/
def State.shutValid (s : State) (k : Nat) : Bool :=
  let es := s.shutEntries
  !es.isEmpty && es.all (fun e => decide (s.cbSeq (e.2 / 4) = some k)) && decide ((es.map (·.2)).Nodup) &&
    (!s.gb CAP_SHUT_CFG_RAW || decide (es.map (·.1) = [0])) && decide (s.g CAP_SHUT_CFG_STEP ≠ 0)

/-- An arm takes place (R176). -/
def State.shutArm (s : State) (k count : Nat) (keep : Bool) : State :=
  let s := { s with shut := { s.shut with dropSent := false, inBurst := false, count := count, uis := .replicate 16 0, due := [], spent := false } }
  let s := (s.rst CAP_SHUT_STATUS).p CAP_SHUT_STATUS_STATE 1
  let s := s.p CAP_SHUT_STATUS_SEQ k
  let s := forEach (List.range 16) s (fun i s => s.rst (CAP_SHUT_SUM i))
  if keep then s
  else { s with regs := tabDrop (CAP_SHUT_HIST 0 0) (CAP_SHUT_HIST 16 0) s.regs }

/-- SHUTTER_ARM. -/
def shutterArm (c : Cmd) (s : State) : State :=
  let b := c.args
  let w := c.ward.val
  let k := u b 0 1
  let fl := u b 1 1
  let dis := nbit fl 0
  let foreign := s.shutEntries.any (fun e => decide (s.cbWard (e.2 / 4) ≠ some w))
  if !s.plan.sealed then s.refuse c 8
  else if s.seqWard k ≠ some w then s.refuse c 3
  else if !s.mayArm w 6 0 ∨ (!dis ∧ (s.g CAP_SHUT_STATUS_STATE = 1 ∨ foreign)) then s.refuse c 6
  else if b.length ≠ 8 ∨ 3 < fl ∨ !zeros b 2 2 ∨ 16777215 < u b 4 4 ∨ (!dis ∧ !s.shutValid k) then s.refuse c 0x0D
  else if dis then
    let s := s.started c
    (if s.g CAP_SHUT_STATUS_STATE = 1 then s.shutEnd 2 else s).finishF c.id 0
  else (((s.started c).shutArm k (u b 4 4) (nbit fl 1)).demandWork capDom).finishF c.id 0

/-- SHUTTER_ARM. -/
def execShutterArm (w : Fin 4) (q : Fin 8) (s : State) : Host.Outcome State Fault Refusal :=
  .next (s.runCmd w.val q.val 0x41 shutterArm)

/-- The Shutter at a BURST_START of sequencer `k`: a bound arm is made (R175, R176), and the burst that ends an arm starts. -/
def State.shutBurst (s : State) (k : Nat) : State :=
  let s := if s.resBind 6 0 = some k then
      if s.shutValid k then s.shutArm k (s.g CAP_SHUT_CFG_COUNT) false
      else ((s.pb CAP_SHUT_STATUS_ARM_ERR true).eventTo (s.resWard 6 0) 0x0505 s.freeVal).useFree
    else s
  if s.g CAP_SHUT_STATUS_STATE = 1 ∧ s.g CAP_SHUT_STATUS_SEQ = k then { s with shut := { s.shut with inBurst := true } } else s

/-! ### Samples (R177 to R179) -/

/-- The phase and direction (true: rising) of the first change among 32 samples, and the number of changes. -/
def changes (v : BitVec 32) : Option (Nat × Bool) × Nat :=
  let js := (List.range 31).filter (fun j => v.getLsbD j != v.getLsbD (j + 1))
  (js.head?.map (fun j => (j + 1, v.getLsbD (j + 1))), js.length)

/-- The bin of a UI's samples (Table 8.7). -/
def shutBin (v : BitVec 32) : Nat :=
  match (changes v).1 with
  | some (j, true) => j
  | some (j, false) => 32 + j
  | none => if v.getLsbD 0 then 32 else 0

/-- Lowest and highest phase of a direction, with its VALID bit (R178). -/
def State.shutMinMax (s : State) (lo hi valid : FRef) (j : Nat) : State :=
  if s.gb valid then (s.p lo (min j (s.g lo))).p hi (max j (s.g hi)) else ((s.p lo j).p hi j).pb valid true

/-- Samples `v` of a UI of entry `i` in histogram mode (R178). -/
def State.shutHist (s : State) (i : Nat) (v : BitVec 32) : State :=
  let s := s.inc (CAP_SHUT_HIST_COUNT i (shutBin v)) 1
  let s := if 1 < (changes v).2 then s.inc (CAP_SHUT_SUM_MULTI i) 1 else s
  match (changes v).1 with
  | some (j, true) => s.shutMinMax (CAP_SHUT_SUM_RMIN i) (CAP_SHUT_SUM_RMAX i) (CAP_SHUT_SUM_RVALID i) j
  | some (j, false) => s.shutMinMax (CAP_SHUT_SUM_FMIN i) (CAP_SHUT_SUM_FMAX i) (CAP_SHUT_SUM_FVALID i) j
  | none => s

/-- A raw entry is dropped; the first drop of an arm is announced (R179). -/
def State.rawDrop (s : State) : State :=
  let s := s.inc CAP_SHUT_RAW_DROP_DROPS 1
  if s.shut.dropSent then s
  else ({ s with shut := { s.shut with dropSent := true } }.eventTo (s.resWard 6 0) 0x0504 s.freeVal).useFree

/-- The samples of the next UI that is due: `s0` of CMH, `s1` of CML. -/
def State.shutSample (s : State) (s0 s1 : BitVec 32) : State :=
  match s.shut.due with
  | [] => s
  | (beat, _, i) :: t =>
    let k := s.g CAP_SHUT_STATUS_SEQ
    let n := ((s.shutEntries.find? (fun e => decide (e.1 = i))).map (·.2)).getD 0
    let v := if s.gb CAP_SHUT_CFG_CMP then (if s.gb (CAP_CMP_CFG_POL_L n) then ~~~s1 else s1)
      else if s.gb (CAP_CMP_CFG_POL_H n) then ~~~s0 else s0
    let s := { s with shut := { s.shut with due := t } }
    let s := if s.gb CAP_SHUT_CFG_RAW then
        if s.shut.fifo.length < 1024 then
          { s with shut := { s.shut with fifo := s.shut.fifo ++ [BitVec.ofNat 64 (v.toNat + beat % 2 ^ 32 * 2 ^ 32)] } }
        else s.rawDrop
      else s.shutHist i v
    let uis := if h : i < 16 then s.shut.uis.set i (s.shut.uis[i] + 1) else s.shut.uis
    let s := { s with shut := { s.shut with uis := uis } }
    let least : Nat := (s.shutEntries.map (fun e => uis.toList.getD e.1 0)).foldl (fun a b => min a b) (uis.toList.getD i 0)
    let s := s.p CAP_SHUT_STATUS_UIS (min least (2 ^ 32 - 1))
    if s.shut.count ≠ 0 && decide (s.shut.count ≤ least) then s.shutEnd 1
    else if s.shut.spent && t.isEmpty then s.shutEnd 3
    else s.afterDrain k

/-- SHUTTER_SAMPLE. -/
def execShutterSample (s0 s1 : BitVec 32) (s : State) : Host.Outcome State Fault Refusal := .next (if !s.ticksOf capDom then s else s.shutSample s0 s1)

/-- A raw entry passes into the DRAM ring; it is dropped if the ring is full (R179), or if its place lies outside the regions of the
Ward that owns the Shutter, which the entry never reaches (R26, R181). Mark: DESIGN CHOICE for the count of the latter. -/
def State.rawWrite (s : State) : State :=
  match s.shut.fifo with
  | [] => s
  | e :: t =>
    if s.memWaits 0x90 then s else
    let s := { s with shut := { s.shut with fifo := t } }
    let cap := s.g CAP_SHUT_RAW_SIZE_SIZE / 8
    let wr := s.g CAP_SHUT_RAW_PTR_WR
    let o := s.g CAP_SHUT_RAW_BASE_OFF + wr % cap * 8
    if cap ≤ (wr + 2 ^ 32 - s.g CAP_SHUT_RAW_PTR_RD) % 2 ^ 32 ∨ !(s.resWard 6 0).any (fun w => s.ownsRange w 0 o 8) then s.rawDrop
    else ((s.busWrite 0x90 (memBase 0 + o) (toLe 8 e.toNat)).1).p CAP_SHUT_RAW_PTR_WR (wr + 1)

/-- SHUTTER_RAW_WRITE. -/
def execShutterRawWrite (s : State) : Host.Outcome State Fault Refusal := .next (if !s.ticksOf capDom then s else s.rawWrite)

end Sys2Proof.Machine
end

