-- ==== Sys2Proof/Machine/Burst.lean ====
section
/-! DEFINITION. Bursts: start (R91), stop (R94) and the final record (R92). -/

namespace Sys2Proof.Machine

/-- The burst state of sequencer `k` and its Channel Blocks as a burst begins with beat number `beats` and the end record
cleared (R91). Beats of an earlier burst that is not yet DONE play out, and count as that burst's: what counts the beats of the new one
is cleared with its BEGIN. -/
def State.burstClear (s : State) (k beats : Nat) : State :=
  let issued := s.g (PS_BEATS_BEATS k)
  let s := s.modSeq k (fun x => { x with
    shadow := none, pendStop := false, pendPause := false, clearBeat := if x.olds.isEmpty then 0 else x.clearBeat, holdRec := none, tEnd := none,
    lastD := 0, wait := none, holdLeft := 0, urWait := false, urSent := false, step := false, lastDraw := [],
    lastSet := 0xFFFFFFFFFFFF, unbound := false, fsyncBeat := none, ending := false,
    fifo := if x.olds.isEmpty then [] else x.fifo, inFlight := if x.olds.isEmpty then [] else x.inFlight })
  let s := ((s.rst (PS_BURST_END k)).p (PS_BEATS_BEATS k) beats).pb (CAP_DELIV_VALID k) false
  let s := forEach (s.seqCbs k) s (fun c s =>
    let s := if s.g (CH_CB_STATUS_STATE c) = 3 then
        (s.modCb c (fun x => { x with nextTake := issued })).cbIdle c
      else s
    forEach (cbChans c) s (fun n s => s.rst (CH_VIOL_FIRST n)))
  if (s.seq k).olds.isEmpty then (s.cbClear k).cbFresh k beats else s

/-- A burst begins at ENTRY in SETUP mode: its JSEQ is stored and the entry checkpoints of the sequencer and of its engine are
taken (R85, R91, R134); what is bound to it is armed (R180, R272). A repeat count that a burst stopped inside a REPEAT has left
is dropped (DESIGN CHOICE, log). While an earlier burst is not DONE its arm of the Shutter stands, and a bound arm follows it. -/
def State.burstBegin (s : State) (k : Nat) (cmd : Option Nat) (jseq entry : Nat) (restartable replay : Bool) : State :=
  let s := s.modSeq k (fun x => { x with olds := x.olds ++ x.burst.toList })
  let s := (s.burstClear k 0).p (PS_BURST_JSEQ k) jseq
  let s := s.modSeq k (fun x => { x with
    st := .setup, arch := { x.arch with pc := entry, beatMode := false, rep := none },
    burst := some ⟨cmd, jseq, [], restartable, replay, false, none, none⟩ })
  let s := s.pb (PS_STATUS_RESTARTABLE k) restartable
  let s := (s.boundary k).takeCkpt k none 0
  let vs := (s.seqVs k).toList
  let s := forEach vs s (fun v s => (s.modVs v (fun x => { x with inBurst := true })).takeVsCkpt v none)
  let s := (s.mirrorCkpts 0 0 [k] vs).timBoundArm k
  let s := if (s.seq k).olds.isEmpty then s.shutBurst k else s
  forEach ((s.seqCbs k).map cbDom ++ vs.map vsDom) (s.demandWork (psDom k)) (fun d s => s.demandWork d)

/-- A CHANNEL calibration runs on a Channel Block of sequencer `k` (R301). -/
def State.calHolds (s : State) (k : Nat) : Bool :=
  match s.cal.run with
  | some r => decide (r.target = 0) && (s.seqCbs k).any (nbit r.mask)
  | none => false

/-- BURST_START (R91). -/
def burstStart (c : Cmd) (s : State) : State :=
  let k := u c.args 0 1
  let entry := u c.args 2 2
  if !s.plan.sealed then s.refuse c 8
  else if s.seqWard k ≠ some c.ward.val then s.refuse c 3
  else if c.args.length ≠ 8 ∨ 1 < u c.args 1 1 ∨ entry < 0x800 ∨ 0x1FFF < entry ∨ !zeros c.args 4 4 then s.refuse c 0x0D
  else if (s.seq k).st ≠ .idle ∨ s.calHolds k then s.refuse c 6
  else (s.started c).burstBegin k (some c.id) c.jseqN entry (decide (u c.args 1 1 = 1)) false

/-- BURST_START. -/
def execBurstStart (w : Fin 4) (q : Fin 8) (s : State) : Host.Outcome State Fault Refusal :=
  .next (s.runCmd w.val q.val 0x20 burstStart)

/-- BURST_STOP (R94). -/
def burstStop (c : Cmd) (s : State) : State :=
  let k := u c.args 0 1
  if s.seqWard k ≠ some c.ward.val then s.refuse c 3
  else if c.args.length ≠ 8 ∨ 1 < u c.args 1 1 ∨ !zeros c.args 2 6 then s.refuse c 0x0D
  else if (s.seq k).st = .idle ∨ (s.seq k).st = .fault then s.completeArg c 0
  else
    let s := (s.started c).modSeq k (fun x => { x with burst := x.burst.map (fun b => { b with stops := b.stops ++ [c.id] }) })
    if u c.args 1 1 = 1 then s.reqKill k else s.reqStop k

/-- BURST_STOP. -/
def execBurstStop (w : Fin 4) (q : Fin 8) (s : State) : Host.Outcome State Fault Refusal :=
  .next (s.runCmd w.val q.val 0x21 burstStop)

/-- Samples of a beat of sequencer `k` are due to the Shutter: its arm ends with the last of them (R180). -/
def State.shutDueOf (s : State) (k : Nat) : Bool :=
  decide (s.g CAP_SHUT_STATUS_STATE = 1) && decide (s.g CAP_SHUT_STATUS_SEQ = k) && s.shut.inBurst && !s.shut.due.isEmpty

/-- The bursts of sequencer `k` that have ended, oldest first. -/
def Seq.endedBursts (x : Seq) : List Burst := x.olds ++ x.burst.toList.filter (fun b => b.ended.isSome)

/-- The burst of sequencer `k` has ended, every compare result is delivered, and the last batch of an arm with a context is posted:
the burst reaches DONE (R92, R174). What is bound to a burst that has started since is armed. -/
def State.burstDone (s : State) (k : Nat) : State :=
  let x := s.seq k
  if x.endedBursts.isEmpty then s
  else if s.drained k && (!s.batching k || (s.capIdle k && (s.arm k).cur.isNone && (s.arm k).closed.isEmpty)) then
    let s := if s.shutDueOf k then { s with shut := { s.shut with spent := true } } else s
    let s := s.modSeq k (fun x => { x with olds := [], burst := x.burst.filter (fun b => b.ended.isNone) })
    let s := forEach x.endedBursts s (fun b s => s.finishOpt b.cmd 0 (b.ended.getD 0))
    if x.olds.isEmpty then s else (s.shutBurst k).afterDrain k
  else s

/-- BURST_DONE. -/
def execBurstDone (k : Fin 32) (s : State) : Host.Outcome State Fault Refusal := .next (if !s.ticks then s else s.burstDone k.val)

end Sys2Proof.Machine
end

