-- ==== Sys2Proof/Machine/Calib.lean ====
section
/-! DEFINITION. Calibration: the tick of the slew (R299) and CAL_RUN (R301 to R307). -/

namespace Sys2Proof.Machine

/-- CAL_SLEW_TICK. -/
def execCalSlewTick (s : State) : Host.Outcome State Fault Refusal := .next (if !s.ticks then s else s.calTick)

/-! ### CAL_RUN -/

/-- The run ends with an outcome: 0 COMPLETE or 1 PARTIAL by the failed items, 2 BAND_CHANGED (R301). -/
def State.calEnd (s : State) (changed : Bool) : State :=
  match s.cal.run with
  | none => s
  | some r =>
    let out := if changed then 2 else if r.fails = 0 then 0 else 1
    let s := { s with cal := { s.cal with run := none } }
    ((s.p CAL_STATUS_RUN 0).p CAL_STATUS_ITEM 0).finish r.cmd 0 (out + 16 * r.band + 256 * min r.fails 255)

/-- The run goes on with the item at the head of its list: a lane that is not ACTIVE fails (R305); the run ends after the last. -/
def State.calNext (s : State) : List Nat → State
  | [] => { s with cal := { s.cal with run := s.cal.run.map (fun (r : CalRun) => { r with items := [] }) } }.calEnd false
  | i :: t =>
    match s.cal.run with
    | none => s
    | some r =>
      if r.target = 1 ∧ s.g (LN_STATUS_STATE i) ≠ 3 then
        State.calNext { s with cal := { s.cal with run := some { r with fails := r.fails + 1 } } } t
      else
        let s := { s with cal := { s.cal with run := some { r with items := i :: t } } }.p CAL_STATUS_ITEM i
        if r.target = 0 then s.emit (.calEdges i) else s

/-- An item ends, failed or not; the next one begins. -/
def State.calStep (s : State) (fails : Nat) : State :=
  match s.cal.run with
  | none => s
  | some r =>
    let s := { s with cal := { s.cal with run := some { r with fails := r.fails + fails } } }
    s.calNext r.items.tail

/-- The sum of a list. -/
def sumInt : List Int → Int
  | [] => 0
  | x :: t => x + sumInt t

/-- The correction of a path whose edges have the errors `e` in 1/16 ps: minus their mean, rounded to 0.5 ps (R303). A half is
rounded up, and a value outside 16 bits is limited as a target is (DESIGN CHOICE, log 65). -/
def calCorr (e : List Int) : Int := max (-32768) (min 32767 ((8 * (e.length : Int) - 2 * sumInt e) / (16 * (e.length : Int))))

/-- RESID of a path: the rms of the errors about their mean in 1/16 ps, to the nearest and at most 0xFF; 0xFF where no transition
was seen (R303). With n errors the rms is the root of V over n, V = n Σ e² − (Σ e)². -/
def calResid (e : List Int) : Nat :=
  let n : Int := e.length
  let v := n * sumInt (e.map (fun x => x * x)) - sumInt e * sumInt e
  ((List.range 255).filter (fun r => decide ((2 * (r : Int) + 1) * (2 * r + 1) * (n * n) ≤ 4 * v ∨ n = 0))).length

/-- One channel's three paths in band `b`; true: it passed (R303). -/
def State.calChannel (s : State) (n b : Nat) (v : List (List Int)) : State × Bool :=
  let drv := v.getD 0 []
  let den := v.getD 1 []
  let stb := v.getD 2 []
  let res := max (max (calResid drv) (calResid den)) (calResid stb)
  let ok := decide (res ≤ s.g CAL_CFG_RESID_LIMIT)
  let s := if ok then
      ((s.pi (CAL_CH_TAB_DRV n b) (calCorr drv)).pi (CAL_CH_TAB_DEN n b) (calCorr den)).pi (CAL_CH_TAB_STB n b) (calCorr stb)
    else s
  ((s.p (CAL_CH_TAB_RESID n b) res).pb (CAL_CH_TAB_VALID n b) ok, ok)

/-- The four channels of a Channel Block have been measured. -/
def State.calBlock (s : State) (c b : Nat) (v : List (List Int)) : State :=
  let (s, bad) := (List.range 4).foldl (fun (p : State × Nat) j =>
    let (t, ok) := p.1.calChannel (4 * c + j) b (v.drop (3 * j))
    (t, p.2 + b2n (!ok))) (s, 0)
  (s.calRetarget (cbChans c)).calStep bad

/-- Clean points of a half sweep from phase 0: the phases in order until one has errors; `errs` are the mismatches at phases −32
to +31 (R248). -/
def cleanRun (errs : List Nat) : List Int → Nat
  | [] => 0
  | p :: t => if errs.getD (p + 32).toNat 0 = 0 then 1 + cleanRun errs t else 0

/-- Clean points from phase 0 downward. -/
def cleanDown (errs : List Nat) : Nat := cleanRun errs ((List.range 33).map (fun i => -(i : Int)))

/-- Clean points from phase 0 upward. -/
def cleanUp (errs : List Nat) : Nat := cleanRun errs ((List.range 32).map (fun i => (i : Int)))

/-- WIDTH of a sweep: the clean points, 0 where phase 0 has errors (R248). -/
def sweepWidth (errs : List Nat) : Nat := cleanUp errs + cleanDown errs - 1

/-- A lane has been swept: the widest setting, the lowest among equals, is chosen (R305). -/
def State.calLane (s : State) (l : Nat) (r : CalMeas) : State :=
  if r.fail then s.calStep 1
  else
    let ws := r.data.map (fun e => sweepWidth (e.map Int.toNat))
    let w := ws.foldl max 0
    let i := ws.idxOf w
    let s := s.p (LN_EQ_RX_CTLE l) i
    (((s.p (CAL_LN_Q_WIDTH l) w).p (CAL_LN_Q_CTLE l) i).pb (CAL_LN_Q_VALID l) true).calStep 0

/-- The item in progress has been measured. A lane that loses lock has ended its sweep already (`State.eyeAbort`). -/
def State.calItem (s : State) (r : CalMeas) : State :=
  match s.cal.run with
  | none => s
  | some run =>
    match run.target, run.items with
    | 0, c :: _ => if r.data.length = 12 then s.calBlock c run.band r.data else s
    | 1, l :: _ => if r.fail ∨ (r.data.length = 16 ∧ r.data.all (fun e => decide (e.length = 64))) then s.calLane l r else s
    | _, _ => s

/-- CAL_ITEM_DONE. -/
def execCalItemDone (r : CalMeas) (s : State) : Host.Outcome State Fault Refusal := .next (if !s.ticks then s else s.calItem r)

/-- A quotient rounded half up. -/
def divHalfUp (a b : Int) : Int := (2 * a + b) / (2 * b)

/-- OFFSET of a slice from the codes of the zero reference: the mean in 1/16 LSB, which R275 then corrects to 0 (R306; rounding and
mean DESIGN CHOICE, log). -/
def segOffset (zero : List Int) : Int := divHalfUp (16 * sumInt zero) zero.length

/-- GAIN of a slice: R275 then corrects the mean of the +0.75 full-scale reference to 0.75 × 32,768; none where no 16-bit GAIN does. -/
def segGain (offset : Int) (full : List Int) : Option Nat :=
  let d := 16 * sumInt full - offset * full.length
  let g := divHalfUp (24576 * 32768 * (full.length : Int)) d
  if 0 < d ∧ g < 65536 then some g.toNat else none

/-- The spur level of a tone capture with the staged set applied (R306). -/
def segSpur (staged : List (Nat × Nat × Nat)) (first : Nat) (tone : List Int) : Nat :=
  Config.calSpur (tone.zipIdx.map (fun p =>
    let c := staged.getD ((first + p.2) % 8) (0, 0x8000, 0)
    corrWith (sgn 16 c.1) c.2.1 p.1))

/-- The raw codes of a calibration segment: both references have been converted. -/
def segOk (r : AdcMeas) : Bool :=
  !r.zero.isEmpty && !r.full.isEmpty && codesOk r.zero r.zero.length && codesOk r.full r.full.length && codesOk r.tone r.tone.length

/-- An ADC segment has run; after the last the staged set replaces the band's set (R278, R306). -/
def State.calSegment (s : State) (r : AdcMeas) : State :=
  match s.cal.run with
  | none => s
  | some run =>
    let s := s.countClips (r.zero ++ r.full ++ r.tone)
    let n := run.staged.length
    let o := segOffset r.zero
    let gain := (segGain o r.full).getD (s.freeVal % 65536)
    let s := if (segGain o r.full).isSome then s else s.useFree
    let staged := run.staged ++ [(unsgn 16 o, gain, if n = 0 then 0 else unsgn 8 (Config.calSkew n r.slice.val r.tone))]
    let s := { s with cal := { s.cal with run := some { run with staged := staged } } }
    if staged.length < 8 then s.p CAL_STATUS_ITEM staged.length
    else
      let b := run.band
      let s := forEach staged.zipIdx s (fun p s =>
        ((s.p (ADC_CORR_OFFSET b p.2) p.1.1).p (ADC_CORR_GAIN b p.2) p.1.2.1).p (ADC_CORR_SKEW b p.2) p.1.2.2)
      ((s.p (CAL_ADC_Q_SPUR b) (segSpur staged r.slice.val r.tone)).pb (CAL_ADC_Q_VALID b) true).calEnd false

/-- The band changes during a run: a CHANNEL or ADC run ends (R304). -/
def State.calBand (s : State) : State :=
  match s.cal.run with
  | some r =>
    if r.target = 0 ∨ r.target = 2 then
      let s := s.calEnd true
      if s.conv.cls = 3 then s.convNext else s
    else s
  | none => s

/-- A DRAM channel has trained: its item ends (R307). -/
def State.calDram (s : State) (d : Nat) : State :=
  match s.cal.run with
  | some r =>
    if r.target = 3 ∧ r.items.contains d then
      let r := { r with items := r.items.filter (fun i => decide (i ≠ d)), fails := r.fails + b2n (s.g (DRC_STATUS_STATE d) = 4) }
      let s := { s with cal := { s.cal with run := some r } }
      match r.items with
      | [] => s.calEnd false
      | i :: _ => s.p CAL_STATUS_ITEM i
    else s
  | none => s

/-- A channel in any state but OFF becomes FAILED with the loss of PLL3; a training on it ends, and with it its item of a run
(R225, R307, R374). -/
def State.drcLost (s : State) (d : Nat) : State :=
  if s.g (DRC_STATUS_STATE d) = 0 then s
  else
    let s := s.modDrc d (fun x => { x with rt := [], be := [], rtWait := [], beWait := [] })
    (((s.drcState d 4).pb (DRC_CTRL_INIT d) false).calDram d).hostsReady

/-- DRC_TRAINING_DONE: the training that runs ends (R225). -/
def execDrcTrainingDone (d : Fin 4) (failStep : Nat) (ca : Word) (dq : List Word) (s : State) :
    Host.Outcome State Fault Refusal :=
  .next (if !s.ticksOf (drcDom d.val) then s else if s.g (DRC_STATUS_STATE d.val) = 1 ∧ (s.drc d.val).canEnd failStep then (s.drcTrained d.val failStep ca dq).calDram d.val else s)

/-- A named Channel Block, lane or DRAM channel cannot be calibrated now (R301). -/
def State.calBusy (s : State) (target mask : Nat) : Bool :=
  match target with
  | 0 => (bitsOf 32 mask).any (fun c => match s.cbSeq c with
    | some k => decide ((s.seq k).st ≠ .idle)
    | none => true)
  | 1 => (bitsOf 16 mask).any (fun l => (s.lane l).eye)
  | 3 => (bitsOf 4 mask).any (fun d => !s.initActs d)
  | _ => false

/-- CAL_RUN (R301). -/
def calRun (c : Cmd) (s : State) : State :=
  let b := c.args
  let w := c.ward.val
  let t := u b 0 1
  let m := u b 8 4
  let width := if t = 0 then 32 else if t = 1 then 16 else if t = 3 then 4 else 0
  if !s.plan.sealed then s.refuse c 8
  else if (t = 0 ∧ (bitsOf 32 m).any (fun k => decide (s.cbWard k ≠ some w))) ∨ ((t = 1 ∨ t = 2 ∨ t = 3) ∧ w ≠ 0) then s.refuse c 3
  else if b.length ≠ 16 ∨ 3 < t ∨ 1 < u b 1 1 ∨ (u b 1 1 = 1 ∧ t ≠ 3) ∨ !zeros b 2 6 ∨ !zeros b 0xC 4 ∨ 2 ^ width ≤ m ∨
      (t ≠ 2 ∧ m = 0) ∨ (t = 3 ∧ m ||| s.g MEM_CFG_CH_MASK ≠ s.g MEM_CFG_CH_MASK) then s.refuse c 0x0D
  else if s.cal.run.isSome ∨ s.calBusy t m then s.refuse c 6
  else
    let s := (s.started c).p CAL_STATUS_RUN (t + 1)
    let s := { s with cal := { s.cal with run := some ⟨c.id, t, m, [], s.g THM_STATUS_BAND, 0, []⟩ } }
    if t = 2 then ((s.p CAL_STATUS_ITEM 0).demandWork adcDom).convServe
    else if t = 3 then
      let s := { s with cal := { s.cal with run := s.cal.run.map (fun (r : CalRun) => { r with items := bitsOf 4 m }) } }
      let s := s.p CAL_STATUS_ITEM ((bitsOf 4 m).headD 0)
      forEach (bitsOf 4 m) s (fun d s =>
        (s.p (DRC_CTRL_USE_SAVED d) (u b 1 1)).drcStart d (decide (u b 1 1 = 1)))
    else s.calNext (bitsOf 32 m)

/-- CAL_RUN. -/
def execCalRun (w : Fin 4) (q : Fin 8) (s : State) : Host.Outcome State Fault Refusal :=
  .next (s.runCmd w.val q.val 0x80 calRun)

end Sys2Proof.Machine
end

