-- ==== Sys2Proof/Machine/Thermal.lean ====
section
/-! DEFINITION. Thermal sensing (R288 to R292), bands (R293), shutdown (R294), and the end of a conversion (R277). -/

namespace Sys2Proof.Machine

/-! ### The temperature of a sensor (R288) -/

/-- `2⁹⁶ · 2 atanh(z / 2⁹⁶)`, for z of at most 2⁹⁶ / 3, from its series. -/
def atanh2 (z : Int) : Int :=
  let one : Int := (2 ^ 96 : Nat)
  2 * ((List.range 40).foldl (fun (p : Int × Int) j => (p.1 + p.2 / (2 * j + 1), p.2 * z / one * z / one)) (0, z)).1

/-- `2⁹⁶ · ln (a / b)` for positive `a` and `b` (ratio above 2⁻⁹⁶). -/
def lnFix (a b : Nat) : Int :=
  let one : Nat := 2 ^ 96
  let x := a * one / b
  let e := Nat.log2 x
  let m : Int := ((x * one / 2 ^ e : Nat) : Int)
  atanh2 ((m - one) * one / (m + one)) + ((e : Int) - 96) * atanh2 ((one / 3 : Nat) : Int)

/-- Temperature of a DIODE in 1/64 °C from the voltages at 10 µA and 100 µA in nV; none where n = 0. -/
def diodeT (ideal : Nat) (v10 v100 : Int) : Option Int :=
  if ideal = 0 then none
  else some (divHalfUp (64 * (v100 - v10) * 50398 * 16384 - 174816 * 1000000000 * ideal) (10000000000 * ideal))

/-- Temperature of a THERMISTOR in 1/64 °C from its voltage at 10 µA in nV; none where the formula has no value. -/
def thermistorT (r25 beta : Nat) (v10 : Int) : Option Int :=
  let one : Int := (2 ^ 96 : Nat)
  if r25 = 0 ∨ beta = 0 ∨ v10 ≤ 0 then none
  else
    let d := 20 * one * beta + 5963 * lnFix v10.toNat (r25 * 100000)
    if d ≤ 0 then none else some (divHalfUp (640 * 5963 * one * beta - 174816 * d) (10 * d))

/-- The result of sensor `i`; none where the manual's formula gives no value. -/
def State.sensorT (s : State) (i : Nat) (v10 v100 : Int) : Option Int :=
  if s.g (THM_TS_CFG_TYPE i) = 1 then diodeT (s.g (THM_TS_CFG_IDEAL i)) v10 v100
  else thermistorT (s.g (THM_TS_CFG_R25 i)) (s.g (THM_TS_CFG_BETA i)) v10

/-! ### Bands (R290, R293) -/

/-- Sensor `i` stands for the junction. -/
def State.bandSrc (s : State) (i : Nat) : Bool := nbit (s.g THM_CFG_BAND_SRC) i

/-- The highest valid reading of the junction sensors in 1/64 °C. -/
def State.tBand (s : State) : Option Int :=
  ((List.range 8).filter (fun i => s.bandSrc i && s.gb (THM_TEMP_VALID i))).foldl (fun m i =>
    some (match m with
      | some t => max t (s.gi (THM_TEMP_T i))
      | none => s.gi (THM_TEMP_T i))) none

/-- The temperature that bands and rise limits use: the model's with MODEL = 1 (R291). -/
def State.bandT (s : State) : Int := if s.gb THM_CFG_MODEL then s.gi THM_STATUS_MODEL_T else s.thm.tb

/-- band(t), t in 1/64 °C. -/
def State.bandOf (s : State) (t : Int) : Nat :=
  b2n (decide (64 * s.gi THM_BAND_E1 ≤ t)) + b2n (decide (64 * s.gi THM_BAND_E2 ≤ t)) + b2n (decide (64 * s.gi THM_BAND_E3 ≤ t))

/-- The candidate band relative to band `k`: 2 °C of hysteresis downward. -/
def State.candidate (s : State) (t : Int) (k : Nat) : Nat :=
  let c := s.bandOf t
  if k < c then c else if s.bandOf (t + 128) < k then s.bandOf (t + 128) else k

/-- The band becomes `c`: BAND_CHANGE to every enabled Ward; a band that differs moves the channel targets and ends a
calibration (R293, R298, R304). -/
def State.setBand (s : State) (c : Nat) : State :=
  let old := s.g THM_STATUS_BAND
  let deg := max (-128) (min 127 (s.bandT / 64))
  let s := { s with thm := { s.thm with since := none } }.p THM_STATUS_BAND c
  let s := s.eventAll 0x0A03 (c + 256 * unsgn 8 deg)
  if c = old then s else (s.calRetarget (List.range 128)).calBand

/-- A valid reading of a junction sensor: T_band and the candidate band; the first one sets the band (R293). -/
def State.bandReading (s : State) : State :=
  match s.tBand with
  | none => s
  | some t =>
    let s := { s with thm := { s.thm with tb := t } }.pi THM_STATUS_T_BAND t
    let k := s.g THM_STATUS_BAND
    if !s.gb THM_STATUS_BAND_VALID then (s.pb THM_STATUS_BAND_VALID true).setBand (s.bandOf s.bandT)
    else
      let c := s.candidate s.bandT k
      let since := if c = k then none else some (s.thm.since.getD s.tb.tm)
      { s with thm := { s.thm with since := since, cand := c } }

/-- BAND_CHANGE: every reading over 10 ms has given another band than the one in force; none is evaluated once REFCLK is lost (R288). -/
def execBandChange (s : State) : Host.Outcome State Fault Refusal :=
  .next (if !s.adcClock then s else if s.gb THM_STATUS_BAND_VALID ∧ s.thm.since.isSome ∧ s.thm.cand ≠ s.g THM_STATUS_BAND then s.setBand s.thm.cand else s)

/-! ### Rise limits (R292) -/

/-- A raise of the warning (bit 0) or the limit (bit 1) of sensor `i`, re-armed when the slope falls below its threshold.
The slope is `num` / `den` in 1/16 °C/s. -/
def State.riseTest (s : State) (i lim : Nat) (num den : Int) : State :=
  let th : Int := (s.g (if lim = 1 then THM_LIMITS_RISE_LIMIT else THM_LIMITS_RISE_WARN) : Nat)
  let m := if lim = 1 then s.thm.limited else s.thm.warned
  let set (v : Nat) : State :=
    if lim = 1 then { s with thm := { s.thm with limited := v } } else { s with thm := { s.thm with warned := v } }
  if th * den < num then
    if nbit m i then s else ((set (m ||| (1 <<< i))).assertFlt (324 - lim)).eventAll 0x0A04 (i + 256 * lim)
  else if num < th * den then set (m &&& (255 ^^^ (1 <<< i)))
  else s

/-- The readings kept of a sensor: those of the last 10 s and the one before them. -/
def keepHist (now : Nat) : List (Nat × Int) → List (Nat × Int)
  | [] => []
  | e :: t => if now < e.1 + 20000000000000 then e :: keepHist now t else [e]

/-- The slope of sensor `i` at a valid reading `t`: against the latest valid reading at least RISE_WIN old; SLOPE is the whole
number below it. -/
def State.slope (s : State) (i : Nat) (t : Int) : State :=
  let now := s.tb.tm
  let hist := s.thm.hist.toList.getD i []
  let win := s.g THM_LIMITS_RISE_WIN * 2000000000
  let s := if h : i < 8 then
      { s with thm := { s.thm with hist := s.thm.hist.set i (keepHist now ((now, t) :: hist)) } } else s
  match hist.find? (fun e => decide (e.1 + win ≤ now)) with
  | none => s
  | some e =>
    let num := (t - e.2) * 500000000000
    let den : Int := ((now - e.1 : Nat) : Int)
    if den = 0 then s
    else
      let v := num / den
      let s := if -32768 ≤ v ∧ v ≤ 32767 then s.pi (THM_TEMP_SLOPE i) v else (s.p (THM_TEMP_SLOPE i) s.freeVal).useFree
      (s.riseTest i 0 num den).riseTest i 1 num den

/-! ### Shutdown (R294) -/

/-- Every fast clock stops; the always-on domain alone runs on. -/
def State.gateAll (s : State) : State :=
  (({ s with pwr := { s.pwr with gatedAll := true } }.p (CLK_ON_ON 0) 1).p (CLK_ON_ON 1) 0).p (CLK_ON_ON 2) 0

/-- The sequence after t_r: DEN ← 0 on all channels, ERR_N asserted until reset, clocks stopped; a record that is not complete by
then stays torn (Table 13.4). -/
def State.shutdownEnd (s : State) : State :=
  let s := { s with thm := { s.thm with finalDue := none }, jnl := { s.jnl with prog := none } }
  let s := forEach (List.range 32) s (fun c s => s.cbStop c)
  (s.pb FLT_STATUS_ERR_N_LOW true).gateAll

/-- A reading of 125 °C or more: THM_SHUTDOWN asserts, no new record begins, every sequencer stops; a record in progress
completes first, for at most 5 µs (Table 13.4). -/
def State.thmShutdown (s : State) : State :=
  let s := { s with thm := { s.thm with shutdown := true }, jnl := { s.jnl with stop := true } }
  let s := (s.pb THM_STATUS_SHUTDOWN_SEEN true).assertFlt 322
  let s := forEach (List.range 32) s (fun k s => s.seqHalt k 4)
  if s.jnl.prog.isSome then { s with thm := { s.thm with finalDue := some (s.flt.tick + 150) } } else s.shutdownEnd

/-- A shutdown does not wait for a record longer than t0 + 5 µs, 150 ticks of the always-on domain (Table 13.4). -/
def State.shutdownDue (s : State) : State :=
  match s.thm.finalDue with
  | some t => if t ≤ s.flt.tick then s.shutdownEnd else s
  | none => s

/-! ### Readings -/

/-- A reading of sensor `i` in 1/64 °C (none: a free value) (R288, R289). -/
def State.thmReading (s : State) (i : Nat) (r : Option Int) : State :=
  let (t, s) := match r with
    | some t => (t, s)
    | none => (sgn 16 s.freeVal, s.useFree)
  let s := if -32768 ≤ t ∧ t ≤ 32767 then s.pi (THM_TEMP_T i) t else (s.p (THM_TEMP_T i) s.freeVal).useFree
  let was := s.gb (THM_TEMP_VALID i) || !nbit s.thm.seen i
  let s := { s with thm := { s.thm with seen := s.thm.seen ||| (1 <<< i) } }
  if t < -2560 ∨ 9600 < t then
    let s := (s.pb (THM_TEMP_VALID i) false).assertFlt (328 + i)
    if was then s.eventAll 0x0A05 i else s
  else
    let s := s.pb (THM_TEMP_VALID i) true
    let s := s.slope i (if s.bandSrc i ∧ s.gb THM_CFG_MODEL then s.bandT else t)
    if s.bandSrc i then
      let s := s.bandReading
      if 8000 ≤ t then s.thmShutdown else s
    else s

/-! ### The period (R288, R291) -/

/-- The consumers of Table 1.7 in mW with the clock domains of Table 17.2 that feed them. -/
def consumers : List (Nat × List Nat) :=
  [(20000, (List.range 32).map (· + 33)), (11000, (List.range 32).map (· + 1)), (4000, (List.range 16).map (· + 65)),
   (17000, (List.range 48).map (· + 81)), (6000, [133, 134]), (4000, [139, 140, 141, 142]), (5000, [135, 136, 137, 138]),
   (1500, [132]), (3000, [0, 129, 130, 131])]

/-- A clock domain runs or stops; one that stops has run during the period (R291). -/
def State.setDom (s : State) (d : Nat) (b : Bool) : State :=
  let s := if !b && s.domOn d then { s with thm := { s.thm with ran := s.thm.ran ||| 1 <<< d } } else s
  let v := s.g (CLK_ON_ON (d / 64))
  s.p (CLK_ON_ON (d / 64)) (maskOf 64 (fun i => if i = d % 64 then b else nbit v i))

/-- The power estimate in mW: each consumer's figure times the share of its domains that ran during the period (R291). -/
def State.powerEst (s : State) : Nat :=
  consumers.foldl (fun a c => a + c.1 * (c.2.filter (fun d => s.domOn d || nbit s.thm.ran d)).length / c.2.length) 0

/-- One update of the compatibility model, kept in 2⁻²⁰ of 1/64 °C (R291). -/
def State.modelStep (s : State) : State :=
  let m := s.thm.model
  let target := s.gi THM_MODEL_TAMB * 2 ^ 20 + ((s.powerEst * s.g THM_MODEL_RTH * 64 * 2 ^ 20 / 1000000 : Nat) : Int)
  let m := m + (target - m) * (s.g THM_CFG_PERIOD : Nat) / ((s.g THM_MODEL_TAU * 1000 : Nat) : Int)
  let s := { s with thm := { s.thm with model := m } }
  s.pi THM_STATUS_MODEL_T (max (-32768) (min 32767 (m / 2 ^ 20)))

/-- A new period begins: no domain that stands gated has run in it. -/
def State.clearRan (s : State) : State := { s with thm := { s.thm with ran := 0 } }

/-- THM_PERIOD: the model's update, and an Urgent request for each sensor that is not OFF. -/
def State.thmPeriod (s : State) : State :=
  if !s.adcClock then s
  else
    let s := if s.gb THM_CFG_MODEL then s.modelStep else s
    let s := s.clearRan
    let on := maskOf 8 (fun i => decide (s.g (THM_TS_CFG_TYPE i) ≠ 0))
    let s := s.inc ADC_COUNTS_THM_LATE (popN 8 (s.conv.urgent &&& on))
    let s := if on = 0 then s else s.demandWork adcDom
    { s with conv := { s.conv with urgent := s.conv.urgent ||| on } }.convServe

/-- THM_PERIOD. -/
def execThmPeriod (s : State) : Host.Outcome State Fault Refusal := .next s.thmPeriod

/-! ### The end of a conversion -/

/-- A scan entry has been converted (R285). -/
def State.scanEntry (s : State) (a : AcqArm) (rc : AcqRec) (r : AdcMeas) : State :=
  let e := a.list.getD rc.entries.length (0, 1)
  if !codesOk r.codes e.2 then s
  else if r.stall && a.staged then (s.countClips r.codes).acqStall
  else
    let (v, clip) := s.convMean r
    let fl := b2n s.conv.restarted + 2 * b2n clip
    let s := s.countClips r.codes
    let rc := { rc with entries := (v, e.1, fl) :: rc.entries, flags := rc.flags ||| (16 * b2n clip) }
    let s := { s with conv := { s.conv with rec_ := some rc, restarted := false } }
    (if rc.entries.length = a.post then s.acqClose 0 else s).convNext

/-- A conversion ends; the converter serves the next request. -/
def State.convDone (s : State) (r : AdcMeas) : State :=
  if !s.adcRuns then s
  else match s.conv.cls with
    | 1 =>
      let i := s.conv.sensor
      let s := s.countClips r.codes
      (if s.g (THM_TS_CFG_TYPE i) = 0 then s else s.thmReading i (s.sensorT i r.v10 r.v100)).convNext
    | 2 =>
      match s.conv.inj with
      | j :: t =>
        if !codesOk r.codes j.avg then s
        else
          let (v, clip) := s.convMean r
          let s := { s with conv := { s.conv with inj := t } }.countClips r.codes
          (s.finish j.cmd 0 (unsgn 16 v + 2 ^ 16 * s.conv.band + 2 ^ 18 * b2n j.restarted + 2 ^ 19 * b2n clip)).convNext
      | [] => s
    | 3 => if segOk r then (s.calSegment r).convNext else s
    | 4 =>
      match s.conv.arm, s.conv.rec_ with
      | some a, some rc => if a.scan then s.scanEntry a rc r else s
      | _, _ => s
    | _ => s

/-- ADC_CONVERSION_DONE. -/
def execAdcConversionDone (r : AdcMeas) (s : State) : Host.Outcome State Fault Refusal := .next (s.convDone r)

end Sys2Proof.Machine
end

