-- ==== Sys2Proof/Machine/Faults.lean ====
section
/-! DEFINITION. The fault collector: latching and order (R312, R313), marking (R314, R315), storms (R316), reactions (R317 to
R319), events (R320), ERR_N (R322), injection (R323) and user sources (R324). -/

namespace Sys2Proof.Machine

/-! ### Sources -/

/-- The group of lane `l` (Table 11.1). -/
def laneGroup (l : Nat) : Nat := if l < 8 then l / 2 else if l < 12 then 4 else l / 2 - 1

/-- `i` is among the sources `lo` to `hi`. -/
def inSrc (i lo hi : Nat) : Bool := decide (lo ≤ i) && decide (i ≤ hi)

/-- Source `a` is upstream of source `b` (Table 15.2, R354, Table 17.7); user sources have no upstream source (R324). -/
def upstream (a b : Nat) : Bool :=
  let sq := inSrc b 64 95
  let tim := inSrc b 96 127
  let vs := inSrc b 128 159
  if a = 320 then
    sq || tim || vs || inSrc b 272 275 || inSrc b 288 303 || inSrc b 304 310 || decide (b = 321) || inSrc b 384 391
  else if a = 322 then decide (b ≠ 322) && decide (b < 416)
  else if inSrc a 288 303 then decide (b = 304 + laneGroup (a - 288))
  else if a = 309 ∨ a = 310 then sq || decide (b = 321)
  else if a = 308 then decide (b = 362)
  else if inSrc a 268 275 || decide (a = 260) || decide (a = 259) then vs
  else if a = 354 then decide (b = 355)
  else if a = 359 then decide (b = 360)
  else if a = 384 then tim || sq || decide (b = 321)
  else if a = 385 then inSrc b 0 63 || vs || decide (b = 257)
  else if a = 387 then inSrc b 268 275 || vs || decide (b = 260)
  else if inSrc a 388 391 then
    let ls := (List.range 4).map (fun i => 4 * (a - 388) + i)
    ls.any (fun l => decide (b = 288 + l) || decide (b = 304 + laneGroup l))
  else false

/-! ### Status words -/

/-- ERR_N follows the pulse, ERR_HOLD, OUT and the shutdown sequence; while a shutdown waits for a record, OUT alone does not
drive it (R322, Table 13.4). -/
def State.errN (s : State) : State :=
  let low := s.flt.pulse.isSome || s.gb FLT_CTRL_ERR_HOLD || s.thm.shutdown || s.out
  let low := if s.thm.finalDue.isSome then s.flt.pulse.isSome || s.gb FLT_CTRL_ERR_HOLD || s.gb FLT_STATUS_ERR_N_LOW else low
  (s.pb FLT_STATUS_PULSE s.flt.pulse.isSome).pb FLT_STATUS_ERR_N_LOW low

/-! ### Marking (R314, R315) -/

/-- Two ticks lie within one window. -/
def near (a b : Nat) : Bool := decide (a ≤ b + 29) && decide (b ≤ a + 29)

/-- The upstream latch that decides the root of `l`: the one recorded first. -/
def upOf (win : List Latch) (l : Latch) : Option Latch :=
  win.find? (fun m => decide (m.forced = l.forced) && upstream m.src l.src && near m.tick l.tick)

/-- The root of a latch, followed through at most `n` upstream latches. -/
def rootOf (win : List Latch) : Nat → Latch → Nat
  | 0, l => l.src
  | n + 1, l => match upOf win l with
    | some m => if m.reported then m.root else rootOf win n m
    | none => l.src

/-- Every latch whose window is open is marked anew. -/
def markAll (now : Nat) (win : List Latch) : List Latch :=
  win.map (fun l => if l.tick + 29 < now ∨ l.reported then l
    else { l with conseq := (upOf win l).isSome, root := rootOf win 8 l })

/-- The marks of a latch appear in its CONSEQ bit while it stands, in its log entry and, within its window, in FLT_FE. -/
def State.showMark (s : State) (l : Latch) : State :=
  let g := l.src / 32
  let s := if l.conseq && !l.cleared then
      s.p (FLT_GRP_CONSEQ_CONSEQ g) (s.g (FLT_GRP_CONSEQ_CONSEQ g) ||| (1 <<< (l.src % 32))) else s
  let s := match l.log with
    | some k => (s.pb (FLT_LOG_INFO_CONSEQ k) l.conseq).p (FLT_LOG_INFO_ROOT k) l.root
    | none => s
  if s.flt.feWin ∧ s.gb FLT_FE_VALID ∧ l.tick = s.flt.feTick ∧ l.src = s.g FLT_FE_SOURCE ∧ l.forced = s.gb FLT_FE_FORCED then
    (s.pb FLT_FE_CONSEQ l.conseq).p FLT_FE_ROOT l.root
  else s

/-- Latches are marked and the marks shown. -/
def State.markShow (s : State) : State :=
  let s := { s with flt := { s.flt with win := markAll s.flt.tick s.flt.win } }
  forEach (s.flt.win.filter (fun l => decide (s.flt.tick ≤ l.tick + 29) && !l.reported)) s (fun l s => s.showMark l)

/-! ### Recording (R312, R313, R315, R316) -/

/-- An assertion or injection: source, FORCED, DRY. -/
structure Assert where
  src : Nat
  forced : Bool
  dry : Bool
deriving DecidableEq, Repr

/-- Set the latch bit of an assertion; a bit already 1 only counts a repeat. -/
def State.takeOne (s : State) (a : Assert) : State × Bool :=
  let g := a.src / 32
  let b := a.src % 32
  let f := if a.forced then FLT_GRP_FORCED_FORCED g else FLT_GRP_REAL_REAL g
  if nbit (s.g f) b then (s.inc (FLT_GRP_CNT_REPEATS g) 1, false) else (s.p f (s.g f ||| (1 <<< b)), true)

/-- All assertions of a tick are taken; the new latches are answered. -/
def State.takeAll (s : State) (as : List Assert) : State × List Assert :=
  as.foldl (fun (p : State × List Assert) a =>
    let (s, new) := p.1.takeOne a
    (s, if new then p.2 ++ [a] else p.2)) (s, [])

/-- The order of R313. -/
def State.before (s : State) (a b : Assert) : Bool :=
  let x := s.srcSev a.src
  let y := s.srcSev b.src
  if x ≠ y then decide (y < x) else if a.src ≠ b.src then decide (a.src < b.src) else !a.forced || b.forced

/-- A record in the fault log; the oldest entry is overwritten. -/
def State.logLatch (s : State) (l : Latch) : State × Nat :=
  let k := s.g FLT_LOG_PTR_NEXT
  let s := (s.p FLT_LOG_PTR_NEXT (k + 1)).pb FLT_LOG_PTR_WRAPPED (s.gb FLT_LOG_PTR_WRAPPED || decide (k = 63))
  let s := s.wr (FLT_LOG_INFO k) 0#64
  let s := ((s.p (FLT_LOG_INFO_SOURCE k) l.src).p (FLT_LOG_INFO_SEV k) l.sev).pb (FLT_LOG_INFO_FORCED k) l.forced
  let s := ((s.pb (FLT_LOG_INFO_STORM k) l.storm).p (FLT_LOG_INFO_ROOT k) l.root).p (FLT_LOG_INFO_TICK k) l.tick
  let s := (s.p (FLT_LOG_STAMP_LO_STAMP k) l.stamp.toNat).p (FLT_LOG_STAMP_HI_STAMP k) (l.stamp.toNat / 2 ^ 64)
  let win := s.flt.win.map (fun m => if m.log = some k then { m with log := none } else m)
  ({ s with flt := { s.flt with win := win } }, k)

/-- The first-error registers capture a record. -/
def State.feCapture (s : State) (l : Latch) (n : Nat) : State :=
  if s.gb FLT_FE_VALID then s
  else
    let s := s.wr FLT_FE 0#64
    let s := ((s.p FLT_FE_SOURCE l.src).p FLT_FE_ROOT l.root).p FLT_FE_SEV l.sev
    let s := ((s.pb FLT_FE_FORCED l.forced).pb FLT_FE_VALID true).p FLT_FE_SAME_TICK (min n 63)
    let s := (s.p FLT_FE_STAMP_LO_STAMP l.stamp.toNat).p FLT_FE_STAMP_HI_STAMP (l.stamp.toNat / 2 ^ 64)
    { s with flt := { s.flt with feTick := s.flt.tick, feWin := true } }

/-- The new latches of a tick, in order, are recorded; in a group in storm the log gets the first one only. -/
def State.recordAll (s : State) (new : List Assert) (storms : List Nat) (stamp : Stamp) : State :=
  let n := new.length
  forEach new.zipIdx s (fun p s =>
    let a := p.1
    let g := a.src / 32
    let storm := storms.contains g
    let l : Latch := ⟨a.src, a.forced, s.flt.tick, stamp, s.srcSev a.src, false, a.src, none, storm,
      s.gb (FLT_REACT_REPORT a.src), false, false⟩
    let first := !(new.take p.2).any (fun b => decide (b.src / 32 = g))
    let s := s.feCapture l n
    let (s, l) := if storm && !first then (s, l) else
      let (s, k) := s.logLatch l
      (s, { l with log := some k })
    { s with flt := { s.flt with win := s.flt.win ++ [l] } })

/-! ### The configuration shadow (Table 16.5) -/

/-- A register of the configuration shadow that is mirrored to a twin. -/
def shadowName : RegName → Bool
  | .PS_PERIOD | .PS_CTRL | .APG_CFG | .APG_X | .APG_XA | .APG_XLIM | .APG_XINC | .APG_Y | .APG_YA | .APG_YLIM | .APG_YINC
  | .APG_Z | .APG_ZA | .APG_ZLIM | .APG_ZINC | .APG_D | .APG_DB | .APG_DPOLY | .APG_DCMP | .APG_ASCR | .APG_DSCR
  | .APG_PINMASK | .WT_ENTRY | .CH_CFG | .CAP_CMP_CFG | .CAP_SITE_LIMIT | .CAP_SHUT_CFG | .CAP_SHUT_CH0 | .CAP_SHUT_CH1
  | .VS_CFG | .DSP_CFG | .PS_SQ_CTRL => true
  | _ => false

/-- A register of the local-only row. -/
def localName : RegName → Bool
  | .CAL_CFG | .CAL_CH_TAB | .CAL_CH_USER | .ADC_CORR | .LN_EQ | .TB_ASYM => true
  | _ => false

/-- A register that holds the state of a capture or stream arm. -/
def armName : RegName → Bool
  | .CAP_ARM_STATUS | .CAP_FCM_AREA | .CAP_SPILL_BASE | .CAP_SPILL_SIZE | .CAP_FCM_PTR | .CAP_SPILL_PTR | .CAP_RSEQ
  | .CAP_SITE_STATUS | .CAP_SITE_FAILS | .CAP_SITE_FIRST | .VS_STATUS | .VS_POS | .VS_COUNT | .VS_UR | .VS_ERR | .VS_CKPT
  | .VS_CKPT_LOOP | .VS_ARM_SRC | .VS_ARM_LEN | .VS_ARM_RING | .VS_ARM_DICT => true
  | _ => false

/-- The registers whose name satisfies `f`. -/
def regsOf (f : RegName → Bool) (t : Tab Word) : Tab Word :=
  t.filter (fun p => match regAt p.1 with
    | some (d, _) => f d.name
    | none => false)

/-! ### The recovery state (R335, R336) -/

/-- The recovery state as it stands, with its seal. -/
def State.recovSnap (s : State) : Recov :=
  { sealOk := true,
    seqno := match s.jnl.prog with
      | some r => r.seqno
      | none => s.jnl.next - 1,
    planId := s.plan.planId, hdrCrc := s.plan.hdrCrc, shadow := regsOf shadowName s.regs,
    local_ := regsOf localName s.regs, armRegs := regsOf armName s.regs, cs := Vector.ofFn (fun k : Fin 32 => (s.seqs[k]).cs),
    ckpts := Vector.ofFn (fun k : Fin 32 => (s.seqs[k]).ckpt),
    ckptFlags := Vector.ofFn (fun k : Fin 32 => match (s.seqs[k]).burst with
      | some b => (b.restartable, b.dirty, b.cmd)
      | none => (false, false, none)),
    vs := s.vs, arms := s.arms, ctxs := s.ctxs, disp := s.disp,
    runs := (List.range 48).filterMap (fun c => (s.core c).run), cmds := s.cmds, backlog := s.twin.backlog,
    streams := Vector.ofFn (fun k : Fin 32 => ((s.seqs[k]).burst).bind (·.stream)) }

/-- The recovery state of a reset that a RESET action began: the stream engines that were in a burst when the action stopped the
sequencers stand as they were then, so that the bursts restart with their streams (R117, R135, R318, R336). -/
def Recov.withHeld (r : Recov) (held : Option Recov) : Recov :=
  match held with
  | none => r
  | some h =>
    let was (v : Nat) : Bool := (h.vs.toList.getD v .zero).inBurst
    let vsReg (a : Nat) : Bool := decide (0x04000000 ≤ a) && decide (a < 0x04010000) && was (a / 0x1000 % 16)
    { r with
      vs := Vector.ofFn (fun v : Fin 16 => if was v.val then h.vs[v] else r.vs[v]),
      armRegs := sortBy (fun (a b : Nat × Word) => decide (a.1 ≤ b.1))
        (r.armRegs.filter (fun p => !vsReg p.1) ++ h.armRegs.filter (fun p => vsReg p.1)) }

/-! ### Reactions (R317 to R319) -/

/-- Every sequencer of Ward `w` stops and HALT is set; the Channel Blocks are left to the sequence of Table 13.4. -/
def State.stopWardSeqs (s : State) (w : Nat) : State :=
  let s := forEach (bitsOf 32 (s.ward w).seqMask) s (fun k s => s.seqReact k)
  forEach (List.range 8) s (fun q s => s.pb (WRD_QCTL_HALT w q) true)

/-- STOP_UNIT (Table 15.3). -/
def State.stopUnit (s : State) (i : Nat) : State :=
  if i < 96 then s.seqReact (i % 32)
  else if i < 128 then
    let s := s.cbStop (i - 96)
    match s.cbSeq (i - 96) with
    | some k => s.seqReact k
    | none => s
  else if i < 160 then
    let v := i % 16
    if s.gb (VS_STATUS_BOUND v) then s.seqReact (s.g (VS_STATUS_SEQ v)) else s
  else s

/-- DEN of every channel is driven to 0 without a clock, and every fast clock is gated (R318). -/
def State.refclkCut (s : State) : State :=
  s.denOff.gateAll

/-- The device leaves operation (R319); an ACTIVE twin member releases SIDE, holds TWIN_ACT low and sends TW_RELEASE (Table 16.8). With
a STANDBY that is a failover: no new record is begun (R330). -/
def State.leaveOperation (s : State) : State :=
  let s := s.pb FLT_STATUS_OUT true
  if s.role = 1 ∧ s.gb TWN_STATUS_SIDE then
    let s := { (s.pb TWN_STATUS_SIDE false).sendLink 4 0x5E [] with jnl := { s.jnl with stop := s.jnl.stop || s.paired } }
    s.setAct false
  else s

/-- The action code that a new latch takes (R318). -/
def State.actionOf (s : State) (a : Assert) : Nat :=
  let c := s.g (FLT_REACT_ACTION a.src)
  let c := if s.srcSev a.src = 3 ∧ c < 4 then 4 else c
  if c = 5 ∧ !a.forced ∧ (a.src = 320 ∨ a.src = 322) then 4 else c

/-- The reaction to a new latch: its action, then ERR_N. -/
def State.react (s : State) (a : Assert) : State :=
  if a.dry then s
  else
    let c := s.actionOf a
    let ran := (List.range 32).filter s.bursting
    let s := if c = 5 ∧ s.raHeld.isNone then { s with raHeld := some s.recovSnap } else s
    let shut := decide (a.src = 322) && !a.forced
    let s := if c = 1 then s.stopUnit a.src
      else if c = 2 then
        match s.fltWard a.src with
        | some w => s.stopWard w
        | none => s
      else if 3 ≤ c then forEach s.enabled s (fun w s => if shut then s.stopWardSeqs w else s.stopWard w)
      else s
    let s := if 4 ≤ c then s.leaveOperation else s
    let s := if c = 5 then
        let s := forEach ran s (fun k s => s.modSeq k (fun x => { x with burst := x.burst.map (fun b => { b with ended := none }) }))
        { s with flt := { s.flt with resetPend := true } }
      else s
    let s := if a.src = 320 ∧ !a.forced then s.refclkCut else s
    if s.gb (FLT_REACT_ERRN a.src) ∧ !shut then { s with flt := { s.flt with pulse := some (s.flt.tick + 64) } } else s

/-! ### The tick -/

/-- FAULT_TICK: the collector takes what has reached it; without REFCLK the time base counts this clock (R252, R312). -/
def State.faultTick (s : State) : State :=
  let s := if s.gb TB_STATUS_AON_CLOCK then { s with tb := { s.tb with fine := s.tb.fine + 2184533 * 2 ^ 48 } } else s
  let t := s.flt.tick + 1
  let as := (s.flt.pend.map (fun i => (⟨i, false, false⟩ : Assert))) ++ s.flt.inj.map (fun p => (⟨p.1, true, p.2⟩ : Assert))
  let s := { s with flt := { s.flt with
    tick := t, pend := [], inj := [], win := s.flt.win.filter (fun l => decide (t ≤ l.tick + 58)) } }
  let (s, new) := s.takeAll (as.filter (fun a => srcImplemented a.src))
  if new = [] then s
  else
    let new := sortBy s.before new
    let storms := (List.range 32).filter (fun g => decide (16 < (new.filter (fun a => decide (a.src / 32 = g))).length))
    let s := forEach storms s (fun g s =>
      (s.p FLT_STORM_STORM (s.g FLT_STORM_STORM ||| (1 <<< g))).inc (FLT_GRP_CNT_STORMS g) 1)
    let s := (s.recordAll new storms s.now).markShow
    (forEach new s (fun a s => s.react a)).fltShow.errN

/-! ### The end of a window (R315, R316, R320) -/

/-- ARG of a FAULT event (R320). -/
def Latch.arg (l : Latch) : Nat :=
  l.src + 2 ^ 10 * l.sev + 2 ^ 12 * b2n l.forced + 2 ^ 13 * b2n l.conseq + 2 ^ 16 * l.root

/-- The event of a latch whose window has ended: FAULT, or one FLT_STORM for its Ward, group and tick. `all` are the latches of
the window. -/
def State.reportLatch (s : State) (all : List Latch) (l : Latch) : State :=
  let w := s.fltWard l.src
  if !l.report then s
  else if l.storm then
    let same := all.filter (fun m => m.storm && decide (m.tick = l.tick) && decide (m.src / 32 = l.src / 32) &&
      decide (s.fltWard m.src = w))
    if (same.find? (·.report)) = some l then s.eventAt w 0x0C02 l.stamp (l.src / 32 + 256 * min same.length 255) else s
  else s.eventAt w 0x0C01 l.stamp l.arg

/-- FAULT_WINDOW_END: every latch of 29 ticks ago or more reports; a captured first error freezes. -/
def State.windowEnd (s : State) : State :=
  let t := s.flt.tick
  let all := s.flt.win
  let due := all.filter (fun l => decide (l.tick + 29 ≤ t) && !l.reported)
  let s := forEach due s (fun l s => s.reportLatch all l)
  let win : List Latch := s.flt.win.map (fun l => if l.tick + 29 ≤ t then { l with reported := true } else l)
  let s := { s with flt := { s.flt with win := win } }
  if s.flt.feWin && decide (s.flt.feTick + 29 ≤ t) then
    let s := { s with flt := { s.flt with feWin := false } }
    if s.gb FLT_FE_VALID then s.pb FLT_FE_FROZEN true else s
  else s

/-- FAULT_WINDOW_END. -/
def execFaultWindowEnd (s : State) : Host.Outcome State Fault Refusal := .next s.windowEnd

/-- ERR_N_PULSE_END: the pulse of R322 has lasted its 64 ticks. -/
def execErrNPulseEnd (s : State) : Host.Outcome State Fault Refusal :=
  .next (match s.flt.pulse with
    | some t => if t ≤ s.flt.tick then { s with flt := { s.flt with pulse := none } }.errN else s
    | none => s)

/-! ### Clearing, raising and injection (R321, R323, R324) -/

/-- The latches of the open windows that `f` chooses have been cleared: no later mark of theirs shows in FLT_GRP_CONSEQ. -/
def State.clearWin (s : State) (f : Latch → Bool) : State :=
  { s with flt := { s.flt with win := s.flt.win.map (fun l => { l with cleared := l.cleared || f l }) } }

/-- A unit reset clears the S2 latches of the given sources of the unit with their CONSEQ bits; a source of lower severity is
cleared by a write alone (R321, R368). -/
def State.clearSrcs (s : State) (l : List Nat) : State :=
  let l := l.filter (fun i => decide (2 ≤ s.srcSev i))
  (forEach l (s.clearWin (fun m => l.contains m.src)) (fun i s =>
    let g := i / 32
    let off (f : FRef) (s : State) : State := s.p f (s.g f &&& (0xFFFFFFFF ^^^ (1 <<< (i % 32))))
    off (FLT_GRP_CONSEQ_CONSEQ g) (off (FLT_GRP_FORCED_FORCED g) (off (FLT_GRP_REAL_REAL g) s)))).fltShow

/-- A write of `v` to FLT_GRP_REAL(g) or FLT_GRP_FORCED(g) clears latches of S0 and S1 sources; CONSEQ clears with the latch. -/
def State.clearGrp (s : State) (g : Nat) (forced : Bool) (v : Nat) : State :=
  let f := if forced then FLT_GRP_FORCED_FORCED g else FLT_GRP_REAL_REAL g
  let m := maskOf 32 (fun b => nbit v b && decide (s.srcSev (32 * g + b) < 2))
  let s := (s.p f (s.g f &&& (0xFFFFFFFF ^^^ m))).clearWin (fun l =>
    decide (l.forced = forced) && decide (l.src / 32 = g) && nbit m (l.src % 32))
  (s.p (FLT_GRP_CONSEQ_CONSEQ g) (s.g (FLT_GRP_CONSEQ_CONSEQ g) &&& s.grpBits g)).fltShow

/-- A write of `v` to FLT_RAISE(g) asserts user sources (R324). -/
def State.fltRaise (s : State) (g v : Nat) : State :=
  forEach (bitsOf 32 v) s (fun b s => s.assertFlt (32 * g + b))

/-- FE_REARM clears FLT_FE.VALID (R315). -/
def State.feRearm (s : State) : State :=
  { s.pb FLT_FE_VALID false with flt := { s.flt with feWin := false } }

/-- FLT_INJECT (R323). -/
def fltInject (c : Cmd) (s : State) : State :=
  let i := u c.args 0 2
  if c.args.length ≠ 8 ∨ !srcImplemented i ∨ 1 < u c.args 2 1 ∨ !zeros c.args 3 5 then s.refuse c 0x0D
  else if s.fltWard i ≠ some c.ward.val then s.refuse c 3
  else { s with flt := { s.flt with inj := s.flt.inj ++ [(i, decide (u c.args 2 1 = 1))] } }.completeArg c i

/-- FLT_INJECT. -/
def execFltInject (w : Fin 4) (q : Fin 8) (s : State) : Host.Outcome State Fault Refusal :=
  .next (s.runCmd w.val q.val 0x90 fltInject)

end Sys2Proof.Machine
end

