-- ==== Sys2Proof/Machine/Graph.lean ====
section
/-! DEFINITION. Flow contexts and the Dispatcher: graphs (R194 to R196), counters and completions (R197 to R201), grants (R202),
context states (R203 to R205) and batch posts (R174, R199). -/

namespace Sys2Proof.Machine

/-! ### Descriptors (Table 9.6) -/

/-- KIND is INBOX. -/
def Op.isInbox (o : Op) : Bool := decide (u o.desc 6 1 = 1)
/-- HOME. -/
def Op.home (o : Op) : Nat := u o.desc 8 1
/-- PIN. -/
def Op.pin (o : Op) : Bool := nbit (u o.desc 7 1) 2
/-- The successors of a descriptor. -/
def descSucc (d : List Byte) : List Nat := (List.range (min 8 (u d 0xA 2))).map (fun i => u d (0x10 + 2 * i) 2)

/-- An entry of a successor list occurs twice. -/
def hasDup : List Nat → Bool
  | [] => false
  | x :: t => t.contains x || hasDup t

/-- A descriptor breaks Table 9.6 or a rule of R196 that looks at it alone. -/
def descBad (count : Nat) (d : List Byte) : Bool :=
  let e := u d 0 4
  let inbox := decide (u d 6 1 = 1)
  let n := u d 0xA 2
  decide (e % 2 ≠ 0) || decide (e < 0x80) || decide (0x3FFFE < e) || decide (8 < u d 4 2) || decide (1 < u d 6 1) ||
    decide (7 < u d 7 1) || (decide (47 < u d 8 1) && decide (u d 8 1 ≠ 0xFF)) ||
    (if inbox then decide (u d 9 1 = 0) || decide (48 < u d 9 1) else decide (u d 9 1 ≠ 0)) ||
    decide (8 < n) || !zeros d 0xC 4 || !zeros d 0x38 8 || !zeros d (0x10 + 2 * min n 8) (16 - 2 * min n 8) ||
    (descSucc d).any (fun i => decide (count ≤ i)) || hasDup (descSucc d) || (nbit (u d 7 1) 2 && decide (u d 8 1 = 0xFF))

/-- The nodes of a graph that are left when every node without a predecessor has been removed `n` times. -/
def prune : Nat → List (Nat × List Nat) → List (Nat × List Nat)
  | 0, l => l
  | n + 1, l => prune n (l.filter (fun p => l.any (fun q => q.2.contains p.1)))

/-- Number of descriptors that name operation `i`. -/
def namedBy (ds : List (List Byte)) (i : Nat) : Nat := (ds.filter (fun d => (descSucc d).contains i)).length

/-! ### Slots (R194) -/

/-- The context holds its slots. -/
def Ctx.holds (x : Ctx) : Bool :=
  match x.st with
  | .loading => true
  | .active => true
  | .faulted => true
  | _ => false

/-- Every slot in use. -/
def State.slotsUsed (s : State) : List Nat := s.ctxs.flatMap (fun p => if p.2.holds then p.2.ops.map (·.slot) else [])

/-- Slots held by the contexts of Ward `w`. -/
def State.wardSlots (s : State) (w : Nat) : Nat :=
  (s.ctxs.filter (fun p => p.2.holds && decide (s.ctxWard p.1 = some w))).foldl (fun n p => n + p.2.ops.length) 0

/-! ### GRAPH_SUBMIT (R195, R196) -/

/-- The descriptors of a graph as the Dispatcher reads them, and the first that met an uncorrectable word (R220). -/
def State.graphRead (s : State) (off count : Nat) : State × List (List Byte) × Option Nat :=
  let r := (List.range count).foldl (fun (p : State × List (List Byte) × Option Nat) i =>
    let (t, b, hit) := p.1.busRead 0x80 (memBase 0 + off + 64 * i) 64
    (t, b :: p.2.1, if hit.ue ∧ p.2.2.isNone then some i else p.2.2)) (s, [], none)
  (r.1, r.2.1.reverse, r.2.2)

/-- A refusal that names a descriptor in FAULT_OP. -/
def State.graphRefuse (s : State) (c : Cmd) (status x : Nat) (op : Option Nat) : State :=
  let s := match op with
    | some i => s.modCtx x (fun y => { y with faultOp := i, faultStatus := 0 })
    | none => s
  s.refuse c status

/-- GRAPH_SUBMIT. An uncorrectable descriptor is answered by R220 before its fields are looked at. -/
def graphSubmit (c : Cmd) (s : State) : State :=
  let b := c.args
  let w := c.ward.val
  let x := u b 0 2
  let prod := u b 3 1
  let n := u b 4 2
  let off := u b 8 8
  if !s.plan.sealed then s.refuse c 8
  else if s.ctxWard x ≠ some w ∨ !s.ownsRange w 0 off (64 * n) then s.refuse c 3
  else
    let (s, ds, ue) := s.graphRead off n
    let foreign := ds.findIdx? (fun d => decide (u d 8 1 ≠ 0xFF) && decide (s.coreWard (u d 8 1) ≠ some w))
    let inboxes := (ds.filter (fun d => decide (u d 6 1 = 1))).length
    let bad := ds.zipIdx.findIdx? (fun p => descBad n p.1 || decide (u p.1 4 2 ≠ namedBy ds p.2))
    let st := (s.ctx x).st
    if ue.isSome then s.graphRefuse c 0x0D x ue
    else if foreign.isSome then s.graphRefuse c 3 x foreign
    else if b.length ≠ 16 ∨ u b 2 1 ≠ 0 ∨ 32 < prod ∨ n = 0 ∨ 8192 < n ∨ !zeros b 6 2 ∨ off % 64 ≠ 0 then s.refuse c 0x0D
    else if bad.isSome then s.graphRefuse c 0x0D x bad
    else if 1 < inboxes ∨ (inboxes = 0 ∧ prod ≠ 0) ∨ (inboxes = 1 ∧ prod = 0) ∨
        prune n ((ds.map descSucc).zipIdx.map (fun p => (p.2, p.1))) ≠ [] then s.refuse c 0x0D
    else if (st ≠ .empty ∧ st ≠ .done) ∨ 8 * (s.ward w).ctxCount < s.wardSlots w + n then s.refuse c 6
    else
      let used := s.slotsUsed
      let slots := ((List.range 8192).filter (fun i => !used.contains i)).take n
      let ops := (ds.zip slots).map (fun p => (⟨p.2, p.1, u p.1 4 2, .waiting, 0, 0, false⟩ : Op))
      let s := ((s.started c).demandWork dspDom).modCtx x (fun y => { y with
        st := .loading, args := b, ops := ops, producers := prod, doneOps := 0, cmd := some c.id, jseq := c.jseqN,
        lastTaken := 0, faultStatus := 0, faultOp := 0, failStatus := 0, failOp := 0 })
      { s with disp := { s.disp with marks := s.disp.marks.filter (fun p => !slots.contains p.1) } }

/-- GRAPH_SUBMIT. -/
def execGraphSubmit (w : Fin 4) (q : Fin 8) (s : State) : Host.Outcome State Fault Refusal :=
  .next (s.runCmd w.val q.val 0x50 graphSubmit)

/-! ### Ready items (R197, R198, R202) -/

/-- Operation `i` of context `x` changes. -/
def State.modOp (s : State) (x i : Nat) (f : Op → Op) : State :=
  s.modCtx x (fun y => { y with ops := y.ops.zipIdx.map (fun p => if p.2 = i then f p.1 else p.1) })

/-- An item becomes ready and takes the next age. -/
def State.addItem (s : State) (x i runNo : Nat) (batch : Option (List Byte)) : State :=
  { s with disp := { s.disp with items := s.disp.items ++ [(⟨x, i, runNo, batch, s.disp.age⟩ : Item)], age := s.disp.age + 1 } }

/-- An OPEN INBOX operation takes descriptors while it may: at most PAR runs ready or running, until the PRODUCERS-th LAST. -/
def State.takeInbox (s : State) (x i : Nat) : Nat → State
  | 0 => s
  | n + 1 =>
    let y := s.ctx x
    match y.inbox, y.ops[i]? with
    | d :: t, some o =>
      if u o.desc 9 1 ≤ o.active ∨ y.producers ≤ y.lastTaken then s
      else
        let s := s.modCtx x (fun y => { y with
          inbox := t, held := y.held ++ [(o.runs, d)], lastTaken := y.lastTaken + b2n (nbit (u d 3 1) 1) })
        let s := s.modOp x i (fun o => { o with runs := o.runs + 1, active := o.active + 1 })
        State.takeInbox (s.addItem x i o.runs (some d)) x i n
    | _, _ => s

/-- The operations of an ACTIVE context that have become ready or open, in increasing index. -/
def State.readyCtx (s : State) (x : Nat) : State :=
  if (s.ctx x).st ≠ .active then s
  else
    forEach (List.range (s.ctx x).ops.length) s (fun i s =>
      match (s.ctx x).ops[i]? with
      | none => s
      | some o =>
        if o.isInbox then
          let s := if o.st = .waiting ∧ o.dep = 0 then s.modOp x i (fun o => { o with st := .open }) else s
          if o.dep = 0 ∧ o.st ≠ .done then s.takeInbox x i 64 else s
        else if o.st = .waiting ∧ o.dep = 0 then (s.modOp x i (fun o => { o with st := .ready })).addItem x i 0 none
        else s)

/-- GRAPH_ACTIVE: the graph of context `c` has been loaded (R196); its operations become ready in the Dispatcher's next cycle, with
those of other contexts in increasing order (R202). -/
def execGraphActive (c : Fin 1024) (s : State) : Host.Outcome State Fault Refusal :=
  .next (if !s.ticksOf dspDom then s else if (s.ctx c.val).st = .loading then s.modCtx c.val (fun y => { y with st := .active }) else s)

/-! ### The end of a run (R190, R200, R204) -/

/-- ARG of a GRAPH_SUBMIT that ends (R203). -/
def Ctx.arg (x : Ctx) (outcome : Nat) : Nat := outcome + 256 * x.failStatus + 2 ^ 16 * x.failOp

/-- GRAPH_SUBMIT of a FAULTED context completes once no run of it remains (R204). -/
def State.ctxFaultEnd (s : State) (x : Nat) : State :=
  let y := s.ctx x
  match y.cmd with
  | some id =>
    if y.st = .faulted ∧ y.running = 0 then (s.modCtx x (fun y => { y with cmd := none })).finish id 0 (y.arg 1) else s
  | none => s

/-- ARG of CTX_FAULTED and OP_DONE (R204). -/
def runArg (x op status : Nat) : Nat := x + 2 ^ 10 * op + 2 ^ 23 * status

/-- The run of core `c` is over with a status: the core is IDLE, the run is counted, OP_DONE is sent if NOTIFY is 1. -/
def State.runOver (s : State) (c status : Nat) : State :=
  match (s.core c).run with
  | none => s
  | some r =>
    let s := s.modCore c (fun y => { y with st := .idle, run := none, stall := none })
    let s := s.p (AC_RUNS_RUNS c) (s.g (AC_RUNS_RUNS c) + 1)
    let s := if status = 0 then s else (s.p (AC_TRAP_STATUS c) status).p (AC_TRAP_SLOT c) r.slot
    let s := s.modCtx r.ctx (fun y => { y with running := y.running - 1, runsTotal := y.runsTotal + 1 })
    let s := match (s.ctx r.ctx).ops[r.op]? with
      | some o => if nbit (u o.desc 7 1) 1 then s.eventTo (s.ctxWard r.ctx) 0x0602 (runArg r.ctx r.op status) else s
      | none => s
    s.ctxFaultEnd r.ctx

/-- A batch is reported consumed to capture (R198, R205); one that an earlier arm posted frees nothing of the arm that stands. -/
def State.consume (s : State) (x : Nat) (d : List Byte) : State :=
  let s := s.modCtx x (fun y => { y with consumed := (y.consumed + 1) % 2 ^ 32 })
  let k := u d 2 1
  let spill := nbit (u d 3 1) 0
  if (s.arm k).stale.contains d then s.modArm k (fun a => { a with stale := a.stale.erase d })
  else match (s.arm k).posted.find? (fun b => decide (b.spill = spill) && decide (b.rseq = u d 8 4) && !b.consumed) with
    | some b => s.batchConsumed k spill b.start
    | none => s

/-- The FIFO can accept one more entry beside those already offered and those of stalled cores. -/
def State.fifoHas (s : State) : Bool :=
  decide (s.disp.fifo.length + s.disp.offers.length + (s.cores.toList.filter (fun y => y.stall.isSome)).length < 1024)

/-- Core `c` offers an entry; it is accepted in this cycle in core order (R200). -/
def State.offer (s : State) (c : Nat) (e : FifoEntry) : State :=
  { s with disp := { s.disp with offers := s.disp.offers ++ [(c, e)] } }

/-- The last run of an INBOX operation has succeeded as every other did, and the PRODUCERS-th LAST descriptor has been taken (R198). -/
def Ctx.inboxDone (x : Ctx) (i : Nat) : Bool :=
  match x.ops[i]? with
  | some o => decide (o.active ≤ 1) && !o.bad && decide (x.lastTaken = x.producers)
  | none => false

/-- The entry that the end of a run makes; the success of an INBOX run that is not the last makes none. -/
def State.runEntry (s : State) (r : RunInfo) (status : Nat) : Option FifoEntry :=
  if status ≠ 0 then some (.failure r.ctx r.op status)
  else match r.batch with
    | none => some (.completion r.ctx r.op)
    | some _ => if (s.ctx r.ctx).inboxDone r.op then some (.completion r.ctx r.op) else none

/-- The run of core `c` ends and its entry is accepted: a successful INBOX run's batch is consumed. -/
def State.runAccept (s : State) (c status : Nat) : State :=
  match (s.core c).run with
  | none => s
  | some r =>
    let e := s.runEntry r status
    let s := match r.batch with
      | none => s
      | some d =>
        let s := s.modOp r.ctx r.op (fun o => { o with active := o.active - 1, bad := o.bad || decide (status ≠ 0) })
        if status = 0 then
          (s.modCtx r.ctx (fun y => { y with held := y.held.filter (fun h => decide (h.1 ≠ r.runNo)) })).consume r.ctx d
        else s
    let s := match e with
      | some e => s.offer c e
      | none => s
    s.runOver c status

/-- The run of core `c` ends at ECALL or by a trap; with the FIFO full the core stalls until its entry is accepted (R200). -/
def State.runEnd (s : State) (c status : Nat) : State :=
  match (s.core c).run with
  | none => s
  | some r =>
    if (s.runEntry r status).isSome && !s.fifoHas then s.modCore c (fun y => { y with st := .stalled, stall := some status })
    else s.runAccept c status

/-- A trap of the instruction at `pc` ends the run of core `c`: AC_TRAP, AC_TRAP_PC and AC_TRAP_VAL hold the status, the pc and `val`
(R190, Table 9.12). -/
def State.coreTrapAt (s : State) (c status : Nat) (val pc : Word) : State :=
  match (s.core c).run with
  | none => s
  | some r =>
    let s := (s.p (AC_TRAP_STATUS c) status).p (AC_TRAP_SLOT c) r.slot
    let s := (s.wr (AC_TRAP_PC c) pc).wr (AC_TRAP_VAL c) val
    s.runEnd c status

/-- A trap of the instruction at the pc of core `c`. -/
def State.coreTrap (s : State) (c status : Nat) (val : Word) : State := s.coreTrapAt c status val (s.core c).pc

/-- The controller accepts a store of core `c` at device address `a` now; one that reaches no controller needs no room (R221). -/
def State.storeRoom (s : State) (c a : Nat) : Bool :=
  match memOf a with
  | some (0, o) => s.rangeBad o || s.dramRoom (0x40 + c) o
  | _ => true

/-- The oldest waiting store of core `c` is performed, once its queue has room; one that meets an uncorrectable word or a range error
ends the run that goes on with 0x87, at the pc of the store (R186, R190, R217, R219, R221). The flag tells that it is performed and the
run goes on. -/
def State.storeNext (s : State) (c : Nat) : State × Bool :=
  match (s.core c).stores with
  | [] => (s, true)
  | w :: t =>
    if !s.storeRoom c w.addr then (s, false)
    else
    let r := (s.modCore c (fun y => { y with stores := t })).busWrite (0x40 + c) w.addr (toLe w.size w.val)
    if r.2.range || r.2.ue then
      (if (r.1.core c).st = .running then r.1.coreTrapAt c 0x87 (BitVec.ofNat 64 w.addr) w.pc else r.1, false)
    else (r.1, true)

/-- The outside stores that core `c` has issued are performed, in order (R186); the flag tells that the run goes on. -/
def State.coreDrain (s : State) (c : Nat) : State × Bool :=
  (List.range (s.core c).stores.length).foldl (fun (acc : State × Bool) _ =>
    let r := acc.1.storeNext c
    (r.1, acc.2 && r.2)) (s, true)

/-! ### The slot store (R207) -/

/-- A run of context `x`, operation `i`, has failed with a status, or its slot has: FAULTED, no further grants (R204, R207). -/
def State.ctxFault (s : State) (x i st : Nat) : State :=
  let s := (s.modCtx x (fun y => { y with
    st := .faulted, faultStatus := st, faultOp := i, failStatus := st, failOp := i })).modOp x i (fun o => { o with st := .failed })
  let s := { s with disp := { s.disp with items := s.disp.items.filter (fun it => decide (it.ctx ≠ x)) } }
  (s.eventTo (s.ctxWard x) 0x0601 (runArg x i st)).ctxFaultEnd x

/-- The slot of operation `i` of context `x` is read: a corrected error is counted; an uncorrectable one faults the context with
0x94 (R207, R208). The flag tells that the slot can be used. -/
def State.slotRead (s : State) (x i : Nat) : State × Bool :=
  match (s.ctx x).ops[i]? with
  | none => (s, false)
  | some o =>
    match (tabGet none (s.disp.marks.map (fun p => (p.1, some p.2))) o.slot : Option EccMark) with
    | some .single => ((s.inc DSP_ECC_CORR 1).assertFlt 256, true)
    | some .multi => ((((s.pb DSP_ECC_UE true).p DSP_ECC_UE_SLOT o.slot).assertFlt 257).ctxFault x i 0x94, false)
    | _ => (s, true)

/-- The slots of several operations are read in order, up to one that cannot be used. -/
def State.slotsRead (s : State) (x : Nat) (l : List Nat) : State × Bool :=
  l.foldl (fun (acc : State × Bool) i => if acc.2 then acc.1.slotRead x i else acc) (s, true)

/-! ### The completion FIFO -/

/-- Decrements that an entry carries. -/
def State.entryCost (s : State) : FifoEntry → Nat
  | .completion x i => match (s.ctx x).ops[i]? with
    | some o => max 1 (descSucc o.desc).length
    | none => 1
  | _ => 1

/-- Every operation of an ACTIVE context has completed: DONE, slots released, GRAPH_SUBMIT completes (R203). -/
def State.ctxDone (s : State) (x : Nat) : State :=
  let y := s.ctx x
  if y.st = .active ∧ y.doneOps = y.ops.length then
    (s.modCtx x (fun y => { y with st := .done, cmd := none })).finishOpt y.cmd 0 0
  else s

/-- The Dispatcher processes an entry (R197, R199, R204). -/
def State.procEntry (s : State) : FifoEntry → State
  | .completion x i =>
    if (s.ctx x).st ≠ .active then s
    else
      let succ := ((s.ctx x).ops[i]?.map (fun o => descSucc o.desc)).getD []
      let r := s.slotsRead x (i :: succ)
      let s := r.1
      if !r.2 then s
      else
      let s := s.modCtx x (fun y => { y with doneOps := y.doneOps + 1, ops := y.ops.zipIdx.map (fun p =>
        let o := if p.2 = i then { p.1 with st := .done } else p.1
        if succ.contains p.2 then { o with dep := o.dep - 1 } else o) })
      s.ctxDone x
  | .post x d => s.modCtx x (fun y => { y with inbox := y.inbox ++ [d] })
  | .failure x i st =>
    if (s.ctx x).st ≠ .active then s else s.ctxFault x i st

/-- Entries are processed in FIFO order: at least one, and at most 16 counter updates in all; `used` counts them. -/
def State.procFifo (s : State) (used : Nat) : List FifoEntry → State
  | [] => { s with disp := { s.disp with fifo := [] } }
  | e :: t =>
    let c := s.entryCost e
    if used ≠ 0 ∧ 16 < used + c then { s with disp := { s.disp with fifo := e :: t } }
    else State.procFifo (s.procEntry e) (used + c) t

/-- The entries that core `c` has offered pass into the FIFO as far as it has room; the rest waits (R200). -/
def State.acceptOffers (s : State) (c : Nat) : State :=
  let mine : Nat × FifoEntry → Bool := fun o => decide (o.1 = c)
  let own := s.disp.offers.filter mine
  let room := 1024 - s.disp.fifo.length
  { s with disp := { s.disp with
    fifo := s.disp.fifo ++ (own.take room).map (·.2), offers := own.drop room ++ s.disp.offers.filter (fun o => !mine o) } }

/-- The entries of core `c` are accepted: what it has offered in this cycle, and what it is stalled with if there is room beside
what higher cores have offered (R200). -/
def State.acceptCore (s : State) (c : Nat) : State :=
  let s := s.acceptOffers c
  match (s.core c).stall with
  | some st => if s.disp.fifo.length + s.disp.offers.length < 1024 then (s.runAccept c st).acceptOffers c else s
  | none => s

/-- Entries of cores, in core order, then posts are accepted (R200). -/
def State.acceptAll (s : State) : State :=
  let s := forEach (List.range 48) s (fun c s => s.acceptCore c)
  let room := 1024 - s.disp.fifo.length
  let s := { s with disp := { s.disp with
    fifo := s.disp.fifo ++ (s.disp.posts.take room).map (fun (p : Nat × List Byte) => FifoEntry.post p.1 p.2), posts := s.disp.posts.drop room } }
  s.p DSP_STATUS_FIFO_HIGH (max (s.g DSP_STATUS_FIFO_HIGH) s.disp.fifo.length)

/-! ### Grants (R189, R202) -/

/-- Core `c` takes an item: mailbox and registers as R189 gives them; an item whose slot cannot be read is not granted (R207). -/
def State.grantRun (s : State) (c : Nat) (it : Item) (moved : Bool) : State :=
  match (s.ctx it.ctx).ops[it.op]? with
  | none => s
  | some o =>
    let r := s.slotRead it.ctx it.op
    if !r.2 then r.1
    else
    let s := { r.1 with disp := { r.1.disp with items := r.1.disp.items.filter (fun i => decide (i ≠ it)) } }
    let s := s.lmStore (coreMem c) ((it.batch.getD (List.replicate 32 0#8)) ++ List.replicate 32 0#8 ++ o.desc)
    let arg (i : Nat) : Word := BitVec.ofNat 64 (u o.desc (0x20 + 8 * i) 8)
    let regs := ([(10, BitVec.ofNat 64 it.ctx), (11, BitVec.ofNat 64 it.op), (12, arg 0), (13, arg 1), (14, arg 2),
      (15, 0xFFFFFFFFFFFC0000#64), (16, BitVec.ofNat 64 it.runNo)] : List (Nat × Word))
    let x : Vector Word 32 := regs.foldl (fun v p => if h : p.1 < 32 then v.set p.1 p.2 else v) (.replicate 32 0#64)
    let s := s.modCore c (fun y => { y with
      st := .running, x := x, pc := BitVec.ofNat 64 (0xFFFFFFFFFFFC0000 + u o.desc 0 4), wait := 0, cycles := 0,
      run := some ⟨it.ctx, it.op, o.slot, it.runNo, it.batch⟩ })
    let s := (s.p (AC_STATUS_SLOT c) o.slot).p (AC_STATUS_CTX c) it.ctx
    let s := if moved then s.p (AC_RUNS_MIGRATED c) (s.g (AC_RUNS_MIGRATED c) + 1) else s
    let s := s.modCtx it.ctx (fun y => { y with running := y.running + 1 })
    let s := s.demandWork (acDom c)
    if o.isInbox then s else s.modOp it.ctx it.op (fun o => { o with st := .running })

/-- The condition of a grant step. -/
def stepCond (step c : Nat) (o : Op) : Bool :=
  match step with
  | 1 => decide (o.home = c) || decide (o.home = 0xFF)
  | 2 => !o.pin && decide (o.home / 8 = c / 8)
  | _ => !o.pin

/-- The oldest item that core `c` may take in a step. -/
def State.candidateItem (s : State) (step c : Nat) : Option Item :=
  (s.disp.items.filter (fun it => (s.ctxWard it.ctx).isSome && decide (s.ctxWard it.ctx = s.coreWard c) &&
    decide ((s.ctx it.ctx).st = .active) && (((s.ctx it.ctx).ops[it.op]?.map (stepCond step c)).getD false))).foldl
    (fun best it => match best with
      | some b => if it.age < b.age then some it else some b
      | none => some it) none

/-- The grants of one Dispatcher cycle. -/
def State.grants (s : State) : State :=
  if s.out then s
  else
    forEach [1, 2, 3] s (fun step s => forEach (List.range 48) s (fun c s =>
      let y := s.core c
      if y.st ≠ .idle ∨ (s.coreWard c).isNone ∨ (1 < step ∧ y.wait < s.g DSP_CFG_AFFINITY_WAIT) then s
      else match s.candidateItem step c with
        | some it => s.grantRun c it (decide (1 < step))
        | none => s))

/-- The oldest waiting store of each core is performed, unless an earlier request of the core waits for a queue (R186, R221). -/
def State.drainStores (s : State) : State :=
  forEach (List.range 48) s (fun c s => if s.memWaits (0x40 + c) ∨ !s.domOn (acDom c) then s else (s.storeNext c).1)

/-- What two core cycles bring each core: time of the run, AC_BUSY, stall count and wait count (R188, R202). -/
def State.coreTime (s : State) (c : Nat) : State :=
  let y := s.core c
  match y.st with
  | .idle => if (s.coreWard c).isNone then s else s.modCore c (fun y => { y with wait := min 65535 (y.wait + 2) })
  | .running => if !s.domOn (acDom c) then s else (s.modCore c (fun y => { y with cycles := y.cycles + 2 })).p (AC_BUSY_CYCLES c) (s.g (AC_BUSY_CYCLES c) + 2)
  | .stalled => (s.inc DSP_STALL_CORE 2).p (AC_BUSY_CYCLES c) (s.g (AC_BUSY_CYCLES c) + 2)

/-- DISPATCHER_CYCLE: entries are accepted and processed, items become ready, grants are made (R200 to R202). -/
def State.dispCycle (s : State) : State :=
  if !s.ticksOf dspDom then s
  else
    let s := s.drainStores.acceptAll
    let s := s.procFifo 0 s.disp.fifo
    let s := forEach (s.ctxs.map (·.1)) s (fun x s => s.readyCtx x)
    let s := s.grants
    let s := if s.disp.posts = [] then s else s.inc DSP_STALL_POST 1
    forEach (List.range 48) s (fun c s => s.coreTime c)

/-- DISPATCHER_CYCLE. -/
def execDispatcherCycle (s : State) : Host.Outcome State Fault Refusal := .next s.dispCycle

/-- OP_TIMEOUT: the run of core `c` has lasted longer than OP_TIMEOUT and ends at once, the core is IDLE (R191); with the FIFO full its
entry waits among those offered (R200). -/
def execOpTimeout (c : Fin 48) (s : State) : Host.Outcome State Fault Refusal :=
  .next (if !s.ticksOf dspDom then s else if s.g DSP_CFG_OP_TIMEOUT ≠ 0 ∧ (s.core c.val).st = .running then s.runAccept c.val 0x91 else s)

/-! ### CTX_RESET (R205) -/

/-- What the reset of context `x` discards: runs end with 0x92, every posted batch is reported consumed, the slots are released. -/
def State.ctxPurge (s : State) (x : Nat) : State :=
  let s := forEach (List.range 48) s (fun c s =>
    if ((s.core c).run.map (·.ctx)) = some x then s.runOver c 0x92 else s)
  let y := s.ctx x
  let own : FifoEntry → Option (List Byte) := fun e => match e with
    | .post z d => if z = x then some d else none
    | _ => none
  let ofX : FifoEntry → Bool := fun e => match e with
    | .completion z _ => decide (z = x)
    | .post z _ => decide (z = x)
    | .failure z _ _ => decide (z = x)
  let batches := y.held.map (·.2) ++ y.inbox ++ s.disp.fifo.filterMap own ++
    (s.disp.posts.filter (fun p => decide (p.1 = x))).map (·.2)
  let s := { s with disp := { s.disp with
    fifo := s.disp.fifo.filter (fun e => !ofX e), offers := s.disp.offers.filter (fun o => !ofX o.2),
    posts := s.disp.posts.filter (fun p => decide (p.1 ≠ x)), items := s.disp.items.filter (fun i => decide (i.ctx ≠ x)) } }
  forEach batches (s.modCtx x (fun y => { y with ops := [], held := [], inbox := [], doneOps := 0, lastTaken := 0, producers := 0 }))
    (fun d s => s.consume x d)

/-- CTX_RESET. -/
def ctxReset (c : Cmd) (s : State) : State :=
  let x := u c.args 0 2
  if !s.plan.sealed then s.refuse c 8
  else if s.ctxWard x ≠ some c.ward.val then s.refuse c 3
  else if c.args.length ≠ 8 ∨ !zeros c.args 2 6 then s.refuse c 0x0D
  else
    let s := ((s.started c).demandWork dspDom).modCtx x (fun y => { y with st := .resetting, resetCmds := y.resetCmds ++ [c.id] })
    let s := s.ctxPurge x
    match (s.ctx x).cmd with
    | some id => (s.modCtx x (fun y => { y with cmd := none })).finish id 0 ((s.ctx x).arg 2)
    | none => s

/-- CTX_RESET. -/
def execCtxReset (w : Fin 4) (q : Fin 8) (s : State) : Host.Outcome State Fault Refusal :=
  .next (s.runCmd w.val q.val 0x51 ctxReset)

/-- CTX_RESET_COMPLETE: the context is EMPTY, CTX_RESET completes. -/
def execCtxResetComplete (c : Fin 1024) (s : State) : Host.Outcome State Fault Refusal :=
  .next (if !s.ticksOf dspDom then s else let y := s.ctx c.val
    if y.st = .resetting then
      forEach y.resetCmds (s.modCtx c.val (fun y => { y with st := .empty, resetCmds := [], faultStatus := 0, faultOp := 0, failStatus := 0, failOp := 0 }))
        (fun id s => s.finishF id 0)
    else s)

/-! ### Batch posts (R174, R199) -/

/-- Places of the inbox of context `x` that are taken or reserved. -/
def State.inboxUsed (s : State) (x : Nat) : Nat :=
  (s.ctx x).inbox.length + (s.disp.posts.filter (fun p => decide (p.1 = x))).length +
    (s.disp.fifo.filter (fun e => match e with
      | .post z _ => decide (z = x)
      | _ => false)).length

/-- BATCH_POST: the oldest closed batch of sequencer `k` reserves a place in its context's inbox, if there is one. -/
def State.batchPost (s : State) (k : Nat) : State :=
  match (s.arm k).closed with
  | [] => s
  | b :: t =>
    let x := s.g (CAP_ARM_STATUS_CTX k)
    if !s.gb (CAP_ARM_STATUS_HAS_CTX k) ∨ (s.ctx x).st = .resetting ∨ 64 ≤ s.inboxUsed x then s
    else
      let d := s.batchDesc k b
      let s := s.modArm k (fun a => { a with closed := t, posted := a.posted ++ [b] })
      let s := s.p (CAP_RSEQ_BATCHES k) (s.g (CAP_RSEQ_BATCHES k) + 1)
      let s := s.modCtx x (fun y => { y with posted := (y.posted + 1) % 2 ^ 32 })
      let s := { s with disp := { s.disp with posts := s.disp.posts ++ [(x, d)] } }
      ((s.mirror 0x56 d).demandWork dspDom).disarmTry k

/-- BATCH_POST. -/
def execBatchPost (k : Fin 32) (s : State) : Host.Outcome State Fault Refusal := .next (if !s.ticksOf capDom then s else s.batchPost k.val)

end Sys2Proof.Machine
end

