-- ==== Sys2Proof/Machine/Plan.lean ====
section
/-! DEFINITION. The Townplan: validation in check order (R22 to R31, R397, R398), application (R38), the restore check
(R39), and the Townplan commands (R33 to R37, R55). -/

namespace Sys2Proof.Machine

/-! ### Reading an image -/

/-- Where a Plan Store slot begins in the non-volatile memory: A, then B. -/
def slotBase (b : Bool) : Nat := if b then 2097152 else 0

/-- Where the system rows begin, behind the 16 MiB: the ring of 128 slot descriptors, the key slots, REQUIRE_SIG (R326; their order is
a DESIGN CHOICE, log 127). -/
def sysRows : Nat := 16777216

/-- The row of the slot descriptor of the `n`th commit. -/
def descRow (n : Nat) : Nat := sysRows + 64 * (n % 128)

/-- The row of key slot `k`; REQUIRE_SIG has the row behind both. -/
def keyRow (k : Nat) : Nat := sysRows + 8192 + 64 * k

/-- A little-endian number of `n` bytes at image offset `o`. -/
def State.iu (s : State) (base o n : Nat) : Nat := leNat (s.nvLd (base + o) n)

/-- The first nonzero byte of image range `[a, b)`; the stored bytes are searched, not the range. -/
def State.firstNonzero (s : State) (base a b : Nat) : Option Nat :=
  (s.nvm.find? (fun p => decide (base + a ≤ p.1) && decide (p.1 < base + b) && decide (p.2 ≠ 0#8))).map (fun p => p.1 - base)

/-- A section table entry (Table 2.2). -/
structure Sect where
  idx : Nat
  type : Nat
  off : Nat
  len : Nat
  crc : Nat
deriving DecidableEq, Repr

/-- The section table. -/
def State.sects (s : State) (base : Nat) : List Sect :=
  (List.range (s.iu base 0x24 2)).map (fun i =>
    let e := 0x80 + 16 * i
    ⟨i, s.iu base e 2, s.iu base (e + 4) 4, s.iu base (e + 8) 4, s.iu base (e + 12) 4⟩)

/-- A failed check: code, SECTION, OFFSET (R398). -/
abbrev Diag := Option (Nat × Nat × Nat)

/-- The first failure of a list of checks. -/
def firstDiag (l : List Diag) : Diag := l.findSome? id

/-- One check: code and position where the condition fails. -/
def chk (bad : Bool) (code sec off : Nat) : Diag := if bad then some (code, sec, off) else none

/-! ### Register blocks (Table 2.6, R27) -/

/-- The words of a section's register blocks: image offset, register address, value; none when the blocks do not fill
the body exactly. `n` bounds the blocks. -/
def State.regWords (s : State) (base fin : Nat) : Nat → Nat → Option (List (Nat × Nat × Nat) × List Nat)
  | 0, o => if o = fin then some ([], []) else none
  | n + 1, o =>
    if o = fin then some ([], [])
    else if fin < o + 16 then none
    else
      let cnt := s.iu base (o + 8) 4
      let a := s.iu base o 8
      if fin < o + 16 + 8 * cnt then none
      else
        match State.regWords s base fin n (o + 16 + 8 * cnt) with
        | none => none
        | some (ws, hs) =>
          some ((List.range cnt).map (fun j => (o + 16 + 8 * j, a + 8 * j, s.iu base (o + 16 + 8 * j) 8)) ++ ws, o :: hs)

/-- The section types that carry register blocks. -/
def blockType (t : Nat) : Bool := t = 0x20 || t = 0x30 || t = 0x31 || t = 0x40

/-- The words of a section that carries register blocks; none of any other. -/
def State.sectWords (s : State) (base : Nat) (x : Sect) : List (Nat × Nat × Nat) :=
  match s.regWords base (x.off + x.len) (x.len / 16 + 1) x.off with
  | some (ws, _) => ws
  | none => []

/-- The RWP fields of a register, with those that depend on the source (R325). -/
def rwpFields (d : RegDesc) (ix : List Nat) : List Fld :=
  match d.name, ix with
  | .FLT_REACT, [i] =>
    if 416 ≤ i then d.flds
    else if srcImplemented i then d.flds.filter (fun f => decide (f.hi < 6))
    else []
  | .CLK_EN, [2] => [fld 14 0 .rwp 0x7FFF]
  | .CLK_KEEP, [2] => [fld 14 0 .rwp 0]
  | _, _ => d.flds.filter (fun f => decide (f.acc = .rwp))

/-- The mask of a list of fields. -/
def fldMask (l : List Fld) : Nat := l.foldl (fun m f => m ||| ((2 ^ (f.hi + 1 - f.lo) - 1) <<< f.lo)) 0

/-- The register names a section type may set (R27). -/
def sectSets (t : Nat) (n : RegName) : Bool :=
  match t, n with
  | 0x20, .CLK_EN => true
  | 0x20, .CLK_KEEP => true
  | 0x20, .CLK_CLASS => true
  | 0x30, .APG_XMAP => true
  | 0x31, .PS_SQ_ENROL => true
  | 0x31, .PS_SQ_TRIG => true
  | 0x40, .FLT_REACT => true
  | 0x40, .FLT_CFG => true
  | _, _ => false

/-- The sub-fields of a Crossing map entry hold defined encodings (Tables 5.5, 5.6). -/
def xmapLegal (v : Nat) : Bool :=
  (List.range 8).all (fun i =>
    let x := nbits (7 * i + 6) (7 * i) v
    !(x = 0x3E || x = 0x3F)) && decide (nbits 58 56 v ≤ 4) && decide (nbits 60 59 v ≤ 2)

/-- A word of a register block is right: a register its section sets, only RWP bits, defined encodings. -/
def wordOk (t a v : Nat) : Bool :=
  match regAt a with
  | none => false
  | some (d, ix) =>
    let fs := rwpFields d ix
    sectSets t d.name && !fs.isEmpty && decide (v &&& ((2 ^ 64 - 1) ^^^ fldMask fs) = 0) &&
      fs.all (fun f => decide (f.legLo ≤ nbits f.hi f.lo v) && decide (nbits f.hi f.lo v ≤ f.legHi)) &&
      (decide (d.name ≠ .APG_XMAP) || xmapLegal v)

/-! ### Records -/

/-- A Ward record of the WARDS body (Table 2.4). -/
def State.readWard (s : State) (base o : Nat) : WardRec :=
  { enable := decide (s.iu base o 1 = 1), port := s.iu base (o + 1) 1, ctxBase := s.iu base (o + 2) 2,
    ctxCount := s.iu base (o + 4) 2, seqMask := s.iu base (o + 8) 4, cbMask := s.iu base (o + 0xC) 4,
    vsMask := s.iu base (o + 0x10) 2, acMask := s.iu base (o + 0x18) 8, sqMask := s.iu base (o + 0x20) 8,
    fltMask := s.iu base (o + 0x40) 128 }

/-- The section of a type. -/
def sectOf (l : List Sect) (t : Nat) : Option Sect := l.find? (fun x => decide (x.type = t))

/-- The four Ward records of an image. -/
def State.imgWards (s : State) (base : Nat) (l : List Sect) : List WardRec :=
  match sectOf l 0x10 with
  | some x => (List.range 4).map (fun w => s.readWard base (x.off + 256 * w))
  | none => []

/-- The region records of an image. -/
def State.imgRegions (s : State) (base : Nat) (l : List Sect) : List (Nat × Region) :=
  match sectOf l 0x21 with
  | some x => (List.range (x.len / 32)).map (fun i =>
      let o := x.off + 32 * i
      (o, ⟨s.iu base o 1, s.iu base (o + 1) 1, s.iu base (o + 8) 8, s.iu base (o + 16) 8⟩))
  | none => []

/-- The ownership records of an image. -/
def State.imgResources (s : State) (base : Nat) (l : List Sect) : List (Nat × Resource) :=
  match sectOf l 0x50 with
  | some x => (List.range (x.len / 8)).map (fun i =>
      let o := x.off + 8 * i
      (o, ⟨s.iu base o 1, s.iu base (o + 1) 1, s.iu base (o + 2) 1,
        if s.iu base (o + 3) 1 = 1 then some (s.iu base (o + 4) 1) else none⟩))
  | none => []

/-- CB_OWNER of an image. -/
def State.imgCbOwner (s : State) (base : Nat) (l : List Sect) (k : Nat) : Option Nat :=
  match sectOf l 0x11 with
  | some x => if s.iu base (x.off + k) 1 = 0xFF then none else some (s.iu base (x.off + k) 1)
  | none => none

/-! ### The checks -/

/-- PLAN_FORMAT (R31). -/
def State.chkFormat (s : State) (b : Nat) : Diag :=
  let n := s.iu b 0x24 2
  firstDiag ([chk (s.iu b 4 2 ≠ 1) 3 0xFF 4, chk (s.iu b 6 2 ≠ 0x80) 3 0xFF 6, chk (s.iu b 0x28 4 ≠ 0x80) 3 0xFF 0x28,
    chk (n = 0 ∨ 32 < n) 3 0xFF 0x24] ++
    (if 32 < n then [] else (List.range n).map (fun i =>
      chk (0x90 + 16 * i ≤ s.iu b 0xC 4 ∧ s.iu b (0x82 + 16 * i) 2 ≠ 1) 3 i (0x82 + 16 * i))))

/-- PLAN_LAYOUT: R22, R24 and the reserved header bytes; header fields in increasing offset, then the section table in
order, then the bytes between parts (Table 2.16). -/
def State.chkLayout (s : State) (b : Nat) : Diag :=
  let l := s.sects b
  let size := s.iu b 0xC 4
  let signed := s.iu b 0x26 2 % 2 = 1
  let sig := s.iu b 0x2C 4
  let slot := s.iu b 0x30 1
  let tabEnd := 0x80 + 16 * l.length
  let last := match l.getLast? with
    | some x => roundUp 64 (x.off + x.len)
    | none => tabEnd
  -- where an entry lies beyond the image, its bytes take no part in the check of a header field (R35, R398)
  let fits := decide (tabEnd ≤ size)
  let limit := if signed then sig else size
  let hdr : List Diag :=
    [chk (if signed then size ≠ sig + 64 else fits ∧ size ≠ last) 6 0xFF 0xC,
     chk (2 ≤ s.iu b 0x26 2) 6 0xFF 0x26,
     chk (if signed then fits ∧ sig ≠ last else sig ≠ 0) 6 0xFF 0x2C,
     chk (if signed then 1 < slot else slot ≠ 0) 6 0xFF 0x30,
     (s.firstNonzero b 0x31 0x7C).map (fun o => (6, 0xFF, o))]
  let ent := l.map (fun x =>
    let prev := match l.getD (x.idx - 1) x with
      | y => if x.idx = 0 then tabEnd else y.off + y.len
    chk (size < 0x90 + 16 * x.idx ∨ x.off % 64 ≠ 0 ∨ x.off < prev ∨ limit < x.off + x.len ∨
      (l.take x.idx).any (fun y => decide (y.type = x.type))) 6 x.idx (0x80 + 16 * x.idx))
  let gaps := l.map (fun x =>
    let prev := match l.getD (x.idx - 1) x with
      | y => if x.idx = 0 then tabEnd else y.off + y.len
    (s.firstNonzero b prev x.off).map (fun o => ((6 : Nat), (0xFF : Nat), o)))
  let tail := match l.getLast? with
    | some x => (s.firstNonzero b (x.off + x.len) last).map (fun o => ((6 : Nat), (0xFF : Nat), o))
    | none => none
  firstDiag (hdr ++ ent ++ gaps ++ [tail])

/-- PLAN_SECT_CRC. -/
def State.chkSectCrc (s : State) (b : Nat) : Diag :=
  firstDiag ((s.sects b).map (fun x => chk (crc32c (s.nvLd (b + x.off) x.len) ≠ x.crc ∨ s.nvBad (b + x.off) x.len) 7 x.idx x.off))

/-- The key of slot `k`. -/
def PlanStore.key (st : PlanStore) (k : Nat) : Option (List Byte) := if k = 0 then st.key0 else st.key1

/-- PLAN_SIG_MISSING, PLAN_KEY_EMPTY, PLAN_SIG_BAD (R29). -/
def State.chkSig (s : State) (b : Nat) : Diag :=
  if s.iu b 0x26 2 % 2 = 1 then
    let sig := s.iu b 0x2C 4
    match s.store.key (s.iu b 0x30 1) with
    | none => some (9, 0xFF, 0x30)
    | some k => chk (!ecdsaVerify k (s.nvLd (b + sig) 64) (s.nvLd b sig) ∨ s.nvBad b (sig + 64) ∨
        s.nvBad (keyRow (s.iu b 0x30 1)) 64) 0xA 0xFF sig
  else chk s.store.requireSig 8 0xFF 0x26

/-- The types of Table 2.3 and the required ones among them. -/
def knownTypes : List Nat := [0x01, 0x10, 0x11, 0x20, 0x21, 0x30, 0x31, 0x40, 0x50, 0x60]
/-- The required types. -/
def requiredTypes : List Nat := [0x10, 0x11, 0x20, 0x21, 0x60]

/-- PLAN_SECT_MISSING. -/
def chkMissing (l : List Sect) : Diag :=
  firstDiag (chk (!requiredTypes.all (fun t => (sectOf l t).isSome)) 0xB 0xFF 0x80 ::
    l.map (fun x => chk (!knownTypes.contains x.type) 0xB x.idx (0x80 + 16 * x.idx)))

/-- The LENGTH is one that the type allows (R25). -/
def State.lenOk (s : State) (b : Nat) (x : Sect) : Bool :=
  match x.type with
  | 0x01 => decide (x.len = 64)
  | 0x60 => decide (x.len = 64)
  | 0x10 => decide (x.len = 1024)
  | 0x11 => decide (x.len = 32)
  | 0x21 => decide (x.len % 32 = 0) && decide (32 ≤ x.len) && decide (x.len ≤ 2048)
  | 0x50 => decide (x.len % 8 = 0) && decide (8 ≤ x.len) && decide (x.len ≤ 2048)
  | _ => decide (0 < x.len) && (s.regWords b (x.off + x.len) (x.len / 16 + 1) x.off).isSome

/-- The number of instances of an ownership class (Table 2.7). -/
def classSize : Nat → Nat
  | 1 => 8 | 2 => 8 | 3 => 4 | 4 => 32 | 5 => 16 | 6 => 1 | _ => 0

/-- The image bytes `[o, o+n)` are 0. -/
def State.iz (s : State) (b o n : Nat) : Bool := (s.firstNonzero b o (o + n)).isNone

/-- PLAN_FIELD of one section; `seen` are the register addresses of earlier sections (R27). -/
def State.chkFieldSect (s : State) (b : Nat) (seen : List Nat) (x : Sect) : Diag :=
  if !s.lenOk b x then some (0xC, x.idx, 0x88 + 16 * x.idx)
  else match x.type with
  | 0x10 => firstDiag ((List.range 4).map (fun w =>
      let o := x.off + 256 * w
      let en := s.iu b o 1
      chk (1 < en ∨ (en = 0 ∧ !s.iz b o 256) ∨ 3 < s.iu b (o + 1) 1 ∨ 1024 < s.iu b (o + 4) 2 ∨ !s.iz b (o + 6) 2 ∨
        !s.iz b (o + 0x12) 6 ∨ !s.iz b (o + 0x1E) 2 ∨ !s.iz b (o + 0x28) 24 ∨ !s.iz b (o + 0xC0) 64) 0xC x.idx o))
  | 0x11 => firstDiag ((List.range 32).map (fun k =>
      let v := s.iu b (x.off + k) 1
      chk (31 < v ∧ v ≠ 0xFF) 0xC x.idx (x.off + k)))
  | 0x21 => firstDiag ((List.range (x.len / 32)).map (fun i =>
      let o := x.off + 32 * i
      chk (3 < s.iu b o 1 ∨ 3 < s.iu b (o + 1) 1 ∨ !s.iz b (o + 2) 6 ∨ s.iu b (o + 16) 8 = 0 ∨ !s.iz b (o + 24) 8)
        0xC x.idx o))
  | 0x50 => firstDiag ((List.range (x.len / 8)).map (fun i =>
      let o := x.off + 8 * i
      let bind := s.iu b (o + 3) 1
      let bi := s.iu b (o + 4) 1
      chk (classSize (s.iu b o 1) ≤ s.iu b (o + 1) 1 ∨ 3 < s.iu b (o + 2) 1 ∨ 1 < bind ∨ 31 < bi ∨
        (bind = 0 ∧ bi ≠ 0) ∨ !s.iz b (o + 5) 3) 0xC x.idx o))
  | 0x60 =>
    let bad (lo hi : Nat) : Diag := (s.firstNonzero b (x.off + lo) (x.off + hi)).map (fun o => (0xC, x.idx, o))
    let code (k : Nat) : Diag := chk (1 < s.iu b (x.off + k) 1) 0xC x.idx (x.off + k)
    firstDiag [code 0, code 1, code 2, bad 3 4, bad 8 64]
  | 0x01 => none
  | t =>
    match s.regWords b (x.off + x.len) (x.len / 16 + 1) x.off with
    | none => some (0xC, x.idx, 0x88 + 16 * x.idx)
    | some (ws, hs) =>
      let heads := hs.map (fun o => (o, decide (s.iu b o 8 % 8 ≠ 0) || decide (2 ^ 40 ≤ s.iu b o 8) ||
        decide (s.iu b (o + 8) 4 = 0) || decide (s.iu b (o + 12) 4 ≠ 0)))
      let words := (List.range ws.length).map (fun i =>
        let w := ws.getD i (0, 0, 0)
        (w.1, !wordOk t w.2.1 w.2.2 || seen.contains w.2.1 || (ws.take i).any (fun y => decide (y.2.1 = w.2.1))))
      let bad := ((heads ++ words).filter (·.2)).map (·.1)
      match bad with
      | [] => none
      | o :: r => some (0xC, x.idx, r.foldl min o)

/-- PLAN_FIELD over the image; PLAN_ID 0 is not allowed (Table 2.1). -/
def State.chkField (s : State) (b : Nat) : Diag :=
  let l := s.sects b
  firstDiag (chk (s.iu b 0x10 8 = 0) 0xC 0xFF 0x10 :: l.map (fun x =>
    s.chkFieldSect b ((l.take x.idx).flatMap (fun y => if blockType y.type then (s.sectWords b y).map (·.2.1) else [])) x))

/-- The device-wide sources of Table 15.1 (R311). -/
def deviceSources : List Nat :=
  (List.range 256).flatMap (fun i =>
    let k := i + 256
    if k < 416 ∧ srcImplemented k then [k] else [])

/-- PLAN_WARD (Table 2.9). An enabled Ward with CTX_COUNT = 0 and CTX_BASE above
1,024 fails too: its empty range does not lie within 0 to 1,023 (DESIGN CHOICE, log: the table does not say so of an empty range). -/
def State.chkWard (s : State) (b : Nat) : Diag :=
  let l := s.sects b
  match sectOf l 0x10 with
  | none => none
  | some x =>
    let ws := s.imgWards b l
    firstDiag ((List.range 4).map (fun w =>
      let r := ws.getD w .off
      let before := (ws.take w).filter (·.enable)
      chk ((w = 0 ∧ (!r.enable ∨ !deviceSources.all (fun i => nbit r.fltMask i))) ∨
        (r.enable ∧ (before.any (fun y => decide (y.port = r.port)) ∨ 1024 < r.ctxBase + r.ctxCount ∨
          before.any (fun y => decide (y.ctxBase < r.ctxBase + r.ctxCount) && decide (r.ctxBase < y.ctxBase + y.ctxCount)
            && decide (0 < r.ctxCount) && decide (0 < y.ctxCount)) ∨
          (0 < r.ctxCount ∧ r.acMask = 0)))) 0xD x.idx (x.off + 256 * w)))

/-- The Ward of an image whose mask holds a unit. -/
def imgOwner (ws : List WardRec) (f : WardRec → Bool) : Option Nat :=
  (List.range ws.length).find? (fun w => (ws.getD w .off).enable && f (ws.getD w .off))

/-- PLAN_OWNERSHIP of one section (Table 2.9). A Channel Block in the wrong CB_MASK is reported at its byte of
CB_OWNER (DESIGN CHOICE, log: Table 2.16 does not say which of the two sections holds the failing entry). -/
def State.chkOwnerSect (s : State) (b : Nat) (l : List Sect) (x : Sect) : Diag :=
  let ws := s.imgWards b l
  match x.type with
  | 0x10 => firstDiag ((List.range 4).map (fun w =>
      let r := ws.getD w .off
      chk (r.enable ∧ ((ws.take w).filter (·.enable)).any (fun y =>
        decide (y.seqMask &&& r.seqMask ≠ 0) || decide (y.cbMask &&& r.cbMask ≠ 0) || decide (y.vsMask &&& r.vsMask ≠ 0) ||
        decide (y.acMask &&& r.acMask ≠ 0) || decide (y.sqMask &&& r.sqMask ≠ 0) || decide (y.fltMask &&& r.fltMask ≠ 0)))
        0xE x.idx (x.off + 256 * w)))
  | 0x11 => firstDiag ((List.range 32).map (fun k =>
      let own := imgOwner ws (fun r => nbit r.cbMask k)
      let want := (s.imgCbOwner b l k).bind (fun q => imgOwner ws (fun r => nbit r.seqMask q))
      chk (own ≠ want) 0xE x.idx (x.off + k)))
  | 0x31 => firstDiag ((s.sectWords b x).map (fun (o, a, v) =>
      let q := (a - PS_SQ_ENROL 0) / 0x20
      let own := imgOwner ws (fun r => nbit r.sqMask q)
      let res := s.imgResources b l
      let bad := if (a - PS_SQ_ENROL 0) % 0x20 = 0 then
          (bitsOf 32 v).any (fun k => decide (own = none) || decide (imgOwner ws (fun r => nbit r.seqMask k) ≠ own)) ||
          (bitsOf 16 (v >>> 32)).any (fun k => decide (own = none) || decide (imgOwner ws (fun r => nbit r.vsMask k) ≠ own))
        else (bitsOf 32 v).any (fun t => decide (own = none) ||
          !res.any (fun y => decide (y.2.cls = 4) && decide (y.2.index = t) && decide (some y.2.ward = own)))
      chk bad 0xE x.idx o))
  | 0x50 =>
    let res := s.imgResources b l
    firstDiag ((List.range res.length).map (fun i =>
      let (o, r) := res.getD i (0, ⟨0, 0, 0, none⟩)
      let rec_ := ws.getD r.ward .off
      chk ((res.take i).any (fun y => decide (y.2.cls = r.cls) && decide (y.2.index = r.index)) ∨ !rec_.enable ∨
        !(r.bind.all (fun k => nbit rec_.seqMask k))) 0xE x.idx o))
  | _ => none

/-- The clock domains an image must enable (R397). -/
def State.needDomains (s : State) (b : Nat) (l : List Sect) : List Nat :=
  let ws := (s.imgWards b l).filter (·.enable)
  let any (f : WardRec → Bool) : Bool := ws.any f
  let shut := (s.imgResources b l).any (fun y => decide (y.2.cls = 6))
  let twin := match sectOf l 0x60 with
    | some x => decide (s.iu b x.off 1 = 1)
    | none => false
  ws.flatMap (fun r => (bitsOf 32 r.seqMask).map (· + 1) ++ (bitsOf 32 r.cbMask).map (· + 33) ++
    (bitsOf 16 r.vsMask).map (· + 65) ++ (bitsOf 48 r.acMask).map (· + 81)) ++
  [129, 131, 132, 134, 135, 136, 137, 138, 142] ++
  (if any (fun r => decide (0 < r.ctxCount)) then [130] else []) ++
  (if shut || any (fun r => decide (r.cbMask ≠ 0)) then [133] else []) ++
  (if any (fun r => decide (r.port < 2)) then [139] else []) ++
  (if any (fun r => decide (2 ≤ r.port)) then [140] else []) ++ (if twin then [141] else [])

/-- PLAN_CLOCK (Table 2.9, R397): words of CLK_EN that the image does not set are all ones. -/
def State.chkClock (s : State) (b : Nat) : Diag :=
  let l := s.sects b
  match sectOf l 0x20 with
  | none => none
  | some x =>
    let need := s.needDomains b l
    firstDiag ((s.sectWords b x).map (fun (o, a, v) =>
      chk (CLK_EN 0 ≤ a ∧ a ≤ CLK_EN 2 ∧ need.any (fun d => decide (CLK_EN (d / 64) = a) && !nbit v (d % 64)))
        0xF x.idx o))

/-- The size and grain of a memory (R26). -/
def memSize : Nat → Nat | 0 => 2 ^ 36 | 1 => 15 * 2 ^ 20 | 2 => 8 * 2 ^ 20 | _ => 2 ^ 20
/-- The grain of a memory (R26). -/
def memGrain : Nat → Nat | 0 => 2 ^ 20 | 1 => 2 ^ 16 | 2 => 2 ^ 16 | _ => 2 ^ 12

/-- PLAN_MEMORY (R26). -/
def State.chkMemory (s : State) (b : Nat) : Diag :=
  let l := s.sects b
  match sectOf l 0x21 with
  | none => none
  | some x =>
    let ws := s.imgWards b l
    let rs := s.imgRegions b l
    firstDiag ((List.range rs.length).map (fun i =>
      let (o, r) := rs.getD i (0, ⟨0, 0, 0, 0⟩)
      chk (r.base % memGrain r.mem ≠ 0 ∨ r.size % memGrain r.mem ≠ 0 ∨ memSize r.mem < r.base + r.size ∨
        !(ws.getD r.ward .off).enable ∨
        (rs.take i).any (fun y => decide (y.2.mem = r.mem) && decide (y.2.base < r.base + r.size) &&
          decide (r.base < y.2.base + y.2.size))) 0x10 x.idx o))

/-- PLAN_TWIN (Table 2.9): the body is no record, so its failing byte is the first of PAIR_ID. -/
def State.chkTwin (s : State) (b : Nat) : Diag :=
  match sectOf (s.sects b) 0x60 with
  | none => none
  | some x => chk ((s.iu b x.off 1 = 1 ∧ s.iu b (x.off + 4) 4 = 0) ∨ (s.iu b x.off 1 = 0 ∧ s.iu b (x.off + 4) 4 ≠ 0))
      0x11 x.idx (x.off + 4)

/-- HDR_CRC is wrong. -/
def State.badHdrCrc (s : State) (b : Nat) : Bool := decide (crc32c (s.nvLd b 0x7C) ≠ s.iu b 0x7C 4) || s.nvBad b 0x80

/-- All checks in the order of Table 2.10, the first that fails (R31); later checks read the image only when the earlier
ones pass. -/
def State.validate (s : State) (b announced : Nat) : Diag :=
  let l := s.sects b
  (chk (2097152 < s.iu b 0xC 4 ∨ s.iu b 0xC 4 ≠ announced) 1 0xFF 0xC).or <|
  (chk (s.iu b 0 4 ≠ 0x504E5754) 2 0xFF 0).or <| (s.chkFormat b).or <|
  (chk (s.iu b 8 4 ≠ 0x00A00128) 4 0xFF 8).or <| (chk (s.badHdrCrc b) 5 0xFF 0x7C).or <| (s.chkLayout b).or <|
  (s.chkSectCrc b).or <| (s.chkSig b).or <| (chkMissing l).or <| (s.chkField b).or <| (s.chkWard b).or <|
  (firstDiag (l.map (s.chkOwnerSect b l))).or <| (s.chkClock b).or <| (s.chkMemory b).or (s.chkTwin b)

/-- The restore check of R39: HDR_CRC, every section CRC, the signature of a signed image. -/
def State.restoreCheck (s : State) (b : Nat) : Diag :=
  (chk (s.badHdrCrc b) 0x20 0xFF 0x7C).or <|
  ((s.chkSectCrc b).map (fun d => ((0x20 : Nat), d.2.1, d.2.2))).or <|
  (if s.iu b 0x26 2 % 2 = 1 then (s.chkSig b).map (fun d => ((0x20 : Nat), d.2.1, d.2.2)) else none)

/-! ### Applying an image (R38) -/

/-- Every register that holds RWP fields (R27). -/
def rwpAddrs : List Nat :=
  [CLK_EN 0, CLK_EN 1, CLK_EN 2, CLK_KEEP 0, CLK_KEEP 1, CLK_KEEP 2] ++ (List.range 12).map CLK_CLASS ++
  (List.range 2048).map (fun i => APG_XMAP (i / 128) (i % 128)) ++ (List.range 64).map PS_SQ_ENROL ++
  (List.range 64).map PS_SQ_TRIG ++ (List.range 1024).map FLT_REACT ++ [FLT_CFG]

/-- A register takes the bits of `mask` from `v`. -/
def State.wrMask (s : State) (a mask v : Nat) : State :=
  s.wr a (BitVec.ofNat 64 (((s.rd a).toNat &&& ((2 ^ 64 - 1) ^^^ mask)) ||| (v &&& mask)))

/-- Every RWP field returns to its reset value; MAXSEV follows the severities of the latched user sources (R325). -/
def State.resetRwp (s : State) : State :=
  let regs := s.regs.filter (fun p => match regAt p.1 with
    | some (d, _) => !d.flds.any (fun f => decide (f.acc = .rwp))
    | none => true)
  { s with regs := regs }.fltShow

/-- WRD_STATUS and LNK_PORT_STATUS.WARD show the Wards in force (R64). -/
def State.showWards (s : State) : State :=
  let s := forEach (List.range 4) s (fun w t =>
    let r := t.ward w
    (t.pb (WRD_STATUS_ENABLED w) r.enable).p (WRD_STATUS_PORT w) (if r.enable then r.port else 0))
  forEach (List.range 4) s (fun p t => t.p (LNK_PORT_STATUS_WARD p) ((t.portWard p).getD 0xF))

/-- The plan an image describes. -/
def State.readPlan (s : State) (b : Nat) : Plan :=
  let l := s.sects b
  let ws := s.imgWards b l
  let (mode, first, auto, pair) := match sectOf l 0x60 with
    | some x => (s.iu b x.off 1, s.iu b (x.off + 1) 1, decide (s.iu b (x.off + 2) 1 = 1), s.iu b (x.off + 4) 4)
    | none => (0, 0, false, 0)
  { sealed := true, wards := Vector.ofFn (fun i : Fin 4 => ws.getD i.val .off),
    cbOwner := Vector.ofFn (fun i : Fin 32 => s.imgCbOwner b l i.val), regions := (s.imgRegions b l).map (·.2),
    resources := (s.imgResources b l).map (·.2), twinMode := mode, firstRole := first, autoReplay := auto, pairId := pair,
    planId := s.iu b 0x10 8, hdrCrc := s.iu b 0x7C 4 }

/-- Where the port of a Ward changes, records that went out on the old port and are not acknowledged are sent anew on the new
one; the frames that carried them stay in the old port's replay buffer (R34). -/
def State.movePorts (s : State) (new : Plan) : State :=
  forEach (List.range 4) s (fun w s =>
    let old := (s.ward w).port
    if (new.wards.toList.getD w .off).port = old then s
    else
      let strip (f : TxFrame) : TxFrame := if f.evWard = some (Fin.ofNat 4 w) then { f with evWard := none } else f
      (s.modWard w (fun x => { x with flight := 0 })).modPort old (fun q => { q with
        replay := q.replay.map strip, txq := q.txq.map strip }))

/-- The image in slot `b` comes into force (R38): RWP fields take its values or their reset values, then the Wards,
owners, regions and twin policy; the channels that are owned now take their rest values (R152). -/
def State.applyImage (s : State) (b : Bool) : State :=
  let base := slotBase b
  let l := s.sects base
  let words := (l.filter (fun x => blockType x.type)).flatMap (s.sectWords base)
  let plan := s.readPlan base
  let signed := decide (s.iu base 0x26 2 % 2 = 1)
  let s := forEach words s.resetRwp (fun (_, a, v) t =>
    match regAt a with
    | some (d, ix) => t.wrMask a (fldMask (rwpFields d ix)) v
    | none => t)
  let s := { s.movePorts plan with plan := plan }
  let s := (s.pb JNL_PLAN_STATUS_SEALED true).pb JNL_PLAN_STATUS_SIGNED signed
  let s := ((s.pb JNL_PLAN_STATUS_ACTIVE_SLOT b).p JNL_PLAN_ID_PLAN_ID plan.planId).p JNL_PLAN_CRC_SEALED_CRC plan.hdrCrc
  let s := s.showWards
  let s := if plan.twinMode = 1 then s.p CLK_PLL_STATUS_SLEEP (s.g CLK_PLL_STATUS_SLEEP &&& (0xFF ^^^ 64))
    else s.p CLK_PLL_STATUS_SLEEP (s.g CLK_PLL_STATUS_SLEEP ||| 64)
  (forEach (List.range 128) s (fun n s => s.chanRest n)).fltShow

/-- The unsealed device of R34. -/
def State.applyUnsealed (s : State) : State :=
  let s := { s with plan := .unsealed }
  let s := ((s.pb JNL_PLAN_STATUS_SEALED false).pb JNL_PLAN_STATUS_SIGNED false).p JNL_PLAN_ID_PLAN_ID 0
  (s.p JNL_PLAN_CRC_SEALED_CRC 0).showWards

/-- The mask of this device's Squares with GLOBAL = 1. -/
def State.globalMask (s : State) : Nat := maskOf 64 (fun q => s.gb (PS_SQ_ENROL_GLOBAL q))

/-- SQ_JOIN on G6 (R267). -/
def State.sendSqJoin (s : State) : State :=
  s.reply 6 0x41 0 0#16 0
    (toLe 2 (s.g TB_CFG_NODE_ID) ++ List.replicate 6 0#8 ++ toLe 8 (if s.plan.sealed then s.globalMask else 0))

/-! ### The Plan Store -/

/-- The staging slot: the one that is not active. -/
def State.stageSlot (s : State) : Bool := !s.store.desc.activeB

/-- Stage codes (Table 2.12). -/
def State.stage (s : State) : Nat := s.g JNL_PLAN_STATUS_STAGE

/-- JNL_PLAN_ registers show the Plan Store. -/
def State.showStore (s : State) : State :=
  let d := s.store.desc
  let pend := s.iu (slotBase s.stageSlot) 0x10 8
  let s := ((s.pb JNL_PLAN_STATUS_PENDING d.pending).pb JNL_PLAN_STATUS_RETIRED d.retired).pb
    JNL_PLAN_STATUS_ACTIVE_SLOT d.activeB
  let s := (s.pb JNL_PLAN_STATUS_REQUIRE_SIG s.store.requireSig).pb JNL_PLAN_STATUS_KEY0_VALID s.store.key0.isSome
  let s := (s.pb JNL_PLAN_STATUS_KEY1_VALID s.store.key1.isSome).p JNL_PLAN_SEALS_COUNT s.store.seals
  let s := s.p JNL_PLAN_PENDING_ID_PLAN_ID (if d.pending ∨ s.stage = 3 then pend else 0)
  s.p JNL_PLAN_CRC_PENDING_CRC (if d.pending then s.iu (slotBase s.stageSlot) 0x7C 4 else 0)

/-- Rows of 64 bytes from `a` on are written: their words get fresh check bits (R326). -/
def State.rowsSet (s : State) (a n : Nat) : State := { s with nvmEcc := tabDrop (a / 8) (a / 8 + 8 * n) s.nvmEcc }

/-- One descriptor commit, into the next row of the ring (R32, R36, R37, R326). -/
def State.commitDesc (s : State) (d : PlanDesc) : State :=
  { s with store := { s.store with
      desc := d, past := (s.store.desc :: s.store.past).take 127, seals := s.store.seals + 1 } }.rowsSet (descRow (s.store.seals + 1)) 1

/-- The stage changes. -/
def State.setStage (s : State) (v : Nat) : State := (s.p JNL_PLAN_STATUS_STAGE v).showStore

/-! ### Commands (Table 2.11, R33, R35) -/

/-- PLAN_BEGIN: the staging slot is cleared up to the announced length, and the stage becomes STAGING. -/
def planBegin (c : Cmd) (s : State) : State :=
  let n := u c.args 0 4
  if c.args.length ≠ 8 ∨ n < 128 ∨ 2097152 < n ∨ !zeros c.args 4 4 then s.refuse c 0x0D
  else if s.stage = 2 ∨ s.store.desc.pending then s.refuse c 0x0A
  else
    let b := slotBase s.stageSlot
    let s := s.started c
    let s := { s with
      nvm := tabDrop b (b + roundUp 64 n) s.nvm, nvmEcc := tabDrop (b / 8) ((b + roundUp 64 n) / 8) s.nvmEcc, store := { s.store with stageLen := n } }
    (s.setStage 1).finishF c.id 0

/-- PLAN_LOAD: DATA goes into the staging slot at OFFSET, and a verdict is discarded. -/
def planLoad (c : Cmd) (s : State) : State :=
  let o := u c.args 0 4
  let data := c.args.drop 8
  if c.args.length < 9 ∨ 1032 < c.args.length ∨ o % 64 ≠ 0 ∨ !zeros c.args 4 4 then s.refuse c 0x0D
  else if s.stage ≠ 1 ∧ s.stage ≠ 3 ∧ s.stage ≠ 4 then s.refuse c 0x0A
  else if s.store.stageLen < o + data.length then s.refuse c 0x81
  else (((s.started c).nvSt (slotBase s.stageSlot + o) data).setStage 1).finishF c.id 0

/-- PLAN_VERIFY: validation of the staged image begins (R31). -/
def planVerify (c : Cmd) (s : State) : State :=
  if c.args.length ≠ 0 then s.refuse c 0x0D
  else if s.stage ≠ 1 then s.refuse c 0x0A
  else
    let s := s.started c
    { s.setStage 2 with store := { (s.setStage 2).store with verify := some c.id } }

/-- Validation ends: VALID, or REJECTED with code and position, and PLAN_VERIFY completes (R31). -/
def validationEnd (s : State) : State :=
  match s.store.verify with
  | none => s
  | some id =>
    let s := ({ s with store := { s.store with verify := none } }.nvCe (slotBase s.stageSlot) 2097152).nvCe (keyRow 0) 192
    match s.validate (slotBase s.stageSlot) s.store.stageLen with
    | none => (s.setStage 3).finishF id 0
    | some (code, sec, off) =>
      let s := ((s.p JNL_PLAN_STATUS_CODE code).p JNL_PLAN_DIAG_CODE code).p JNL_PLAN_DIAG_SECTION sec
      ((s.p JNL_PLAN_DIAG_OFFSET off).setStage 4).finishF id (0x80 + code)

/-- PLAN_SEAL: an unsealed device applies and seals the VALID image (R36); a sealed device makes it pending (R37). -/
def planSeal (c : Cmd) (s : State) : State :=
  if c.args.length ≠ 8 then s.refuse c 0x0D
  else if s.stage ≠ 3 ∨ u c.args 0 8 ≠ s.iu (slotBase s.stageSlot) 0x10 8 then s.refuse c 0x0A
  else
    let s := s.started c
    let b := s.stageSlot
    if s.plan.sealed then
      let s := s.commitDesc { s.store.desc with pending := true, retired := false }
      (s.setStage 0).finishF c.id 0
    else
      let s := s.applyImage b
      let s := s.commitDesc ⟨b, true, false, false⟩
      ((s.setStage 0).sendSqJoin).finishF c.id 0

/-- PLAN_RETIRE: the sealed image is retired at the next chip reset; a pending seal is cancelled (R37). A device that runs
unsealed refuses it, after a recovery start too, though its descriptor may name a sealed image (DESIGN CHOICE, log: R37 speaks of a
sealed device, R370 of a PLAN_RETIRE that may have committed in between). -/
def planRetire (c : Cmd) (s : State) : State :=
  if c.args.length ≠ 0 then s.refuse c 0x0D
  else if !s.plan.sealed then s.refuse c 0x0A
  else
    let s := s.started c
    let s := s.commitDesc { s.store.desc with pending := false, retired := true }
    s.showStore.finishF c.id 0

/-- PLAN_READ: the stored bytes of a slot travel with the CMD_DONE record (R55). -/
def planRead (c : Cmd) (s : State) : State :=
  let slot := u c.args 0 1
  let o := u c.args 4 4
  let n := u c.args 8 2
  if c.args.length ≠ 16 ∨ 1 < slot ∨ !zeros c.args 1 3 ∨ o % 8 ≠ 0 ∨ n < 8 ∨ 1024 < n ∨ n % 8 ≠ 0 ∨
      !zeros c.args 10 6 ∨ 2097152 < o + n then s.refuseArg c 0x0D 0
  else
    let a := slotBase (decide (slot = 1)) + o
    ((s.started c).nvCe a n).finishData c.id 0 n (s.nvLd a n)

/-- PLAN_KEY: a key slot is written or emptied, and REQUIRE_SIG set or cleared (R30). -/
def planKey (c : Cmd) (s : State) : State :=
  let slot := u c.args 0 1
  let fl := u c.args 1 1
  let empty := fl % 2 = 1
  let req := decide (fl / 2 % 2 = 1)
  let key := sub c.args 8 64
  let msg := sub c.args 0 1 ++ key ++ sub c.args 1 1
  let sig := sub c.args 72 64
  let sigOk (i : Nat) : Bool := !s.nvBad (keyRow i) 64 && (match s.store.key i with
    | some k => ecdsaVerify k sig msg
    | none => false)
  let k0 := if slot = 0 then (if empty then none else some key) else s.store.key0
  let k1 := if slot = 1 then (if empty then none else some key) else s.store.key1
  if c.args.length ≠ 136 ∨ 1 < slot ∨ 3 < fl ∨ !zeros c.args 2 6 ∨ (empty ∧ !zeros c.args 8 64) then s.refuse c 0x0D
  else if s.store.requireSig ∧ !(sigOk 0 || sigOk 1) then (s.nvCe (keyRow 0) 192).refuse c 0x8A
  else if ¬ empty ∧ !onCurve (keyPoint key).1 (keyPoint key).2 then s.refuse c 0x8C
  else if req ∧ k0 = none ∧ k1 = none then s.refuse c 0x89
  else
    let s := (if s.store.requireSig then s.nvCe (keyRow 0) 192 else s).started c
    let s := { s with store := { s.store with key0 := k0, key1 := k1, requireSig := req } }
    (((s.rowsSet (keyRow slot) 1).rowsSet (keyRow 2) 1).showStore).finishF c.id 0

/-! ### Meanings -/

/-- PLAN_BEGIN. -/
def execPlanBegin (w : Fin 4) (q : Fin 8) (s : State) : Host.Outcome State Fault Refusal :=
  .next (s.runCmd w.val q.val 0x10 planBegin)
/-- PLAN_LOAD. -/
def execPlanLoad (w : Fin 4) (q : Fin 8) (s : State) : Host.Outcome State Fault Refusal :=
  .next (s.runCmd w.val q.val 0x11 planLoad)
/-- PLAN_VERIFY. -/
def execPlanVerify (w : Fin 4) (q : Fin 8) (s : State) : Host.Outcome State Fault Refusal :=
  .next (s.runCmd w.val q.val 0x12 planVerify)
/-- PLAN_SEAL. -/
def execPlanSeal (w : Fin 4) (q : Fin 8) (s : State) : Host.Outcome State Fault Refusal :=
  .next (s.runCmd w.val q.val 0x13 planSeal)
/-- PLAN_RETIRE. -/
def execPlanRetire (w : Fin 4) (q : Fin 8) (s : State) : Host.Outcome State Fault Refusal :=
  .next (s.runCmd w.val q.val 0x14 planRetire)
/-- PLAN_READ. -/
def execPlanRead (w : Fin 4) (q : Fin 8) (s : State) : Host.Outcome State Fault Refusal :=
  .next (s.runCmd w.val q.val 0x15 planRead)
/-- PLAN_KEY. -/
def execPlanKey (w : Fin 4) (q : Fin 8) (s : State) : Host.Outcome State Fault Refusal :=
  .next (s.runCmd w.val q.val 0x16 planKey)
/-- VALIDATION_COMPLETE. -/
def execValidationComplete (s : State) : Host.Outcome State Fault Refusal := .next (if !s.ticks then s else validationEnd s)

/-- NOP: journalled, no effect (R54). -/
def execNop (w : Fin 4) (q : Fin 8) (s : State) : Host.Outcome State Fault Refusal :=
  .next (s.runCmd w.val q.val 1 (fun c s => s.complete c))

end Sys2Proof.Machine
end

