-- ==== Sys2Proof/Machine/Lane.lean ====
section
/-! DEFINITION. Serial lanes: capability sets and stepped bring-up (R237 to R240), loss of a lane and narrowing (R241 to R243),
retraining and rejoining (R244, R245), test modes (R246, R247) and eye scans (R248). -/

namespace Sys2Proof.Machine

/-! ### Lanes of a group -/

/-- Minimum width of group `g` (Table 11.1). -/
def grpMin (g : Nat) : Nat := if g = 4 then 2 else 1

/-- Role code of group `g` in CAP (Table 11.3). -/
def grpRole (g : Nat) : Nat := if g < 4 then 0 else if g = 4 then 1 else 2

/-- The logical lane that lane `l` sends as. -/
def laneLogical (l : Nat) : Nat := l - (grpLanes (laneGroup l)).headD 0

/-- The rates this end offers; bit 0 always counts as 1 (Table 11.7). -/
def State.ownRates (s : State) (g : Nat) : Nat := s.g (LN_GRP_CFG_RATE_MASK g) ||| 1

/-- The mask of lanes of one group in this end's own numbers. -/
def maskOfLanes (ls : List Nat) : Nat := ls.foldl (fun a l => a ||| 1 <<< laneLogical l) 0

/-- Lane `l` may carry code groups of its group: not powered down and not in a test mode. -/
def State.laneUsable (s : State) (l : Nat) : Bool :=
  !s.gb (LN_CFG_DISABLE l) && decide (s.g (LN_TEST_MODE l) = 0)

/-- The lanes that take part in the bring-up of group `g`. -/
def State.bringLanes (s : State) (g : Nat) : List Nat :=
  (grpLanes g).filter (fun l => s.laneUsable l && !(s.lane l).lost)

/-- The lanes whose received logical lane is in `m`. -/
def State.rxLanes (s : State) (g m : Nat) : List Nat := (grpLanes g).filter (fun l => nbit m (s.lane l).logicalRx)

/-- The lanes that a MASK of the peer names, in this end's own numbers: a MASK numbers lanes in the order of its sender, which the
receiver knows from the CAP of each lane (R232). Mark: DESIGN CHOICE for lanes that a board crosses. -/
def State.rxOf (s : State) (g m : Nat) : Nat := maskOfLanes (s.rxLanes g m)

/-- The twin link runs at 4 lanes or at its two lowest (R235, R243). -/
def trimMask (g m : Nat) : Nat := if g = 4 ∧ popN 4 m < 4 then ((bitsOf 4 m).take 2).foldl (fun a i => a ||| 1 <<< i) 0 else m

/-- The lanes of group `g` that retrain, as a mask. -/
def State.retrainMask (s : State) (g : Nat) : Nat :=
  (grpLanes g).foldl (fun a l => if (s.lane l).retrain then a ||| 1 <<< laneLogical l else a) 0

/-- What is left of the transmit direction: on the twin link the two lowest lanes of it that do not retrain, which do not count in
the width (R243, R245). -/
def State.trimTx (s : State) (g m : Nat) : Nat :=
  if g = 4 ∧ popN 4 m < 4 then trimMask g (m &&& (15 ^^^ s.retrainMask g)) else m

/-- The same in the receive direction, where the order is the sender's (R232). -/
def State.trimRx (s : State) (g m : Nat) : Nat :=
  if g = 4 ∧ popN 4 m < 4 then
    s.rxOf g (trimMask g ((grpLanes g).foldl (fun a l =>
      if nbit (m &&& (15 ^^^ s.retrainMask g)) (laneLogical l) then a ||| 1 <<< (s.lane l).logicalRx else a) 0))
  else m

/-- Lane `l` is in use in its group in one direction at least: ACTIVE, or named by WIDEN in one direction while it retrains (R244). -/
def State.laneHeld (s : State) (l : Nat) : Bool :=
  decide (s.g (LN_STATUS_STATE l) = 3) || ((s.lane l).retrain &&
    nbit ((s.grp (laneGroup l)).txMask ||| (s.grp (laneGroup l)).rxMask) (laneLogical l))

/-- The lanes that the transmit direction had before a narrowing that waits, else has now. -/
def Group.base (x : Group) : Nat := if x.narrowing.isSome then x.txBase else x.txMask

/-- The width of group `g` once the named lanes are out: lanes in use in both directions that do not retrain (R243, R245). -/
def State.widthLeft (s : State) (g named : Nat) : Nat :=
  popN 4 ((s.grp g).base &&& (s.grp g).rxMask &&& (15 ^^^ named) &&& (15 ^^^ s.retrainMask g))

/-- The state of group `g` changes, with its event (R249). -/
def State.grpState (s : State) (g st : Nat) : State :=
  if s.g (LN_GRP_STATUS_STATE g) = st then s
  else (s.p (LN_GRP_STATUS_STATE g) st).eventAll 0x0803 (g + 256 * st)

/-- The logical lanes in use: those of the narrower direction (DEDUCED: R244 lets the directions widen apart). -/
def Group.inUse (x : Group) : Nat := if popN 4 x.txMask ≤ popN 4 x.rxMask then x.txMask else x.rxMask

/-- LANES and WIDTH take a mask; on G5 a change of width ends the measured path (R243, R257). -/
def State.laneWidth (s : State) (g m : Nat) : State :=
  let old := s.g (LN_GRP_STATUS_WIDTH g)
  let s := (s.p (LN_GRP_STATUS_LANES g) m).p (LN_GRP_STATUS_WIDTH g) (popN 4 m)
  if g = 5 ∧ old ≠ popN 4 m then s.dropPath else s

/-- LANES and WIDTH show the lanes in use; a change of width of a host port that is UP is reported (R243, R244). -/
def State.widthShow (s : State) (g : Nat) : State :=
  let m := (s.grp g).inUse
  let old := s.g (LN_GRP_STATUS_WIDTH g)
  let s := s.laneWidth g m
  if s.g (LN_GRP_STATUS_STATE g) = 2 ∧ old ≠ popN 4 m ∧ g < 4 then s.eventTo (s.portWard g) 6 (popN 4 m) else s

/-- RETRAINING shows the logical lanes that retrain. -/
def State.retrainShow (s : State) (g : Nat) : State :=
  s.p (LN_GRP_STATUS_RETRAINING g) (s.retrainMask g)

/-! ### Rates and the CAP that a lane sends (Table 11.3, R238) -/

/-- Both ends show STEP_OK at the lane's rate. -/
def Lane.ok (x : Lane) : Bool := x.passed && x.peerLock && x.peerOk

/-- The lanes that step together with lane `l`: itself while it retrains, else the lanes of the bring-up. -/
def State.stepSet (s : State) (l : Nat) : List Nat :=
  if (s.lane l).retrain then [l] else s.bringLanes (laneGroup l)

/-- The rate code at which the steps of lane `l` end: the highest common one, or the group's rate for a retrain. -/
def State.target (s : State) (l : Nat) : Nat :=
  let g := laneGroup l
  if (s.lane l).retrain then s.g (LN_GRP_STATUS_RATE g)
  else (bitsOf 5 (s.ownRates g &&& (s.grp g).peerRates)).foldl max 0

/-- The next higher rate code that both RATES allow, up to the target; none when the lane is at its last rate. -/
def State.nextRate (s : State) (l : Nat) : Option Nat :=
  let g := laneGroup l
  if (s.grp g).fallback && !(s.lane l).retrain then none
  else (bitsOf 5 (s.ownRates g &&& (s.grp g).peerRates)).find? (fun r =>
    decide (s.g (LN_STATUS_RATE l) < r) && decide (r ≤ s.target l))

/-- Every lane that steps with `l` shows STEP_OK from both ends: this end asks for the next rate or shows READY. -/
def State.asks (s : State) (l : Nat) : Bool := s.stepSet l ≠ [] && (s.stepSet l).all (fun k => (s.lane k).ok)

/-- Lane `l` shows READY: it asks for no rate, and a retrain has come to the group's rate (R238, R244). -/
def State.asksReady (s : State) (l : Nat) : Bool :=
  s.asks l && (s.nextRate l).isNone && (!(s.lane l).retrain || decide (s.g (LN_STATUS_RATE l) = s.target l))

/-- The CAP that lane `l` sends now. -/
def State.capBytes (s : State) (l : Nat) : List Byte :=
  let g := laneGroup l
  let x := s.lane l
  let next := if s.asks l then s.nextRate l else none
  let step := next.getD (s.g (LN_STATUS_RATE l)) + 8 * b2n x.passed + 16 * b2n next.isSome + 32 * b2n (x.passed && x.peerLock) +
    64 * b2n (s.asksReady l) + 128 * b2n x.retrain
  let b := toLe 1 (laneLogical l + 4 * grpRole g) ++ toLe 1 (s.ownRates g) ++ toLe 1 step ++ toLe 1 64 ++ toLe 2 512 ++
    toLe 4 (s.grp g).id ++ [0#8, 0#8, 0#8]
  b ++ [b.foldl (· ^^^ ·) 0#8]

/-- Lane `l` sends a CAP; consecutive sets with the same request count (R238). -/
def State.sendCap (s : State) (l : Nat) : State :=
  let s := s.laneSet l 0 (s.capBytes l)
  let kind := if s.asks l then (match s.nextRate l with
    | some r => r + 1
    | none => if s.asksReady l then 16 else 0) else 0
  s.modLane l (fun x => { x with
    sentFor := kind, sent := if kind = 0 then 0 else if kind = x.sentFor then x.sent + 1 else 1 })

/-- CAP goes out in one column on the lanes that step with `l` (R234). -/
def State.sendCaps (s : State) (l : Nat) : State := forEach (s.stepSet l) s (fun k s => s.sendCap k)

/-- Lane `l` transmits ordered sets of group `g`: it is in use, retrains, or takes part in the group's bring-up, and is not powered
down (R231, R234, R236). -/
def State.sends (s : State) (g l : Nat) : Bool :=
  !s.gb (LN_CFG_DISABLE l) && (nbit (s.grp g).txMask (laneLogical l) || (s.lane l).retrain ||
    (decide (s.g (LN_GRP_STATUS_STATE g) = 1) && (s.bringLanes g).contains l))

/-- An ordered set goes out in one column on every lane of group `g` that transmits (R234). -/
def State.sendSet (s : State) (g kind : Nat) (b : List Byte) : State :=
  forEach ((grpLanes g).filter (s.sends g)) s (fun l s => s.laneSet l kind b)

/-- MASK and NOT MASK. -/
def maskSet (m : Nat) : List Byte := [BitVec.ofNat 8 m, ~~~(BitVec.ofNat 8 m)]

/-! ### Bring-up (R238) -/

/-- An eye scan of a lane that loses lock ends with ABORT; its results are not stated (R248). A sweep of a calibration run on that
lane fails (R305). -/
def State.eyeAbort (s : State) (l : Nat) : State :=
  let s := match s.cal.run with
    | some r => if r.target = 1 ∧ r.items.head? = some l then s.calStep 1 else s
    | none => s
  if (s.lane l).eye then
    let s := s.modLane l (fun x => { x with eye := false })
    let s := ((s.pb (LN_EYE_CTRL_START l) false).pb (LN_EYE_RESULT_DONE l) true).pb (LN_EYE_RESULT_ABORT l) true
    let v := s.freeVal
    let s := (s.p (LN_EYE_RESULT_ERRORS l) v).p (LN_EYE_RESULT_LEFT l) (v / 2 ^ 32)
    ((s.p (LN_EYE_RESULT_RIGHT l) (v / 2 ^ 39)).p (LN_EYE_RESULT_WIDTH l) (v / 2 ^ 46)).useFree
  else s

/-- The receiver of lane `l` is not locked. -/
def State.unlock (s : State) (l : Nat) : State := (s.pb (LN_STATUS_LOCK l) false).eyeAbort l

/-- Lane `l` begins at a rate: nothing passed, nothing counted. -/
def State.laneAt (s : State) (l rate : Nat) : State :=
  ((s.modLane l (fun x => { x with
    passed := false, peerLock := false, peerOk := false, reqN := 0, reqFor := 0, readyN := 0, sent := 0, sentFor := 0, ready := false })).p
    (LN_STATUS_RATE l) rate).unlock l

/-- The lanes of group `g` begin step 1 of R238 with a new GROUP_ID, which the manual leaves to the sender. -/
def State.bringSteps (s : State) (g : Nat) : State :=
  let s := (s.modGrp g (fun x => { x with
    id := s.freeVal % 2 ^ 32, low := 0, fallback := false, peerRates := 0, peerId := none, narrowing := none, txMask := 0,
    rxMask := 0 })).useFree
  let s := (s.p (LN_GRP_STATUS_RATE g) 0).laneWidth g 0
  let s := forEach (grpLanes g) s (fun l s =>
    let s := (s.modLane l (fun x => { x with lost := false, retrain := false, logicalRx := laneLogical l })).laneAt l 0
    let s := s.p (LN_STATUS_LOGICAL l) (laneLogical l)
    s.p (LN_STATUS_STATE l) (if s.gb (LN_CFG_DISABLE l) then 0 else if s.g (LN_TEST_MODE l) ≠ 0 then 5 else 1))
  forEach (s.bringLanes g) (s.retrainShow g) (fun l s => s.sendCap l)

/-- A bring-up of group `g` starts. -/
def State.bringup (s : State) (g : Nat) : State :=
  ((s.modGrp g (fun x => { x with started := true })).inc (LN_GRP_STATUS_BRINGUPS g) 1).grpState g 1 |>.bringSteps g

/-- Lane `l` retrains from 1.25 Gbaud (R244, R245). -/
def State.startRetrain (s : State) (l : Nat) : State :=
  let s := (s.modLane l (fun x => { x with lost := true, retrain := true })).laneAt l 0
  ((s.p (LN_STATUS_STATE l) 4).retrainShow (laneGroup l)).sendCap l

/-- A lane left out of its group retrains if it may, while the group is UP. -/
def State.leftOut (s : State) (l : Nat) : State :=
  if s.gb (LN_CFG_DISABLE l) then s.p (LN_STATUS_STATE l) 0
  else if s.g (LN_TEST_MODE l) ≠ 0 then s.p (LN_STATUS_STATE l) 5
  else if s.g (LN_GRP_STATUS_STATE (laneGroup l)) = 2 then s.startRetrain l
  else s

/-- The frame layer of port `p` as its group comes UP: it goes on with its numbers within LINK_HOLD, else begins anew with
the peer's credits (R44, R47, R48); a ring device sends SQ_JOIN (R267). -/
def State.linkUp (s : State) (p : Nat) : State :=
  let hdr := (s.grp p).peerHdr
  let data := (s.grp p).peerData
  let s := if (s.port p).holding then s.modPort p (fun q => { q with holding := false, replays := 0 })
    else s.modPort p (fun _ => { Port.zero with crdHdr := 64, crdData := 512, peerHdr := hdr, peerData := data })
  let s := if p < 4 then (s.p (LNK_PORT_CREDIT_HOST_HDR p) hdr).p (LNK_PORT_CREDIT_HOST_DATA p) data else s
  let s := if p = 5 ∨ p = 6 then s.sendSqJoin else s
  s.pump p

/-- Group `g` becomes UP on the lanes of its bring-up; the others retrain (R238, R240). -/
def State.grpUp (s : State) (g : Nat) : State :=
  let all := s.bringLanes g
  let rx := s.trimRx g (maskOfLanes all)
  let tx := trimMask g (maskOfLanes all)
  let s := (s.modGrp g (fun x => { x with txMask := tx, rxMask := rx })).widthShow g
  let s := s.grpState g 2
  let s := forEach (grpLanes g) s (fun l s =>
    if nbit rx (laneLogical l) || nbit tx (laneLogical l) then s.p (LN_STATUS_STATE l) 3
    else s.leftOut l)
  s.linkUp g

/-- Lane `l`, retrained and named in both directions, is in use again (R244). -/
def State.laneJoined (s : State) (l : Nat) : State :=
  let g := laneGroup l
  let x := s.lane l
  if x.retrain && nbit (s.grp g).txMask (laneLogical l) && nbit (s.grp g).rxMask (laneLogical l) then
    let s := s.modLane l (fun x => { x with lost := false, retrain := false, ready := false })
    let s := ((s.p (LN_STATUS_STATE l) 3).inc (LN_ERR_RETRAIN l) 1).retrainShow g
    (s.widthShow g).eventAll 0x0802 (l + 256 * s.g (LN_STATUS_RATE l))
  else s

/-- Lanes that have shown and seen READY rejoin in this end's transmit direction: WIDEN goes out and the group transmits on them
(R244), not while a narrowing waits. -/
def State.rejoinTx (s : State) (g : Nat) : State :=
  let m := (grpLanes g).foldl (fun a l => if (s.lane l).ready then a ||| 1 <<< laneLogical l else a) (s.grp g).txMask
  if m = (s.grp g).txMask ∨ (s.grp g).narrowing.isSome ∨ (g = 4 ∧ popN 4 m = 3) then s
  else
    let s := (s.sendSet g 2 (maskSet m)).modGrp g (fun x => { x with txMask := m })
    forEach (grpLanes g) s (fun l s => s.laneJoined l)

/-- The lanes that step with `l` go on once 16 sets have been sent and received: to the next rate, to UP, or back into the
group (R238, R244). -/
def State.stepOn (s : State) (l : Nat) : State :=
  let ls := s.stepSet l
  let g := laneGroup l
  let sent := ls.all (fun k => decide (16 ≤ (s.lane k).sent))
  if !s.asks l || !sent then s
  else match s.nextRate l with
    | some r =>
      if ls.all (fun k => decide (16 ≤ (s.lane k).reqN)) then
        let old := s.g (LN_STATUS_RATE l)
        let s := forEach ls s (fun k s => (s.laneAt k r).p (LN_STATUS_STATE k) (if (s.lane k).retrain then 4 else 2))
        if (s.lane l).retrain then s
        else
          let s := s.modGrp g (fun x => { x with low := old })
          (s.p (LN_GRP_STATUS_RATE g) r).laneWidth g (maskOfLanes ls)
      else s
    | none =>
      if s.asksReady l && ls.all (fun k => decide (16 ≤ (s.lane k).readyN)) then
        if (s.lane l).retrain then (s.modLane l (fun x => { x with ready := true })).rejoinTx g
        else if grpMin g ≤ ls.length then s.grpUp g
        else s
      else s

/-- Lane `l` takes part in the steps of a bring-up or a retrain. -/
def State.stepping (s : State) (l : Nat) : Bool :=
  let g := laneGroup l
  s.laneUsable l && ((decide (s.g (LN_GRP_STATUS_STATE g) = 1) && !(s.lane l).lost) ||
    (decide (s.g (LN_GRP_STATUS_STATE g) = 2) && (s.lane l).retrain))

/-- A CAP is well formed: its CHECK fits and no reserved bit is 1 (R237). -/
def capOk (b : List Byte) : Bool :=
  decide (b.length = 14) && decide (b.foldl (· ^^^ ·) 0#8 = 0#8) && decide (u b 0 1 < 16) &&
    decide (u b 1 1 < 32) && zeros b 10 3

/-- CAP: a capability set received on lane `l` (R237, R238). A set of another role, or of another GROUP_ID
than the one first accepted on another lane, is ignored and the lane counts as not locked. -/
def State.capSet (s : State) (l : Nat) (b : List Byte) : State :=
  let g := laneGroup l
  let st := u b 2 1
  if !s.stepping l || !capOk b || (s.lane l).retrain != nbit st 7 then s
  else
    let own := s.grp g
    let id := u b 6 4
    let other : Bool := match own.peerId with
      | some (i, k) => decide (i ≠ id) && decide (k ≠ l)
      | none => false
    if u b 0 1 / 4 ≠ grpRole g ∨ other then
      (s.modLane l (fun x => { x with peerLock := false, peerOk := false, passed := false, reqN := 0, readyN := 0 })).unlock l
    else
      let s := s.modGrp g (fun x => { x with
        peerRates := u b 1 1 ||| 1, peerId := (match own.peerId with
          | some (_, k) => some (id, k)
          | none => some (id, l)), peerHdr := u b 3 1, peerData := u b 4 2 % 4096 })
      let s := (s.p (LN_STATUS_PEER_RATES l) (u b 1 1)).pb (LN_STATUS_LOCK l) true
      let want := s.nextRate l
      let req := nbit st 4 && decide (want = some (st % 8))
      let s := s.modLane l (fun x => { x with
        logicalRx := u b 0 1 % 4, peerLock := nbit st 3, peerOk := nbit st 5,
        reqN := if !req then 0 else if x.reqFor = st % 8 then x.reqN + 1 else 1, reqFor := st % 8,
        readyN := if nbit st 6 then x.readyN + 1 else 0 })
      (s.sendCaps l).stepOn l

/-- An ordered set that arrives on lane `l` reads as one if LN_CFG.RX_INV sets its polarity right (R232). -/
def State.setReads (s : State) (l : Nat) (inv : Bool) : Bool := inv == s.gb (LN_CFG_RX_INV l)

/-- CAP; a lane in FAR mode sends back what it receives, undecoded (R246), a lane that is powered down nothing (R231). -/
def execCap (l : Fin 16) (x : SetBytes) (s : State) : Host.Outcome State Fault Refusal :=
  .next (let l := l.val
    if s.g (LN_TEST_MODE l) = 3 then
      if s.gb (LN_CFG_DISABLE l) then s
      else s.emit (.set l 0 x.bytes (x.inv != (s.gb (LN_CFG_RX_INV l) != s.gb (LN_CFG_TX_INV l))))
    else if s.setReads l x.inv then s.capSet l x.bytes
    else s)

/-- LANE_STEP_PASS: the receiver of lane `l` has been locked and clean for 4,096 symbols at its rate (R238); in a test mode that the
receiver has locked (R246, R248; DESIGN CHOICE). -/
def execLaneStepPass (l : Fin 16) (s : State) : Host.Outcome State Fault Refusal :=
  .next (if !s.ticks then s else if s.stepping l.val ∧ !(s.lane l.val).passed then
    let s := (s.modLane l.val (fun x => { x with passed := true })).pb (LN_STATUS_LOCK l.val) true
    let s := if (s.lane l.val).retrain then s else s.p (LN_STATUS_STATE l.val) 2
    s.sendCaps l.val
  else if s.g (LN_TEST_MODE l.val) ≠ 0 ∧ !s.gb (LN_CFG_DISABLE l.val) then s.pb (LN_STATUS_LOCK l.val) true
  else s)

/-! ### Timeouts (R239, R240, R244) -/

/-- A retrain that has not passed its rate in time has failed (R244). -/
def State.retrainFail (s : State) (l : Nat) : State :=
  ((s.modLane l (fun x => { x with retrain := false, ready := false })).inc (LN_ERR_RETRAIN_FAIL l) 1).retrainShow (laneGroup l)

/-- The retrains among the lanes `m` of group `g` fail that do not show STEP_OK from both ends at their current rate, or have no rate
to go on to below the group's. -/
def State.retrainsFail (s : State) (g m : Nat) (first : Bool) : State :=
  forEach (grpLanes g) s (fun l s =>
    if nbit m (laneLogical l) && (s.lane l).retrain && !((s.lane l).ok && ((s.nextRate l).isSome || s.asksReady l)) &&
        (decide (s.g (LN_STATUS_RATE l) = 0) == first) then s.retrainFail l
    else s)

/-- STEP_TIMEOUT: a lane has not passed the new rate in time; the group returns to the rate before and goes READY there
(R239). In a group that is UP, the time of the retrains on the named lanes has passed (R244). -/
def execStepTimeout (x : GrpLanes) (s : State) : Host.Outcome State Fault Refusal :=
  .next (
    let g := x.g
    let r := s.g (LN_GRP_STATUS_RATE g.val)
    if s.g (LN_GRP_STATUS_STATE g.val) = 2 then s.retrainsFail g.val x.lanes.val false
    else if s.g (LN_GRP_STATUS_STATE g.val) = 1 ∧ 0 < r ∧ (s.bringLanes g.val).any (fun l => !(s.lane l).passed) then
      let low := (s.grp g.val).low
      let s := (s.modGrp g.val (fun x => { x with fallback := true })).p (LN_GRP_STATUS_RATE g.val) low
      let s := forEach (s.bringLanes g.val) s (fun l s =>
        (s.laneAt l low).modLane l (fun x => { x with passed := true, peerLock := true, peerOk := true }))
      forEach (s.bringLanes g.val) s (fun l s => s.sendCap l)
    else s)

/-- LANE_LOST (R249). -/
def State.laneLostEvent (s : State) (l cause : Nat) : State :=
  (s.p (LN_STATUS_CAUSE l) cause).eventAll 0x0801 (l + 256 * cause)

/-- LOCK_TIMEOUT: bring-up starts again from step 1, or the lanes that have not passed rate 0 are left out (R239, R240). In a group that
is UP, the time of the retrains on the named lanes has passed at rate 0 (R244). -/
def execLockTimeout (x : GrpLanes) (s : State) : Host.Outcome State Fault Refusal :=
  .next (
    let g := x.g
    if s.g (LN_GRP_STATUS_STATE g.val) = 2 then s.retrainsFail g.val x.lanes.val true
    else if s.g (LN_GRP_STATUS_STATE g.val) = 1 ∧ s.g (LN_GRP_STATUS_RATE g.val) = 0 then
      let (yes, no) := (s.bringLanes g.val).partition (fun l => (s.lane l).passed)
      if yes.length < grpMin g.val then s.bringSteps g.val
      else
        let s := forEach no s (fun l s => (s.modLane l (fun x => { x with lost := true })).laneLostEvent l 6)
        s.stepOn (yes.headD 0)
    else s)

/-- BRINGUP_RETRY: a DOWN group starts again (R238). -/
def execBringupRetry (g : Fin 7) (s : State) : Host.Outcome State Fault Refusal :=
  .next (if (s.grp g.val).started ∧ s.g (LN_GRP_STATUS_STATE g.val) = 0 then s.bringup g.val else s)

/-- RETRAIN_RETRY: a lane whose retrain failed starts again (R244). -/
def execRetrainRetry (l : Fin 16) (s : State) : Host.Outcome State Fault Refusal :=
  .next (if (s.lane l.val).lost ∧ !(s.lane l.val).retrain ∧ s.laneUsable l.val ∧ s.g (LN_GRP_STATUS_STATE (laneGroup l.val)) = 2 then
    s.startRetrain l.val else s)

/-! ### Loss of a lane (R241 to R243) -/

/-- A group leaves UP for TRAINING: LN_GROUP_DOWN is raised, a host port keeps its numbers for LINK_HOLD, and a bring-up starts
(R48, R238, R243, R249). -/
def State.leaveUp (s : State) (g : Nat) : State :=
  if s.g (LN_GRP_STATUS_STATE g) ≠ 2 then s
  else
    let s := s.modPort g (fun q => if g < 4 then { q with holding := true } else .zero)
    (s.assertFlt (304 + g)).bringup g

/-- The group narrows in its transmit direction: NARROW three times with MASK, then the lanes outside it of those before (R242). -/
def State.narrowTx (s : State) (g m : Nat) : State :=
  let base := (s.grp g).base
  let tx := s.trimTx g (base &&& (15 ^^^ m))
  let s := (forEach (List.range 3) s (fun _ s => s.sendSet g 1 (maskSet m))).modGrp g (fun x => { x with txMask := tx, txBase := base })
  (s.widthShow g).inc (LN_GRP_STATUS_NARROWS g) 1

/-- Lanes lose lock with a cause; 0 is a lane that the host powers down, which counts as no loss of lock. -/
def State.lossMarks (s : State) (ls : List Nat) (cause : Nat) : State :=
  forEach ls s (fun l s =>
    let s := s.unlock l
    if cause = 0 then s else (s.inc (LN_ERR_LOL l) 1).laneLostEvent l cause)

/-- The group survives the loss of lanes: LN_LOL of each (R249). -/
def State.lossFaults (s : State) (ls : List Nat) (cause : Nat) : State :=
  if cause = 0 then s else forEach ls s (fun l s => s.assertFlt (288 + l))

/-- Lanes of group `g` that were in use and are so in neither direction are left out and retrain, a lane of `ls` that retrained anew;
`rx` is what the receive direction runs on. A lane that only the width rule of the twin link drops is left out when the receiver
narrows (DESIGN CHOICE, log). -/
def State.settleOut (s : State) (g rx : Nat) (ls : List Nat) : State :=
  (forEach ((grpLanes g).filter (fun l => (decide (s.g (LN_STATUS_STATE l) = 3) || (ls.contains l && (s.lane l).retrain)) &&
    !nbit (s.grp g).txMask (laneLogical l) && !nbit rx (laneLogical l))) s (fun l s =>
      (s.modLane l (fun x => { x with lost := true, retrain := false, ready := false })).leftOut l)).retrainShow g

/-- Lanes of group `g` lose lock together with one cause (R241, R243): NARROW names them and those of a narrowing that still waits;
the group narrows, or leaves UP below its minimum width (R242). -/
def State.loseLanes (s : State) (g : Nat) (ls : List Nat) (cause : Nat) : State :=
  let ls := ls.filter s.laneHeld
  if s.g (LN_GRP_STATUS_STATE g) ≠ 2 ∨ ls = [] then s
  else
    let named := (s.grp g).narrowing.getD 0 ||| maskOfLanes ls
    let left := (s.grp g).rxMask &&& (15 ^^^ named)
    let width := s.widthLeft g named
    let s := s.lossMarks ls cause
    if width < grpMin g then s.leaveUp g
    else
      let s := ((s.lossFaults ls cause).narrowTx g named).modGrp g (fun x => { x with narrowing := some named })
      s.settleOut g left ls

/-- LANE_LOSS_OF_LOCK: a lane, and the named lanes of its group with it, lose lock by clock recovery, code errors or missing SKP
(causes 1 to 3), with the code errors that the lane has had since the last such command (R241, R243); fewer than 8 code errors are
counted and lose no lock. A retrain begins anew (R245). -/
def execLaneLossOfLock (x : LaneLoss) (cause : Fin 3) (errs : Nat) (s : State) : Host.Outcome State Fault Refusal :=
  .next (
    let l := x.lane
    let g := laneGroup l.val
    let s := s.inc (LN_ERR_CODE_ERR l.val) errs
    let ls := (grpLanes g).filter (fun k => decide (k = l.val) || nbit x.also.val (laneLogical k))
    if cause.val = 1 ∧ errs < 8 then s
    else
      let s := forEach ls s (fun k s =>
        if s.g (LN_TEST_MODE k) ≠ 0 then s.unlock k
        else if (s.lane k).retrain && !s.laneHeld k then s.startRetrain k
        else if s.g (LN_GRP_STATUS_STATE g) = 1 ∧ s.stepping k then s.laneAt k (s.g (LN_STATUS_RATE k))
        else s)
      s.loseLanes g ls (cause.val + 1))

/-- NARROW: the peer removes lanes. Lanes that this end had not named are lost with cause PEER and answered with the union; an
answer that names every lane this end named, or one that this end only answers, narrows its receiver (R242). -/
def State.narrowSet (s : State) (g : Nat) (b : List Byte) : State :=
  let m := u b 0 1
  if s.g (LN_GRP_STATUS_STATE g) ≠ 2 ∨ b.length ≠ 2 ∨ u b 1 1 ≠ 255 - m ∨ 15 < m then s
  else
    let own := (s.grp g).narrowing.getD 0
    let named := s.rxOf g m
    let union := named ||| own
    let fresh := (s.rxLanes g m).filter (fun l => s.laneHeld l && !nbit own (laneLogical l))
    let left := (s.grp g).rxMask &&& (15 ^^^ union)
    let width := s.widthLeft g union
    let done := decide (named &&& own = own)
    if fresh = [] ∧ ((s.grp g).narrowing = none ∨ !done) then s
    else
      let s := s.lossMarks fresh 5
      if width < grpMin g then s.leaveUp g
      else
        let s := s.lossFaults fresh 5
        let s := if fresh = [] then s else s.narrowTx g union
        if done then
          let rx := s.trimRx g left
          (((s.modGrp g (fun x => { x with narrowing := none, rxMask := rx })).widthShow g).settleOut g rx fresh).rejoinTx g
        else (s.modGrp g (fun x => { x with narrowing := some union })).settleOut g left fresh

/-- NARROW, on the lanes in use of which one at least reads it (R232). -/
def execNarrow (g : Fin 7) (x : SetBytes) (s : State) : Host.Outcome State Fault Refusal :=
  .next (if (grpLanes g.val).any (fun l => nbit (s.grp g.val).rxMask (laneLogical l) && s.setReads l x.inv) then s.narrowSet g.val x.bytes
    else s)

/-- NARROW_TIMEOUT: no matching NARROW within 10 µs, the group leaves UP (R242). -/
def execNarrowTimeout (g : Fin 7) (s : State) : Host.Outcome State Fault Refusal :=
  .next (if (s.grp g.val).narrowing.isSome then s.leaveUp g.val else s)

/-- WIDEN received on lane `l`: the receive direction runs on the lanes of MASK, if the lanes it adds retrain at the group's
rate (R244). -/
def execWiden (l : Fin 16) (x : SetBytes) (s : State) : Host.Outcome State Fault Refusal :=
  .next (let g := laneGroup l.val
    let bytes := x.bytes
    let w := u bytes 0 1
    let old := (s.grp g).rxMask
    let m := s.rxOf g w
    let new := (grpLanes g).filter (fun k => nbit m (laneLogical k) && !nbit old (laneLogical k))
    if s.setReads l.val x.inv ∧ s.g (LN_GRP_STATUS_STATE g) = 2 ∧ bytes.length = 2 ∧ u bytes 1 1 = 255 - w ∧ w < 16 ∧ m &&& old = old ∧
        new.all (fun k => (s.lane k).retrain && decide (s.g (LN_STATUS_RATE k) = s.g (LN_GRP_STATUS_RATE g))) then
      let s := s.modGrp g (fun x => { x with rxMask := m })
      forEach (grpLanes g) s (fun k s => s.laneJoined k)
    else s)

/-- SKP_SEND: SKP goes out in one column of the lane's group (R234, R236). -/
def execSkpSend (l : Fin 16) (s : State) : Host.Outcome State Fault Refusal :=
  .next (s.sendSet (laneGroup l.val) 3 [])

/-! ### Test modes (R246, R247) -/

/-- Degree and second tap of the polynomial of a PRBS (ITU-T O.150): x⁷+x⁶+1, x¹⁵+x¹⁴+1, x²³+x¹⁸+1, x³¹+x²⁸+1. Mark: PRESUMED (the
manual names O.150 only). -/
def prbsTaps (pattern : Nat) : Nat × Nat :=
  match pattern with
  | 0 => (7, 6) | 1 => (15, 14) | 2 => (23, 18) | _ => (31, 28)

/-- The next bit of a PRBS generator, whose bit 0 is the newest. -/
def prbsNext (pattern st : Nat) : Bool := nbit st ((prbsTaps pattern).1 - 1) != nbit st ((prbsTaps pattern).2 - 1)

/-- The generator after a bit. -/
def prbsShift (pattern st : Nat) (b : Bool) : Nat := (2 * st + b2n b) % 2 ^ (prbsTaps pattern).1

/-- What the checker has counted: it is in sync; bits compared and errors. -/
structure PrbsCnt where
  sync : Bool
  bits : Nat
  errs : Nat
deriving DecidableEq, Repr

/-- The checker takes a received bit: it seeds from 31 bits, is in sync once 64 agree, counts from then on, and seeds again after more
than 32 errors among the last 256 bits (R246). -/
def Lane.check (x : Lane) (pattern : Nat) (n : PrbsCnt) (b : Bool) : Lane × PrbsCnt :=
  if x.seed.length < 31 then
    let seed := b :: x.seed
    ({ x with seed := seed, agree := 0, diffs := [], chk := ((seed.take (prbsTaps pattern).1).reverse).foldl (fun a c => 2 * a + b2n c) 0 }, n)
  else
    let e := prbsNext pattern x.chk != b
    let x := { x with chk := prbsShift pattern x.chk (prbsNext pattern x.chk) }
    if n.sync then
      let d := (e :: x.diffs).take 256
      let n := { n with bits := n.bits + 1, errs := n.errs + b2n e }
      if 32 < (d.filter id).length then ({ x with seed := [], diffs := [] }, { n with sync := false })
      else ({ x with diffs := d }, n)
    else if e then ({ x with seed := [], agree := 0 }, n)
    else if x.agree = 63 then ({ x with agree := 64, diffs := [] }, { n with sync := true })
    else ({ x with agree := x.agree + 1 }, n)

/-- The generator of a lane sends a bit; INJ_RATE = k inverts one bit in every 2^(k + 9), and INJ_ONE the next bit beside those
(R247). -/
def Lane.send (x : Lane) (pattern rate : Nat) : Lane × Bool :=
  let b := prbsNext pattern x.gen
  let inj := decide (rate ≠ 0) && decide ((x.genN + 1) % 2 ^ (rate + 9) = 0)
  ({ x with gen := prbsShift pattern x.gen b, genN := x.genN + 1, injOne := x.injOne && inj }, b != (inj || x.injOne))

/-- Generator and checker begin anew; the manual states no first bits of a sequence. -/
def State.prbsReset (s : State) (l : Nat) : State :=
  let n := 2 ^ (prbsTaps (s.g (LN_TEST_PATTERN l))).1 - 1
  let s := (s.modLane l (fun x => { x with gen := s.freeVal % n + 1, genN := 0, seed := [], chk := 0, agree := 0, diffs := [], injOne := false })).useFree
  s.pb (LN_PRBS_SYNC l) false

/-- Bits received on lane `l` in PRBS or FAR mode, and as many sent: in PRBS mode the generator's and the checker's, in FAR mode the
received bits go out again (R246). The pair's polarities apply (R232); a lane that is powered down does neither (R231). That a checker
in sync shows LOCK: DESIGN CHOICE, log. -/
def State.prbsFeed (s : State) (l : Nat) (bits : List Bool) : State :=
  let inv := s.gb (LN_CFG_TX_INV l)
  let bits := bits.map (fun b => b != s.gb (LN_CFG_RX_INV l))
  if s.gb (LN_CFG_DISABLE l) then s
  else if s.g (LN_TEST_MODE l) = 3 then s.emit (.prbs l (bits.map (fun b => b != inv)))
  else if s.g (LN_TEST_MODE l) ≠ 1 then s
  else
    let pat := s.g (LN_TEST_PATTERN l)
    let tx := bits.foldl (fun (a : Lane × List Bool) _ =>
      let r := a.1.send pat (s.g (LN_TEST_INJ_RATE l))
      (r.1, (r.2 != inv) :: a.2)) (s.lane l, [])
    let rx := bits.foldl (fun (a : Lane × PrbsCnt) b => a.1.check pat a.2 b) (tx.1, ⟨s.gb (LN_PRBS_SYNC l), 0, 0⟩)
    let s := ((s.modLane l (fun _ => rx.1)).emit (.prbs l tx.2.reverse)).pb (LN_PRBS_SYNC l) rx.2.sync
    let s := if rx.2.sync then s.pb (LN_STATUS_LOCK l) true else s
    (s.inc (LN_PRBS_ERRORS l) rx.2.errs).p (LN_PRBS_BITS_BITS l) (s.g (LN_PRBS_BITS_BITS l) + rx.2.bits)

/-- A retrain of lane `l` ends without a result. -/
def State.retrainEnd (s : State) (l : Nat) : State :=
  if (s.lane l).retrain then (s.modLane l (fun x => { x with retrain := false, ready := false })).retrainShow (laneGroup l) else s

/-- LN_TEST.MODE takes a value: a lane leaves its group with cause TEST, or trains again. -/
def State.testMode (s : State) (l mode : Nat) : State :=
  let old := s.g (LN_TEST_MODE l)
  let g := laneGroup l
  let s := s.p (LN_TEST_MODE l) mode
  let s := if mode ≠ old then s.prbsReset l else s
  if mode ≠ 0 ∧ old = 0 then
    let s := if s.laneHeld l then s.loseLanes g [l] 4 else (s.retrainEnd l).unlock l |>.p (LN_STATUS_CAUSE l) 4
    if s.gb (LN_CFG_DISABLE l) then s else s.p (LN_STATUS_STATE l) 5
  else if mode = 0 ∧ old ≠ 0 then
    if s.gb (LN_CFG_DISABLE l) then s
    else if s.g (LN_GRP_STATUS_STATE g) = 2 then s.startRetrain l
    else (s.laneAt l (s.g (LN_GRP_STATUS_RATE g))).p (LN_STATUS_STATE l) 1
  else s

/-- LN_CFG.DISABLE takes a value (R231); a lane PLL sleeps while every lane of its quad is disabled (R363). -/
def State.laneDisable (s : State) (l : Nat) (v : Bool) : State :=
  let old := s.gb (LN_CFG_DISABLE l)
  let g := laneGroup l
  let s := s.pb (LN_CFG_DISABLE l) v
  let all := (List.range 4).all (fun i => s.gb (LN_CFG_DISABLE (l / 4 * 4 + i)))
  let bit := 1 <<< (4 + l / 4)
  let sleep := s.g CLK_PLL_STATUS_SLEEP
  let s := if v && all then
      let s := (s.p CLK_PLL_STATUS_SLEEP (sleep ||| bit)).p CLK_PLL_STATUS_LOCK (s.g CLK_PLL_STATUS_LOCK &&& (0xFF ^^^ bit))
      s.setDom (139 + l / 4) false
    else if !v && (decide (l / 4 ≠ 2) || decide (s.plan.twinMode = 1)) then s.p CLK_PLL_STATUS_SLEEP (sleep &&& (0xFF ^^^ bit))
    else s
  if v && !old then
    let s := if s.laneHeld l then s.loseLanes g [l] 0 else s.retrainEnd l
    (s.p (LN_STATUS_STATE l) 0).unlock l
  else if !v && old then
    if s.g (LN_TEST_MODE l) ≠ 0 then s.p (LN_STATUS_STATE l) 5
    else if s.g (LN_GRP_STATUS_STATE g) = 2 then s.startRetrain l
    else if s.g (LN_GRP_STATUS_STATE g) = 1 then (s.laneAt l (s.g (LN_GRP_STATUS_RATE g))).p (LN_STATUS_STATE l) 1
    else s
  else s

/-- INJ_ONE inverts one bit of the sequence sent; it acts in PRBS mode only (R247), on a lane that transmits (R231). -/
def State.injOne (s : State) (l : Nat) : State :=
  if s.g (LN_TEST_MODE l) = 1 ∧ !s.gb (LN_CFG_DISABLE l) then s.modLane l (fun x => { x with injOne := true }) else s

/-- PRBS_SYNC: bits received on a lane in a test mode; the checker is in sync once 64 of them have agreed, and counts (R246). -/
def execPrbsSync (x : LaneBits) (s : State) : Host.Outcome State Fault Refusal := .next (s.prbsFeed x.lane.val x.bits)

/-- PRBS_SYNC_LOST: bits received while the checker is in sync, which more than 32 errors among 256 of them end, and the bits after
them, with which it seeds again (R246). -/
def execPrbsSyncLost (l : Fin 16) (bits seed : List Bool) (s : State) : Host.Outcome State Fault Refusal :=
  .next (if s.gb (LN_PRBS_SYNC l.val) then s.prbsFeed l.val (bits ++ seed) else s)

/-! ### Eye scan (R248) -/

/-- START of a scan: ignored while one runs, on a lane that is not locked, and while a calibration run uses the lane (R305). -/
def State.eyeStart (s : State) (l : Nat) : State :=
  let used : Bool := match s.cal.run with
    | some r => decide (r.target = 1) && decide (r.items.head? = some l)
    | none => false
  if (s.lane l).eye || !s.gb (LN_STATUS_LOCK l) || used then s
  else
    let s := (s.modLane l (fun x => { x with eye := true })).pb (LN_EYE_CTRL_START l) true
    (s.pb (LN_EYE_RESULT_DONE l) false).pb (LN_EYE_RESULT_ABORT l) false

/-- EYE_SCAN_DONE: `errs` are the mismatches at phases −32 to +31. -/
def execEyeScanDone (l : Fin 16) (errs : List Nat) (s : State) : Host.Outcome State Fault Refusal :=
  .next (let l := l.val
    if !(s.lane l).eye then s
    else
      let s := (s.modLane l (fun x => { x with eye := false })).pb (LN_EYE_CTRL_START l) false
      let s := (s.pb (LN_EYE_RESULT_DONE l) true).pb (LN_EYE_RESULT_ABORT l) false
      let at_ (p : Int) : Nat := min (errs.getD (p + 32).toNat 0) (2 ^ 32 - 1)
      if !s.gb (LN_EYE_CTRL_SWEEP l) then s.p (LN_EYE_RESULT_ERRORS l) (at_ (s.gi (LN_EYE_CTRL_PHASE l)))
      else
        let down := cleanDown errs
        let up := cleanUp errs
        if down = 0 then
          ((((s.p (LN_EYE_RESULT_ERRORS l) (at_ 0)).p (LN_EYE_RESULT_LEFT l) 0).p (LN_EYE_RESULT_RIGHT l) 0).p (LN_EYE_RESULT_WIDTH l) 0)
        else
          let s := (s.pi (LN_EYE_RESULT_LEFT l) (1 - (down : Int))).pi (LN_EYE_RESULT_RIGHT l) ((up : Int) - 1)
          (s.p (LN_EYE_RESULT_WIDTH l) (up + down - 1)).p (LN_EYE_RESULT_ERRORS l) (if up < 32 then at_ up else 0))

end Sys2Proof.Machine
end

