-- ==== Sys2Proof/Machine/Resets.lean ====
section
/-! DEFINITION. What a reset does while the device still runs: unit resets (R368), the recovery state and its seal (R335,
R336), and steps 1, 2 and 4 of a chip reset (Table 17.5). -/

namespace Sys2Proof.Machine

/-! ### Unit resets (R368) -/

/-- The registers at addresses `[lo, hi)` return to their reset values. -/
def State.rstRange (s : State) (lo hi : Nat) : State := { s with regs := tabDrop lo hi s.regs }

/-- A sequencer may be reset: IDLE or FAULT. -/
def State.psQuiet (s : State) (k : Nat) : Bool := decide ((s.seq k).st = .idle) || decide ((s.seq k).st = .fault)

/-- The state of sequencer `k` after a reset of it: the control store stays, and a burst that has ended keeps what its
final record waits for. -/
def Seq.resetUnit (x : Seq) : Seq := { Seq.zero with cs := x.cs, burst := x.burst, olds := x.olds, inFlight := x.inFlight }

/-- Reset of sequencer `k` with its generators and Square arrivals. -/
def State.resetPs (s : State) (k : Nat) : State :=
  let s := (s.sqWithdraw k).modSeq k Seq.resetUnit
  let base := 0x02000000 + k * 0x100000
  (s.rstRange base (base + 0x60000)).clearSrcs [k, 32 + k, 64 + k]

/-- A Channel Block may be reset. -/
def State.cbQuiet (s : State) (c : Nat) : Bool :=
  (decide (s.g (CH_CB_STATUS_STATE c) = 0) || decide (s.g (CH_CB_STATUS_STATE c) = 3)) &&
    (match s.cbSeq c with
      | some k => s.psQuiet k
      | none => true)

/-- Reset of Channel Block `c` and its four channels, which leaves it IDLE; their Waveform Tables stay. -/
def State.resetCb (s : State) (c : Nat) : State :=
  let s := (s.modCb c (fun _ => .zero)).rstRange (0x05004000 + c * 0x40000) (0x05004028 + c * 0x40000)
  let s := forEach (cbChans c) s (fun n s =>
    (s.modCh n (fun _ => .zero)).rstRange (0x05000000 + n * 0x10000) (0x05000020 + n * 0x10000))
  (s.cbIdle c).clearSrcs [96 + c]

/-- A stream engine may be reset: IDLE, ENDED or ERROR, and not bound to a sequencer in a burst. -/
def State.vsQuiet (s : State) (v : Nat) : Bool :=
  [0, 5, 6].contains (s.g (VS_STATUS_STATE v)) && !(s.gb (VS_STATUS_BOUND v) && s.bursting (s.g (VS_STATUS_SEQ v)))

/-- Reset of stream engine `v`; its binding ends (R117). -/
def State.resetVs (s : State) (v : Nat) : State :=
  let s := ((s.sqWithdraw (32 + v)).vsUnbind v).modVs v (fun _ => .zero)
  (s.rstRange (0x04000000 + v * 0x1000) (0x04001000 + v * 0x1000)).clearSrcs [128 + v, 144 + v]

/-- A core may be reset: IDLE or OFF. -/
def State.acQuiet (s : State) (c : Nat) : Bool := decide ((s.core c).st = .idle)

/-- Reset of core `c`; its local memory stays, and stores it has issued are still performed. -/
def State.resetAc (s : State) (c : Nat) : State :=
  let s := s.modCore c (fun x => { Core.zero with stores := x.stores })
  (s.rstRange (0x07400000 + c * 0x100) (0x07400100 + c * 0x100)).clearSrcs [160 + c, 208 + c]

/-- The bits of RST_UNIT_PS, _CB, _VS and _AC. -/
def rstUnitField : Nat → FRef
  | 0 => RST_UNIT_PS_PS | 1 => RST_UNIT_CB_CB | 2 => RST_UNIT_VS_VS | _ => RST_UNIT_AC_AC

/-- The units of `bits` of class `cls` that are quiet are reset, and their bits read 1 until the next tick of the fault collector
(DESIGN CHOICE, log 122); whether one was not quiet, so that its bit is ignored. A unit reset during a chip reset is ignored. -/
def State.unitReset (s : State) (cls : Nat) (bits : List Nat) (quiet : State → Nat → Bool) (rst : State → Nat → State) : State × Bool :=
  if s.pwr.inReset.isSome then (s, false)
  else
    let (yes, no) := bits.partition (quiet s)
    let f := rstUnitField cls
    ((forEach yes s (fun k s => rst s k)).p f (s.g f ||| maskOf 64 yes.contains), !no.isEmpty)

/-- The unit resets that run have completed. -/
def State.rstUnitEnd (s : State) : State :=
  forEach [0, 1, 2, 3] s (fun c s => if s.g (rstUnitField c) = 0 then s else s.p (rstUnitField c) 0)

/-- FAULT_TICK: the collector, the limit of a thermal shutdown's wait, and the end of unit resets. -/
def execFaultTick (s : State) : Host.Outcome State Fault Refusal := .next s.faultTick.shutdownDue.rstUnitEnd

/-- RST_UNIT_TIMEOUT: the reset of unit `i` of class `cls`, which still runs, has not completed within 1 µs (R374). -/
def execRstUnitTimeout (cls : Fin 4) (i : Nat) (s : State) : Host.Outcome State Fault Refusal :=
  .next (if nbit (s.g (rstUnitField cls.val)) i then s.assertFlt 394 else s)

/-- TAP_RESET: the IEEE 1149.1 TAP only; the block holds no state of it (R366). -/
def execTapReset (s : State) : Host.Outcome State Fault Refusal := .next s

/-! ### The Recovery Area (R335, R336) -/

/-- The memory fabric runs, so that the recovery state and the self-refresh entry can be made (R367). -/
def State.fabricRuns (s : State) : Bool := !s.pwr.gatedAll && !s.pwr.stopped.contains 134

/-- The seal: SEQNO, PLAN_ID, HDR_CRC and their CRC-32C (R336). -/
def Recov.seal (ra : Recov) : List Byte :=
  let b := toLe 8 ra.seqno ++ toLe 8 ra.planId ++ toLe 4 ra.hdrCrc
  b ++ toLe 4 (crc32c b)

/-- The seal is written at the base of the Recovery Area, with Porter's master ID (R335, R336, R396; the place within the area is a
DESIGN CHOICE, log 126). A controller performs what it has queued before it enters self-refresh (R226). -/
def State.raWrite (s : State) (ra : Recov) : State :=
  ((s.dramQueue 0x08 s.raBase true false false).writeWords 0x08 0 s.raBase ra.seal).1

/-! ### Steps 1, 2 and 4 of Table 17.5 -/

/-- A chip reset starts with a cause: ports stop, no record is begun, the recovery state is sealed, every sequencer stops, DEN is
0 and SIDE is released, and of the twin link only what completes the record in progress is left; a reset that starts while another runs joins it, and of causes of one tick the lower is recorded (R330, R336,
R367). -/
def State.resetBegin (s : State) (cause : Nat) : State :=
  if s.pwr.inReset.isSome then
    if s.pwr.t0 = s.flt.tick then { s with pwr := { s.pwr with inReset := s.pwr.inReset.map (min cause) } } else s
  else
    let snap := s.recovSnap.withHeld s.raHeld
    let writes := s.fabricRuns && s.gb MEM_STATUS_READY
    let ra := if writes then some snap
      else if (bitsOf 4 (s.g MEM_CFG_CH_MASK)).all (fun d => decide (s.g (DRC_STATUS_STATE d) = 3)) then s.ra else none
    let s := { s with
      pwr := { s.pwr with inReset := some cause, selfRef := s.fabricRuns, t0 := s.flt.tick }, ra := ra,
      jnl := { s.jnl with stop := true }, flt := { s.flt with resetPend := false }, raHeld := none,
      twin := { s.twin with backlog := [] } }
    let s := if writes then s.raWrite snap else s
    let s := s.modPort 4 (fun q => { q with txq := q.txq.filter (fun f => [0x51#8, 0x52#8].contains f.type) })
    let s := forEach (List.range 32) s (fun k s => s.seqHalt k 4)
    let s := s.denOff
    s.pb TWN_STATUS_SIDE false

/-- A chip reset that the RESET action or RST_CTRL.CHIP asks for: none after a REAL latch of TB_REFCLK or THM_SHUTDOWN, whose state
only RESET_N or power-on leaves (R318, R319). -/
def State.resetSoft (s : State) (cause : Nat) : State :=
  if s.pwr.gatedAll || s.thm.shutdown then s else s.resetBegin cause

/-- RESET_ACTION: RESET_DELAY of a RESET action has passed (R317). -/
def execResetAction (s : State) : Host.Outcome State Fault Refusal :=
  .next (if s.flt.resetPend then s.resetSoft 2 else s)

end Sys2Proof.Machine
end

