-- ==== Sys2Proof/Machine/RegRead.lean ====
section
/-! DEFINITION. Reading registers: who may access what (R6, R8, R52, R53), the values registers show that other state holds,
and the control-store window (R70). -/

namespace Sys2Proof.Machine

/-! ### Who accesses -/

/-- The Ward a master acts for; Porter acts for the device. -/
def State.masterWard (s : State) : Master → Option Nat
  | .ward w => if (s.ward w.val).enable then some w.val else none
  | .core c => s.coreWard c.val
  | .porter _ => none

/-- The master is Porter. -/
def isPorter : Master → Bool
  | .porter _ => true
  | _ => false

/-- The control-store window: sequencer, word and qword of an address (R70). -/
def csWindow (a : Nat) : Option (Nat × Nat × Nat) :=
  let o := a - 0x02000000
  if 0x02000000 ≤ a ∧ a < 0x04000000 ∧ 0x80000 ≤ o % 0x100000 ∧ o % 0x100000 < 0xC0000 then
    some (o / 0x100000, (o % 0x100000 - 0x80000) / 32, o % 32 / 8)
  else none

/-- The Ward of a site: that of the channels that name it; none for an unused site (R164). -/
def State.siteWard (s : State) (t : Nat) : Option Nat :=
  ((List.range 128).find? (fun n => decide (s.g (CAP_CMP_CFG_SITE n) = t))).bind (fun n => s.cbWard (n / 4))

/-- The context that holds slot `i`, with the index and the operation. -/
def State.slotOf (s : State) (i : Nat) : Option (Nat × Nat × Op) :=
  s.ctxs.findSome? (fun p => if p.2.holds then
    (p.2.ops.zipIdx.find? (fun o => decide (o.1.slot = i))).map (fun o => (p.1, o.2, o.1)) else none)

/-- The owner of a per-instance register: none for a register that belongs to the device or holds fields of several units. -/
def State.unitWard (s : State) (d : RegDesc) (ix : List Nat) : Option (Option Nat) :=
  let i := ix.headD 0
  match d.own with
  | .seq => some (s.seqWard i)
  | .cb => some (s.cbWard i)
  | .chan => some (s.cbWard (i / 4))
  | .chan1 => some (s.cbWard (ix.getD 1 0 / 4))
  | .vs => some (s.vsWard i)
  | .core => some (s.coreWard i)
  | .ctx => some (s.ctxWard i)
  | .slot => some ((s.slotOf i).bind (fun p => s.ctxWard p.1))
  | .ward => some (if (s.ward i).enable then some i else none)
  | .tmi => some (s.resWard 3 i)
  | .tim => some (s.resWard 2 i)
  | .trig => some (s.resWard 4 i)
  | .shutter => some (s.resWard 6 0)
  | .square => some (s.sqWard i)
  | .site => some (s.siteWard i)
  | .source => some (s.fltWard i)
  | _ => none

/-- The owner of bit `b` of a register that holds fields for units of several Wards. -/
def State.bitWard (s : State) (d : RegDesc) (ix : List Nat) (b : Nat) : Option Nat :=
  let i := ix.headD 0
  match d.own with
  | .chanBits => s.cbWard ((64 * i + b) / 4)
  | .seqBits => s.seqWard b
  | .cbBits => s.cbWard b
  | .vsBits => s.vsWard b
  | .coreBits => s.coreWard b
  | .sourceBits => s.fltWard (32 * i + b)
  | _ => s.fltWard (32 * (13 + i) + b)

/-- A register holds fields for units of several Wards. -/
def Owner.isBits : Owner → Bool
  | .chanBits => true
  | .seqBits => true
  | .cbBits => true
  | .vsBits => true
  | .coreBits => true
  | .sourceBits => true
  | .raiseBits => true
  | _ => false

/-- The Ward of the current acquisition arm, which writes ACQ_CTRL and ACQ_PTR (R295). -/
def State.acqWard (s : State) : Option Nat :=
  if s.g ACQ_STATUS_STATE = 0 then none else some (s.g ACQ_STATUS_WARD)

/-- Ward `w` may read the register (R52, R64). -/
def State.mayRead (s : State) (w : Nat) (d : RegDesc) (ix : List Nat) : Bool :=
  match s.unitWard d ix with
  | some o => decide (o = some w) || (decide (w = 0) && (o.isNone || (decide (d.own = .ward) && decide (d.name ≠ .DSP_WARD))))
  | none => true

/-- Ward `w` may write the register (R52). -/
def State.mayWrite (s : State) (w : Nat) (d : RegDesc) (ix : List Nat) : Bool :=
  match s.unitWard d ix with
  | some o => decide (o = some w)
  | none =>
    if d.own = .acq then decide (s.acqWard = some w)
    else d.own.isBits || decide (w = 0)

/-- The status of a register access at an address: 0, or ALIGN_ERROR, ADDR_INVALID, WARD_FENCE (R6, R8, R52, R68). No fence
holds Porter, the one master that writes vendor words. -/
def State.regCheck (s : State) (m : Master) (write : Bool) (a : Nat) : Nat :=
  if a % 8 ≠ 0 then 1
  else if 0x10000000 ≤ a then 2
  else if isPorter m then 0
  else match s.masterWard m with
    | none => 3
    | some w =>
      match csWindow a with
      | some (k, word, _) =>
        let o := s.seqWard k
        if word < 0x800 then 3
        else if o = some w ∨ (!write ∧ w = 0 ∧ o = none) then 0 else 3
      | none =>
        match regAt a with
        | none => 0
        | some (d, ix) => if (if write then s.mayWrite w d ix else s.mayRead w d ix) then 0 else 3

/-! ### Values that other state holds -/

/-- A word from (value, hi, lo) fields put into `w`. -/
def putAll (w : Word) (l : List (FRef × Nat)) : Word := l.foldl (fun w p => setBits w p.1.hi p.1.lo p.2) w

/-- The state code of a sequencer (Table 4.2). -/
def SeqState.code : SeqState → Nat
  | .idle => 0 | .setup => 1 | .beat => 2 | .wait => 3 | .paused => 4 | .fault => 5

/-- The state code of a context (Table 9.7). -/
def CtxState.code : CtxState → Nat
  | .empty => 0 | .loading => 1 | .active => 2 | .faulted => 3 | .done => 4 | .resetting => 5

/-- The state code of an operation slot (Table 9.11). -/
def OpState.code : OpState → Nat
  | .waiting => 1 | .ready => 2 | .open => 2 | .running => 3 | .done => 4 | .failed => 5

/-- PS_STATUS of sequencer `k`. -/
def State.psStatus (s : State) (k : Nat) : Word :=
  let x := s.seq k
  let a := x.shown
  putAll (s.rd (PS_STATUS k)) [(PS_STATUS_STATE k, x.st.code), (PS_STATUS_SHADOW k, b2n x.shadow.isSome),
    (PS_STATUS_HELD k, b2n (x.pendStop || x.pendPause)), (PS_STATUS_BEATMODE k, b2n a.beatMode),
    (PS_STATUS_PC k, x.arch.pc), (PS_STATUS_ENTRY k, x.entry), (PS_STATUS_Z k, b2n a.z), (PS_STATUS_N k, b2n a.n),
    (PS_STATUS_C k, b2n a.c), (PS_STATUS_SFAIL k, b2n a.sfail), (PS_STATUS_SP k, a.sp),
    (PS_STATUS_SQ k, (x.wait.map (·.sq)).getD 0)]

/-- A generator as its register shows it: VALUE and DIR above it. -/
def AddrGen.word (g : AddrGen) (width : Nat) : Word := BitVec.ofNat 64 (g.v + 2 ^ width * b2n g.dir)

/-- Word `q` of Journal slot `k`, as Ward `w` reads it (R333). -/
def State.jnlRec (s : State) (w k q : Nat) : Word :=
  let r := s.nvLd (jnlAddr k) 64
  let kind := u r 8 1
  if kind % 8 = 5 ∨ kind / 8 % 4 = w then BitVec.ofNat 64 (u r (8 * q) 8) else 0#64

/-- The command holds an entry of its queue: it has not started. -/
def Cmd.waits (c : Cmd) : Bool := decide (c.st = .queued) || decide (c.st = .held)

/-- The command queue entries of queue `q` of Ward `w` that are occupied (R56). -/
def State.queueDepth (s : State) (w q : Nat) : Nat :=
  (s.cmds.filter (fun c => decide (c.ward.val = w) && decide (c.queue.val = q) && c.waits)).length

/-- The value register `d` with indices `ix` shows to Ward `w`, before the fence of single bits. -/
def State.liveReg (s : State) (w : Nat) (d : RegDesc) (ix : List Nat) (a : Nat) : Word :=
  let v := s.rd a
  let i := ix.headD 0
  let j := ix.getD 1 0
  let seq := s.seq i
  let y := s.ctx i
  match d.name with
  | .PS_STATUS => s.psStatus i
  | .PS_CTRL => putAll v [(PS_CTRL_STOP i, b2n seq.pendStop), (PS_CTRL_PAUSE i, b2n seq.pendPause)]
  | .PS_GR => seq.shown.grv j
  | .PS_LC => BitVec.ofNat 64 (seq.shown.lcv j + 2 ^ 32 * seq.shown.rlv j)
  | .PS_STACK => BitVec.ofNat 64 (seq.shown.stack.toList.getD j 0)
  | .APG_X => seq.shown.gx.word 24
  | .APG_XA => BitVec.ofNat 64 seq.shown.gx.a
  | .APG_Y => seq.shown.gy.word 24
  | .APG_YA => BitVec.ofNat 64 seq.shown.gy.a
  | .APG_Z => seq.shown.gz.word 8
  | .APG_ZA => BitVec.ofNat 64 seq.shown.gz.a
  | .APG_D => seq.shown.dr
  | .LNK_PORT_STATUS => putAll v [(LNK_PORT_STATUS_STATE i, s.g (LN_GRP_STATUS_STATE i)),
      (LNK_PORT_STATUS_WIDTH i, s.g (LN_GRP_STATUS_WIDTH i)), (LNK_PORT_STATUS_RATE i, s.g (LN_GRP_STATUS_RATE i))]
  | .LNK_FCP_CFG => putAll v [(LNK_FCP_CFG_BUSY i, b2n (s.fcp.toList.getD i none).isSome)]
  | .WRD_STATUS => putAll v [(WRD_STATUS_PORT_UP i, b2n ((s.ward i).enable && s.portUp (s.ward i).port)),
      (WRD_STATUS_EVT_DEPTH i, (s.wst i).evq.length), (WRD_STATUS_EVT_LOST i, (s.wst i).lost)]
  | .WRD_QSTATUS => putAll v [(WRD_QSTATUS_DEPTH i j, s.queueDepth i j)]
  | .CH_CB_STATUS => putAll v [(CH_CB_STATUS_OWNED i, b2n (s.cbSeq i).isSome), (CH_CB_STATUS_SEQ i, (s.cbSeq i).getD 0)]
  | .CAP_SITE_STATUS =>
    match (List.range 128).find? (fun n => decide (s.g (CAP_CMP_CFG_SITE n) = i)) with
    | some n => putAll v [(CAP_SITE_STATUS_USED i, 1), (CAP_SITE_STATUS_SEQ i, (s.cbSeq (n / 4)).getD 0)]
    | none => v
  | .DSP_STATUS => putAll v [(DSP_STATUS_SLOTS_USED, s.slotsUsed.length), (DSP_STATUS_FIFO_LEVEL, s.disp.fifo.length)]
  | .DSP_WARD => putAll v [(DSP_WARD_USED i, s.wardSlots i), (DSP_WARD_QUOTA i, if s.g RST_STATUS_PHASE < 3 then 0 else 8 * (s.ward i).ctxCount)]
  | .DSP_CTX_STATUS => putAll v [(DSP_CTX_STATUS_STATE i, y.st.code), (DSP_CTX_STATUS_INBOX i, y.inbox.length),
      (DSP_CTX_STATUS_LAST_LEFT i, y.producers - y.lastTaken), (DSP_CTX_STATUS_FAULT_STATUS i, y.faultStatus),
      (DSP_CTX_STATUS_FAULT_OP i, y.faultOp), (DSP_CTX_STATUS_RUNNING i, y.running)]
  | .DSP_CTX_GRAPH => putAll v [(DSP_CTX_GRAPH_COUNT i, y.ops.length), (DSP_CTX_GRAPH_DONE_OPS i, y.doneOps),
      (DSP_CTX_GRAPH_RUNS i, y.runsTotal)]
  | .DSP_CTX_JSEQ => BitVec.ofNat 64 y.jseq
  | .DSP_CTX_POSTS => putAll v [(DSP_CTX_POSTS_POSTED i, y.posted), (DSP_CTX_POSTS_CONSUMED i, y.consumed)]
  | .DSP_SLOT =>
    match s.slotOf i with
    | some (x, k, o) => putAll v [(DSP_SLOT_STATE i, o.st.code), (DSP_SLOT_DEP i, o.dep), (DSP_SLOT_CTX i, x), (DSP_SLOT_INDEX i, k)]
    | none => v
  | .AC_STATUS =>
    let st := match (s.core i).st with
      | .idle => 0
      | .running => 1
      | .stalled => 2
    putAll v [(AC_STATUS_STATE i, if (s.coreWard i).isNone then 3 else st), (AC_STATUS_WAIT i, (s.core i).wait)]
  | .MEM_STATUS => putAll v [(MEM_STATUS_FITTED_MIB, if s.g RST_STATUS_PHASE < 2 then 0 else s.chN * s.chMib)]
  | .TB_TRIG_STATUS => putAll v [(TB_TRIG_STATUS_BOUND i, b2n (s.resBind 4 i).isSome)]
  | .ADC_STATUS => putAll v [(ADC_STATUS_INJ_QUEUE, s.injWaiting)]
  | .TWN_STATUS => putAll v [(TWN_STATUS_LINK, b2n (decide (s.g (LN_GRP_STATUS_STATE 4) = 2)))]
  | .TWN_MIRROR => putAll v [(TWN_MIRROR_BACKLOG, s.twin.backlog.length)]
  | .JNL_RA => putAll v [(JNL_RA_OFF, s.raBase)]
  | .JNL_REC => s.jnlRec w i j
  | .CLK_EN => if i = 0 then v ||| 1#64 else v
  | .RST_SERIAL => if Config.serial = 0#64 then 1#64 else Config.serial
  | .RST_FW => if s.g RST_STATUS_PHASE < 2 ∨ s.pwr.romBad then Config.firmware &&& 0xFFFFFFFF#64 else Config.firmware
  | _ => v

/-- The bits of a control-store word that qword `q` of the window shows (R70). -/
def State.csQword (s : State) (k word q : Nat) : Word :=
  let w := (csRead (csAt (s.seq k).cs word)).toNat
  match q with
  | 0 => BitVec.ofNat 64 w
  | 1 => BitVec.ofNat 64 (w / 2 ^ 64)
  | 2 => BitVec.ofNat 64 (w / 2 ^ 128 % 2 ^ 32)
  | _ => BitVec.ofNat 64 (w / 2 ^ 160)

/-- The value a register read by Ward `w` returns (R7 to R9, R52): 0 where there is no register; bits of other Wards' units
read 0, and those of units without a Ward are read by the Plan Ward. -/
def State.readReg (s : State) (w a : Nat) : Word :=
  match csWindow a with
  | some (k, word, q) => s.csQword k word q
  | none =>
    match regAt a with
    | none => 0#64
    | some (d, ix) =>
      let v := s.liveReg w d ix a
      if d.own.isBits then
        v &&& BitVec.ofNat 64 (maskOf 64 (fun b =>
          match s.bitWard d ix b with
          | some o => decide (o = w)
          | none => decide (w = 0)))
      else v

/-- The domain of the unit that a register address belongs to, of those that gate when idle (Table 17.2). -/
def regDom (a : Nat) : Option Nat :=
  match csWindow a, regAt a with
  | some (k, _, _), _ => some (psDom k)
  | none, none => none
  | none, some (d, ix) =>
    let i := ix.headD 0
    match d.own, blockOf a with
    | .seq, 2 => some (psDom i)
    | .vs, 4 => some (vsDom i)
    | .chan, 5 => some (cbDom (i / 4))
    | .cb, 5 => some (cbDom i)
    | .core, 7 => some (acDom i)
    | _, 6 => some capDom
    | _, 7 => some dspDom
    | _, 0xB => if a < 0x0B002000 then some adcDom else none
    | _, _ => none

/-- A register access wakes the domain of its unit, enabled or not (R364). The access itself, which would wait for the wake, is
complete at once (DESIGN CHOICE, log 121). -/
def State.touch (s : State) (a : Nat) : State :=
  match regDom a with
  | some d => s.demand d
  | none => s

/-- A register read wakes its unit's domain (R364); one of TB_TIME_LO latches the whole reading (R253); one of JNL_REC reads a word of
the non-volatile memory (R326). -/
def State.readEffect (s : State) (a : Nat) : State :=
  let s := s.touch a
  if a = TB_TIME_LO then s.tbLatch
  else if 0x0E400000 ≤ a ∧ a < 0x0E400000 + 64 * jnlSlots then s.nvCe (jnlAddr 0 + (a - 0x0E400000)) 8
  else s

/-- Registers read one after the other. -/
def State.readMany (s : State) (w : Nat) (as : List Nat) : State × List Word :=
  as.foldl (fun (p : State × List Word) a =>
    let t := p.1.readEffect a
    (t, p.2 ++ [t.readReg w a])) (s, [])

end Sys2Proof.Machine
end

