-- ==== Sys2Proof/Machine/Stream.lean ====
section
/-! DEFINITION. Vector stream engines: arming (R117 to R120), the stream grammar (R121 to R125), fetching (R127, R128), drawing
(R129 to R131) and errors (R136). -/

namespace Sys2Proof.Machine

/-! ### Sets -/

/-- Set width W of engine `v`: four channels for each Channel Block of its sequencer. -/
def State.vsW (s : State) (v : Nat) : Nat := 4 * (s.seqCbs (s.g (VS_STATUS_SEQ v))).length

/-- Bytes of a set of `w` pin words (R121). -/
def setLen (w : Nat) : Nat := (11 * w + 7) / 8

/-- Bytes of a dictionary entry. -/
def dictE (w : Nat) : Nat := roundUp 8 (setLen w)

/-- The `w` pin words of a set's bytes (R121). -/
def setWords (w : Nat) (b : List Byte) : List PinWord :=
  let n := leNat b
  (List.range w).map (fun i => BitVec.ofNat 11 (n / 2 ^ (11 * i)))

/-! ### Reading the stream -/

/-- Stream held in the Vector Buffer. -/
def State.vsVb (s : State) (v : Nat) : Bool := s.gb (VS_STATUS_SRC_VB v)

/-- STREAM_LEN. -/
def State.vsLen (s : State) (v : Nat) : Nat := s.g (VS_ARM_LEN_STREAM_LEN v)

/-- Offset of the next record. -/
def State.vsPos (s : State) (v : Nat) : Nat := s.g (VS_POS_OFFSET v)

/-- The stream up to offset `o` is on chip. -/
def State.vsHas (s : State) (v o : Nat) : Bool := s.vsVb v || decide (o ≤ (s.vse v).fetched)

/-- `n` stream bytes from offset `o`, from the Vector Buffer or the staging ring; and whether a word was uncorrectable. -/
def State.vsRead (s : State) (v o n : Nat) : State × List Byte × Bool :=
  if n = 0 then (s, [], false)
  else if s.vsVb v then
    let r := s.busRead (0x30 + v) (memBase 1 + s.g (VS_ARM_SRC_STREAM_OFF v) + o) n
    (r.1, r.2.1, r.2.2.ue)
  else
    let size := s.g (VS_ARM_RING_RING_SIZE v)
    let base := memBase 1 + s.g (VS_ARM_RING_RING_OFF v)
    let at_ := o % size
    let k := min n (size - at_)
    let a := s.busRead (0x30 + v) (base + at_) k
    if k < n then
      let b := a.1.busRead (0x30 + v) base (n - k)
      (b.1, a.2.1 ++ b.2.1, a.2.2.ue || b.2.2.ue)
    else (a.1, a.2.1, a.2.2.ue)

/-- Bytes of a record before its variable part (Table 6.2). -/
def recFix (ty : Nat) : Nat :=
  match ty with
  | 0x1 => 3 | 0x2 => 4 | 0x3 => 2 | 0x4 => 3 | 0x5 => 5 | 0x6 => 4 | 0x7 => 17 | 0x8 => 4 | 0xA => 2 | _ => 1

/-- Scan channels of width `w` (R123). -/
def VsEng.scanChans (x : VsEng) (w : Nat) : List Nat :=
  match x.scan with
  | some (_, m) => bitsOf w m
  | none => []

/-- Packed bits of one SCAN set: C × (B + m). -/
def VsEng.scanBits (x : VsEng) (w m : Nat) : Nat := (x.scanChans w).length * ((x.scan.map (·.1)).getD 0 + m)

/-- Bytes of the variable part of a record after `n` sets of it (`b`: its fixed bytes). -/
def VsEng.varUpTo (x : VsEng) (w ty : Nat) (b : List Byte) (n : Nat) : Nat :=
  match ty with
  | 0x1 => n * setLen w
  | 0x3 => 3 * (u b 1 1 + 1)
  | 0x4 => setLen w
  | 0x6 => (n * x.scanBits w (u b 0 1 % 2) + 7) / 8
  | _ => 0

/-- Sets that a record emits. -/
def recSets (ty : Nat) (b : List Byte) : Nat :=
  match ty with
  | 0x1 => u b 1 2 + 1
  | 0x2 => u b 1 3 + 1
  | 0x3 => 1
  | 0x5 => if u b 0 1 % 2 = 1 then 0 else u b 3 2 + 1
  | 0x6 => u b 1 3 + 1
  | _ => 0

/-- The offset behind the last byte the decoder needs for its next step. -/
def State.vsNeed (s : State) (v : Nat) : Nat :=
  let o := s.vsPos v
  if !s.vsHas v (o + 1) then o + 1
  else
    let h := ((s.vsRead v o 1).2.1.getD 0 0#8).toNat
    let fix := recFix (h / 16)
    if !s.vsHas v (o + fix) then o + fix
    else
      let b := (s.vsRead v o fix).2.1
      let x := s.vse v
      let n := recSets (h / 16) b
      o + fix + x.varUpTo (s.vsW v) (h / 16) b (min n (x.part + 1))

/-- Bytes of the stream that the decoder has passed and no open loop body holds (R127). -/
def State.vsReleased (s : State) (v : Nat) : Nat :=
  let x := s.vse v
  match x.loops.getLast? with
  | some (o, _) => o
  | none =>
    let o := s.vsPos v
    if x.part = 0 ∨ !s.vsHas v (o + 1) then o
    else
      let h := ((s.vsRead v o 1).2.1.getD 0 0#8).toNat
      let b := (s.vsRead v o (recFix (h / 16))).2.1
      if h / 16 = 1 then o + 3 + x.part * setLen (s.vsW v)
      else if h / 16 = 6 then o + 4 + x.part * x.scanBits (s.vsW v) (u b 0 1 % 2) / 8
      else o

/-- VS_LEVEL and LOOP_DEPTH show the engine. -/
def State.vsShow (s : State) (v : Nat) : State :=
  let x := s.vse v
  let s := s.p (VS_LEVEL_RING v) (if s.vsVb v then 0 else x.fetched - s.vsReleased v)
  (s.p (VS_LEVEL_QUEUE v) x.queue.length).p (VS_STATUS_LOOP_DEPTH v) x.loops.length

/-- The engine enters ERROR (R136); a STREAM_ARM that waits completes with ARG 1 (R120). -/
def State.vsError (s : State) (v code : Nat) : State :=
  let arm := (s.vse v).arm
  let s := s.modVs v (fun x => { x with arm := none })
  let s := ((s.p (VS_STATUS_STATE v) 6).p (VS_ERR_CODE v) code).p (VS_ERR_OFFSET v) (s.vsPos v)
  let s := (s.assertFlt (144 + v)).eventTo (s.vsWard v) 0x0302 (v + 256 * code)
  s.finishOpt arm 0 1

/-- The engine decodes: PRIMING, READY or STREAMING. -/
def State.vsDecodes (s : State) (v : Nat) : Bool :=
  decide (1 ≤ s.g (VS_STATUS_STATE v)) && decide (s.g (VS_STATUS_STATE v) ≤ 3)

/-- Reserved bits of P, or of a field, or a PATCH of more than 128 entries, which Table 6.4 names no code for: TYPE, as for reserved
bits of a field (R122, R123, R136; DESIGN CHOICE, log). -/
def recBad (ty : Nat) (b : List Byte) : Bool :=
  let p := u b 0 1 % 16
  match ty with
  | 0x3 => decide (p ≠ 0) || decide (127 < u b 1 1)
  | 0x5 => decide (1 < p) || (decide (p = 1) && decide (u b 3 2 ≠ 0))
  | 0x6 => decide (1 < p)
  | 0x7 => decide (7 < p)
  | 0xA => decide (p ≠ 0) || decide (63 < u b 1 1)
  | _ => decide (p ≠ 0) || decide (0xB < ty)

/-- Decode the record at the engine's position if it is of type `ty`; a reserved type, or no byte left, is met by PAD. `act`
has the fixed bytes; the variable part lies within the stream. -/
def State.vsRow (s : State) (v ty : Nat) (act : List Byte → State → State) : State :=
  let o := s.vsPos v
  if !s.ticksOf (vsDom v) || !s.vsDecodes v then s
  else if s.vsLen v ≤ o then (if ty = 0 then s.vsError v 0x0A else s)
  else if !s.vsHas v (o + 1) then s
  else
    let h := s.vsRead v o 1
    let t := (h.2.1.getD 0 0#8).toNat / 16
    if t ≠ ty ∧ !(ty = 0 ∧ 0xB < t) then s
    else if h.2.2 then h.1.vsError v 0x0D
    else if 0xB < t then h.1.vsError v 1
    else if s.vsLen v < o + recFix ty then h.1.vsError v (if recBad ty h.2.1 then 1 else 0x0A)
    else if !s.vsHas v (o + recFix ty) then s
    else
      let r := s.vsRead v o (recFix ty)
      let n := (s.vse v).varUpTo (s.vsW v) ty r.2.1 (recSets ty r.2.1)
      if r.2.2 then r.1.vsError v 0x0D
      else if recBad ty r.2.1 then r.1.vsError v 1
      else if s.vsLen v < o + recFix ty + n then r.1.vsError v 0x0A
      else (act r.2.1 r.1).vsShow v

/-- Engine `v` writes into the Vector Buffer; in a pair the write is mirrored (R348). The flag tells that the write met an
uncorrectable word and was not performed (R219). -/
def State.vbWrite (s : State) (v a : Nat) (b : List Byte) : State × Bool :=
  let r := s.busWrite (0x30 + v) a b
  (r.1.mirror 0x55 (toLe 8 a ++ b), r.2.ue)

/-- The decoder passes to the record `n` bytes on. -/
def State.vsSkip (s : State) (v n : Nat) : State :=
  (s.modVs v (fun x => { x with part := 0 })).p (VS_POS_OFFSET v) (s.vsPos v + n)

/-- Emit sets of a record, as far as the output queue has room and `ok` sees the bytes; at most 32 at once (R126). -/
def VsEng.emit (x : VsEng) (n : Nat) (mk : VsEng → List PinWord) (ok : Nat → Bool) : Nat → VsEng
  | 0 => x
  | f + 1 =>
    if x.part < n ∧ x.queue.length < 32 ∧ ok x.part then
      let t := mk x
      VsEng.emit { x with queue := x.queue ++ [t], cur := t, part := x.part + 1, emitted := x.emitted + 1 } n mk ok f
    else x

/-- Emit sets of the current record of `size` bytes and `n` sets; it is passed with its last set. -/
def State.vsEmit (s : State) (v size n : Nat) (mk : VsEng → List PinWord) (ok : Nat → Bool) : State :=
  let s := s.modVs v (fun x => x.emit n mk ok 32)
  if (s.vse v).part = n then s.vsSkip v size else s

/-! ### Records (Table 6.2) -/

/-- PAD; also a reserved TYPE and the end of the stream without END. -/
def execSPad (v : Fin 16) (s : State) : Host.Outcome State Fault Refusal :=
  .next (s.vsRow v.val 0 (fun _ s => s.vsSkip v.val 1))

/-- LIT: each set is emitted as written. -/
def execSLit (v : Fin 16) (s : State) : Host.Outcome State Fault Refusal :=
  .next (s.vsRow v.val 1 (fun b s =>
    let v := v.val
    let w := s.vsW v
    let l := setLen w
    let n := u b 1 2 + 1
    let o := s.vsPos v + 3
    let k := min (n - (s.vse v).part) (32 - (s.vse v).queue.length)
    let lo := o + (s.vse v).part * l
    let part0 := (s.vse v).part
    let have_ := if s.vsVb v then k * l else min (k * l) ((s.vse v).fetched - lo)
    let r := s.vsRead v lo have_
    if r.2.2 then r.1.vsError v 0x0D
    else r.1.vsEmit v (3 + n * l) n (fun x => setWords w (sub r.2.1 ((x.part - part0) * l) l))
      (fun i => decide ((i - part0 + 1) * l ≤ have_))))

/-- RUN: S is emitted N times. -/
def execSRun (v : Fin 16) (s : State) : Host.Outcome State Fault Refusal :=
  .next (s.vsRow v.val 2 (fun b s => s.vsEmit v.val 4 (u b 1 3 + 1) (·.cur) (fun _ => true)))

/-- PATCH: entries replace pin words of S, then S is emitted (R123). -/
def execSPatch (v : Fin 16) (s : State) : Host.Outcome State Fault Refusal :=
  .next (s.vsRow v.val 3 (fun b s =>
    let v := v.val
    let k := u b 1 1 + 1
    let o := s.vsPos v + 2
    if !s.vsHas v (o + 3 * k) then s
    else
      let r := s.vsRead v o (3 * k)
      let es : List (Nat × Nat) := (List.range k).map (fun i => (u r.2.1 (3 * i) 1, u r.2.1 (3 * i + 1) 2))
      if r.2.2 then r.1.vsError v 0x0D
      else if es.any (fun e => decide (127 < e.1) || decide (2047 < e.2)) then r.1.vsError v 1
      else if es.any (fun e => decide (s.vsW v ≤ e.1)) then r.1.vsError v 2
      else r.1.vsEmit v (2 + 3 * k) 1
        (fun x => es.foldl (fun l e => l.set e.1 (BitVec.ofNat 11 e.2)) x.cur) (fun _ => true)))

/-- The bus address of dictionary entry `i`. -/
def State.dictAddr (s : State) (v i : Nat) : Nat := memBase 1 + s.g (VS_ARM_DICT_DICT_OFF v) + i * dictE (s.vsW v)

/-- DICT_DEF: the entry takes a set and is valid; replacing a valid entry sets DICT_REDEF (R135). -/
def execSDictDef (v : Fin 16) (s : State) : Host.Outcome State Fault Refusal :=
  .next (s.vsRow v.val 4 (fun b s =>
    let v := v.val
    let i := u b 1 2
    let l := setLen (s.vsW v)
    let o := s.vsPos v + 3
    if s.g (VS_ARM_DICT_DICT_ENTRIES v) ≤ i then s.vsError v 3
    else if !s.vsHas v (o + l) then s
    else
      let r := s.vsRead v o l
      if r.2.2 then r.1.vsError v 0x0D
      else
        let q := r.1.vbWrite v (s.dictAddr v i) r.2.1
        let s := q.1
        if q.2 then s.vsError v 0x0D
        else
        let s := if nbit (s.vse v).dictValid i then s.pb (VS_STATUS_DICT_REDEF v) true else s
        (s.modVs v (fun x => { x with dictValid := x.dictValid ||| (1 <<< i) })).vsSkip v (3 + l)))

/-- DICT_USE: the entry is emitted N times, or becomes S. -/
def execSDictUse (v : Fin 16) (s : State) : Host.Outcome State Fault Refusal :=
  .next (s.vsRow v.val 5 (fun b s =>
    let v := v.val
    let i := u b 1 2
    let w := s.vsW v
    if s.g (VS_ARM_DICT_DICT_ENTRIES v) ≤ i then s.vsError v 3
    else if !nbit (s.vse v).dictValid i then s.vsError v 4
    else
      let r := s.busRead (0x30 + v) (s.dictAddr v i) (setLen w)
      let t := setWords w r.2.1
      if r.2.2.ue then r.1.vsError v 0x0D
      else if u b 0 1 % 2 = 1 then (r.1.modVs v (fun x => { x with cur := t })).vsSkip v 5
      else r.1.vsEmit v 5 (u b 3 2 + 1) (fun _ => t) (fun _ => true)))

/-- One SCAN set: S with DATA[B−1:0], and MASK under MASKED, from the packed bits `n` on (R124). -/
def scanSet (x : VsEng) (w b m : Nat) (bits : Nat) : List PinWord :=
  ((x.scanChans w).zipIdx).foldl (fun l p =>
    let f := bits / 2 ^ (p.2 * (b + m))
    let old := (l.getD p.1 0#11).toNat
    let data := old / 2 ^ b * 2 ^ b % 256 + f % 2 ^ b
    let mode := old / 256 % 4
    let mask := if m = 1 then f / 2 ^ b % 2 else old / 1024
    l.set p.1 (BitVec.ofNat 11 (mask * 1024 + mode * 256 + data))) x.cur

/-- SCAN (R124). -/
def execSScan (v : Fin 16) (s : State) : Host.Outcome State Fault Refusal :=
  .next (s.vsRow v.val 6 (fun b s =>
    let v := v.val
    let w := s.vsW v
    let x := s.vse v
    let m := u b 0 1 % 2
    let n := u b 1 3 + 1
    let per := x.scanBits w m
    if (x.scanChans w).isEmpty then s.vsError v 5
    else
      let o := s.vsPos v + 4
      let lo := x.part * per / 8
      let k := min (n - x.part) (32 - x.queue.length)
      let want := ((x.part + k) * per + 7) / 8 - lo
      let have_ := if s.vsVb v then want else min want (x.fetched - (o + lo))
      let r := s.vsRead v (o + lo) have_
      let num := leNat r.2.1
      if r.2.2 then r.1.vsError v 0x0D
      else r.1.vsEmit v (4 + (n * per + 7) / 8) n
        (fun x => scanSet x w ((x.scan.map (·.1)).getD 0) m (num / 2 ^ (x.part * per - 8 * lo)))
        (fun i => decide ((i + 1) * per ≤ 8 * (lo + have_)))))

/-- SCAN_CFG: scan bits per channel and scan channels. -/
def execSScanCfg (v : Fin 16) (s : State) : Host.Outcome State Fault Refusal :=
  .next (s.vsRow v.val 7 (fun b s =>
    (s.modVs v.val (fun x => { x with scan := some (u b 0 1 % 16 + 1, u b 1 16) })).vsSkip v.val 17))

/-- LOOP: opens a loop of N iterations (R125). -/
def execSLoop (v : Fin 16) (s : State) : Host.Outcome State Fault Refusal :=
  .next (s.vsRow v.val 8 (fun b s =>
    let v := v.val
    if 4 ≤ (s.vse v).loops.length then s.vsError v 6
    else (s.modVs v (fun x => { x with loops := (s.vsPos v + 4, u b 1 3 + 1) :: x.loops })).vsSkip v 4))

/-- ENDLOOP: the body runs again, or the loop closes (R125). -/
def execSEndloop (v : Fin 16) (s : State) : Host.Outcome State Fault Refusal :=
  .next (s.vsRow v.val 9 (fun _ s =>
    let v := v.val
    match (s.vse v).loops with
    | [] => s.vsError v 7
    | (o, n) :: t =>
      if n ≤ 1 then (s.modVs v (fun x => { x with loops := t })).vsSkip v 1
      else (s.modVs v (fun x => { x with loops := (o, n - 1) :: t, part := 0 })).p (VS_POS_OFFSET v) o))

/-- SQUARE: the engine arrives and stops decoding until the release (R133). -/
def execSSquare (v : Fin 16) (s : State) : Host.Outcome State Fault Refusal :=
  .next (s.vsRow v.val 0xA (fun b s =>
    let v := v.val
    let q := u b 1 1
    if !nbit (s.g (PS_SQ_ENROL_VS q)) v then s.vsError v 9
    else
      let s := ((s.vsSkip v 2).p (VS_STATUS_SQ v) q).p (VS_STATUS_STATE v) 4
      s.sqArrive q (32 + v) s.tb.fine))

/-- END: end of stream. -/
def execSEnd (v : Fin 16) (s : State) : Host.Outcome State Fault Refusal :=
  .next (s.vsRow v.val 0xB (fun _ s =>
    let v := v.val
    if (s.vse v).loops ≠ [] then s.vsError v 7
    else ((s.modVs v (fun x => { x with ended := true })).vsSkip v 1).p (VS_STATUS_STATE v) 5))

/-! ### Fetch and priming -/

/-- The ring has no room for another read (R127). -/
def State.vsFull (s : State) (v : Nat) : Bool :=
  decide (s.g (VS_ARM_RING_RING_SIZE v) < (s.vse v).fetched - s.vsReleased v + 64)

/-- One 64-byte read of the fetcher into the ring; under the panic level it carries the panic mark (R127, R128). A fetcher that
would have to overwrite an open loop body to continue enters ERROR, as does one whose read meets an uncorrectable word or a range
error (R217, R220); one with 32 reads outstanding waits (R127, R221). -/
def State.vsFetch (s : State) (v : Nat) : State :=
  let x := s.vse v
  let st := s.g (VS_STATUS_STATE v)
  if s.vsVb v ∨ st = 0 ∨ 5 < st ∨ s.vsLen v ≤ x.fetched ∨ s.memWaits (0x30 + v) ∨ 32 ≤ s.outstanding (0x30 + v) then s
  else if s.vsFull v then
    if x.loops ≠ [] ∧ s.vsDecodes v ∧ x.fetched < s.vsNeed v then s.vsError v 8 else s
  else
    let size := s.g (VS_ARM_RING_RING_SIZE v)
    let panic := decide (x.fetched - s.vsReleased v < s.g (VS_CFG_PANIC_LEVEL v) * 4096)
    let r := s.busRead (0x30 + v) (memBase 0 + s.g (VS_ARM_SRC_STREAM_OFF v) + x.fetched) 64 panic
    let q := r.1.vbWrite v (memBase 1 + s.g (VS_ARM_RING_RING_OFF v) + x.fetched % size) r.2.1
    let s := q.1.modVs v (fun x => { x with fetched := x.fetched + 64 })
    if r.2.2.ue || r.2.2.range || q.2 then (s.vsError v 0x0D).vsShow v else s.vsShow v

/-- STREAM_FETCH. -/
def execStreamFetch (v : Fin 16) (s : State) : Host.Outcome State Fault Refusal := .next (if !s.ticksOf (vsDom v.val) then s else s.vsFetch v.val)

/-- An engine that meets R120 is PRIMED, and its STREAM_ARM completes. -/
def State.vsPrimed (s : State) (v : Nat) : State :=
  let x := s.vse v
  let st := s.g (VS_STATUS_STATE v)
  let ringOk := s.vsVb v || decide (s.vsLen v ≤ x.fetched) || s.vsFull v
  let queueOk := decide (x.queue.length = 32) || x.ended || decide (st = 4)
  if st = 0 ∨ st = 6 ∨ s.gb (VS_STATUS_PRIMED v) ∨ !ringOk ∨ !queueOk then s
  else
    let s := (s.pb (VS_STATUS_PRIMED v) true).p (VS_STATUS_STATE v) (if st = 1 then 2 else st)
    let s := s.modVs v (fun x => { x with arm := none })
    s.finishOpt x.arm 0 0

/-- STREAM_PRIMED. -/
def execStreamPrimed (v : Fin 16) (s : State) : Host.Outcome State Fault Refusal := .next (if !s.ticksOf (vsDom v.val) then s else s.vsPrimed v.val)

/-! ### STREAM_ARM (R118, R119) -/

/-- Two ranges overlap. -/
def overlap (a n b m : Nat) : Bool := decide (a < b + m) && decide (b < a + n) && decide (n ≠ 0) && decide (m ≠ 0)

/-- STREAM_ARM with DISARM. -/
def streamDisarm (c : Cmd) (s : State) : State :=
  let v := u c.args 0 1
  if s.vsWard v ≠ some c.ward.val then s.refuse c 3
  else if c.args.length ≠ 48 ∨ 15 < v ∨ u c.args 2 1 ≠ 2 ∨ !zeros c.args 1 1 ∨ !zeros c.args 3 45 then s.refuse c 0x0D
  else if s.g (VS_STATUS_STATE v) = 0 then s.complete c
  else if s.bursting (s.g (VS_STATUS_SEQ v)) then s.refuse c 6
  else
    let arm := (s.vse v).arm
    let s := (s.started c).sqWithdraw (32 + v)
    let s := s.vsUnbind v
    let s := match arm with
      | some id => s.finishF id 0
      | none => s
    s.finishF c.id 0

/-- STREAM_ARM. -/
def streamArm (c : Cmd) (s : State) : State :=
  let b := c.args
  let w := c.ward.val
  let v := u b 0 1
  let k := u b 1 1
  let fl := u b 2 1
  let vb := nbit fl 0
  let off := u b 8 8
  let len := u b 0x10 8
  let roff := u b 0x18 8
  let rsize := u b 0x20 4
  let de := u b 0x24 4
  let doff := u b 0x28 8
  let cbs := (s.seqCbs k).length
  let dsize := de * dictE (4 * cbs)
  if !s.plan.sealed then s.refuse c 8
  else if nbit fl 1 then streamDisarm c s
  else if s.vsWard v ≠ some w ∨ s.seqWard k ≠ some w ∨ !s.ownsRange w (if vb then 1 else 0) off len ∨
      (!vb ∧ !s.ownsRange w 1 roff rsize) ∨ (de ≠ 0 ∧ !s.ownsRange w 1 doff dsize) then s.refuse c 3
  else if b.length ≠ 48 ∨ 15 < v ∨ 31 < k ∨ 7 < fl ∨ !zeros b 4 4 ∨ off % 64 ≠ 0 ∨ len % 64 ≠ 0 ∨ len = 0 ∨ 4096 < de ∨
      doff % 8 ≠ 0 ∨ (de = 0 ∧ doff ≠ 0) ∨ (vb ∧ (roff ≠ 0 ∨ rsize ≠ 0)) ∨
      (!vb ∧ (roff % 4096 ≠ 0 ∨ rsize % 4096 ≠ 0 ∨ rsize < 16384 ∨ 4194304 < rsize)) ∨ u b 3 1 ≠ cbs ∨ cbs = 0 ∨
      overlap roff rsize doff dsize ∨ (vb ∧ overlap off len doff dsize) then s.refuse c 0x0D
  else if s.g (VS_STATUS_STATE v) ≠ 0 ∨ s.seqVs k ≠ none ∨ (s.seq k).st ≠ .idle then s.refuse c 6
  else
    let s := s.started c
    let s := s.modVs v (fun _ => { VsEng.zero with
      cur := List.replicate (4 * cbs) 0#11, dictValid := if nbit fl 2 then 2 ^ de - 1 else 0, arm := some c.id })
    let s := forEach [VS_STATUS v, VS_POS v, VS_LEVEL v, VS_COUNT v, VS_UR v, VS_ERR v, VS_CKPT v] s (fun a s => s.rst a)
    let s := forEach (List.range 4) s (fun i s => s.rst (VS_CKPT_LOOP v i))
    let s := ((s.p (VS_STATUS_STATE v) 1).pb (VS_STATUS_BOUND v) true).p (VS_STATUS_SEQ v) k
    let s := (s.pb (VS_STATUS_SRC_VB v) vb).p (VS_ARM_SRC_STREAM_OFF v) off
    let s := ((s.p (VS_ARM_LEN_STREAM_LEN v) len).p (VS_ARM_RING_RING_OFF v) roff).p (VS_ARM_RING_RING_SIZE v) rsize
    (s.p (VS_ARM_DICT_DICT_OFF v) doff).p (VS_ARM_DICT_DICT_ENTRIES v) de

/-- STREAM_ARM. -/
def execStreamArm (w : Fin 4) (q : Fin 8) (s : State) : Host.Outcome State Fault Refusal :=
  .next (s.runCmd w.val q.val 0x30 streamArm)

/-! ### Drawing (R129 to R131) -/

/-- What a draw of sequencer `k` meets: 0 no bound engine, 1 a set, 2 an underrun, 3 a stop (R129 to R131). -/
def State.drawMeets (s : State) (k : Nat) : Nat :=
  match s.seqVs k with
  | none => 0
  | some v =>
    if !(s.vse v).queue.isEmpty then 1
    else if (s.vse v).ended ∨ s.g (VS_STATUS_STATE v) = 6 then 3
    else 2

/-- A draw takes a set: the set drawn is the sequencer's last one. -/
def State.draw (s : State) (k : Nat) : State :=
  match s.seqVs k with
  | none =>
    let zero := List.replicate (s.seqChans k).length 0#11
    let s := if (s.seq k).unbound then s else s.eventTo (s.seqWard k) 0x0303 k
    s.modSeq k (fun x => { x with unbound := true, lastDraw := zero, lastSet := 0xFFFFFFFFFFFF })
  | some v =>
    let n := s.g (VS_COUNT_SETS v)
    let t := (s.vse v).queue.headD []
    let st := s.g (VS_STATUS_STATE v)
    let s := s.modVs v (fun x => { x with queue := x.queue.drop 1 })
    let s := (s.p (VS_COUNT_SETS v) (n + 1)).p (VS_STATUS_STATE v) (if st = 1 ∨ st = 2 then 3 else st)
    (s.modSeq k (fun x => { x with lastDraw := t, lastSet := n, urWait := false, urSent := false })).vsShow v

/-- The bound sequencer of engine `v` stops at the word `addr`, with a code of Table 6.4 (R131). -/
def State.drawStop (s : State) (v code addr : Nat) : State :=
  ((s.p (VS_ERR_CODE v) code).assertFlt (144 + v)).seqReactAt (s.g (VS_STATUS_SEQ v)) addr

/-- A draw that finds the queue empty is an underrun: it is counted once, and the microword waits for the set (R130, Tables 6.5 and
6.7). -/
def State.underrun (s : State) (k : Nat) : State :=
  match s.seqVs k with
  | some v =>
    if (s.seq k).urWait then s
    else ((s.modSeq k (fun x => { x with urWait := true })).inc (VS_UR_EPISODES v) 1).pb (VS_STATUS_UNDERRUN v) true
  | none => s

/-- The first hold beat of an underrun raises it; every one is counted (R130). -/
def State.urHold (s : State) (k : Nat) : State :=
  match s.seqVs k with
  | none => s
  | some v =>
    let s := s.inc (VS_UR_HOLDS v) 1
    if (s.seq k).urSent then s
    else
      let s := s.modSeq k (fun x => { x with urSent := true })
      ((s.pb (VS_STATUS_UNDERRUN v) true).assertFlt (128 + v)).eventTo (s.vsWard v) 0x0301 v

end Sys2Proof.Machine
end

