-- ==== Sys2Proof/Machine/Sequencer.lean ====
section
/-! DEFINITION. Microwords (R68 to R78, R86 to R89) and hold beats (R67, R81, R89, R130, R163). A microword command fetches the
word at PC and executes it if the word has that opcode; an uncorrectable word and a reserved SEQ are met by any of them. -/

namespace Sys2Proof.Machine

/-! ### Fetch -/

/-- Control-store word `w` of sequencer `k` (R68). -/
def State.csWord (s : State) (k w : Nat) : CsWord := csAt (s.seq k).cs w

/-- The results of the last FSYNC's beat and of all beats before it have been delivered (R78). -/
def Seq.synced (x : Seq) : Bool :=
  match x.fsyncBeat with
  | some b => x.inFlight.all (fun r => decide (b < r.beat))
  | none => true

/-- The next microword of sequencer `k` may issue (R75, R78). -/
def State.uReady (s : State) (k : Nat) : Bool :=
  let x := s.seq k
  s.running && s.domOn (psDom k) && (decide (x.st = .setup) || decide (x.st = .beat)) && x.wait.isNone && decide (x.holdLeft = 0) && x.synced && s.fifoRoom k

/-! ### SEQ (Table 4.4) -/

/-- SEQ with condition `c`: the state with PC, counters and stack; none for a STACK fault. -/
def seqNext (w : Micro) (c : Bool) (a : Arch) : Option Arch :=
  let nx : Arch := { a with pc := a.pc + 1 }
  let i := uLcsel w
  match uSeq w with
  | 0x1 => some (if c then { a with pc := uTarget w } else nx)
  | 0x2 =>
    if !c then some nx
    else if h : a.sp < 16 then some { a with stack := a.stack.set a.sp ((a.pc + 1) % 2 ^ 13), sp := a.sp + 1, pc := uTarget w }
    else none
  | 0x3 =>
    if !c then some nx
    else if a.sp = 0 then none
    else some { a with sp := a.sp - 1, pc := a.stack.toList.getD (a.sp - 1) 0 }
  | 0x4 =>
    if a.lcv i ≠ 0 ∧ c then some { a.setLc i (a.lcv i - 1) with pc := uTarget w }
    else some { a.setLc i (a.rlv i) with pc := a.pc + 1 }
  | 0x5 => some { (a.setLc i (uImm w % 2 ^ 24)).setRl i (uImm w % 2 ^ 24) with pc := a.pc + 1 }
  | 0x6 =>
    match a.rep with
    | none => some (if uImm w % 2 ^ 24 = 0 then nx else { a with rep := some (uImm w % 2 ^ 24) })
    | some r => some (if r ≤ 1 then { nx with rep := none } else { a with rep := some (r - 1) })
  | 0x8 => some (if c then a else nx)
  | 0xB => some (if c then { a with pc := (a.grv (uTarget w % 16)).toNat % 2 ^ 13 } else nx)
  | _ => some nx

/-- The microword is illegal (R73). -/
def State.uIllegal (s : State) (k : Nat) (w : Micro) : Bool :=
  let beat := (s.seq k).arch.beatMode
  let silent := !beat && decide (uSeq w ≠ 7)
  let act := sqAct w
  uReserved w (s.g (APG_CFG_CHAIN k)) ||
    ((decide (act = 1) || decide (act = 2)) && !nbit (s.g (PS_SQ_ENROL_SEQ (sqNum w))) k) ||
    (decide (uSeq w = 7) && beat) ||
    (silent && !uCommit w && (decide (uVs w ≠ 0) || decide (act ≠ 0)))

/-! ### Trace (R95) -/

/-- An issued microword writes a trace entry. -/
def State.trace (s : State) (k : Nat) (w : Micro) (pc : Nat) (silent commit : Bool) : State :=
  if !s.gb (PS_DBG_TRACE_EN k) then s
  else
    let j := s.g (PS_TRACE_PTR_NEXT k)
    let s := (s.p (PS_TRACE_PC k j) pc).p (PS_TRACE_USER k j) (uUser w)
    let s := ((s.pb (PS_TRACE_SILENT k j) silent).pb (PS_TRACE_COMMIT k j) commit).p (PS_TRACE_BEAT k j) (s.g (PS_BEATS_BEATS k))
    (s.p (PS_TRACE_PTR_NEXT k) (j + 1)).pb (PS_TRACE_PTR_WRAPPED k) (s.gb (PS_TRACE_PTR_WRAPPED k) || decide (j = 1023))

/-! ### Squares (Table 4.9) -/

/-- The sequencer waits at Square `q` from instant `arr` (timing master) with period `p`. A T_rel that is already fixed keeps its
fixing instant. -/
def State.startWait (s : State) (k q arr p : Nat) (begin_ : Option BeatRec) : State :=
  let prev := (((s.seq k).inFlight.reverse[1]?).map (·.start)).getD 0
  let s := s.modSeq k (fun x => { x with st := .wait, wait := some ⟨q, arr, p, 0, none, begin_, prev⟩ })
  match (s.sq q).trel with
  | some _ => s.waitFix k q (s.sq q).relAt (s.sq q).fixAt
  | none => s

/-- ARRIVE or WAIT: the arrival instant of a beat in BEAT mode is its end, of anything else the time of issue (R79 to R81). A BEGIN is
issued in SETUP mode, so it arrives at its time of issue (DESIGN CHOICE, log). -/
def State.sqAction (s : State) (k : Nat) (w : Micro) (wasBeat : Bool) (period : Nat) (begin_ : Option BeatRec) : State :=
  let q := sqNum w
  let arr := if wasBeat then ((s.seq k).tEnd).getD s.tb.tm else s.tb.tm
  let s := s.modSeq k (fun x => { x with sqRel := x.sqRel &&& ((2 ^ 64 - 1) ^^^ (1 <<< q)) })
  let s := if sqAct w = 2 then s.startWait k q arr (effPeriod period) begin_ else s
  s.sqArrive q k (s.fineAt arr)

/-! ### Execution -/

/-- Hold beats of an FSYNC whose beat is the last one issued (R163). -/
def State.fsyncHolds (s : State) (k p : Nat) : Nat :=
  let x := s.seq k
  (x.lastD + 100000 + 2 * p - x.tEnd.getD 0 + (p - 1)) / p

/-- After a microword: the end of the burst, a BREAK, a routine boundary with its window, the end of a STEP (R87 to R89, R92). An
END that ends the burst is a window: a held PAUSE is taken before the burst ends. An END that carries WAIT does not wait: its
arrival is withdrawn and no hold beats follow (both DESIGN CHOICE, log). A word that enters WAIT takes a held interrupt at once while
T_rel is not fixed. -/
def State.uAfter (s : State) (k : Nat) (w : Micro) (c : Bool) : State :=
  let x := s.seq k
  if uSeq w = 8 ∧ c then
    if x.pendPause ∧ !x.pendStop then
      ((if x.st = .wait then s.leaveWait k else s).modSeq k (fun x => { x with ending := true })).seqPause k
    else s.seqEnd k (if x.pendStop then 2 else 1) x.arch.pc false
  else
    let waits := decide (x.st = .wait)
    let unfixed := waits && (x.wait.bind (·.rel)).isNone
    let brk := decide (uSeq w = 0xA) && s.gb (PS_DBG_BRK_EN k)
    let s := if brk then s.modSeq k (fun x => { x with pendPause := true }) else s
    let s := if uYield w then s.boundary k else s
    let int := x.pendStop || x.pendPause || brk
    if brk ∧ x.shadow.isSome ∧ !uYield w then s.intr k
    else if int ∧ (unfixed ∨ ((brk ∨ uYield w) ∧ !waits)) then
      (if waits then s.leaveWait k else s).takeIntr k
    else if x.step ∧ !waits then s.seqPause k
    else s

/-- The architectural state after stage G of word `w`, `a1` the state after SEQ (R72, R75, R98, R108): generators and REGOP have acted,
the beat's data side has entered the delay line; and the entry that leaves it. -/
def State.uArch (s : State) (k : Nat) (w : Micro) (a1 : Arch) : Arch × DataSide :=
  let a0 := (s.seq k).arch
  let own := s.dataSide k w a0
  let line := if a0.beatMode then a0.line else lineStart
  let a := (s.genOps k w a1).regop (s.dwidth k) (uReg w) (uImm w) (decide (s.freeVal % 2 = 1))
  (if a0.beatMode || decide (uSeq w = 7) then { a with line := (line ++ [own]).drop 1, beatMode := true } else a, s.lineTake k line own)

/-- A legal microword issues (R72, R98, R108): `a1` is the state after SEQ, `c` its condition. -/
def State.uIssue (s : State) (k : Nat) (w : Micro) (c : Bool) (a1 : Arch) : State :=
  let a0 := (s.seq k).arch
  let wasBeat := a0.beatMode
  let bi := wasBeat || decide (uSeq w = 7)
  let last := a1.rep.isNone
  let act := if last then sqAct w else 0
  let s := if bi && uDraws w then s.draw k else s
  let (a, e) := s.uArch k w a1
  let fclr := bi && nbit (uCmp w) 5
  let s := if regopFree (uReg w) (uImm w) then s.useFree else s
  let a := if fclr then { a with sfail := false } else a
  let commit := bi || uCommit w
  let period := s.g (PS_PERIOD_PERIOD k (uTset w))
  let set := (s.seq k).lastDraw
  let info : BeatInfo :=
    ⟨e.l, e.a, a0.pc, if vsSrc w = 0 then 0xFFFFFFFFFFFF else (s.seq k).lastSet, (a1.rep).getD 0⟩
  let rec_ : BeatRec :=
    { period := period, tset := uTset w, pins := s.formPins k w (logAddr w a0) e set, cmp := uCmp w, beat := 0,
      event := if act = 3 then some (sqNum w) else none, info := info, hold := false, start := 0, len := 0, deliv := 0,
      stamp := 0#96, replay := ((s.seq k).burst.map (·.replay)).getD false }
  let s := s.trace k w a0.pc (!bi) commit
  let s := if bi && !wasBeat then (s.cbClear k).cbFresh k 0 else s
  let beat := s.g (PS_BEATS_BEATS k)
  let s := s.modSeq k (fun x => { x with
    arch := a, shadow := if commit then none else x.shadow, st := if bi then .beat else x.st,
    allSet := if fclr then 0 else x.allSet, clearBeat := if fclr then beat else if bi && !wasBeat then 0 else x.clearBeat })
  let waits := decide (act = 2)
  let s := if wasBeat then s.issue k rec_ (((s.seq k).tEnd).getD 0) (effPeriod period)
    else if bi ∧ !waits then s.issue k rec_ s.firstStart (effPeriod period)
    else s
  let s := if act = 3 ∧ !bi then s.seqEvent k (sqNum w) s.tb.tm else s
  let s := if uSeq w = 9 ∧ wasBeat then s.modSeq k (fun x => { x with holdLeft := s.fsyncHolds k (effPeriod period), fsyncBeat := some beat }) else s
  let s := if act = 1 ∨ waits then s.sqAction k w wasBeat period (if bi ∧ !wasBeat ∧ waits then some rec_ else none) else s
  if s.bursting k then s.uAfter k w c else s

/-- A drawing word ends its burst with code `code` (R131): it has passed stage G, so the state it leaves is the one it made, and its
beat is not issued (R75, R90, R129). -/
def State.drawEnd (s : State) (k v code : Nat) (w : Micro) (a1 : Arch) : State :=
  let pc := (s.seq k).arch.pc
  let a := (s.uArch k w a1).1
  let s := if regopFree (uReg w) (uImm w) then s.useFree else s
  (s.modSeq k (fun x => { x with arch := a, shadow := none })).drawStop v code pc

/-- A decoded microword at PC (stages D to E of Table 4.10). -/
def State.uExec (s : State) (k : Nat) (w : Micro) : State :=
  let a := (s.seq k).arch
  let bi := a.beatMode || decide (uSeq w = 7)
  if s.uIllegal k w then s.seqFault k 2 a.pc
  else if a.beatMode ∧ sqAct w = 2 ∧ 0x7FFFFFFF < s.g (PS_PERIOD_PERIOD k (uTset w)) then s.seqFault k 6 a.pc
  else
    let c := s.cond k w
    match seqNext w c a with
    | none => s.seqFault k 4 a.pc
    | some a1 =>
      if a1.pc < 0x800 ∨ 0x1FFF < a1.pc then s.seqFault k 3 a.pc
      else if bi ∧ uDraws w ∧ s.drawMeets k = 2 then s.underrun k
      else if bi ∧ uDraws w ∧ s.drawMeets k = 3 then
        match s.seqVs k with
        | some v => s.drawEnd k v (if s.g (VS_STATUS_STATE v) = 6 then s.g (VS_ERR_CODE v) else 0x0B) w a1
        | none => s
      else s.uIssue k w c a1

/-- The microword command of opcode `code`: fetch, check, breakpoint, execution (R69, R75, R95). -/
def State.uStep (s : State) (k code : Nat) : State :=
  if !s.uReady k then s
  else
    let pc := (s.seq k).arch.pc
    match csDecode (s.csWord k pc) with
    | none => ((s.pb (PS_CS_ECC_UE k) true).p (PS_CS_ECC_UE_ADDR k) pc).seqFault k 1 pc
    | some (w, corrected) =>
      if uSeq w ≠ code ∧ uSeq w ≤ 0xB then s
      -- the beats of a burst wait until those before it are DONE
      else if uSeq w = 7 ∧ !(s.seq k).olds.isEmpty then s
      else
        let again := (s.seq k).urWait
        let s := if corrected && !again then (s.inc (PS_CS_ECC_CORR k) 1).p (PS_CS_ECC_CORR_ADDR k) pc else s
        if s.gb (PS_DBG_BP_EN k) && !again && decide (s.g (PS_DBG_BP_ADDR k) = pc) then
          let t := s.reqPause k
          if (t.seq k).st = .paused then t else t.uExec k w
        else s.uExec k w

/-- NEXT. -/
def execUNext (k : Fin 32) (s : State) : Host.Outcome State Fault Refusal := .next (s.uStep k.val 0x0)
/-- JUMP. -/
def execUJump (k : Fin 32) (s : State) : Host.Outcome State Fault Refusal := .next (s.uStep k.val 0x1)
/-- CALL. -/
def execUCall (k : Fin 32) (s : State) : Host.Outcome State Fault Refusal := .next (s.uStep k.val 0x2)
/-- RET. -/
def execURet (k : Fin 32) (s : State) : Host.Outcome State Fault Refusal := .next (s.uStep k.val 0x3)
/-- LOOP. -/
def execULoop (k : Fin 32) (s : State) : Host.Outcome State Fault Refusal := .next (s.uStep k.val 0x4)
/-- LDLC. -/
def execULdlc (k : Fin 32) (s : State) : Host.Outcome State Fault Refusal := .next (s.uStep k.val 0x5)
/-- REPEAT: one issue. -/
def execURepeat (k : Fin 32) (s : State) : Host.Outcome State Fault Refusal := .next (s.uStep k.val 0x6)
/-- BEGIN. -/
def execUBegin (k : Fin 32) (s : State) : Host.Outcome State Fault Refusal := .next (s.uStep k.val 0x7)
/-- END. -/
def execUEnd (k : Fin 32) (s : State) : Host.Outcome State Fault Refusal := .next (s.uStep k.val 0x8)
/-- FSYNC. -/
def execUFsync (k : Fin 32) (s : State) : Host.Outcome State Fault Refusal := .next (s.uStep k.val 0x9)
/-- BREAK. -/
def execUBreak (k : Fin 32) (s : State) : Host.Outcome State Fault Refusal := .next (s.uStep k.val 0xA)
/-- JUMPI. -/
def execUJumpi (k : Fin 32) (s : State) : Host.Outcome State Fault Refusal := .next (s.uStep k.val 0xB)

/-- A single underrun has lasted longer than UR_TIMEOUT (R131); it is over once a set has come or none will. -/
def State.urTimeout (s : State) (v : Nat) : State :=
  let k := s.g (VS_STATUS_SEQ v)
  if s.gb (VS_STATUS_BOUND v) ∧ (s.seq k).urWait ∧ s.drawMeets k = 2 then
    match csDecode (s.csWord k (s.seq k).arch.pc) with
    | some (w, _) => s.drawEnd k v 0x0C w ((seqNext w (s.cond k w) (s.seq k).arch).getD (s.seq k).arch)
    | none => s.drawStop v 0x0C (s.seq k).arch.pc
  else s

/-- UR_TIMEOUT. -/
def execUrTimeout (v : Fin 16) (s : State) : Host.Outcome State Fault Refusal := .next (if !s.ticksOf (vsDom v.val) then s else s.urTimeout v.val)

/-! ### Hold beats -/

/-- One hold beat: of a wait in BEAT mode, the last before T_rel lengthened (R81); in PAUSED (R89); after an FSYNC (R163); or in
an underrun, when the beat FIFO is empty (R130). -/
def State.holdBeat (s : State) (k : Nat) : State :=
  let x := s.seq k
  if !s.running ∨ !s.domOn (psDom k) ∨ !x.arch.beatMode ∨ !s.fifoRoom k then s
  else
    let dec (s : State) : State := s.modSeq k (fun x => { x with holdLeft := x.holdLeft - 1 })
    match x.st, x.wait with
    | .wait, some w =>
      if w.begin_.isSome then s
      else match w.rel with
        | none => (dec (s.issueHold k (some w.period))).modSeq k (fun x => { x with wait := some { w with holds := w.holds + 1 } })
        | some rel =>
          let n := (rel - w.arr) / w.period
          if n ≤ w.holds then s
          else
            let len := if w.holds + 1 = n then rel - w.arr - (n - 1) * w.period else w.period
            (dec (s.issueHold k (some len))).modSeq k (fun x => { x with wait := some { w with holds := w.holds + 1 } })
    | .paused, _ => dec (s.issueHold k none)
    | .beat, _ =>
      if x.holdLeft ≠ 0 then dec (s.issueHold k none)
      else if x.urWait ∧ x.fifo = [] ∧ s.drawMeets k = 2 then (s.urHold k).issueHold k none
      else s
    | _, _ => s

/-- HOLD_BEAT. -/
def execHoldBeat (k : Fin 32) (s : State) : Host.Outcome State Fault Refusal := .next (s.holdBeat k.val)

/-- RESUME leaves PAUSED (R89); after an END that had issued, the burst ends. -/
def State.seqResume (s : State) (k : Nat) (step : Bool) : State :=
  if (s.seq k).st = .paused then
    if (s.seq k).ending then s.seqEnd k 1 (s.seq k).arch.pc false else
    s.modSeq k (fun x => { x with st := if x.arch.beatMode then .beat else .setup, step := step })
  else s

end Sys2Proof.Machine
end

