-- ==== Sys2Proof/Machine/RegWrite.lean ====
section
/-! DEFINITION. Writing registers: access codes and the plan lock (R7, R9, R10), writes that a unit's state turns away
(R71), what a write does beside its field, and the rows that are such writes. -/

namespace Sys2Proof.Machine

/-! ### Fields -/

/-- Encodings of a field that its range does not tell (R7): each defined by the field's own table. -/
def fieldLegal (d : RegDesc) (f : Fld) (v : Nat) : Bool :=
  match d.name, f.lo with
  | .MEM_CFG, 0 => v = 1 || v = 3 || v = 15
  | .TB_TRIG_PERIOD, _ => v = 0 || decide (200000 ≤ v)
  | .LN_EYE_CTRL, 8 => decide (v < 32) || decide (96 ≤ v)
  | .CAP_CMP_CFG, 8 => decide (v < 64) || v = 0x7F
  | .APG_XMAP, _ => xmapLegal v
  | .CAP_SHUT_RAW_BASE, _ => decide (v % 4096 = 0)
  | .CAP_SHUT_RAW_SIZE, _ => decide (v % 4096 = 0)
  | _, _ => decide (f.legLo ≤ v) && decide (v ≤ f.legHi)

/-- The value of a field is one that a write may leave there: a legal encoding, and for the Shutter's raw ring an offset within the
regions of the owning Ward (Table 8.14). -/
def State.fieldFits (s : State) (d : RegDesc) (f : Fld) (v : Nat) : Bool :=
  fieldLegal d f v && (match d.name with
    | .CAP_SHUT_RAW_BASE => (s.resWard 6 0).any (fun w => s.ownsRange w 0 v 8)
    | _ => true)

/-- A field of a register under a write: its new value, and whether the value differs in a plan-locked field. The RWP field of
an instance may be narrower than the register's (CLK_EN(2), CLK_KEEP(2)): bits above it are reserved and read 0 (R7). The plan lock
compares with the value stored, which for bit 0 of CLK_EN(0) need not be the 1 that is read (DESIGN CHOICE, log 104). -/
def State.fieldWrite (s : State) (d : RegDesc) (ix : List Nat) (own : Nat → Bool) (old v : Word) (f : Fld) : Nat × Bool :=
  let o := getBits old f.hi f.lo
  let n := maskOf (f.hi + 1 - f.lo) (fun b => if own (f.lo + b) then nbit v.toNat (f.lo + b) else nbit o b)
  match f.acc with
  | .rw => (if s.fieldFits d f n then n else o, false)
  | .w1c => (if d.own.isBits then o else o &&& ((2 ^ 64 - 1) ^^^ n), false)
  | .rwp =>
    (match (rwpFields d ix).find? (fun g => decide (g.lo = f.lo)) with
    | none => (o, false)
    | some g =>
      let n := n % 2 ^ (g.hi + 1 - g.lo)
      if s.plan.sealed then (o, decide (n ≠ o))
      else (if fieldLegal d f n then n else o, false))
  | _ => (o, false)

/-- All fields of a register under a write. -/
def State.fieldsWrite (s : State) (d : RegDesc) (ix : List Nat) (own : Nat → Bool) (old v : Word) : Word × Bool :=
  d.flds.foldl (fun (p : Word × Bool) f =>
    let r := s.fieldWrite d ix own old v f
    (setBits p.1 f.hi f.lo r.1, p.2 || r.2)) (old, false)

/-! ### Writes turned away (R71) -/

/-- The sequencer is IDLE or PAUSED. -/
def State.csOpen (s : State) (k : Nat) : Bool := decide ((s.seq k).st = .idle) || decide ((s.seq k).st = .paused)

/-- The sequencer that owns a channel's Channel Block, if there is one, is IDLE. -/
def State.chanOpen (s : State) (n : Nat) : Bool :=
  match s.cbSeq (n / 4) with
  | some k => decide ((s.seq k).st = .idle)
  | none => true

/-- Every fitted channel is OFF or SELF_REFRESH (R225). -/
def State.drcOpen (s : State) : Bool :=
  (bitsOf 4 (s.g MEM_CFG_CH_MASK)).all (fun d => decide (s.g (DRC_STATUS_STATE d) = 0) || decide (s.g (DRC_STATUS_STATE d) = 3))

/-- TIM unit `u` is IDLE or DONE. -/
def State.timOpen (s : State) (u : Nat) : Bool := decide (s.timState u ≠ 1)

/-- TIM unit `u` selects input `i`. -/
def State.timUses (s : State) (u i : Nat) : Bool :=
  (decide (s.g (TIM_CFG_START_CLASS u) = 0) && decide (s.g (TIM_CFG_START_INDEX u) = i)) ||
    (decide (s.g (TIM_CFG_STOP_CLASS u) = 0) && decide (s.g (TIM_CFG_STOP_INDEX u) = i))

/-- The registers of a sequencer that are written only while it is IDLE or PAUSED (R71, R115). -/
def psGuarded : RegName → Bool
  | .PS_GR | .PS_LC | .PS_PERIOD | .APG_CFG | .APG_X | .APG_XA | .APG_XLIM | .APG_XINC | .APG_Y | .APG_YA | .APG_YLIM | .APG_YINC
  | .APG_Z | .APG_ZA | .APG_ZLIM | .APG_ZINC | .APG_D | .APG_DB | .APG_DPOLY | .APG_DCMP | .APG_ASCR | .APG_DSCR => true
  | _ => false

/-- The value would put into a used site a channel of another Ward (R164). -/
def State.siteClash (s : State) (n : Nat) (v : Word) : Bool :=
  let t := getBits v 14 8
  decide (t < 64) && (List.range 128).any (fun m =>
    decide (m ≠ n) && decide (s.g (CAP_CMP_CFG_SITE m) = t) && decide (s.cbWard (m / 4) ≠ s.cbWard (n / 4)))

/-- A write of `v` to the register is ignored with RESOURCE_BUSY. -/
def State.writeBusy (s : State) (d : RegDesc) (ix : List Nat) (v : Word) : Bool :=
  let i := ix.headD 0
  match d.name with
  | .WT_ENTRY => !s.chanOpen i
  | .CH_CFG => !s.chanOpen i
  | .CAP_CMP_CFG => !s.chanOpen i || s.siteClash i v
  | .VS_CFG => decide (s.g (VS_STATUS_STATE i) ≠ 0)
  | .CAP_SHUT_CFG => decide (s.g CAP_SHUT_STATUS_STATE = 1)
  | .CAP_SHUT_CH0 => decide (s.g CAP_SHUT_STATUS_STATE = 1)
  | .CAP_SHUT_CH1 => decide (s.g CAP_SHUT_STATUS_STATE = 1)
  | .CAP_SHUT_RAW_BASE => decide (s.g CAP_SHUT_STATUS_STATE = 1)
  | .CAP_SHUT_RAW_SIZE => decide (s.g CAP_SHUT_STATUS_STATE = 1)
  | .MEM_CFG => !s.drcOpen
  | .DRC_CFG => !s.drcOpen
  | .DRC_TRAIN_CA => !s.drcOpen
  | .DRC_TRAIN_DQ => !s.drcOpen
  | .TB_TRIG_CFG => decide (s.trigState i = 1)
  | .TB_TRIG_DELAY => decide (s.trigState i = 1)
  | .TB_TRIG_PERIOD => decide (s.trigState i = 1)
  | .TIM_CFG => !s.timOpen i
  | .TIM_BCOUNT => !s.timOpen i
  | .TIM_IN_CFG => (List.range 8).any (fun u => s.timUses u i && !s.timOpen u)
  | n => psGuarded n && !s.csOpen i

/-- A write that is ignored as a whole with no error: an unsupported geometry (R214), band edges that do not rise (R293). -/
def writeVoid (d : RegDesc) (v : Word) : Bool :=
  match d.name with
  | .DRC_CFG => decide (getBits v 2 0 = 6)
  | .THM_BAND => !(decide (sgn 8 (getBits v 7 0) < sgn 8 (getBits v 15 8)) && decide (sgn 8 (getBits v 15 8) < sgn 8 (getBits v 23 16)))
  | _ => false

/-- What is stored of a Waveform Table word: reserved bits stay 0, a reserved event type leaves its field unchanged (R143,
R144). -/
def wtWord (q : Nat) (old v : Word) : Word :=
  if q < 3 then v
  else
    (List.range 8).foldl (fun w k =>
      if 12 ≤ getBits v (4 * k + 3) (4 * k) then setBits w (4 * k + 3) (4 * k) (getBits old (4 * k + 3) (4 * k)) else w)
      (v &&& 0x07FFFFFFFFFFFFFF#64)

/-! ### Registers that other state holds -/

/-- The architectural state of sequencer `k` as a write leaves it, in the shadow copy too. -/
def State.modArch (s : State) (k : Nat) (f : Arch → Arch) : State :=
  s.modSeq k (fun x => { x with arch := f x.arch, shadow := x.shadow.map f })

/-- A generator's main register takes VALUE and DIR. -/
def AddrGen.load (width : Nat) (v : Word) (g : AddrGen) : AddrGen :=
  { g with v := getBits v (width - 1) 0, dir := decide (getBits v width width = 1) }

/-- A PS_PERIOD or control-store write during a pause marks the burst (R340). -/
def State.markDirty (s : State) (k : Nat) : State :=
  if (s.seq k).st = .paused then s.modSeq k (fun x => { x with burst := x.burst.map (fun b => { b with dirty := true }) }) else s

/-- DR keeps its bits within DWIDTH (R103). -/
def State.trimDr (s : State) (k : Nat) : State :=
  let m := BitVec.ofNat 64 (2 ^ s.dwidth k - 1)
  s.modArch k (fun a => { a with dr := a.dr &&& m })

/-- RD of a ring moves forward, and not beyond WR; counts are 32 bits (R173, R179, R282). -/
def State.freeTo (s : State) (wr rd : FRef) (v : Nat) : State :=
  let old := s.g rd
  let ahead (x : Nat) : Nat := (x + 2 ^ 32 - old) % 2 ^ 32
  if ahead v ≤ ahead (s.g wr) then s.p rd v else s

/-! ### What a write does -/

/-- Entries of queue `q` of Ward `w` that have not started are abandoned with reason HOST (R56). -/
def State.flush (s : State) (w q : Nat) : State :=
  let ids := (s.cmds.filter (fun c => decide (c.ward.val = w) && decide (c.queue.val = q) && c.waits)).map (·.id)
  forEach ids s (fun id s => s.abandon id 3)

/-- PS_CTRL: the requests of a write (Table 4.13). -/
def State.psCtrl (s : State) (k : Nat) (v : Word) : State :=
  let b (i : Nat) : Bool := nbit v.toNat i
  let s := if b 1 && s.bursting k then s.reqKill k else s
  let s := if b 0 then s.reqStop k else s
  let s := if b 2 then s.reqPause k else s
  let s := if b 3 then s.seqResume k false else s
  if b 4 then s.seqResume k true else s

/-- What the bits that are not stored do, and what follows from those that are: `old` is the register before the write, `own`
the bits the writer owns. The status is RESOURCE_BUSY where a request meets a unit that does not take it. -/
def State.writeEffect (s : State) (d : RegDesc) (ix : List Nat) (own : Nat → Bool) (a : Nat) (old v : Word) : State × Nat :=
  let i := ix.headD 0
  let j := ix.getD 1 0
  let bit (b : Nat) : Bool := nbit v.toNat b
  let ownBits (n : Nat) : List Nat := (List.range n).filter (fun b => bit b && own b)
  let ok (s : State) : State × Nat := (s, 0)
  let unit (p : State × Bool) : State × Nat := (p.1, if p.2 then 6 else 0)
  match d.name with
  | .PS_CTRL => ok (s.psCtrl i v)
  | .PS_GR => ok (s.modArch i (fun x => x.setGr j v))
  | .PS_LC => ok (s.modArch i (fun x => (x.setLc j (getBits v 23 0)).setRl j (getBits v 55 32)))
  | .PS_PERIOD => ok (s.markDirty i)
  | .APG_CFG => ok (s.trimDr i)
  | .APG_X => ok (s.modArch i (fun x => { x with gx := x.gx.load 24 v }))
  | .APG_XA => ok (s.modArch i (fun x => { x with gx := { x.gx with a := getBits v 23 0 } }))
  | .APG_Y => ok (s.modArch i (fun x => { x with gy := x.gy.load 24 v }))
  | .APG_YA => ok (s.modArch i (fun x => { x with gy := { x.gy with a := getBits v 23 0 } }))
  | .APG_Z => ok (s.modArch i (fun x => { x with gz := x.gz.load 8 v }))
  | .APG_ZA => ok (s.modArch i (fun x => { x with gz := { x.gz with a := getBits v 7 0 } }))
  | .APG_D => ok ((s.modArch i (fun x => { x with dr := v })).trimDr i)
  | .CH_CFG => ok (s.chanRest i)
  | .WRD_QCTL => ok (if bit 1 then s.flush i j else s)
  | .CAP_FCM_PTR =>
    ok (if s.gb (CAP_ARM_STATUS_ARMED i) && s.gb (CAP_ARM_STATUS_HAS_CTX i) then s
      else s.freeTo (CAP_FCM_PTR_WR i) (CAP_FCM_PTR_RD i) (getBits v 63 32))
  | .CAP_SPILL_PTR =>
    ok (if s.gb (CAP_ARM_STATUS_ARMED i) && s.gb (CAP_ARM_STATUS_HAS_CTX i) then s
      else s.freeTo (CAP_SPILL_PTR_WR i) (CAP_SPILL_PTR_RD i) (getBits v 63 32))
  | .CAP_SHUT_RAW_PTR => ok (s.freeTo CAP_SHUT_RAW_PTR_WR CAP_SHUT_RAW_PTR_RD (getBits v 63 32))
  | .ACQ_PTR => ok (s.freeTo ACQ_PTR_WR ACQ_PTR_RD (getBits v 63 32))
  | .ACQ_CTRL => ok (if bit 0 then s.acqForce else s)
  | .MEM_RANGE_ERR => ok { s with rangeArmed := true }
  | .DRC_CTRL =>
    if !bit 0 then ok s
    else if s.initActs i then ok (s.drcStart i (s.gb (DRC_CTRL_USE_SAVED i))) else (s, 6)
  | .LN_CFG => ok (s.laneDisable i (bit 0))
  | .LN_TEST =>
    let s := s.testMode i (getBits v 1 0)
    let s := if s.g (LN_TEST_PATTERN i) ≠ getBits old 3 2 then s.prbsReset i else s
    let s := if bit 4 then s.injOne i else s
    ok (if bit 12 then s.pb (LN_TEST_LIVE_INJ i) true else s)
  | .LN_EYE_CTRL => ok (if bit 0 then s.eyeStart i else s)
  | .TB_CFG => ok (if getBits old 1 0 ≠ s.g TB_CFG_ROLE then s.tbRole else s)
  | .TB_CTRL => ok (if bit 0 then s.tbReseed else s)
  | .CAL_CFG => ok (if bit 8 then s.calRetarget (List.range 128) else s)
  | .CAL_CH_TAB => ok (if j = s.g THM_STATUS_BAND then s.calRetarget [i] else s)
  | .CAL_CH_USER => ok (s.calRetarget [i])
  | .FLT_CTRL => ok (if bit 1 then s.errN.feRearm else s.errN)
  | .FLT_REACT => ok s.fltShow
  | .FLT_GRP_REAL => ok (s.clearGrp i false (maskOf 32 (fun b => bit b && own b)))
  | .FLT_GRP_FORCED => ok (s.clearGrp i true (maskOf 32 (fun b => bit b && own b)))
  | .FLT_RAISE => ok (s.fltRaise (13 + i) (maskOf 32 (fun b => bit b && own b)))
  | .RST_CTRL => ok (if bit 0 && decide (getBits v 15 8 = 0xA5) then s.resetSoft 3 else s)
  | .RST_UNIT_PS => unit (s.unitReset 0 (ownBits 32) State.psQuiet State.resetPs)
  | .RST_UNIT_CB => unit (s.unitReset 1 (ownBits 32) State.cbQuiet State.resetCb)
  | .RST_UNIT_VS => unit (s.unitReset 2 (ownBits 16) State.vsQuiet State.resetVs)
  | .RST_UNIT_AC => unit (s.unitReset 3 (ownBits 48) State.acQuiet State.resetAc)
  | .WT_ENTRY => ok (s.wr a (wtWord (ix.getD 2 0) old v))
  | _ => ok s

/-- Registers of which no bit is stored by a write: their effect stores what they keep. -/
def effectOnly : RegName → Bool
  | .PS_GR | .PS_LC | .CAP_FCM_PTR | .CAP_SPILL_PTR | .CAP_SHUT_RAW_PTR | .ACQ_PTR | .WT_ENTRY => true
  | _ => false

/-- The bits that a write's effect stores itself. -/
def effectMask : RegName → Word
  | .LN_CFG => 1#64
  | .LN_TEST => 3#64
  | _ => 0#64

/-- A write of `v` to register `d`: status 0, RESOURCE_BUSY or PLAN_LOCKED. -/
def State.descWrite (s : State) (d : RegDesc) (ix : List Nat) (own : Nat → Bool) (a : Nat) (v : Word) : State × Nat :=
  let old := s.rd a
  if s.writeBusy d ix v then (s, 6)
  else if writeVoid d v then (s, 0)
  else
    let p := s.fieldsWrite d ix own old v
    let keep := effectMask d.name
    let s := if effectOnly d.name then s else s.wr a ((p.1 &&& ~~~keep) ||| (old &&& keep))
    let r := s.writeEffect d ix own a old v
    (r.1, if p.2 then 7 else r.2)

/-- A write to qword `q` of word `word` of the control store of sequencer `k`: qwords 0 and 1 go to the latch, which is no
control-store word, qword 3 is ignored; qword 2 stores the word while the sequencer is IDLE or PAUSED (R70, R71). -/
def State.csWrite (s : State) (k word q : Nat) (v : Word) : State × Nat :=
  match q with
  | 0 => (s.modSeq k (fun x => { x with latch0 := v }), 0)
  | 1 => (s.modSeq k (fun x => { x with latch1 := v }), 0)
  | 2 =>
    if !s.csOpen k then (s, 6)
    else
      let put (x : Seq) : Seq :=
        let w := csEncode (BitVec.ofNat 160 (x.latch0.toNat + 2 ^ 64 * x.latch1.toNat + 2 ^ 128 * (v.toNat % 2 ^ 32)))
        { x with cs := tabSet (csDefault word) x.cs word w }
      ((s.modSeq k put).markDirty k, 0)
  | _ => (s, 0)

/-- A write of `v` at address `a` by someone who owns the bits `own` of a register that several Wards share; it wakes the domain of
the register's unit (R364). -/
def State.regWrite (s : State) (own : Nat → Bool) (a : Nat) (v : Word) : State × Nat :=
  let s := s.touch a
  match csWindow a with
  | some (k, word, q) => s.csWrite k word q v
  | none =>
    match regAt a with
    | none => (s, 0)
    | some (d, ix) => s.descWrite d ix own a v

/-- The bits of the register at `a` that Ward `w` owns. -/
def State.ownBit (s : State) (w a b : Nat) : Bool :=
  match regAt a with
  | some (d, ix) => !d.own.isBits || decide (s.bitWard d ix b = some w)
  | none => true

/-- The register at `a` belongs to Wards and is mirrored (R348, Table 16.5). -/
def State.mirrored (s : State) (a : Nat) : Bool :=
  match csWindow a with
  | some _ => true
  | none =>
    match regAt a with
    | some (d, ix) => !localName d.name && (d.own.isBits || (s.unitWard d ix).isSome)
    | none => false

/-- What of a write of `v` at `a` takes effect: nothing where the unit turns it away, and of unit resets those of quiet units (R71,
R368). -/
def State.writeTakes (s : State) (a : Nat) (v : Word) : Option Word :=
  match csWindow a with
  | some (k, _, q) => if q = 2 && !s.csOpen k then none else some v
  | none =>
    match regAt a with
    | none => none
    | some (d, ix) =>
      let quiet (f : State → Nat → Bool) : Word := v &&& BitVec.ofNat 64 (maskOf 64 (f s))
      if s.writeBusy d ix v then none
      else some (match d.name with
        | .RST_UNIT_PS => quiet State.psQuiet
        | .RST_UNIT_CB => quiet State.cbQuiet
        | .RST_UNIT_VS => quiet State.vsQuiet
        | .RST_UNIT_AC => quiet State.acQuiet
        | _ => v)

/-- A register write by a master that has passed `regCheck`: its effect, and the mirror of what takes effect if a host wrote (R348).
Porter writes every bit. -/
def State.storeReg (s : State) (m : Master) (a : Nat) (v : Word) : State × Nat :=
  match m, s.masterWard m with
  | .porter _, _ => s.regWrite (fun _ => true) a v
  | _, none => (s, 3)
  | .core _, some w => s.regWrite (s.ownBit w a) a v
  | .ward _, some w =>
    let r := s.regWrite (s.ownBit w a) a v
    (match s.writeTakes a v with
      | some x =>
        let shown := if a = APG_PINMASK 0 ∨ a = APG_PINMASK 1 then r.1.rd a
          else BitVec.ofNat 64 (maskOf 64 (fun b => nbit x.toNat b && s.ownBit w a b))
        if s.mirrored a then r.1.mirror 0x55 (toLe 8 a ++ toLe 8 shown.toNat) else r.1
      | none => r.1, r.2)

/-! ### Register writes by a core that are refused (R185, R190) -/

/-- A store of core `c` to a register: after its earlier stores; a refused one is a store access fault. -/
def State.coreRegStore (s : State) (c a : Nat) (v : Word) : State × Bool :=
  let q := s.coreDrain c
  let s := q.1
  if !q.2 then (s, false)
  else if s.regCheck (.core (Fin.ofNat 48 c)) true a ≠ 0 then (s.coreTrap c 0x87 (BitVec.ofNat 64 a), false)
  else
    let r := s.storeReg (.core (Fin.ofNat 48 c)) a v
    if r.2 = 0 then (r.1, true) else (r.1.coreTrap c 0x87 (BitVec.ofNat 64 a), false)

/-- An access of Porter to a register: one of another width than 64 bits, one that is refused, and a store that meets a plan-locked
field are a load or store access fault, which leaves the device as an output (R6, R10). A load has the effects of a read; what it
returns goes to Porter. -/
def State.porterAccess (s : State) (acc : PorterAcc) (a : Nat) (v : Word) : State :=
  if acc.size ≠ 3 || decide (s.regCheck (.porter acc) (!acc.load) a ≠ 0) then s.emit (.porterFault a)
  else if acc.load then s.readEffect a
  else
    let r := s.storeReg (.porter acc) a v
    if r.2 = 0 then r.1 else r.1.emit (.porterFault a)

/-- A register write as a command of this block: a host's that is refused changes nothing, a core's needs a run, Porter's, which is a
store of 64 bits, that Porter runs. -/
def State.writeBy (s : State) (m : Master) (a : Nat) (v : Word) : State :=
  match m with
  | .porter _ => if s.running then s.porterAccess ⟨false, 3⟩ a v else s
  | .ward _ => if s.regCheck m true a = 0 then (s.storeReg m a v).1 else s
  | .core c => if (s.core c.val).st = .running then (s.coreRegStore c.val a v).1 else s

/-- The register at `a` as software would write it back: its RW and RWP fields, every action bit 0. -/
def State.writeBack (s : State) (a : Nat) : Word :=
  match regAt a with
  | some (d, ix) =>
    let m := fldMask (d.flds.filter (fun f => decide (f.acc = .rw) || decide (f.acc = .rwp)))
    s.liveReg 0 d ix a &&& BitVec.ofNat 64 m
  | none => 0#64

/-! ### Rows that are register writes -/

/-- A register's stored value with `v` in the given bits is written. -/
def State.writeBits (s : State) (m : Master) (f : FRef) (v : Nat) : State :=
  s.writeBy m f.addr (setBits (s.writeBack f.addr) f.hi f.lo v)

/-- REGISTER_WRITE (R9, R52): a write of any address by any master, and for Porter, whose accesses no frame and no instruction of
this block carries, one of any direction and width (R6). -/
def execRegisterWrite (m : Master) (a : BitVec 32) (v : Word) (s : State) : Host.Outcome State Fault Refusal :=
  .next (match m with
    | .porter acc => if s.running then s.porterAccess acc a.toNat v else s
    | _ => s.writeBy m a.toNat v)

/-- WRD_QCTL_FLUSH (R56). -/
def execWrdQctlFlush (m : Master) (w : Fin 4) (q : Fin 8) (s : State) : Host.Outcome State Fault Refusal :=
  .next (s.writeBits m (WRD_QCTL_FLUSH w.val q.val) 1)

/-- The window address of qword `q` of a control-store word (R70). -/
def csAddr (k word q : Nat) : Nat := 0x02080000 + k * 0x100000 + word * 32 + q * 8

/-- CS_LATCH_WRITE: qword 0 or 1. -/
def execCsLatchWrite (m : Master) (k : Fin 32) (word : Fin 8192) (hi : Bool) (v : Word) (s : State) :
    Host.Outcome State Fault Refusal := .next (s.writeBy m (csAddr k.val word.val (b2n hi)) v)

/-- CS_WORD_WRITE: qword 2 stores the whole word. -/
def execCsWordWrite (m : Master) (k : Fin 32) (word : Fin 8192) (v : Word) (s : State) : Host.Outcome State Fault Refusal :=
  .next (s.writeBy m (csAddr k.val word.val 2) v)

/-- PS_CTRL_STOP (R87). -/
def execPsCtrlStop (m : Master) (k : Fin 32) (s : State) : Host.Outcome State Fault Refusal :=
  .next (s.writeBits m (PS_CTRL_STOP k.val) 1)
/-- PS_CTRL_KILL (R90). -/
def execPsCtrlKill (m : Master) (k : Fin 32) (s : State) : Host.Outcome State Fault Refusal :=
  .next (s.writeBits m (PS_CTRL_KILL k.val) 1)
/-- PS_CTRL_PAUSE (R87). -/
def execPsCtrlPause (m : Master) (k : Fin 32) (s : State) : Host.Outcome State Fault Refusal :=
  .next (s.writeBits m (PS_CTRL_PAUSE k.val) 1)
/-- PS_CTRL_RESUME (R89). -/
def execPsCtrlResume (m : Master) (k : Fin 32) (s : State) : Host.Outcome State Fault Refusal :=
  .next (s.writeBits m (PS_CTRL_RESUME k.val) 1)
/-- PS_CTRL_STEP (R89). -/
def execPsCtrlStep (m : Master) (k : Fin 32) (s : State) : Host.Outcome State Fault Refusal :=
  .next (s.writeBits m (PS_CTRL_STEP k.val) 1)

/-- CAP_RD_WRITE (R173). -/
def execCapRdWrite (m : Master) (k : Fin 32) (spill : Bool) (v : Word) (s : State) : Host.Outcome State Fault Refusal :=
  .next (s.writeBy m (if spill then CAP_SPILL_PTR k.val else CAP_FCM_PTR k.val) v)

/-- SHUT_RAW_RD_WRITE (R179). -/
def execShutRawRdWrite (m : Master) (v : Word) (s : State) : Host.Outcome State Fault Refusal :=
  .next (s.writeBy m CAP_SHUT_RAW_PTR v)

/-- DRC_INIT (R225). -/
def execDrcInit (m : Master) (d : Fin 4) (s : State) : Host.Outcome State Fault Refusal :=
  .next (s.writeBits m (DRC_CTRL_INIT d.val) 1)

/-- LN_TEST_MODE (R246). -/
def execLnTestMode (m : Master) (l : Fin 16) (mode : Nat) (s : State) : Host.Outcome State Fault Refusal :=
  .next (s.writeBits m (LN_TEST_MODE l.val) mode)
/-- INJ_ONE (R247). -/
def execInjOne (m : Master) (l : Fin 16) (s : State) : Host.Outcome State Fault Refusal :=
  .next (s.writeBits m (LN_TEST_INJ_ONE l.val) 1)
/-- LIVE_INJ (R247). -/
def execLiveInj (m : Master) (l : Fin 16) (s : State) : Host.Outcome State Fault Refusal :=
  .next (s.writeBits m (LN_TEST_LIVE_INJ l.val) 1)
/-- EYE_SCAN_START (R248). -/
def execEyeScanStart (m : Master) (l : Fin 16) (s : State) : Host.Outcome State Fault Refusal :=
  .next (s.writeBits m (LN_EYE_CTRL_START l.val) 1)

/-- TB_CTRL_RESEED (R258). -/
def execTbCtrlReseed (m : Master) (s : State) : Host.Outcome State Fault Refusal := .next (s.writeBits m TB_CTRL_RESEED 1)

/-- ACQ_CTRL_FORCE (R284). -/
def execAcqCtrlForce (m : Master) (s : State) : Host.Outcome State Fault Refusal := .next (s.writeBits m ACQ_CTRL_FORCE 1)
/-- ACQ_RD_WRITE (R282). -/
def execAcqRdWrite (m : Master) (v : Word) (s : State) : Host.Outcome State Fault Refusal := .next (s.writeBy m ACQ_PTR v)

/-- FLT_RAISE (R324). -/
def execFltRaise (m : Master) (n : Fin 19) (v : Word) (s : State) : Host.Outcome State Fault Refusal :=
  .next (s.writeBy m (FLT_RAISE n.val) v)
/-- FE_REARM (R315). -/
def execFeRearm (m : Master) (s : State) : Host.Outcome State Fault Refusal := .next (s.writeBits m FLT_CTRL_FE_REARM 1)

/-- RST_CTRL_CHIP: CHIP with KEY 0xA5 (R366). -/
def execRstCtrlChip (m : Master) (s : State) : Host.Outcome State Fault Refusal := .next (s.writeBy m RST_CTRL 0xA501#64)
/-- RST_UNIT_PS (R368). -/
def execRstUnitPs (m : Master) (v : Word) (s : State) : Host.Outcome State Fault Refusal := .next (s.writeBy m RST_UNIT_PS v)
/-- RST_UNIT_CB (R368). -/
def execRstUnitCb (m : Master) (v : Word) (s : State) : Host.Outcome State Fault Refusal := .next (s.writeBy m RST_UNIT_CB v)
/-- RST_UNIT_VS (R368). -/
def execRstUnitVs (m : Master) (v : Word) (s : State) : Host.Outcome State Fault Refusal := .next (s.writeBy m RST_UNIT_VS v)
/-- RST_UNIT_AC (R368). -/
def execRstUnitAc (m : Master) (v : Word) (s : State) : Host.Outcome State Fault Refusal := .next (s.writeBy m RST_UNIT_AC v)

end Sys2Proof.Machine
end

