-- ==== Sys2Proof/Machine/Riscv.lean ====
section
/-! DEFINITION. The instruction set of the Analysis Cores (R182, R192): decoding of RV64I, M, C, Zbb and the repair extension, and
the results of the computational instructions. The encodings of RV64I, M, C and Zbb are those of the RISC-V manuals (PRESUMED, log
entry on RISC-V). -/

namespace Sys2Proof.Machine

/-- 64-bit computations with two operands. -/
inductive Alu where
  | add | sub | sll | slt | sltu | xor | srl | sra | or | and
  | mul | mulh | mulhsu | mulhu | div | divu | rem | remu
  | andn | orn | xnor | max | maxu | min | minu | rol | ror
deriving DecidableEq, Repr

/-- 32-bit computations with two operands, their results sign-extended. -/
inductive AluW where
  | add | sub | sll | srl | sra | mul | div | divu | rem | remu | rol | ror
deriving DecidableEq, Repr

/-- Computations with one operand. -/
inductive Un where
  | clz | ctz | cpop | sextB | sextH | zextH | rev8 | orcB | clzw | ctzw | cpopw
deriving DecidableEq, Repr

/-- Branch conditions. -/
inductive Br where | eq | ne | lt | ge | ltu | geu
deriving DecidableEq, Repr

/-- The repair extension (Table 9.4). -/
inductive Rx where
  | tset | tclrr | tclrc | trowv | tcolv | tcolocc | trowocc | tpop | cover | tmerge | cycle
deriving DecidableEq, Repr

/-- A decoded core instruction: register numbers, and immediates as they enter the computation. `size` is in bytes. -/
inductive Rv where
  | lui (rd : Nat) (v : Word)
  | auipc (rd : Nat) (v : Word)
  | jal (rd : Nat) (off : Word)
  | jalr (rd rs1 : Nat) (off : Word)
  | br (c : Br) (rs1 rs2 : Nat) (off : Word)
  | load (size : Nat) (signed : Bool) (rd rs1 : Nat) (off : Word)
  | store (size : Nat) (rs1 rs2 : Nat) (off : Word)
  | opi (o : Alu) (rd rs1 : Nat) (imm : Word)
  | op (o : Alu) (rd rs1 rs2 : Nat)
  | opiw (o : AluW) (rd rs1 : Nat) (imm : Word)
  | opw (o : AluW) (rd rs1 rs2 : Nat)
  | un (o : Un) (rd rs1 : Nat)
  | fence
  | ecall
  | ebreak
  | rx (o : Rx) (rd rs1 rs2 : Nat)
deriving DecidableEq, Repr

/-- An `n`-bit field sign-extended to 64 bits. -/
def sx (n v : Nat) : Word := BitVec.ofInt 64 (sgn n (v % 2 ^ n))

/-! ### Results -/

/-- Number of zeros above the highest one of an `n`-bit word. -/
def leadZ (n v : Nat) : Nat := ((List.range n).reverse.takeWhile (fun i => !nbit v i)).length

/-- Number of zeros below the lowest one of an `n`-bit word. -/
def trailZ (n v : Nat) : Nat := ((List.range n).takeWhile (fun i => !nbit v i)).length

/-- The value of a 64-bit computation (the RISC-V manuals): a division by zero gives all ones and the dividend. -/
def Alu.val (o : Alu) (a b : Word) : Word :=
  let sh := b.toNat % 64
  match o with
  | .add => a + b
  | .sub => a - b
  | .sll => a <<< sh
  | .slt => if a.toInt < b.toInt then 1#64 else 0#64
  | .sltu => if a.toNat < b.toNat then 1#64 else 0#64
  | .xor => a ^^^ b
  | .srl => a >>> sh
  | .sra => a.sshiftRight sh
  | .or => a ||| b
  | .and => a &&& b
  | .mul => a * b
  | .mulh => BitVec.ofInt 64 (a.toInt * b.toInt / 2 ^ 64)
  | .mulhsu => BitVec.ofInt 64 (a.toInt * b.toNat / 2 ^ 64)
  | .mulhu => BitVec.ofNat 64 (a.toNat * b.toNat / 2 ^ 64)
  | .div => if b = 0#64 then BitVec.allOnes 64 else BitVec.ofInt 64 (a.toInt.tdiv b.toInt)
  | .divu => if b = 0#64 then BitVec.allOnes 64 else BitVec.ofNat 64 (a.toNat / b.toNat)
  | .rem => if b = 0#64 then a else BitVec.ofInt 64 (a.toInt.tmod b.toInt)
  | .remu => if b = 0#64 then a else BitVec.ofNat 64 (a.toNat % b.toNat)
  | .andn => a &&& ~~~b
  | .orn => a ||| ~~~b
  | .xnor => ~~~(a ^^^ b)
  | .max => if a.toInt < b.toInt then b else a
  | .maxu => if a.toNat < b.toNat then b else a
  | .min => if a.toInt < b.toInt then a else b
  | .minu => if a.toNat < b.toNat then a else b
  | .rol => (a <<< sh) ||| (a >>> ((64 - sh) % 64))
  | .ror => (a >>> sh) ||| (a <<< ((64 - sh) % 64))

/-- The value of a 32-bit computation on the low words. -/
def AluW.val (o : AluW) (a b : Word) : Word :=
  let x : BitVec 32 := BitVec.ofNat 32 a.toNat
  let y : BitVec 32 := BitVec.ofNat 32 b.toNat
  let sh := b.toNat % 32
  let r : BitVec 32 := match o with
    | .add => x + y
    | .sub => x - y
    | .sll => x <<< sh
    | .srl => x >>> sh
    | .sra => x.sshiftRight sh
    | .mul => x * y
    | .div => if y = 0#32 then BitVec.allOnes 32 else BitVec.ofInt 32 (x.toInt.tdiv y.toInt)
    | .divu => if y = 0#32 then BitVec.allOnes 32 else BitVec.ofNat 32 (x.toNat / y.toNat)
    | .rem => if y = 0#32 then x else BitVec.ofInt 32 (x.toInt.tmod y.toInt)
    | .remu => if y = 0#32 then x else BitVec.ofNat 32 (x.toNat % y.toNat)
    | .rol => (x <<< sh) ||| (x >>> ((32 - sh) % 32))
    | .ror => (x >>> sh) ||| (x <<< ((32 - sh) % 32))
  r.signExtend 64

/-- The value of a computation with one operand. -/
def Un.val (o : Un) (a : Word) : Word :=
  let n := a.toNat
  let bytes := toLe 8 n
  match o with
  | .clz => BitVec.ofNat 64 (leadZ 64 n)
  | .ctz => BitVec.ofNat 64 (trailZ 64 n)
  | .cpop => BitVec.ofNat 64 (popN 64 n)
  | .sextB => sx 8 n
  | .sextH => sx 16 n
  | .zextH => BitVec.ofNat 64 (n % 2 ^ 16)
  | .rev8 => BitVec.ofNat 64 (leNat bytes.reverse)
  | .orcB => BitVec.ofNat 64 (leNat (bytes.map (fun b => if b = 0#8 then 0#8 else 0xFF#8)))
  | .clzw => BitVec.ofNat 64 (leadZ 32 n)
  | .ctzw => BitVec.ofNat 64 (trailZ 32 n)
  | .cpopw => BitVec.ofNat 64 (popN 32 n)

/-- A branch is taken. -/
def Br.holds (c : Br) (a b : Word) : Bool :=
  match c with
  | .eq => decide (a = b)
  | .ne => decide (a ≠ b)
  | .lt => decide (a.toInt < b.toInt)
  | .ge => decide (b.toInt ≤ a.toInt)
  | .ltu => decide (a.toNat < b.toNat)
  | .geu => decide (b.toNat ≤ a.toNat)

/-! ### 32-bit encodings -/

/-- OP: funct7 and funct3. -/
def decOp (f7 f3 : Nat) : Option Alu :=
  match f7, f3 with
  | 0x00, 0 => some .add | 0x00, 1 => some .sll | 0x00, 2 => some .slt | 0x00, 3 => some .sltu
  | 0x00, 4 => some .xor | 0x00, 5 => some .srl | 0x00, 6 => some .or | 0x00, 7 => some .and
  | 0x20, 0 => some .sub | 0x20, 5 => some .sra | 0x20, 4 => some .xnor | 0x20, 6 => some .orn | 0x20, 7 => some .andn
  | 0x01, 0 => some .mul | 0x01, 1 => some .mulh | 0x01, 2 => some .mulhsu | 0x01, 3 => some .mulhu
  | 0x01, 4 => some .div | 0x01, 5 => some .divu | 0x01, 6 => some .rem | 0x01, 7 => some .remu
  | 0x05, 4 => some .min | 0x05, 5 => some .minu | 0x05, 6 => some .max | 0x05, 7 => some .maxu
  | 0x30, 1 => some .rol | 0x30, 5 => some .ror
  | _, _ => none

/-- OP-32: funct7 and funct3. -/
def decOpW (f7 f3 : Nat) : Option AluW :=
  match f7, f3 with
  | 0x00, 0 => some .add | 0x20, 0 => some .sub | 0x00, 1 => some .sll | 0x00, 5 => some .srl | 0x20, 5 => some .sra
  | 0x01, 0 => some .mul | 0x01, 4 => some .div | 0x01, 5 => some .divu | 0x01, 6 => some .rem | 0x01, 7 => some .remu
  | 0x30, 1 => some .rol | 0x30, 5 => some .ror
  | _, _ => none

/-- OP-IMM: funct3 and the 12-bit immediate. -/
def decOpImm (f3 imm rd rs1 : Nat) : Option Rv :=
  let alu (o : Alu) : Option Rv := some (.opi o rd rs1 (sx 12 imm))
  let sh (o : Alu) : Option Rv := some (.opi o rd rs1 (BitVec.ofNat 64 (imm % 64)))
  let un (o : Un) : Option Rv := some (.un o rd rs1)
  match f3 with
  | 0 => alu .add
  | 2 => alu .slt
  | 3 => alu .sltu
  | 4 => alu .xor
  | 6 => alu .or
  | 7 => alu .and
  | 1 =>
    if imm / 64 = 0 then sh .sll
    else match imm with
      | 0x600 => un .clz
      | 0x601 => un .ctz
      | 0x602 => un .cpop
      | 0x604 => un .sextB
      | 0x605 => un .sextH
      | _ => none
  | _ =>
    match imm / 64 with
    | 0x00 => sh .srl
    | 0x10 => sh .sra
    | 0x18 => sh .ror
    | _ => if imm = 0x287 then un .orcB else if imm = 0x6B8 then un .rev8 else none

/-- OP-IMM-32: funct3 and the 12-bit immediate. -/
def decOpImmW (f3 imm rd rs1 : Nat) : Option Rv :=
  let sh (o : AluW) : Option Rv := some (.opiw o rd rs1 (BitVec.ofNat 64 (imm % 32)))
  match f3 with
  | 0 => some (.opiw .add rd rs1 (sx 12 imm))
  | 1 =>
    if imm / 32 = 0 then sh .sll
    else match imm with
      | 0x600 => some (.un .clzw rd rs1)
      | 0x601 => some (.un .ctzw rd rs1)
      | 0x602 => some (.un .cpopw rd rs1)
      | _ => none
  | 5 =>
    match imm / 32 with
    | 0x00 => sh .srl
    | 0x20 => sh .sra
    | 0x30 => sh .ror
    | _ => none
  | _ => none

/-- LOAD: size and sign by funct3. -/
def decLoad (f3 : Nat) : Option (Nat × Bool) :=
  match f3 with
  | 0 => some (1, true) | 1 => some (2, true) | 2 => some (4, true) | 3 => some (8, true)
  | 4 => some (1, false) | 5 => some (2, false) | 6 => some (4, false)
  | _ => none

/-- BRANCH: condition by funct3. -/
def decBr (f3 : Nat) : Option Br :=
  match f3 with
  | 0 => some .eq | 1 => some .ne | 4 => some .lt | 5 => some .ge | 6 => some .ltu | 7 => some .geu
  | _ => none

/-- The repair extension by funct7 and funct3, with the register fields that Table 9.4 marks 0 (R192). -/
def decRx (f7 f3 rs1 rs2 : Nat) : Option Rx :=
  match f7, f3 with
  | 0, 0 => some .tset
  | 0, 1 => some .tclrr
  | 0, 2 => some .tclrc
  | 0, 3 => some .trowv
  | 0, 4 => some .tcolv
  | 0, 5 => if rs2 = 0 then some .tcolocc else none
  | 0, 6 => if rs2 = 0 then some .trowocc else none
  | 0, 7 => if rs2 = 0 then some .tpop else none
  | 1, 0 => some .cover
  | 1, 1 => some .tmerge
  | 1, 2 => if rs1 = 0 ∧ rs2 = 0 then some .cycle else none
  | _, _ => none

/-- A 32-bit instruction word; none is an illegal instruction (R182). -/
def decode32 (w : Nat) : Option Rv :=
  let rd := nbits 11 7 w
  let f3 := nbits 14 12 w
  let rs1 := nbits 19 15 w
  let rs2 := nbits 24 20 w
  let f7 := nbits 31 25 w
  let immI := nbits 31 20 w
  match nbits 6 0 w with
  | 0x37 => some (.lui rd (sx 32 (nbits 31 12 w * 4096)))
  | 0x17 => some (.auipc rd (sx 32 (nbits 31 12 w * 4096)))
  | 0x6F => some (.jal rd (sx 21 (nbits 31 31 w * 2 ^ 20 + nbits 19 12 w * 2 ^ 12 + nbits 20 20 w * 2 ^ 11 + nbits 30 21 w * 2)))
  | 0x67 => if f3 = 0 then some (.jalr rd rs1 (sx 12 immI)) else none
  | 0x63 => (decBr f3).map (fun c =>
      .br c rs1 rs2 (sx 13 (nbits 31 31 w * 2 ^ 12 + nbits 7 7 w * 2 ^ 11 + nbits 30 25 w * 2 ^ 5 + nbits 11 8 w * 2)))
  | 0x03 => (decLoad f3).map (fun p => .load p.1 p.2 rd rs1 (sx 12 immI))
  | 0x23 => if f3 < 4 then some (.store (2 ^ f3) rs1 rs2 (sx 12 (f7 * 32 + rd))) else none
  | 0x13 => decOpImm f3 immI rd rs1
  | 0x1B => decOpImmW f3 immI rd rs1
  | 0x33 => (decOp f7 f3).map (fun o => .op o rd rs1 rs2)
  | 0x3B =>
    if f7 = 4 ∧ f3 = 4 ∧ rs2 = 0 then some (.un .zextH rd rs1) else (decOpW f7 f3).map (fun o => .opw o rd rs1 rs2)
  | 0x0F => if f3 = 0 then some .fence else none
  | 0x73 => if w = 0x73 then some .ecall else if w = 0x100073 then some .ebreak else none
  | 0x0B => (decRx f7 f3 rs1 rs2).map (fun o => .rx o rd rs1 rs2)
  | _ => none

/-! ### 16-bit encodings -/

/-- Quadrant 0. -/
def decodeC0 (w : Nat) : Option Rv :=
  let rd := 8 + nbits 4 2 w
  let rs1 := 8 + nbits 9 7 w
  let o4 := BitVec.ofNat 64 (nbits 12 10 w * 8 + nbits 6 6 w * 4 + nbits 5 5 w * 64)
  let o8 := BitVec.ofNat 64 (nbits 12 10 w * 8 + nbits 6 5 w * 64)
  match nbits 15 13 w with
  | 0 =>
    let imm := nbits 12 11 w * 16 + nbits 10 7 w * 64 + nbits 6 6 w * 4 + nbits 5 5 w * 8
    if imm = 0 then none else some (.opi .add rd 2 (BitVec.ofNat 64 imm))
  | 2 => some (.load 4 true rd rs1 o4)
  | 3 => some (.load 8 true rd rs1 o8)
  | 6 => some (.store 4 rs1 rd o4)
  | 7 => some (.store 8 rs1 rd o8)
  | _ => none

/-- Quadrant 1. -/
def decodeC1 (w : Nat) : Option Rv :=
  let rd := nbits 11 7 w
  let r1 := 8 + nbits 9 7 w
  let r2 := 8 + nbits 4 2 w
  let imm6 := nbits 12 12 w * 32 + nbits 6 2 w
  let jump := sx 12 (nbits 12 12 w * 2 ^ 11 + nbits 11 11 w * 2 ^ 4 + nbits 10 9 w * 2 ^ 8 + nbits 8 8 w * 2 ^ 10 +
    nbits 7 7 w * 2 ^ 6 + nbits 6 6 w * 2 ^ 7 + nbits 5 3 w * 2 + nbits 2 2 w * 2 ^ 5)
  let branch := sx 9 (nbits 12 12 w * 2 ^ 8 + nbits 11 10 w * 2 ^ 3 + nbits 6 5 w * 2 ^ 6 + nbits 4 3 w * 2 + nbits 2 2 w * 2 ^ 5)
  match nbits 15 13 w with
  | 0 => some (.opi .add rd rd (sx 6 imm6))
  | 1 => if rd = 0 then none else some (.opiw .add rd rd (sx 6 imm6))
  | 2 => some (.opi .add rd 0 (sx 6 imm6))
  | 3 =>
    if imm6 = 0 then none
    else if rd = 2 then
      some (.opi .add 2 2 (sx 10 (nbits 12 12 w * 2 ^ 9 + nbits 6 6 w * 2 ^ 4 + nbits 5 5 w * 2 ^ 6 + nbits 4 3 w * 2 ^ 7 +
        nbits 2 2 w * 2 ^ 5)))
    else some (.lui rd (sx 18 (imm6 * 4096)))
  | 4 =>
    match nbits 11 10 w with
    | 0 => some (.opi .srl r1 r1 (BitVec.ofNat 64 imm6))
    | 1 => some (.opi .sra r1 r1 (BitVec.ofNat 64 imm6))
    | 2 => some (.opi .and r1 r1 (sx 6 imm6))
    | _ =>
      match nbits 12 12 w, nbits 6 5 w with
      | 0, 0 => some (.op .sub r1 r1 r2)
      | 0, 1 => some (.op .xor r1 r1 r2)
      | 0, 2 => some (.op .or r1 r1 r2)
      | 0, _ => some (.op .and r1 r1 r2)
      | _, 0 => some (.opw .sub r1 r1 r2)
      | _, 1 => some (.opw .add r1 r1 r2)
      | _, _ => none
  | 5 => some (.jal 0 jump)
  | 6 => some (.br .eq r1 0 branch)
  | _ => some (.br .ne r1 0 branch)

/-- Quadrant 2. -/
def decodeC2 (w : Nat) : Option Rv :=
  let rd := nbits 11 7 w
  let rs2 := nbits 6 2 w
  match nbits 15 13 w with
  | 0 => some (.opi .sll rd rd (BitVec.ofNat 64 (nbits 12 12 w * 32 + rs2)))
  | 2 =>
    if rd = 0 then none
    else some (.load 4 true rd 2 (BitVec.ofNat 64 (nbits 12 12 w * 32 + nbits 6 4 w * 4 + nbits 3 2 w * 64)))
  | 3 =>
    if rd = 0 then none
    else some (.load 8 true rd 2 (BitVec.ofNat 64 (nbits 12 12 w * 32 + nbits 6 5 w * 8 + nbits 4 2 w * 64)))
  | 4 =>
    if nbits 12 12 w = 0 then
      if rs2 = 0 then (if rd = 0 then none else some (.jalr 0 rd 0#64)) else some (.op .add rd 0 rs2)
    else if rs2 = 0 then (if rd = 0 then some .ebreak else some (.jalr 1 rd 0#64))
    else some (.op .add rd rd rs2)
  | 6 => some (.store 4 2 rs2 (BitVec.ofNat 64 (nbits 12 9 w * 4 + nbits 8 7 w * 64)))
  | 7 => some (.store 8 2 rs2 (BitVec.ofNat 64 (nbits 12 10 w * 8 + nbits 9 7 w * 64)))
  | _ => none

/-- A 16-bit instruction word; none is an illegal instruction. -/
def decode16 (w : Nat) : Option Rv :=
  match w % 4 with
  | 0 => decodeC0 w
  | 1 => decodeC1 w
  | _ => decodeC2 w

/-! ### Tiles (R192, R193) -/

/-- Number of ones in a tile. -/
def tilePop (t : List Word) : Nat := t.foldl (fun a r => a + popN 64 r.toNat) 0

/-- OR of rows. -/
def rowsOr (t : List Word) : Word := t.foldl (· ||| ·) 0#64

/-- Number of rows of a tile with column `c` set. -/
def colPop (t : List Word) (c : Nat) : Nat := (t.filter (fun r => nbit r.toNat c)).length

/-- A cover that RX.COVER has found: spare rows as a mask, and its cost. -/
structure Cover where
  rs : Nat
  cost : Nat
deriving DecidableEq, Repr

/-- The better of two covers (R193): lower cost, then fewer rows, then the lower mask. -/
def Cover.better (a b : Cover) : Cover :=
  if b.cost < a.cost ∨ (b.cost = a.cost ∧ popN 64 b.rs < popN 64 a.rs) ∨
      (b.cost = a.cost ∧ popN 64 b.rs = popN 64 a.rs ∧ b.rs < a.rs) then b else a

/-- The better of two covers that may be missing. -/
def coverMin : Option Cover → Option Cover → Option Cover
  | none, b => b
  | a, none => a
  | some a, some b => some (a.better b)

/-- The best cover over every subset of the rows given (index and word): up to `p` more rows are replaced; `rs`, `n` and `cols`
are what has been decided for earlier rows. -/
def coverBest (q : Nat) : List (Nat × Word) → Nat → Nat → Nat → Word → Option Cover
  | [], _, rs, n, cols => if popN 64 cols.toNat ≤ q then some ⟨rs, n + popN 64 cols.toNat⟩ else none
  | (i, r) :: t, p, rs, n, cols =>
    let skip := coverBest q t p rs n (cols ||| r)
    match p with
    | 0 => skip
    | p + 1 => coverMin (coverBest q t p (rs ||| (1 <<< i)) (n + 1) cols) skip

/-- RX.COVER of a tile with `p` spare rows and `q` spare columns (R193). -/
def rxCover (t : List Word) (p q : Nat) : Word :=
  let k : List (Nat × Word) := (t.zipIdx.filter (fun r => decide (r.1 ≠ 0#64))).map (fun r => (r.2, r.1))
  match coverBest q k p 0 0 0#64 with
  | some c => BitVec.ofNat 64 c.rs
  | none => BitVec.allOnes 64

end Sys2Proof.Machine
end

