-- ==== Sys2Proof/Machine/Cores.lean ====
section
/-! DEFINITION. The Analysis Cores: fetch, loads and stores, one instruction, and the repair extension (R182 to R193). -/

namespace Sys2Proof.Machine

/-! ### Registers and local memory -/

/-- Integer register `i`. -/
def State.xr (s : State) (c i : Nat) : Word := (s.core c).x.toList.getD i 0#64

/-- Integer register `i` takes a value; x0 stays 0. -/
def State.setX (s : State) (c i : Nat) (v : Word) : State :=
  if i = 0 then s
  else s.modCore c (fun y => { y with x := if h : i < 32 then y.x.set i v else y.x })

/-- pc of core `c` takes a value. -/
def State.setPc (s : State) (c : Nat) (v : Word) : State := s.modCore c (fun y => { y with pc := v })

/-- The local offset of an address of the local alias (R183). -/
def localOff (a : Word) : Option Nat :=
  if 0xFFFFFFFFFFFC0000 ≤ a.toNat then some (a.toNat - 0xFFFFFFFFFFFC0000) else none

/-- A read of `n` bytes of the local alias from an address on; none outside it. Addresses wrap. -/
def localBytes (c : Nat) (a : Word) (n : Nat) : Option (List Nat) :=
  let l := (List.range n).map (fun i => localOff (a + BitVec.ofNat 64 i))
  if l.all Option.isSome then some (l.map (fun o => coreMem c + o.getD 0)) else none

/-- The SECDED logic of the local memory over the words that hold the addresses: corrections counted, and whether one is
uncorrectable (R187). -/
def State.lmCheck (s : State) (as : List Nat) : State × Bool :=
  (as.map (· / 8)).eraseDups.foldl (fun (acc : State × Bool) w =>
    let r := acc.1.lmRead (8 * w)
    (r.1, acc.2 || r.2)) (s, false)

/-- What a step of a core yields: the state in which it goes on, or the one in which its run has ended. -/
inductive CoreRes where
  | go (s : State)
  | over (s : State)
deriving DecidableEq, Repr

/-! ### Loads and stores (R183 to R186) -/

/-- A load of `n` bytes at address `a`: the state and the value; none for a run that a trap has ended. -/
def State.coreLoad (s : State) (c : Nat) (a : Word) (n : Nat) : State × Option Nat :=
  match localBytes c a n with
  | some as =>
    let r := s.lmCheck as
    if r.2 then (r.1.coreTrap c 0x90 a, none) else (r.1, some (leNat (as.map r.1.ldB)))
  | none =>
    let d := a.toNat
    if d % n ≠ 0 then (s.coreTrap c 0x84 a, none)
    else if d < 0x100000000 then
      if n ≠ 8 ∨ s.regCheck (.core (Fin.ofNat 48 c)) false d ≠ 0 then (s.coreTrap c 0x85 a, none)
      else
        let s := s.readEffect d
        (s, some (s.readReg ((s.coreWard c).getD 0) d).toNat)
    else
      match memOf d with
      | none => (s.coreTrap c 0x85 a, none)
      | some (m, o) =>
        if !s.memOwned ((s.coreWard c).getD 4) m o n then (s.coreTrap c 0x85 a, none)
        else
          let q := if (s.core c).stores.any (fun q => decide (q.addr / 64 = d / 64)) then s.coreDrain c else (s, true)
          if !q.2 then (q.1, none)
          else
            let r := q.1.busRead (0x40 + c) d n
            if r.2.2.range || r.2.2.ue then (r.1.coreTrap c (if m = 4 then 0x90 else 0x85) a, none) else (r.1, some (leNat r.2.1))

/-- A store of the low `n` bytes of `v` at address `a`: goes on, or a trap has ended the run; with a full store buffer the core
waits and nothing changes. The flag tells that the instruction is done. -/
def State.coreStore (s : State) (c : Nat) (a : Word) (n : Nat) (v : Word) : State × Bool :=
  match localBytes c a n with
  | some as => (s.lmStore (as.headD 0) (toLe n v.toNat), true)
  | none =>
    let d := a.toNat
    if d % n ≠ 0 then (s.coreTrap c 0x86 a, false)
    else if d < 0x100000000 then
      if n ≠ 8 then (s.coreTrap c 0x87 a, false) else s.coreRegStore c d v
    else
      match memOf d with
      | none => (s.coreTrap c 0x87 a, false)
      | some (m, o) =>
        if !s.memOwned ((s.coreWard c).getD 4) m o n then (s.coreTrap c 0x87 a, false)
        else
          match (if m = 0 then s.firstBad o n else none) with
          | some b => ((s.rangeErr (0x40 + c) b).coreTrap c 0x87 a, false)
          | none =>
            if 8 ≤ (s.core c).stores.length then (s, false)
            else (s.modCore c (fun y => { y with stores := y.stores ++ [⟨d, n, v.toNat % 2 ^ (8 * n), y.pc⟩] }), true)

/-! ### Fetch (R184) -/

/-- What a fetch finds: a trap has ended the run, or an instruction with its bits and its size in bytes. -/
inductive Fetched where
  | over (s : State)
  | inst (s : State) (bits size : Nat) (i : Option Rv)
deriving DecidableEq, Repr

/-- The instruction at pc. -/
def State.coreFetch (s : State) (c : Nat) : Fetched :=
  let pc := (s.core c).pc
  match localBytes c pc 2 with
  | none => .over (s.coreTrap c 0x81 pc)
  | some as =>
    let r := s.lmCheck as
    if r.2 then .over (r.1.coreTrap c 0x90 pc)
    else
      let lo := leNat (as.map r.1.ldB)
      if lo % 4 ≠ 3 then .inst r.1 lo 2 (decode16 lo)
      else
        match localBytes c (pc + 2#64) 2 with
        | none => .over (r.1.coreTrap c 0x81 (pc + 2#64))
        | some bs =>
          let more := (bs.map (· / 8)).any (fun w => !(as.map (· / 8)).contains w)
          let t := if more then r.1.lmCheck bs else (r.1, false)
          if t.2 then .over (t.1.coreTrap c 0x90 (pc + 2#64))
          else
            let w := lo + 2 ^ 16 * leNat (bs.map t.1.ldB)
            .inst t.1 w 4 (decode32 w)

/-! ### The repair extension (R192) -/

/-- A tile operand is in order: in the local alias, aligned to 512 bytes. -/
def tileOk (a : Word) : Bool := (localOff a).isSome && decide (a.toNat % 512 = 0)

/-- The addresses of a tile. -/
def tileAddrs (c : Nat) (a : Word) : List Nat := (List.range 512).map (fun i => coreMem c + (localOff a).getD 0 + i)

/-- The 64 rows of a tile, read through the SECDED logic. -/
def State.tileRead (s : State) (c : Nat) (a : Word) : State × Bool × List Word :=
  let as := tileAddrs c a
  let r := s.lmCheck as
  (r.1, r.2, (List.range 64).map (fun i => BitVec.ofNat 64 (leNat (r.1.ld (coreMem c + (localOff a).getD 0 + 8 * i) 8))))

/-- The rows of a tile are written. -/
def State.tileWrite (s : State) (c : Nat) (a : Word) (t : List Word) : State :=
  s.lmStore (coreMem c + (localOff a).getD 0) (t.flatMap (fun r => toLe 8 r.toNat))

/-- The operand value of a repair instruction is outside what Table 9.4 allows. -/
def Rx.badOperand (o : Rx) (b : Word) : Bool :=
  match o with
  | .tset => decide (4096 ≤ b.toNat)
  | .cover => decide (1024 ≤ b.toNat) || decide (8 < b.toNat % 16)
  | _ => false

/-- The result of a repair instruction on tile `t`, and the tile it writes, if it writes one: `b` is rs2, `t2` its tile. -/
def Rx.apply (o : Rx) (b : Word) (t t2 : List Word) : Word × Option (List Word) :=
  let bits (f : Nat → Bool) : Word := BitVec.ofNat 64 (maskOf 64 f)
  match o with
  | .tset =>
    let r := b.toNat / 64
    let row := t.getD r 0#64
    (BitVec.ofNat 64 (b2n (nbit row.toNat (b.toNat % 64))), some (t.set r (row ||| BitVec.ofNat 64 (1 <<< (b.toNat % 64)))))
  | .tclrr =>
    let t' := t.zipIdx.map (fun p => if nbit b.toNat p.2 then 0#64 else p.1)
    (BitVec.ofNat 64 (tilePop t - tilePop t'), some t')
  | .tclrc =>
    let t' := t.map (fun r => r &&& ~~~b)
    (BitVec.ofNat 64 (tilePop t - tilePop t'), some t')
  | .trowv => (bits (fun r => decide (b.toNat < popN 64 (t.getD r 0#64).toNat)), none)
  | .tcolv => (bits (fun c => decide (b.toNat < colPop t c)), none)
  | .tcolocc => (rowsOr t, none)
  | .trowocc => (bits (fun r => decide (t.getD r 0#64 ≠ 0#64)), none)
  | .tpop => (BitVec.ofNat 64 (tilePop t), none)
  | .cover => (rxCover t (b.toNat % 16) (b.toNat / 16), none)
  | .tmerge =>
    let t' := (t.zip t2).map (fun p => p.1 ||| p.2)
    (BitVec.ofNat 64 (tilePop t'), some t')
  | .cycle => (0#64, none)

/-- A repair instruction of core `c`; `bits` is its encoding, `next` the pc after it. -/
def State.coreRx (s : State) (c bits : Nat) (next : Word) (o : Rx) (rd rs1 rs2 : Nat) : State :=
  let a := s.xr c rs1
  let b := s.xr c rs2
  if o = .cycle then (s.setX c rd (BitVec.ofNat 64 (s.core c).cycles)).setPc c next
  else if o.badOperand b then s.coreTrap c 0x82 (BitVec.ofNat 64 bits)
  else if !tileOk a then s.coreTrap c 0x85 a
  else if o = .tmerge ∧ !tileOk b then s.coreTrap c 0x85 b
  else
    let r := s.tileRead c a
    let r2 := if o = .tmerge ∧ a ≠ b then r.1.tileRead c b else (r.1, false, r.2.2)
    if r.2.1 then r.1.coreTrap c 0x90 a
    else if r2.2.1 then r2.1.coreTrap c 0x90 b
    else
      let v := o.apply b r.2.2 r2.2.2
      let s := match v.2 with
        | some t => r2.1.tileWrite c a t
        | none => r2.1
      (s.setX c rd v.1).setPc c next

/-! ### One instruction -/

/-- A decoded instruction of core `c` is executed (R182 to R190). -/
def State.coreExec (s : State) (c bits size : Nat) (i : Rv) : State :=
  let pc := (s.core c).pc
  let next := pc + BitVec.ofNat 64 size
  let x := s.xr c
  let put (rd : Nat) (v : Word) : State := (s.setX c rd v).setPc c next
  match i with
  | .lui rd v => put rd v
  | .auipc rd v => put rd (pc + v)
  | .jal rd off => (s.setX c rd next).setPc c (pc + off)
  | .jalr rd rs1 off => (s.setX c rd next).setPc c ((x rs1 + off) &&& ~~~1#64)
  | .br b rs1 rs2 off => s.setPc c (if b.holds (x rs1) (x rs2) then pc + off else next)
  | .load n sg rd rs1 off =>
    match s.coreLoad c (x rs1 + off) n with
    | (s, some v) => (s.setX c rd (if sg then sx (8 * n) v else BitVec.ofNat 64 v)).setPc c next
    | (s, none) => s
  | .store n rs1 rs2 off =>
    match s.coreStore c (x rs1 + off) n (x rs2) with
    | (s, true) => s.setPc c next
    | (s, false) => s
  | .opi o rd rs1 imm => put rd (o.val (x rs1) imm)
  | .op o rd rs1 rs2 => put rd (o.val (x rs1) (x rs2))
  | .opiw o rd rs1 imm => put rd (o.val (x rs1) imm)
  | .opw o rd rs1 rs2 => put rd (o.val (x rs1) (x rs2))
  | .un o rd rs1 => put rd (o.val (x rs1))
  | .fence =>
    let q := s.coreDrain c
    if q.2 then q.1.setPc c next else q.1
  | .ecall =>
    let q := s.coreDrain c
    let s := q.1
    let st := (x 10).toNat % 128
    if !q.2 then s
    else if st = 0 then s.runEnd c 0
    else
      let slot := ((s.core c).run.map (·.slot)).getD 0
      ((s.p (AC_TRAP_STATUS c) st).p (AC_TRAP_SLOT c) slot).runEnd c st
  | .ebreak => s.useFree.coreTrap c 0x83 (BitVec.ofNat 64 s.freeVal)
  | .rx o rd rs1 rs2 => s.coreRx c bits next o rd rs1 rs2

/-- The core executes: it has a run, is not stalled, its clock runs, and no access of it waits for a DRAM queue (R221). -/
def State.coreRuns (s : State) (c : Nat) : Bool :=
  decide ((s.core c).st = .running) && (s.core c).run.isSome && s.ticksOf (acDom c) && !s.memWaits (0x40 + c)

/-- Core `c` fetches and executes the instruction at its pc if `f` accepts it; what is no instruction is an illegal one. -/
def State.coreStep (s : State) (c : Nat) (f : Option Rv → Bool) : State :=
  if !s.coreRuns c then s
  else match s.coreFetch c with
    | .over t => if f none then t else s
    | .inst t bits size i =>
      if !f i then s
      else match i with
        | some i => t.coreExec c bits size i
        | none => t.coreTrap c 0x82 (BitVec.ofNat 64 bits)

/-- CORE_INSTRUCTION: any instruction but those of the rows below. -/
def coreOther : Option Rv → Bool
  | some .ecall => false
  | some .ebreak => false
  | some .fence => false
  | some (.rx _ _ _ _) => false
  | _ => true

/-- The instruction at pc is this repair instruction. -/
def isRx (o : Rx) : Option Rv → Bool
  | some (.rx o' _ _ _) => decide (o = o')
  | _ => false

/-- CORE_INSTRUCTION. -/
def execCoreInstruction (c : Fin 48) (s : State) : Host.Outcome State Fault Refusal := .next (s.coreStep c.val coreOther)
/-- ECALL ends the run with status a0[6:0] after the stores are performed (R190). -/
def execEcall (c : Fin 48) (s : State) : Host.Outcome State Fault Refusal :=
  .next (s.coreStep c.val (fun i => decide (i = some .ecall)))
/-- EBREAK ends the run with status 0x83 (R182). -/
def execEbreak (c : Fin 48) (s : State) : Host.Outcome State Fault Refusal :=
  .next (s.coreStep c.val (fun i => decide (i = some .ebreak)))
/-- FENCE waits until earlier outside accesses are performed (R186). -/
def execFence (c : Fin 48) (s : State) : Host.Outcome State Fault Refusal :=
  .next (s.coreStep c.val (fun i => decide (i = some .fence)))
/-- RX.TSET. -/
def execRxTset (c : Fin 48) (s : State) : Host.Outcome State Fault Refusal := .next (s.coreStep c.val (isRx .tset))
/-- RX.TCLRR. -/
def execRxTclrr (c : Fin 48) (s : State) : Host.Outcome State Fault Refusal := .next (s.coreStep c.val (isRx .tclrr))
/-- RX.TCLRC. -/
def execRxTclrc (c : Fin 48) (s : State) : Host.Outcome State Fault Refusal := .next (s.coreStep c.val (isRx .tclrc))
/-- RX.TROWV. -/
def execRxTrowv (c : Fin 48) (s : State) : Host.Outcome State Fault Refusal := .next (s.coreStep c.val (isRx .trowv))
/-- RX.TCOLV. -/
def execRxTcolv (c : Fin 48) (s : State) : Host.Outcome State Fault Refusal := .next (s.coreStep c.val (isRx .tcolv))
/-- RX.TCOLOCC. -/
def execRxTcolocc (c : Fin 48) (s : State) : Host.Outcome State Fault Refusal := .next (s.coreStep c.val (isRx .tcolocc))
/-- RX.TROWOCC. -/
def execRxTrowocc (c : Fin 48) (s : State) : Host.Outcome State Fault Refusal := .next (s.coreStep c.val (isRx .trowocc))
/-- RX.TPOP. -/
def execRxTpop (c : Fin 48) (s : State) : Host.Outcome State Fault Refusal := .next (s.coreStep c.val (isRx .tpop))
/-- RX.COVER. -/
def execRxCover (c : Fin 48) (s : State) : Host.Outcome State Fault Refusal := .next (s.coreStep c.val (isRx .cover))
/-- RX.TMERGE. -/
def execRxTmerge (c : Fin 48) (s : State) : Host.Outcome State Fault Refusal := .next (s.coreStep c.val (isRx .tmerge))
/-- RX.CYCLE. -/
def execRxCycle (c : Fin 48) (s : State) : Host.Outcome State Fault Refusal := .next (s.coreStep c.val (isRx .cycle))

end Sys2Proof.Machine
end

