-- ==== Sys2Proof/Machine/HostPort.lean ====
section
/-! DEFINITION. Host ports: transactions (R49 to R53), front-end transfers (R61), acceptance of commands (R54 to R56), REG_SET and
FCP_WRITE, replay of frames and link hold (R46, R48), and EVENT frames (R59, R60). -/

namespace Sys2Proof.Machine

/-! ### Requests on a host port -/

/-- A data frame on host port `p` that is delivered: refused with NO_WARD where no enabled Ward names the port (R53), else
handled for the Ward. `ty` is the response type. -/
def State.onHost (s : State) (p : Fin 4) (f : Frame) (ty : Nat) (act : State → Fin 4 → State) : State :=
  s.onData p.val f (fun s =>
    match s.portWard p.val with
    | none =>
      if ty = 0x85 then s.acknowledge p.val ⟨none, dataFrame ty 4 f.tag (f.queue.toNat % 8) []⟩
      else s.respond p.val ⟨none, dataFrame ty 4 f.tag 0 []⟩
    | some w => act s (Fin.ofNat 4 w))

/-- A response to a transaction, behind those to earlier transactions of the port (R51). -/
def State.answer (s : State) (p : Fin 4) (f : Frame) (ty status : Nat) (payload : List Byte) : State :=
  s.respond p.val ⟨none, dataFrame ty status f.tag 0 payload⟩

/-- A response behind memory requests of name `tok`: it leaves once their queues have room for them (R50, R221). -/
def State.answerMem (s : State) (p : Fin 4) (f : Frame) (ty : Nat) (payload : List Byte) (tok : Nat) : State :=
  s.respond p.val ⟨if s.waitingReqs.any (fun r => decide (r.tok = tok)) then some tok else none, dataFrame ty 0 f.tag 0 payload⟩

/-- The name of the memory requests of a frame: by port and SEQ, and other than that of a front-end port. -/
def memTok (p : Fin 4) (f : Frame) : Nat := 8 + p.val * 65536 + f.seq.toNat

/-- The first status that is not 0 in a list. -/
def firstBadStatus (l : List Nat) : Nat := (l.find? (fun x => decide (x ≠ 0))).getD 0

/-- Checks 2 to 5 of R49 on a run of `n` registers from `a`. -/
def State.regRunCheck (s : State) (w : Fin 4) (write : Bool) (a n : Nat) : Nat :=
  if 2 ^ 40 ≤ a then 2
  else if a % 8 ≠ 0 then 1
  else if (List.range n).any (fun i => decide (0x10000000 ≤ a + 8 * i)) then 2
  else firstBadStatus ((List.range n).map (fun i => s.regCheck (.ward w) write (a + 8 * i)))

/-- REG_RD (R49). -/
def State.regRd (s : State) (p w : Fin 4) (f : Frame) : State :=
  let a := u f.payload 0 8
  let n := u f.payload 8 8
  if f.payload.length ≠ 16 ∨ n = 0 ∨ 256 < n then s.answer p f 0x81 5 []
  else
    let st := s.regRunCheck w false a n
    if st ≠ 0 then s.answer p f 0x81 st []
    else
      let r := s.readMany w.val ((List.range n).map (fun i => a + 8 * i))
      r.1.answer p f 0x81 0 (r.2.flatMap (fun v => toLe 8 v.toNat))

/-- REG_RD. -/
def execRegRd (p : Fin 4) (f : Frame) (s : State) : Host.Outcome State Fault Refusal :=
  .next (s.onHost p f 0x81 (fun s w => s.regRd p w f))

/-- TB_TIME_LO_READ: a read of TB_TIME_LO by the Ward of a port latches the reading (R253). -/
def execTbTimeLoRead (p : Fin 4) (s : State) : Host.Outcome State Fault Refusal :=
  .next (if (s.portWard p.val).isSome then s.readEffect TB_TIME_LO else s)

/-- Words written to registers in order; the status is the first one that is not 0, also where one word meets RESOURCE_BUSY (R71) and
another PLAN_LOCKED (R10, R49), which the rules put in no order (DESIGN CHOICE, log 105). -/
def State.writeMany (s : State) (m : Master) (ws : List (Nat × Word)) : State × Nat :=
  ws.foldl (fun (acc : State × Nat) p =>
    let r := acc.1.storeReg m p.1 p.2
    (r.1, if acc.2 = 0 then r.2 else acc.2)) (s, 0)

/-- REG_WR (R49, R62). On a STANDBY, NOT_ACTIVE stands behind LENGTH_ERROR and before the other checks of R49, as for MEM_WR and
FCP_XFER (DESIGN CHOICE, log: R62 gives it no place among them). -/
def State.regWr (s : State) (p w : Fin 4) (f : Frame) : State :=
  let a := u f.payload 0 8
  let n := f.payload.length / 8 - 1
  if f.payload.length % 8 ≠ 0 ∨ n = 0 ∨ 255 < n then s.answer p f 0x82 5 []
  else if s.role = 2 then s.answer p f 0x82 0xE []
  else
    let st := s.regRunCheck w true a n
    if st ≠ 0 then s.answer p f 0x82 st []
    else
      let r := s.writeMany (.ward w) ((List.range n).map (fun i => (a + 8 * i, BitVec.ofNat 64 (u f.payload (8 + 8 * i) 8))))
      r.1.answer p f 0x82 r.2 []

/-- REG_WR. -/
def execRegWr (p : Fin 4) (f : Frame) (s : State) : Host.Outcome State Fault Refusal :=
  .next (s.onHost p f 0x82 (fun s w => s.regWr p w f))

/-- Checks 2 to 6 of R49 on `n` bytes of memory from `a`; a range error is counted and raised (R217). -/
def State.memCheck (s : State) (p w : Fin 4) (a n : Nat) : State × Nat :=
  if 2 ^ 40 ≤ a then (s, 2)
  else if a % 8 ≠ 0 ∨ n % 8 ≠ 0 then (s, 1)
  else match memOf a, memOf (a + n - 1) with
    | some (m, o), some (m', _) =>
      if m ≠ m' then (s, 2)
      else if !s.memOwned w.val m o n then (s, 3)
      else match (if m = 0 then s.firstBad o n else none) with
        | some b => (s.rangeErr p.val b, 2)
        | none => (s, 0)
    | _, _ => (s, 2)

/-- MEM_RD (R49, R50). -/
def State.memRd (s : State) (p w : Fin 4) (f : Frame) : State :=
  let a := u f.payload 0 8
  let n := u f.payload 8 8
  if f.payload.length ≠ 16 ∨ n < 8 ∨ 2048 < n then s.answer p f 0x83 5 []
  else
    let c := s.memCheck p w a n
    if c.2 ≠ 0 then c.1.answer p f 0x83 c.2 []
    else
      let r := c.1.busRead p.val a n false (memTok p f)
      r.1.answerMem p f 0x83 r.2.1 (memTok p f)

/-- MEM_RD. -/
def execMemRd (p : Fin 4) (f : Frame) (s : State) : Host.Outcome State Fault Refusal :=
  .next (s.onHost p f 0x83 (fun s w => s.memRd p w f))

/-- MEM_WR (R49, R50, R62); in a pair the write is mirrored (R348). -/
def State.memWr (s : State) (p w : Fin 4) (f : Frame) : State :=
  let a := u f.payload 0 8
  let b := f.payload.drop 8
  if f.payload.length < 16 ∨ 2048 < f.payload.length then s.answer p f 0x84 5 []
  else if s.role = 2 then s.answer p f 0x84 0xE []
  else
    let c := s.memCheck p w a b.length
    if c.2 ≠ 0 then c.1.answer p f 0x84 c.2 []
    else (((c.1.busWrite p.val a b (memTok p f)).1).mirror 0x55 f.payload).answerMem p f 0x84 [] (memTok p f)

/-- MEM_WR. -/
def execMemWr (p : Fin 4) (f : Frame) (s : State) : Host.Outcome State Fault Refusal :=
  .next (s.onHost p f 0x84 (fun s w => s.memWr p w f))

/-! ### Front-end transfers (R61) -/

/-- The front-end port of an FCP header. -/
def fcpPort (h : Nat) : Nat := nbits 2 0 h
/-- BYTES of an FCP header. -/
def fcpBytes (h : Nat) : Nat := nbits 11 3 h

/-- The status of a transfer that Ward `w` asks for: reserved bits and BYTES, ownership, BIND, a running transfer. -/
def State.fcpCheck (s : State) (w : Fin 4) (h : Nat) : Nat :=
  if h / 2 ^ 12 ≠ 0 ∨ fcpBytes h = 0 ∨ 256 < fcpBytes h then 0xD
  else if !s.mayArm w.val 1 (fcpPort h) ∨ (s.fcp.toList.getD (fcpPort h) none).isSome then 6
  else 0

/-- A transfer starts: CS_N is asserted and the bytes are shifted out. -/
def State.fcpStart (s : State) (h : Nat) (x : FcpXfer) : State :=
  let s := if hp : fcpPort h < 8 then { s with fcp := s.fcp.set (fcpPort h) (some x) } else s
  s.emit (.fcp (fcpPort h) x.mosi)

/-- FCP_XFER. -/
def State.fcpXfer (s : State) (p w : Fin 4) (f : Frame) : State :=
  let h := u f.payload 0 8
  if f.payload.length < 8 ∨ f.payload.length ≠ roundUp 8 (8 + fcpBytes h) then s.answer p f 0x86 5 []
  else if s.role = 2 then s.answer p f 0x86 0xE []
  else
    let st := s.fcpCheck w h
    if st ≠ 0 then s.answer p f 0x86 st []
    else (s.respond p.val ⟨some (fcpPort h), dataFrame 0x86 0 f.tag 0 []⟩).fcpStart h
      ⟨w, some (p.val, f.tag), none, sub f.payload 8 (fcpBytes h)⟩

/-- FCP_XFER. -/
def execFcpXfer (p : Fin 4) (f : Frame) (s : State) : Host.Outcome State Fault Refusal :=
  .next (s.onHost p f 0x86 (fun s w => s.fcpXfer p w f))

/-- FCP_TRANSFER_DONE: `miso` are the sampled bytes; FCP_RSP returns them, or FCP_WRITE completes. -/
def execFcpTransferDone (c : Fin 8) (miso : List Byte) (s : State) : Host.Outcome State Fault Refusal :=
  .next (if !s.ticks then s else match s.fcp[c] with
    | none => s
    | some x =>
      let s := { s with fcp := s.fcp.set c none }
      match x.port, x.cmd with
      | some (p, _), _ =>
        let b := pad8 ((List.range x.mosi.length).map (fun i => miso.getD i 0#8))
        (s.modPort p (fun q => { q with resps := readyOwed c.val b q.resps })).flushResps p
      | none, some id => s.finishF id 0
      | none, none => s)

/-- FCP_WRITE: a journalled transfer whose MISO bytes are discarded. -/
def fcpWrite (c : Cmd) (s : State) : State :=
  let h := u c.args 0 8
  if c.args.length < 8 ∨ c.args.length ≠ 8 + fcpBytes h then s.refuse c 5
  else
    let st := s.fcpCheck c.ward h
    if st ≠ 0 then s.refuse c st
    else (s.started c).fcpStart h ⟨c.ward, none, some c.id, sub c.args 8 (fcpBytes h)⟩

/-- FCP_WRITE. -/
def execFcpWrite (w : Fin 4) (q : Fin 8) (s : State) : Host.Outcome State Fault Refusal :=
  .next (s.runCmd w.val q.val 3 fcpWrite)

/-! ### Commands -/

/-- The opcodes of Table 3.5. -/
def opcodes : List Nat :=
  [1, 2, 3, 0x10, 0x11, 0x12, 0x13, 0x14, 0x15, 0x16, 0x20, 0x21, 0x30, 0x40, 0x41, 0x50, 0x51, 0x60, 0x61, 0x62, 0x70, 0x71,
   0x80, 0x90, 0xA0, 0xA1, 0xA2]

/-- The acceptance checks of R56, in order. -/
def State.acceptCheck (s : State) (w : Fin 4) (q : Nat) (payload : List Byte) : Nat :=
  let h := u payload 0 8
  let op := nbits 15 0 h
  if payload.length < 8 ∨ payload.length ≠ roundUp 8 (8 + nbits 26 16 h) then 5
  else if !opcodes.contains op ∨ nbits 31 27 h ≠ 0 ∨ nbits 63 34 h ≠ 0 then 0xC
  else if isPlanOp op ∧ w ≠ 0 then 9
  else if s.role = 2 ∧ op ≠ 0xA0 ∧ op ≠ 0xA1 ∧ op ≠ 0xA2 then 0xE
  else if s.out then 0xF
  else if 512 ≤ s.queueDepth w.val q then 0xB
  else 0

/-- A refusal at acceptance is counted and acknowledged with its status (R56). -/
def State.cmdRefused (s : State) (p w : Fin 4) (f : Frame) (q st : Nat) : State :=
  let s := (s.inc (WRD_REFUSED_COUNT w.val) 1).p (WRD_REFUSED_LAST_STATUS w.val) st
  (s.p (WRD_REFUSED_LAST_QUEUE w.val) q).acknowledge p.val ⟨none, dataFrame 0x85 st f.tag q []⟩

/-- A command is accepted: it takes a queue entry, its CMD_ACK is owed, and its ACCEPTED record becomes due (R56, R57). -/
def State.cmdAccepted (s : State) (p w : Fin 4) (f : Frame) (q : Nat) : State :=
  let h := u f.payload 0 8
  let id := s.jnl.nextId
  let c : Cmd := ⟨id, w, Fin.ofNat 8 q, p.val, f.tag, nbits 15 0 h, BitVec.ofNat 64 h, sub f.payload 8 (nbits 26 16 h), nbit h 32,
    nbit h 33, none, none, false, false, false, .queued, false, false, true⟩
  let s := { s with cmds := s.cmds ++ [c], jnl := { s.jnl with nextId := id + 1 } }
  let s := s.acknowledge p.val ⟨some id, dataFrame 0x85 0 f.tag q []⟩
  (s.p (WRD_QSTATUS_LAST_TAG w.val q) f.tag.toNat).record .accepted (some id) [] []

/-- CMD. -/
def State.cmdFrame (s : State) (p w : Fin 4) (f : Frame) : State :=
  let q := f.queue.toNat % 8
  let st := s.acceptCheck w q f.payload
  if st ≠ 0 then s.cmdRefused p w f q st else s.cmdAccepted p w f q

/-- CMD. The queues accept commands from RUN on (Table 17.6): a command that comes before waits at its port (DESIGN CHOICE, log 123). -/
def execCmd (p : Fin 4) (f : Frame) (s : State) : Host.Outcome State Fault Refusal :=
  .next (s.onHost p f 0x85 (fun s w =>
    if s.g RST_STATUS_PHASE < 5 then s.modPort p.val (fun q => { q with early := q.early ++ [f] }) else s.cmdFrame p w f))

/-- The commands that came before RUN are taken, port by port in order. -/
def State.earlyCmds (s : State) : State :=
  forEach (List.finRange 4) s (fun p s =>
    let l := (s.port p.val).early
    forEach l (s.modPort p.val (fun q => { q with early := [] })) (fun f s =>
      match s.portWard p.val with
      | some w => s.cmdFrame p (Fin.ofNat 4 w) f
      | none => s.acknowledge p.val ⟨none, dataFrame 0x85 4 f.tag (f.queue.toNat % 8) []⟩))

/-- REG_SET: 1 to 8 (address, value) pairs, checked as a whole and written in order (R49, R54). Every pair goes through all checks
before the next one, and the first pair that fails gives the status (DESIGN CHOICE, log). -/
def regSet (c : Cmd) (s : State) : State :=
  let n := c.args.length / 16
  let ws : List (Nat × Word) := (List.range n).map (fun i => (u c.args (16 * i) 8, BitVec.ofNat 64 (u c.args (16 * i + 8) 8)))
  if c.args.length % 16 ≠ 0 ∨ n = 0 ∨ 8 < n then s.refuse c 0xD
  else
    let st := firstBadStatus (ws.map (fun p => s.regRunCheck c.ward true p.1 1))
    if st ≠ 0 then s.refuse c st
    else
      let r := (s.started c).writeMany (.ward c.ward) ws
      r.1.finishF c.id r.2

/-- REG_SET. -/
def execRegSet (w : Fin 4) (q : Fin 8) (s : State) : Host.Outcome State Fault Refusal := .next (s.runCmd w.val q.val 2 regSet)

/-! ### Unknown frames, replay and link hold (R43, R46, R48) -/

/-- UNKNOWN_FRAME: it takes its SEQ and credits, and is counted as a sequence error. -/
def execUnknownFrame (p : Fin 7) (f : Frame) (s : State) : Host.Outcome State Fault Refusal :=
  .next (s.onData p.val f (fun s => s.seqErr p.val))

/-- Replays in succession before a port leaves UP: LNK_PORT_CFG of a host port; G4 to G6 have no such register (DESIGN CHOICE,
log). -/
def State.replayLimit (s : State) (p : Nat) : Nat := if p < 4 then s.g (LNK_PORT_CFG_REPLAY_LIMIT p) else 8

/-- Every unacknowledged data frame is sent again in SEQ order; after REPLAY_LIMIT replays in succession the port leaves UP. -/
def State.resend (s : State) (p : Nat) : State :=
  let l := (s.port p).replay
  if l = [] then s
  else if s.replayLimit p ≤ (s.port p).replays then s.leaveUp p
  else
    let s := s.modPort p (fun q => { q with replays := q.replays + 1 })
    let s := if p < 4 then s.inc (LNK_PORT_STATUS_REPLAYS p) 1 else s
    forEach l s (fun f s => (s.liveInj p).sendOut p f)

/-- NAK (R46). -/
def execNak (p : Fin 7) (f : Frame) (s : State) : Host.Outcome State Fault Refusal :=
  .next (s.onLink p.val f (fun s => s.resend p.val))

/-- CREDIT: the ACK and credits of its header (R47). -/
def execCredit (p : Fin 7) (f : Frame) (s : State) : Host.Outcome State Fault Refusal := .next (s.onLink p.val f id)

/-- ACK_TIMEOUT (R46). -/
def execAckTimeout (p : Fin 7) (s : State) : Host.Outcome State Fault Refusal :=
  .next (if s.portUp p.val then s.resend p.val else s)

/-- LINK_HOLD: a host port that has not come UP within LINK_HOLD becomes DOWN; its replay buffer and what it still owed are
discarded, event records stay (R48, R60). -/
def execLinkHold (p : Fin 7) (s : State) : Host.Outcome State Fault Refusal :=
  .next (let p := p.val
    if 4 ≤ p ∨ !(s.port p).holding ∨ s.g (LN_GRP_STATUS_STATE p) = 2 then s
    else
      let s := s.modPort p (fun _ => .zero)
      let s := forEach (List.range 4) s (fun w s => if (s.ward w).port = p then s.modWard w (fun x => { x with flight := 0 }) else s)
      (((s.inc (LNK_PORT_ERR_DOWNS p) 1).p (LN_GRP_STATUS_WIDTH p) 0).p (LN_GRP_STATUS_LANES p) 0).grpState p 0)

/-! ### EVENT frames (R59, R60) -/

/-- The bytes of an event record (Table 3.7), and the data that follows a PLAN_READ's. -/
def Ev.bytes (e : Ev) : List Byte :=
  toLe 2 e.code ++ toLe 1 e.queue ++ toLe 1 e.status ++ toLe 2 e.tag ++ [0#8, 0#8] ++ toLe 8 e.jseq ++ toLe 12 e.stamp.toNat ++
    toLe 4 e.arg ++ e.data

/-- The records of the next EVENT frame: up to 64, or one that carries data alone (R55). -/
def eventPack (l : List Ev) : List Ev :=
  match l with
  | [] => []
  | e :: _ => if e.data ≠ [] then [e] else (l.take 64).takeWhile (fun x => decide (x.data = []))

/-- EVENT_FRAME_SEND: the next queued records of Ward `w` leave in one frame if its port may send it now. -/
def execEventFrameSend (w : Fin 4) (s : State) : Host.Outcome State Fault Refusal :=
  .next (let r := s.ward w.val
    let evs := eventPack ((s.wst w.val).evq.drop (s.wst w.val).flight)
    let f : TxFrame := ⟨0#16, 0x87#8, 0#8, 0#16, 0#8, evs.flatMap Ev.bytes, some w, evs.length⟩
    if !r.enable || evs.isEmpty || !(s.port r.port).txq.isEmpty || !s.canSend r.port f then s
    else (s.modWard w.val (fun x => { x with flight := x.flight + evs.length })).sendFrame r.port f)

end Sys2Proof.Machine
end

