-- ==== Sys2Proof/Machine/Recovery.lean ====
section
/-! DEFINITION. Recovery: the power-up scan of the Journal (R338), its decision (R339), the BOOT record, replay units (R340),
the steps of R341, restart of a burst from a checkpoint (R342, R343), and REPLAY (R344). -/

namespace Sys2Proof.Machine

/-! ### The power-up scan (R338) -/

/-- The Journal slots that hold a nonzero byte, rising: an all-zero slot holds no valid record. -/
def State.usedSlots (s : State) : List Nat :=
  ((s.nvm.filter (fun p => decide (4194304 ≤ p.1))).map (fun p => (p.1 - 4194304) / 64)).eraseReps

/-- The valid records with their slots; a slot with an uncorrectable word is invalid (R326). -/
def State.validRecs (s : State) : List (Nat × List Byte) :=
  (s.usedSlots.map (fun k => (k, s.nvLd (jnlAddr k) 64))).filter (fun p => recValid p.1 p.2 && !s.nvBad (jnlAddr p.1) 64)

/-- SEQNO of a record image. -/
def recSeqno (r : List Byte) : Nat := u r 0 8

/-- JSEQ of the command a record belongs to (Table 16.3). -/
def recJseq (r : List Byte) : Nat :=
  if u r 8 1 % 8 = 0 ∧ u r 9 1 % 2 = 0 then recSeqno r else u r 0x10 8

/-- The newest record of each command, by JSEQ, among records in SEQNO order. -/
def latestRecs (l : List (List Byte)) : List (List Byte) :=
  l.foldl (fun acc r => acc.filter (fun x => decide (recJseq x ≠ recJseq r)) ++ [r]) []

/-- What the newest record of an open command says. -/
def openOf (r : List Byte) : OpenCmd :=
  let k := u r 8 1
  { jseq := recJseq r, ward := k / 8 % 4, queue := k / 32, opcode := u r 0xA 2, tag := u r 0xC 2,
    started := decide (k % 8 = 1) || decide (k % 8 = 4), state := k % 8, seqno := recSeqno r }

/-- The open commands in JSEQ order: their newest record is neither DONE nor ABANDONED. -/
def State.scanOpen (s : State) : List OpenCmd :=
  let recs := sortBy (fun a b => decide (recSeqno a ≤ recSeqno b)) (s.validRecs.map (·.2))
  let cmdRecs := recs.filter (fun r => decide (u r 8 1 % 8 ≤ 4))
  sortBy (fun (a b : OpenCmd) => decide (a.jseq ≤ b.jseq))
    (((latestRecs cmdRecs).filter (fun r => decide (u r 8 1 % 8 ≠ 2) && decide (u r 8 1 % 8 ≠ 3))).map openOf)

/-- The scan: head, torn and damaged slots, open commands; the writer continues behind the head (R338). -/
def State.journalScan (s : State) : State :=
  let recs := s.validRecs
  let head := recs.foldl (fun m p => some (max (m.getD 0) (recSeqno p.2))) (none : Option Nat)
  let next := (head.map (· + 1)).getD 0
  let full := decide (jnlSlots ≤ next)
  let valid (k : Nat) : Bool := recs.any (fun p => decide (p.1 = k))
  let slot := next % jnlSlots
  let torn := !valid slot && (full || s.usedSlots.contains slot)
  -- slots that have been written and are not valid, beside the torn one
  let written := if full then jnlSlots else next
  let good := (recs.filter (fun p => full || decide (p.1 < next))).length
  let damaged := decide (good + b2n (full && torn) < written)
  let open_ := s.scanOpen
  let s := { s with
    jnl := { s.jnl with next := next, due := [], prog := none },
    pwr := { s.pwr with scanHead := head, scanTorn := torn, scanOpen := open_ } }
  let s := (s.p JNL_HEAD_SEQNO (head.getD 0)).p JNL_WEAR_PASSES (next / jnlSlots)
  let s := (s.pb JNL_STATUS_TORN torn).p JNL_STATUS_OPEN (min (2 ^ 32 - 1) open_.length)
  let s := if torn then s.assertFlt 357 else s
  let s := s.nvCe (jnlAddr 0) (64 * jnlSlots)
  if damaged || s.nvBad (jnlAddr 0) (64 * jnlSlots) then s.assertFlt 354 else s

/-! ### The decision (R339) -/

/-- The Recovery Area is valid: sealed, over DRAM that has survived. -/
def State.raOk (s : State) : Bool :=
  match s.ra with
  | some ra => ra.sealOk
  | none => false

/-- Row 3 of Table 16.6. -/
def State.memLost (s : State) : Bool :=
  !s.gb MEM_STATUS_PRESERVED || s.gb JNL_STATUS_RA_CONFLICT ||
    (match s.ra with
      | some ra => !ra.sealOk || !((decide (some ra.seqno = s.pwr.scanHead)) ||
          (s.pwr.scanTorn && decide (ra.seqno = s.jnl.next)))
      | none => true)

/-- Row 4 of Table 16.6. -/
def State.planChanged (s : State) : Bool :=
  !s.plan.sealed ||
    (match s.ra with
      | some ra => decide (ra.planId ≠ s.plan.planId) || decide (ra.hdrCrc ≠ s.plan.hdrCrc)
      | none => true)

/-- The words of the Recovery Area whose check bits are wrong, as offsets. -/
def State.raMarks (s : State) : List Nat :=
  (s.ecc.map (fun p => 8 * p.1)).filterMap (fun a => match memOf a with
    | some (0, o) => if s.raBase ≤ o ∧ o < s.dramF then some o else none
    | _ => none)

/-- Porter reads the Recovery Area, with its master ID: an uncorrectable word, which PORTER_MEM_UE reports, and a seal that does not
stand there as it was written make it invalid (R218, R220, R328, R335, R336, R396). -/
def State.raRead (s : State) : State :=
  match s.ra with
  | none => s
  | some ra =>
    if !s.gb MEM_STATUS_PRESERVED then s
    else
      let r := s.porterRead (memBase 0 + s.raBase) 24
      let m := r.1.raMarks.foldl (fun (acc : State × Bool) o =>
        let t := acc.1.eccRead 0x08 0 o
        (if t.2 then t.1.assertFlt 359 else t.1, acc.2 || t.2)) (r.1, false)
      { m.1 with ra := some { ra with sealOk := ra.sealOk && !m.2 && decide (r.2 = ra.seal) } }

/-- DECISION: the first row of Table 16.6 that applies. -/
def State.decision (s : State) : Nat :=
  if s.pwr.scanOpen.isEmpty then 0
  else if s.plan.twinMode = 1 ∧ s.twin.peerToggles then 5
  else if s.memLost then 3
  else if s.planChanged then 4
  else if s.g RST_STATUS_CAUSE = 2 ∧ s.plan.autoReplay then 1
  else 2

/-! ### Replay units (R340) -/

/-- A field of the arm registers in the Recovery Area. -/
def Recov.g (ra : Recov) (f : FRef) : Nat := getBits (tabGet (resetAt f.addr) ra.armRegs f.addr) f.hi f.lo

/-- The state at the seal holds the context of a GRAPH_SUBMIT (R340). -/
def Recov.hasCtx (ra : Recov) (jseq : Nat) : Bool :=
  ra.ctxs.any (fun p => decide (p.2.jseq = jseq) && decide (p.2.st ≠ .empty) && decide (p.2.st ≠ .resetting))

/-- The engine that was bound to sequencer `k` and in its burst. -/
def Recov.vsOf (ra : Recov) (k : Nat) : Option Nat :=
  (List.range 16).find? (fun v => decide (ra.g (VS_STATUS_BOUND v) = 1) && decide (ra.g (VS_STATUS_SEQ v) = k) &&
    (ra.vs.toList.getD v .zero).inBurst)

/-- An engine's checkpoint may be restarted: nothing queued, no dictionary entry redefined (R135). -/
def vsRestartable (redef : Bool) (c : Option VsCkpt) : Bool :=
  !redef && (match c with
    | some c => decide (c.queued = 0)
    | none => true)

/-- The same of an engine's image. -/
def imgRestartable (v : Nat) (im : List Nat) : Bool :=
  let d := VS_STATUS_DICT_REDEF v
  vsRestartable (decide (getBits (BitVec.ofNat 64 (im.getD 0 0)) d.hi d.lo = 1)) (some (vsCkptOf im))

/-- Command `c`, started, is a replay unit that may run again (R340). -/
def Recov.isUnit (ra : Recov) (c : Cmd) : Bool :=
  if c.opcode = 0x50 then ra.hasCtx c.jseqN
  else if c.opcode = 0x20 then
    let k := u c.args 0 1
    decide (ra.ckptFlags.toList.getD k (false, false, none) = (true, false, some c.id)) &&
      (ra.ckpts.toList.getD k none).isSome &&
      (match ra.vsOf k, ra.streams.toList.getD k none with
        | some v, _ => vsRestartable (decide (ra.g (VS_STATUS_DICT_REDEF v) = 1)) (ra.vs.toList.getD v .zero).ckpt
        | none, some (v, im) => imgRestartable v im
        | none, none => true)
  else false

/-! ### HALT by Porter (R341) -/

/-- Porter sets HALT on the queues of Ward `w` that do not have it. -/
def State.porterHalt (s : State) (w : Nat) : State :=
  forEach (List.range 8) s (fun q s =>
    if s.gb (WRD_QCTL_HALT w q) then s
    else (s.pb (WRD_QCTL_HALT w q) true).modWard w (fun x => { x with haltedByPorter := x.haltedByPorter ||| (1 <<< q) }))

/-- The commands of Ward `w` that had not started go back into their queues, and HALT is cleared on those that Porter halted (steps 6
and 7). -/
def State.porterFree (s : State) (w : Nat) : State :=
  let back (c : Cmd) : Cmd := if c.ward.val = w ∧ c.st = .held then { c with st := .queued } else c
  let s := { s with cmds := s.cmds.map back }
  let m := (s.wst w).haltedByPorter
  forEach (bitsOf 8 m) (s.modWard w (fun x => { x with haltedByPorter := 0 })) (fun q s => s.pb (WRD_QCTL_HALT w q) false)

/-- Pending units of Ward `w`. -/
def State.unitsOf (s : State) (w : Nat) : List Unit_ := s.units.filter (fun x => decide (x.ward = w))

/-- JNL_STATUS.PENDING: bit `w` takes the value `b`. -/
def State.setPending (s : State) (w : Nat) (b : Bool) : State :=
  s.p JNL_STATUS_PENDING (maskOf 4 (fun i => if i = w then b else nbit (s.g JNL_STATUS_PENDING) i))

/-! ### Steps 1 and 2 of R341 -/

/-- The BOOT record (Table 16.3); the manual states no head SEQNO for an empty Journal. -/
def State.bootRecord (s : State) (dec : Nat) : State :=
  let (head, s) := match s.pwr.scanHead with
    | some n => (n, s)
    | none => (s.freeVal % 2 ^ 64, s.useFree)
  s.record .boot none (toLe 1 (s.g RST_STATUS_CAUSE) ++ toLe 1 dec ++ [0#8, 0#8] ++ toLe 4 s.pwr.scanOpen.length ++ toLe 8 head) []

/-- An open command of the scan: with what the Recovery Area knows of it, or known by its records only. -/
def State.openCmd (s : State) (ra : Option Recov) (o : OpenCmd) : State :=
  match ra.bind (fun ra => ra.cmds.find? (fun c => decide (c.jseq = some o.jseq))) with
  | some c =>
    let go := o.started || c.started || c.marked
    let c : Cmd := { c with
      latest := some o.seqno, committed := true, started := go, st := if go then .running else .held, markSent := false,
      marked := go, own := true }
    { s with cmds := s.cmds ++ [c] }
  | none =>
    let id := s.jnl.nextId
    let c : Cmd := ⟨id, Fin.ofNat 4 o.ward, Fin.ofNat 8 o.queue, (s.ward o.ward).port, BitVec.ofNat 16 o.tag, o.opcode,
      0#64, [], false, false, some o.jseq, some o.seqno, true, o.started, false, if o.started then .running else .held, false,
      o.started, true⟩
    { s with cmds := s.cmds ++ [c], jnl := { s.jnl with nextId := id + 1 } }

/-- Commands are abandoned, in order, with a reason; JNL_ABANDON latches if there is one (R341, Table 16.9). -/
def State.abandonAll (s : State) (ids : List Nat) (reason : Nat) : State :=
  if ids.isEmpty then s else forEach ids (s.assertFlt 358) (fun id s => s.abandon id reason)

/-- Steps 1 and 2: the BOOT record, the ABANDONED records, HALT on the queues of Wards that have something to replay or to
requeue. The open commands are known before BOOT, so that it overwrites no record of theirs without a carried copy (R332; DESIGN CHOICE,
log 118). -/
def State.decide_ (s : State) : State :=
  let s := s.raRead
  let dec := s.decision
  let s := (s.p JNL_STATUS_DECISION dec).pb JNL_STATUS_RA_VALID s.raOk
  if dec = 0 ∨ dec = 5 then s.bootRecord dec
  else
    let open_ := s.pwr.scanOpen
    let s := (forEach open_ s (fun o s => s.openCmd s.ra o)).bootRecord dec
    if dec = 3 then s.abandonAll (s.cmds.map (·.id)) 2
    else if dec = 4 then s.abandonAll (s.cmds.map (·.id)) 4
    else
      let unit (c : Cmd) : Bool := match s.ra with
        | some ra => ra.isUnit c
        | none => false
      let cs := s.cmds
      let s := s.abandonAll ((cs.filter (fun c => c.started && !unit c)).map (·.id)) 1
      let s := { s with units := (cs.filter (fun c => c.started && unit c)).map (fun c => ⟨c.id, c.ward.val⟩) }
      forEach (List.range 4) s (fun w s =>
        let n := (s.unitsOf w).length
        let waits := cs.any (fun c => decide (c.ward.val = w) && !c.started)
        let s := s.setPending w (decide (n ≠ 0) && decide (dec = 2))
        if n ≠ 0 ∨ waits then s.porterHalt w else s)

/-! ### Step 3: registers, arms, contexts -/

/-- Registers named by `f` whose unit belongs to Ward `w` return to the values of table `t`. -/
def State.restoreRegs (s : State) (f : RegName → Bool) (t : Tab Word) (w : Nat) (put : Nat → Word → State → State) : State :=
  let mine (s : State) (a : Nat) : Bool := match regAt a with
    | some (d, ix) => d.own.isBits || decide (s.unitWard d ix = some (some w))
    | none => false
  let gone := ((regsOf f s.regs).map (·.1)).filter (fun a => !(t.any (fun p => decide (p.1 = a))))
  let s := forEach gone s (fun a s => if mine s a then put a (resetAt a) s else s)
  forEach t s (fun p s => if mine s p.1 then put p.1 p.2 s else s)

/-- The configuration shadow of Ward `w`: registers as Porter writes them, and control stores (R337). Sites follow the
channels, so the registers are gone through twice. -/
def State.restoreShadow (s : State) (ra : Recov) (w : Nat) : State :=
  let put (a : Nat) (v : Word) (s : State) : State := (s.regWrite (s.ownBit w a) a v).1
  let s := (s.restoreRegs shadowName ra.shadow w put).restoreRegs shadowName ra.shadow w put
  forEach (bitsOf 32 (s.ward w).seqMask) s (fun k s => s.modSeq k (fun x => { x with cs := ra.cs.toList.getD k [] }))

/-- Engine `v` goes back to a checkpoint: the stream is fetched again from its offset, or from the outermost open loop, and the
queue is empty (R135, R342). -/
def State.restartVs (s : State) (v : Nat) (c : VsCkpt) : State :=
  let start := match c.loops.getLast? with
    | some (o, _) => o
    | none => c.off
  let w := s.vsW v
  let s := s.modVs v (fun x => { x with
    queue := [], cur := if c.cur.isEmpty then List.replicate w 0#11 else c.cur, loops := c.loops, scan := c.scan, part := 0,
    fetched := start / 64 * 64, emitted := 0, ended := false, arm := none, ckpt := some c })
  let s := ((s.p (VS_POS_OFFSET v) c.off).p (VS_COUNT_SETS v) 0).pb (VS_STATUS_PRIMED v) false
  (s.p (VS_STATUS_STATE v) 1).vsShow v

/-- Capture and stream arms of Ward `w` (step 3); an open batch closes without LAST (R343). An engine that was in a burst waits
for that burst's restart; without one its binding has ended with the burst (R117). -/
def State.restoreArms (s : State) (ra : Recov) (w : Nat) : State :=
  let s := s.restoreRegs armName ra.armRegs w (fun a v s => s.wr a v)
  let s := forEach (bitsOf 32 (s.ward w).seqMask) s (fun k s =>
    (s.modArm k (fun _ => { (ra.arms.toList.getD k .zero) with disarm := [] })).closeBatch k false)
  forEach (bitsOf 16 (s.ward w).vsMask) s (fun v s =>
    let x := ra.vs.toList.getD v .zero
    let s := s.modVs v (fun _ => { x with arm := none })
    if ra.g (VS_STATUS_BOUND v) = 0 then s
    else if !x.inBurst then s.restartVs v .start
    else
      let k := ra.g (VS_STATUS_SEQ v)
      let goes := (s.unitsOf w).any (fun i => match s.cmd? i.cmd with
        | some c => decide (c.opcode = 0x20) && decide (u c.args 0 1 = k)
        | none => false)
      if goes then s.restartVs v (x.ckpt.getD .start) else s.vsUnbind v)

/-- An entry of the Dispatcher belongs to a context of Ward `w`. -/
def State.entryOf (s : State) (w : Nat) (e : FifoEntry) : Bool :=
  match e with
  | .completion x _ => decide (s.ctxWard x = some w)
  | .post x _ => decide (s.ctxWard x = some w)
  | .failure x _ _ => decide (s.ctxWard x = some w)

/-- The operations of a graph that comes back take other slots where theirs are used by now. -/
def freshSlots (used : List Nat) (ops : List Op) : List Op :=
  let kept := (ops.map (·.slot)).filter (fun i => !used.contains i)
  let free := (List.range 8192).filter (fun i => !used.contains i && !kept.contains i)
  (ops.foldl (fun (acc : List Op × List Nat) o =>
    if used.contains o.slot then (acc.1 ++ [{ o with slot := acc.2.headD o.slot }], acc.2.drop 1) else (acc.1 ++ [o], acc.2)) ([], free)).1

/-- An entry of the FIFO that is a post, with its context. -/
def postOf : FifoEntry → Option (Nat × List Byte)
  | .post x d => some (x, d)
  | _ => none

/-- Contexts of Ward `w` with what the Dispatcher held for them; no run goes on. Ready items keep their order among themselves and
come behind the items that other Wards have since; entries that find the FIFO full wait (R200). -/
def State.restoreCtxs (s : State) (ra : Recov) (w : Nat) : State :=
  let mine (x : Nat) : Bool := decide (s.ctxWard x = some w)
  let s := forEach (s.ctxs.filter (fun p => mine p.1)) s (fun p s => s.modCtx p.1 (fun _ => .zero))
  let s := forEach (ra.ctxs.filter (fun p => mine p.1)) s (fun p s =>
    let ops := if p.2.holds then freshSlots s.slotsUsed p.2.ops else p.2.ops
    let slots := ops.map (·.slot)
    { s.modCtx p.1 (fun _ => { p.2 with running := 0, resetCmds := [], ops := ops }) with
      disp := { s.disp with marks := s.disp.marks.filter (fun m => !slots.contains m.1) } })
  let d := ra.disp
  let back := d.fifo.filter (s.entryOf w) ++ (d.offers.map (·.2)).filter (s.entryOf w)
  let room := 1024 - s.disp.fifo.length
  let rest := back.drop room
  let old : List Item := sortBy (fun (a b : Item) => decide (a.age ≤ b.age)) (d.items.filter (fun i => mine i.ctx))
  let s := { s with disp := { s.disp with
    fifo := s.disp.fifo ++ back.take room,
    offers := s.disp.offers ++ (rest.filter (fun e => (postOf e).isNone)).map (fun e => (0, e)),
    items := s.disp.items ++ old.zipIdx.map (fun p => { p.1 with age := s.disp.age + p.2 }), age := s.disp.age + old.length,
    posts := s.disp.posts ++ rest.filterMap postOf ++ d.posts.filter (fun p => mine p.1) } }
  s

/-- Step 3 of R341 for Ward `w`. -/
def State.restoreWard (s : State) (ra : Recov) (w : Nat) : State :=
  ((s.restoreShadow ra w).restoreArms ra w).restoreCtxs ra w

/-! ### Step 4: graphs (R206) -/

/-- REPLAYED (Table 16.3): UNIT, SQ, operations run again, beat count. -/
def State.replayed (s : State) (id unit sq ops beats : Nat) : State :=
  (s.modCmd id (fun c => { c with replayed := true })).record .replayed (some id)
    (toLe 1 unit ++ toLe 1 sq ++ [0#8, 0#8] ++ toLe 4 ops ++ toLe 6 beats) []

/-- A run that had not ended runs again from ENTRY with its batch (RESTART = 1); else its context is FAULTED with 0x93. -/
def State.rerun (s : State) (r : RunInfo) : State :=
  match (s.ctx r.ctx).ops[r.op]? with
  | none => s
  | some o =>
    if nbit (u o.desc 7 1) 0 then
      let s := if o.isInbox then s else s.modOp r.ctx r.op (fun o => { o with st := .ready })
      s.addItem r.ctx r.op r.runNo r.batch
    else s.procEntry (.failure r.ctx r.op 0x93)

/-- The pending unit that is the GRAPH_SUBMIT of context `x`. -/
def State.ctxUnit (s : State) (x : Nat) : Option Nat :=
  ((s.unitsOf ((s.ctxWard x).getD 4)).find? (fun i => (s.cmd? i.cmd).any (fun c =>
    decide (c.opcode = 0x50) && decide (c.jseqN = (s.ctx x).jseq)))).map (·.cmd)

/-- The graph of context `x` resumes: its REPLAYED record, then its runs that had not ended, by operation and inbox order (R202); a
GRAPH_SUBMIT whose end had no record yet ends again (R330). The manual states no SQ for a graph. -/
def State.resumeCtx (s : State) (ra : Recov) (x : Nat) : State :=
  let rs := sortBy (fun (a b : RunInfo) => decide (a.op < b.op) || (decide (a.op = b.op) && decide (a.runNo ≤ b.runNo)))
    (ra.runs.filter (fun r => decide (r.ctx = x)))
  let again := rs.filter (fun r => match (s.ctx x).ops[r.op]? with
    | some o => nbit (u o.desc 7 1) 0
    | none => false)
  let s : State := match s.ctxUnit x with
    | some id => ((s.replayed id 1 (s.freeVal % 256) again.length 0).useFree).modCtx x (fun y => { y with cmd := some id })
    | none => s
  let s : State := forEach rs s (fun r s => s.rerun r)
  if (s.ctx x).st = .done then (s.modCtx x (fun y => { y with cmd := none })).finishOpt (s.ctx x).cmd 0 0 else s.ctxFaultEnd x

/-! ### Step 5: bursts (R342, R343) -/

/-- T_rel′: the first grid reading at least LOCAL_LEAD from now, as a timing-master instant. -/
def State.replayAt (s : State) : Nat := s.instantOf (gridAfter (s.tb.fine + s.g PS_SQ_CTRL_LOCAL_LEAD * 2 ^ 64))

/-- The Square of no Square: a sequencer that waits for T_rel′. -/
def replaySq : Nat := 64

/-- The counts of the sites of a burst return to their values at the checkpoint (R343). -/
def State.siteBack (s : State) (l : List SiteSnap) : State :=
  forEach l s (fun t s => ((s.wr (CAP_SITE_STATUS t.site) t.status).wr (CAP_SITE_FAILS t.site) t.fails).wr (CAP_SITE_FIRST t.site) t.first)

/-- Sequencer `k` restarts the burst of command `id` from checkpoint `c`: at ENTRY as BURST_START would, or in wait for T_rel′
with the state and the beat count of the checkpoint. -/
def State.restartBurst (s : State) (k id jseq entry : Nat) (c : Ckpt) (rel : Nat) : State :=
  let s := s.siteBack c.sites
  match c.sq with
  | none =>
    let s := s.modSeq k (fun x => { x with arch := c.arch })
    let s := s.burstBegin k (some id) jseq entry true true
    match s.seqVs k with
    | some v => s.restartVs v .start
    | none => s
  | some q =>
    let s := (s.burstClear k c.beats).p (PS_BURST_JSEQ k) jseq
    let s := s.modSeq k (fun x => { x with
      st := .wait, arch := c.arch, wait := some ⟨replaySq, 0, 0, 0, some rel, none, 0⟩, ckpt := some c,
      burst := some ⟨some id, jseq, [], true, true, false, none, none⟩ })
    let s := s.pb (PS_STATUS_RESTARTABLE k) true
    let s := ((s.p (PS_CKPT_SQ k) q).pb (PS_CKPT_VALID k) true).pb (PS_CKPT_AT_ENTRY k) false
    let s := s.p (PS_CKPT_BEAT k) c.beats
    match s.seqVs k with
    | some v => s.modVs v (fun x => { x with inBurst := true })
    | none => s

/-- Engine `v` is armed as its image shows, in the burst of its sequencer, and goes back to its checkpoint. -/
def State.armImage (s : State) (v : Nat) (im : List Nat) : State :=
  let s := forEach (vsArmRegs v).zipIdx s (fun p s => s.wr p.1 (BitVec.ofNat 64 (im.getD p.2 0)))
  let s := s.modVs v (fun _ => { VsEng.zero with dictValid := unwide im 5 64, inBurst := true })
  s.restartVs v (vsCkptOf im)

/-- The burst of unit `c` restarts: its REPLAYED record first. -/
def State.replayBurst (s : State) (c : Cmd) (ck : Ckpt) (rel : Nat) : State :=
  let s := s.replayed c.id 0 (ck.sq.getD 0xFF) 0 ck.beats
  s.restartBurst (u c.args 0 1) c.id c.jseqN (u c.args 2 2) ck rel

/-- The pending bursts of Wards `ws`, by sequencer. -/
def State.burstUnits (s : State) (ws : List Nat) : List Cmd :=
  let cs := (s.units.filter (fun x => ws.contains x.ward)).filterMap (fun x => s.cmd? x.cmd)
  sortBy (fun a b => decide (u a.args 0 1 ≤ u b.args 0 1)) (cs.filter (fun c => decide (c.opcode = 0x20)))

/-! ### Steps 6 and 7 -/

/-- A sequencer of Ward `w` waits for T_rel′. -/
def State.replayWaits (s : State) (w : Nat) : Bool :=
  (bitsOf 32 (s.ward w).seqMask).any (fun k => ((s.seq k).wait.map (·.sq)) = some replaySq)

/-- Recoveries whose bursts have restarted end: HALT is cleared, REPLAY completes (R341, R344). -/
def State.recoveryEnd (s : State) : State :=
  let (yes, no) := s.recs.partition (fun r => r.restored && !s.replayWaits r.ward)
  forEach yes { s with recs := no } (fun r s => (s.porterFree r.ward).finishOpt r.cmd 0 r.units)

/-- A recovery of Ward `w` from step 3 on becomes due. -/
def State.recoveryDue (s : State) (w : Nat) (cmd : Option Nat) : State :=
  let n := (s.unitsOf w).length
  { s with recs := s.recs ++ [⟨w, cmd, n, false⟩] }

/-- Steps 3 to 5 for Wards `ws`, from the recovery state. -/
def State.restoreFrom (s : State) (ra : Recov) (ws : List Nat) : State :=
  let s := forEach ws s (fun w s => s.restoreWard ra w)
  let s := forEach ((s.ctxs.map (·.1)).filter (fun x => (s.ctxWard x).any ws.contains)) s (fun x s => s.resumeCtx ra x)
  let rel := s.replayAt
  forEach (s.burstUnits ws) s (fun c s =>
    let k := u c.args 0 1
    match ra.ckpts.toList.getD k none with
    | some ck =>
      let s := match ra.streams.toList.getD k none with
        | some (v, im) => s.armImage v im
        | none => s
      s.replayBurst c ck rel
    | none => s)

/-- The units of Wards `ws` come back, or are ABANDONED with MEMORY_LOST where the Recovery Area cannot be read any more (Table 16.4). -/
def State.restoreWards (s : State) (ws : List Nat) : State :=
  let s := if ws.isEmpty then s else s.raRead
  match s.ra with
  | some ra =>
    if ra.sealOk then s.restoreFrom ra ws
    else s.abandonAll ((s.units.filter (fun x => ws.contains x.ward)).map (·.cmd)) 2
  | none => s

/-- RECOVERY_RESTORE: with every channel READY, a valid band and OUT = 0 (R319), steps 3 to 5 for the Wards that are due, then what can end
ends. -/
def State.recoveryRestore (s : State) : State :=
  if s.ra.isNone || !s.running || s.out || !s.gb MEM_STATUS_READY || !s.gb THM_STATUS_BAND_VALID then s
  else
    let ws := (s.recs.filter (fun r => !r.restored)).map (·.ward)
    let s := s.restoreWards ws
    { s with
      units := s.units.filter (fun x => !ws.contains x.ward),
      recs := s.recs.map (fun (r : RecDue) => { r with restored := true }) }.recoveryEnd

/-- RECOVERY_RESTORE. -/
def execRecoveryRestore (s : State) : Host.Outcome State Fault Refusal := .next (if !s.ticks then s else s.recoveryRestore)

/-- REPLAY_RELEASE: T_rel′ is reached; the next beat of each burst starts then as S_0, in its mode (R342). -/
def State.replayRelease (s : State) : State :=
  let s := forEach (List.range 32) s (fun k s =>
    match (s.seq k).wait with
    | some w =>
      if w.sq = replaySq then
        let s := s.modSeq k (fun x => { x with
          wait := none, st := if x.arch.beatMode then .beat else .setup, tEnd := if x.arch.beatMode then w.rel else none })
        (s.boundary k).takeIntr k
      else s
    | none => s)
  s.recoveryEnd

/-- REPLAY_RELEASE. -/
def execReplayRelease (s : State) : Host.Outcome State Fault Refusal := .next (if !s.ticks then s else s.replayRelease)

/-! ### REPLAY (R344) -/

/-- REPLAY. -/
def replayCmd (c : Cmd) (s : State) : State :=
  let w := c.ward.val
  let a := u c.args 0 1
  if c.args.length ≠ 8 ∨ 1 < a ∨ !zeros c.args 1 7 then s.refuse c 0x0D
  else
    let us := if nbit (s.g JNL_STATUS_PENDING) w then s.unitsOf w else []
    let halted := decide ((s.wst w).haltedByPorter ≠ 0) && !(s.recs.any (fun r => decide (r.ward = w)))
    let s := (s.started c).setPending w false
    if a = 1 then
      let s := { s with units := s.units.filter (fun x => !us.contains x) }
      let s := forEach us s (fun x s => s.abandon x.cmd 3)
      (if halted then s.porterFree w else s).finish c.id 0 us.length
    else if halted then s.recoveryDue w (some c.id)
    else s.finish c.id 0 0

/-- REPLAY. -/
def execReplay (w : Fin 4) (q : Fin 8) (s : State) : Host.Outcome State Fault Refusal :=
  .next (s.runCmd w.val q.val 0xA0 replayCmd)

end Sys2Proof.Machine
end

