-- ==== Sys2Proof/Machine/Twin.lean ====
section
/-! DEFINITION. The twin pair (R346 to R353): the commit of a Journal record, alone and in a pair (R330, R331), the frames of the
twin link, the STANDBY's part (R348, R349), failover and hand-off (R351, R352), LEAVE, JOIN, and the heartbeat. -/

namespace Sys2Proof.Machine

/-! ### The commit of a record (R330, R331) -/

/-- What waited for the record in progress goes on: a thermal shutdown (Table 13.4). -/
def State.recordOver (s : State) : State := if s.thm.finalDue.isSome then s.shutdownEnd else s

/-- The slot of the record in progress has a word that is worn out, so that the record does not verify (R330). -/
def State.progWorn (s : State) : Bool :=
  match s.jnl.prog with
  | some r => s.nvWorn (jnlAddr (r.seqno % jnlSlots)) 64
  | none => false

/-- The record in progress commits where it verifies and fails where it does not (R330); a thermal shutdown that waited for it goes on
(Table 13.4). -/
def State.commitNow (s : State) : State :=
  if s.jnl.prog = none then s else (if s.progWorn then s.recordFails else s.commitProg).recordOver

/-- The record in progress has PAIR: phase 2 waits for TW_JNL_ACK. -/
def State.progPaired (s : State) : Bool :=
  match s.jnl.prog with
  | some r => nbit (u r.bytes 9 1) 1
  | none => false

/-- JOURNAL_COMMIT: the record commits by itself unless the pair must acknowledge it; or a word of it fails for good, which a pair does
not wait for (R330). -/
def execJournalCommit (s : State) : Host.Outcome State Fault Refusal :=
  .next (if s.progPaired && !s.progWorn then s else s.commitNow)

/-- A frame of the twin link. -/
def State.onTwin (s : State) (f : Frame) (act : State → State) : State := s.onData 4 f act

/-- The record that a STANDBY has had numbered by its ACTIVE stands in both Journals (R19, R331). -/
def State.forwardDone (s : State) (n : Nat) : State :=
  match s.jnl.fwd with
  | some (d, some m) => if m = n then ({ s with jnl := { s.jnl with fwd := none } }.onCommit d).pumpJournal else s
  | _ => s

/-- TW_JNL_ACK: the record that the STANDBY has committed runs phase 2; to a STANDBY it says the same of a record of its own. -/
def execTwJnlAck (f : Frame) (s : State) : Host.Outcome State Fault Refusal :=
  .next (s.onTwin f (fun s =>
    let n := u f.payload 0 8
    if s.progPaired ∧ (s.jnl.prog.map (·.seqno)) = some n then s.commitNow
    else if s.role = 2 then s.forwardDone n
    else s))

/-! ### The STANDBY: Journal and start marks (R331, R348) -/

/-- The meaning of a command that the STANDBY executes from mirrored records. -/
def standbyMeaning (op : Nat) : Option (Cmd → State → State) :=
  match op with
  | 0x10 => some planBegin
  | 0x11 => some planLoad
  | 0x12 => some planVerify
  | 0x13 => some planSeal
  | 0x14 => some planRetire
  | 0x15 => some planRead
  | 0x16 => some planKey
  | 0x40 => some capArm
  | 0x50 => some graphSubmit
  | 0x51 => some ctxReset
  | _ => none

/-- The command with a JSEQ: one of this member's own, or one that its peer carries. -/
def State.byJseq (s : State) (own : Bool) (n : Nat) : Option Cmd :=
  s.cmds.find? (fun c => decide (c.jseq = some n) && decide (c.own = own))

/-- The command of a mirrored ACCEPTED record: its payload is known where it has the record's digest. -/
def State.standbyCmd (s : State) (r pre : List Byte) : Cmd :=
  let k := u r 8 1
  let known := decide (sha256 pre = sub r 0x10 32)
  let h := if known then u pre 0 8 else 0
  let w := Fin.ofNat 4 (k / 8 % 4)
  ⟨s.jnl.nextId, w, Fin.ofNat 8 (k / 32), (s.ward w.val).port, BitVec.ofNat 16 (u r 0xC 2), u r 0xA 2, BitVec.ofNat 64 h,
    if known then pre.drop 8 else [], nbit h 32, nbit h 33, some (recSeqno r), some (recSeqno r), true, false, false, .queued,
    false, false, false⟩

/-- What a mirrored record does to the commands (R348). -/
def State.standbyRec (s : State) (r pre : List Byte) : State :=
  let n := recSeqno r
  let kind := u r 8 1 % 8
  if kind = 0 ∧ u r 9 1 % 2 = 0 then
    { s with cmds := s.cmds ++ [s.standbyCmd r pre], jnl := { s.jnl with nextId := s.jnl.nextId + 1 } }
  else match s.byJseq false (recJseq r) with
    | none => s
    | some c =>
      let s := s.modCmd c.id (fun c => { c with latest := some n })
      if kind = 1 then
        match standbyMeaning c.opcode with
        | some f =>
          let s := f c s
          { s with jnl := { s.jnl with due := s.jnl.due.filter (fun d => !(decide (d.cmd = some c.id) && decide (d.kind = .started))) } }
        | none => s.modCmd c.id (fun c => { c with started := true, st := .running })
      else if kind = 2 ∨ kind = 3 then
        { s with
          cmds := s.cmds.filter (fun x => decide (x.id ≠ c.id)),
          jnl := { s.jnl with due := s.jnl.due.filter (fun d => decide (d.cmd ≠ some c.id)) } }
      else s

/-- A record of a command of this STANDBY's own comes back with its SEQNO, or as a carried copy (R331, R332). -/
def State.standbyOwn (s : State) (r : List Byte) : State :=
  let n := recSeqno r
  if u r 9 1 % 2 = 1 then
    match s.byJseq true (recJseq r) with
    | some c => s.modCmd c.id (fun c => { c with latest := some n })
    | none => s
  else match s.jnl.fwd with
    | some (d, none) =>
      let named (c : Cmd) : Cmd := { c with latest := some n, jseq := if d.kind = .accepted then some n else c.jseq }
      let s := { s with jnl := { s.jnl with fwd := some (d, some n) } }
      match d.cmd with
      | some id => s.modCmd id named
      | none => s
    | _ => s

/-- TW_JNL: the STANDBY commits the record and acknowledges it; `own` tells that it belongs to a command of its own. -/
def State.standbyJnl (s : State) (r pre : List Byte) (own : Bool) : State :=
  let n := recSeqno r
  let s := (s.nvSt (jnlAddr (n % jnlSlots)) r).p JNL_HEAD_SEQNO n
  let s := { s with jnl := { s.jnl with next := n + 1 } }
  let s := if n % jnlSlots = jnlSlots - 1 then
      let t := s.p JNL_WEAR_PASSES (s.g JNL_WEAR_PASSES + 1)
      if t.g JNL_WEAR_PASSES = 90000000 then t.assertFlt 356 else t
    else s
  let s := if u r 9 1 % 2 = 1 then s.inc JNL_WEAR_CARRIES 1 else s
  (if own then s.standbyOwn r else s.standbyRec r pre).twinSend 0x52 (toLe 8 n)

/-- The record kind of a state code (Table 16.2). -/
def kindOf : Nat → RecKind
  | 0 => .accepted | 1 => .started | 2 => .done | 3 => .abandoned | 4 => .replayed | _ => .boot

/-- The ACTIVE takes a record that its STANDBY asks it to number: it holds the command from its ACCEPTED record on, as one that the peer
runs (R19, R331; DESIGN CHOICE, log 117). -/
def State.peerRecord (s : State) (r : List Byte) : State :=
  let k := u r 8 1
  let body := sub r 0x10 32
  if k % 8 = 0 then
    let id := s.jnl.nextId
    let w := Fin.ofNat 4 (k / 8 % 4)
    let c : Cmd := ⟨id, w, Fin.ofNat 8 (k / 32), (s.ward w.val).port, BitVec.ofNat 16 (u r 0xC 2), u r 0xA 2, 0#64, [], false, false,
      none, none, true, true, false, .running, false, true, false⟩
    { s with cmds := s.cmds ++ [c], jnl := { s.jnl with nextId := id + 1 } }.record .accepted (some id) body []
  else match s.byJseq false (u r 0x10 8) with
    | some c => s.record (kindOf (k % 8)) (some c.id) (body.drop 8) []
    | none => s

/-- TW_JNL. `preimage` is the CMD payload behind the digest of an ACCEPTED record. -/
def execTwJnl (f : Frame) (preimage : List Byte) (s : State) : Host.Outcome State Fault Refusal :=
  .next (s.onTwin f (fun s =>
    let own := nbit f.queue.toNat 0
    if s.role = 2 then s.standbyJnl (sub f.payload 0 64) preimage own
    else if s.paired && own then s.peerRecord (sub f.payload 0 64)
    else s))

/-- The start mark of a command. -/
def State.markCmd (s : State) (own : Bool) (n : Nat) : State :=
  match s.byJseq own n with
  | some c => s.modCmd c.id (fun c => { c with marked := true })
  | none => s

/-- TW_START. -/
def execTwStart (f : Frame) (s : State) : Host.Outcome State Fault Refusal :=
  .next (s.onTwin f (fun s => if s.role = 2 then (s.markCmd false (u f.payload 0 8)).twinSend 0x54 (toLe 8 (u f.payload 0 8)) else s))

/-- TW_START_ACK: the start mark is secured. -/
def execTwStartAck (f : Frame) (s : State) : Host.Outcome State Fault Refusal :=
  .next (s.onTwin f (fun s => if s.role = 1 then s.markCmd true (u f.payload 0 8) else s))

/-! ### The STANDBY: writes, posts, checkpoints (R348, R349) -/

/-- Mirrored traffic is taken by the STANDBY, and by the peer of a JOIN from its TW_HELLO on (R353). -/
def State.takesMirror (s : State) : Bool := decide (s.role = 2) || s.twin.hello

/-- Record capacity and device address of the store of sequencer `k`: FCM area, or spill ring. -/
def State.storeOf (s : State) (k : Nat) (spill : Bool) : Nat × Nat :=
  if spill then (s.g (CAP_SPILL_SIZE_SIZE k) / 64, memBase 0 + s.g (CAP_SPILL_BASE_OFF k))
  else (s.fcmCap k, memBase 2 + s.g (CAP_FCM_AREA_OFF k) * 65536)

/-- WR of a store. -/
def capWr (k : Nat) (spill : Bool) : FRef := if spill then CAP_SPILL_PTR_WR k else CAP_FCM_PTR_WR k

/-- A mirrored fail record or flood marker, in the slot that WR names, advances WR, RSEQ and its site's RECORDS. -/
def State.standbyRecord (s : State) (a : Nat) (b : List Byte) : State :=
  forEach (List.range 32) s (fun k s => forEach [false, true] s (fun spill s =>
    let (cap, base) := s.storeOf k spill
    let n := s.g (capWr k spill)
    if s.gb (CAP_ARM_STATUS_ARMED k) && decide (cap ≠ 0) && decide (a = base + n % cap * 64) && decide (b.length = 64) then
      let s := (s.p (capWr k spill) (n + 1)).p (CAP_RSEQ_NEXT k) (u b 4 4 + 1)
      let s := if spill then s.pb (CAP_ARM_STATUS_SPILLED k) true else s
      if u b 0 1 = 3 then s else s.inc (CAP_SITE_STATUS_RECORDS (u b 1 1)) 1
    else s))

/-- The state of a context with a code of Table 9.7. -/
def ctxStOf (n : Nat) : CtxState :=
  match n with
  | 1 => .loading | 2 => .active | 3 => .faulted | 4 => .done | 5 => .resetting | _ => .empty

/-- A context as the registers of a JOIN copy show it: none of its runs goes on, so that its slots hold nothing more; the descriptors
of its inbox follow (R199, R353). -/
def ctxCopied (b : List Byte) : Ctx :=
  let st := BitVec.ofNat 64 (u b 0 8)
  let gr := BitVec.ofNat 64 (u b 8 8)
  let get (v : Word) (f : FRef) : Nat := getBits v f.hi f.lo
  { Ctx.zero with
    st := ctxStOf (get st (DSP_CTX_STATUS_STATE 0)), inbox := [],
    producers := get st (DSP_CTX_STATUS_LAST_LEFT 0), faultStatus := get st (DSP_CTX_STATUS_FAULT_STATUS 0),
    faultOp := get st (DSP_CTX_STATUS_FAULT_OP 0), doneOps := get gr (DSP_CTX_GRAPH_DONE_OPS 0),
    ops := List.replicate (get gr (DSP_CTX_GRAPH_COUNT 0)) ⟨0, [], 0, .done, 0, 0, false⟩,
    runsTotal := get gr (DSP_CTX_GRAPH_RUNS 0), jseq := u b 0x10 8, posted := u b 0x18 4, consumed := u b 0x1C 4 }

/-- A register of a capture arm: the JOIN copy carries it as it stands (R353). -/
def capArmName (n : RegName) : Bool :=
  match n with
  | .CAP_ARM_STATUS | .CAP_FCM_AREA | .CAP_SPILL_BASE | .CAP_SPILL_SIZE | .CAP_FCM_PTR | .CAP_SPILL_PTR | .CAP_RSEQ
  | .CAP_SITE_STATUS | .CAP_SITE_FAILS | .CAP_SITE_FIRST => true
  | _ => false

/-- A batch of the JOIN copy in 32 bytes, with whether it is closed and not yet posted. -/
def Batch.bytes (b : Batch) (closed : Bool) : List Byte :=
  toLe 8 (b2n b.spill + 2 * b2n b.flood + 4 * b2n b.last + 8 * b2n b.consumed + 16 * b2n closed) ++ toLe 8 b.start ++ toLe 8 b.count ++
    toLe 8 b.rseq

/-- The batch of such bytes. -/
def Batch.ofBytes (d : List Byte) : Batch :=
  let f := u d 0 8
  ⟨nbit f 0, u d 8 8, u d 16 8, u d 24 8, nbit f 1, nbit f 2, nbit f 3⟩

/-- The pieces of 32 bytes of a frame's data. -/
def cut32 (d : List Byte) : List (List Byte) := (List.range (d.length / 32)).map (fun i => sub d (32 * i) 32)

/-- The batches of a frame join an arm. -/
def CapArm.join (x : CapArm) (d : List Byte) : CapArm :=
  let l := cut32 d
  let closed (b : List Byte) : Bool := nbit (u b 0 8) 4
  { x with
    closed := x.closed ++ (l.filter closed).map Batch.ofBytes, posted := x.posted ++ (l.filter (fun b => !closed b)).map Batch.ofBytes }

/-- A frame of the JOIN copy that carries an arm or a context, for the member that joins: a register as it stands, with BATCH_TIMEOUT
behind CAP_ARM_STATUS; behind the address of CAP_RSEQ batches, behind that of CAP_FCM_PTR descriptors of earlier arms; the registers of a
context, and behind the address of DSP_CTX_POSTS descriptors of its inbox (DESIGN CHOICE, log 22). -/
def State.joinTakes (s : State) (a : Nat) (d : List Byte) : Option State :=
  if s.role = 2 then none
  else match regAt a with
    | some (r, ix) =>
      let i := ix.headD 0
      let many := decide (32 ≤ d.length) && decide (d.length % 32 = 0)
      if r.name = .CAP_ARM_STATUS ∧ d.length = 16 then
        some ((s.wr a (BitVec.ofNat 64 (u d 0 8))).modArm i (fun _ => { CapArm.zero with timeout := u d 8 8 }))
      else if r.name = .CAP_RSEQ ∧ many then some (s.modArm i (fun x => x.join d))
      else if r.name = .CAP_FCM_PTR ∧ many then some (s.modArm i (fun x => { x with stale := x.stale ++ cut32 d }))
      else if capArmName r.name ∧ d.length = 8 then some (s.wr a (BitVec.ofNat 64 (u d 0 8)))
      else if r.name = .DSP_CTX_STATUS ∧ d.length = 32 then some (s.modCtx i (fun _ => ctxCopied d))
      else if r.name = .DSP_CTX_POSTS ∧ many then some (s.modCtx i (fun y => { y with inbox := y.inbox ++ cut32 d }))
      else none
    | none => none

/-- The sequencer whose control store or PS_PERIOD a mirrored write at `a` changes. A write that took effect on the ACTIVE while a
burst runs came in a pause (R71). -/
def dirties (a : Nat) : Option Nat :=
  match csWindow a, regAt a with
  | some (k, _, q), _ => if q = 2 then some k else none
  | none, some (d, ix) => if d.name = .PS_PERIOD then ix.head? else none
  | none, none => none

/-- The adopted checkpoint of the sequencer shows that such a write came behind it (R340). -/
def State.imageDirty (s : State) (a : Nat) : State :=
  match dirties a with
  | none => s
  | some k =>
    let mark (p : Nat × List Byte) : Nat × List Byte := if p.1 = k then (p.1, p.2.take 16 ++ toLe 8 1 ++ p.2.drop 24) else p
    { s with twin := { s.twin with adopted := s.twin.adopted.map mark } }

/-- TW_WRITE: register words or memory bytes, by master 0x09; during a JOIN also arms and contexts. -/
def State.standbyWrite (s : State) (b : List Byte) : State :=
  let a := u b 0 8
  let d := b.drop 8
  match memOf a, s.joinTakes a d with
  | some _, _ => ((s.busWrite 0x09 a d).1).standbyRecord a d
  | none, some t => t
  | none, none => forEach (List.range (d.length / 8)) s (fun i s =>
      (s.regWrite (fun _ => true) (a + 8 * i) (BitVec.ofNat 64 (u d (8 * i) 8))).1.imageDirty (a + 8 * i))

/-- TW_WRITE. -/
def execTwWrite (f : Frame) (s : State) : Host.Outcome State Fault Refusal :=
  .next (s.onTwin f (fun s => if s.takesMirror then s.standbyWrite f.payload else s))

/-- TW_POST: the batch that the descriptor names is posted here; its first record number follows from its address and WR. -/
def State.standbyPost (s : State) (d : List Byte) : State :=
  let k := u d 2 1 % 32
  let spill := nbit (u d 3 1) 0
  let (cap, base) := s.storeOf k spill
  let wr := s.g (capWr k spill)
  let ix := (u d 0x10 8 - base) / 64
  let back := (wr % cap + cap - ix) % cap
  let b : Batch := ⟨spill, wr - (if back = 0 then cap else back), u d 4 2, u d 8 4, nbit (u d 3 1) 2, nbit (u d 3 1) 1, false⟩
  (s.modArm k (fun x => { x with closed := x.closed ++ [b] })).batchPost k

/-- TW_POST. -/
def execTwPost (f : Frame) (s : State) : Host.Outcome State Fault Refusal :=
  .next (s.onTwin f (fun s => if s.takesMirror then s.standbyPost f.payload else s))

/-- The images of the frames of one round, joined by member. -/
def joinImages (l : List (List Byte)) : List (Nat × List Byte) :=
  l.foldl (fun acc b =>
    let m := u b 2 1
    match acc.find? (fun p => decide (p.1 = m)) with
    | some p => acc.filter (fun p => decide (p.1 ≠ m)) ++ [(m, p.2 ++ b.drop 16)]
    | none => acc ++ [(m, b.drop 16)]) []

/-- TW_CKPT: with LAST the round is adopted; TWN_CKPT shows a round, not an entry checkpoint. -/
def State.standbyCkpt (s : State) (b : List Byte) : State :=
  let rx := s.twin.rx ++ [b]
  if !nbit (u b 1 1) 0 then { s with twin := { s.twin with rx := rx } }
  else
    let new := joinImages rx
    let old := s.twin.adopted.filter (fun p => !new.any (fun q => decide (q.1 = p.1)))
    let s := { s with twin := { s.twin with rx := [], adopted := old ++ new } }
    let entry := new.any (fun p => decide (p.1 < 32) && (ckptOf (wordsOfBytes p.2)).sq.isNone)
    if entry then s else ((s.p TWN_CKPT_SQ (u b 0 1)).pb TWN_CKPT_VALID true).p TWN_CKPT_ROUND (u b 8 4)

/-- TW_CKPT. -/
def execTwCkpt (f : Frame) (s : State) : Host.Outcome State Fault Refusal :=
  .next (s.onTwin f (fun s => if s.takesMirror then s.standbyCkpt f.payload else s))

/-! ### Taking over (R351, R352) -/

/-- The adopted image of a member, as words. -/
def State.image (s : State) (m : Nat) : Option (List Nat) :=
  (s.twin.adopted.find? (fun p => decide (p.1 = m))).map (fun p => wordsOfBytes p.2)

/-- The engine whose adopted image names sequencer `k`. -/
def State.imageVs (s : State) (k : Nat) : Option Nat :=
  (List.range 16).find? (fun v => match s.image (32 + v) with
    | some l =>
      let w := BitVec.ofNat 64 (l.getD 0 0)
      let f := VS_STATUS_SEQ v
      let b := VS_STATUS_BOUND v
      decide (getBits w f.hi f.lo = k) && decide (getBits w b.hi b.lo = 1)
    | none => false)

/-- The started command `c` has an adopted checkpoint from which it may run again (R340). -/
def State.twinUnit (s : State) (c : Cmd) : Bool :=
  decide (c.opcode = 0x20) &&
    (let k := u c.args 0 1
     match s.image k with
     | some l =>
       decide (l.getD 0 0 = c.jseqN) && decide (l.getD 1 0 = 1) && decide (l.getD 2 0 = 0) &&
         (match s.imageVs k with
          | some v => imgRestartable v ((s.image (32 + v)).getD [])
          | none => true)
     | none => false)

/-- The engine of an adopted image is armed as it was, and goes back to its checkpoint. -/
def State.imageArm (s : State) (v : Nat) : State :=
  match s.image (32 + v) with
  | none => s
  | some l => s.armImage v l

/-- A started burst restarts from its adopted checkpoint. -/
def State.twinReplay (s : State) (c : Cmd) (rel : Nat) : State :=
  let k := u c.args 0 1
  match s.image k with
  | none => s
  | some l =>
    let s := match s.imageVs k with
      | some v => s.imageArm v
      | none => s
    s.replayBurst c (ckptOf l) rel

/-- Records of a store that no posted batch covers, at most 64 of them and not past the end of the store, close as a batch
without LAST (R343). -/
def State.openTail (s : State) (k : Nat) (spill : Bool) : State :=
  let (cap, base) := s.storeOf k spill
  let x := s.arm k
  let mine := (x.posted ++ x.closed).filter (fun b => decide (b.spill = spill))
  let start := match mine.getLast? with
    | some b => b.start + b.count
    | none => s.g (if spill then CAP_SPILL_PTR_RD k else CAP_FCM_PTR_RD k)
  let wr := s.g (capWr k spill)
  if !s.gb (CAP_ARM_STATUS_HAS_CTX k) ∨ cap = 0 ∨ wr ≤ start then s
  else
    let n := min 64 (min (wr - start) (cap - start % cap))
    let r := s.porterRead (base + start % cap * 64 + 4) 4
    let rseq := leNat r.2
    let s := r.1
    s.modArm k (fun x => { x with closed := x.closed ++ [⟨spill, start, n, rseq, false, false, false⟩] })

/-- What the failed member had written and not posted; Porter reads the records (R396). -/
def State.openTails (s : State) : State :=
  forEach (List.range 32) s (fun k s => forEach [false, true] s (fun spill s =>
    (List.range 64).foldl (fun s _ => s.openTail k spill) s))

/-- The command has run, or its start mark says that it has. -/
def Cmd.went (c : Cmd) : Bool := c.started || c.marked

/-- What the peer carried is open again where its final record was only due, but for a graph, which this member's Dispatcher has run;
records that were due for it are not written (R330, R351). -/
def State.reopen (s : State) : State :=
  let again (c : Cmd) : Bool := !c.own && decide (c.opcode ≠ 0x50)
  let drop (d : DueRec) : Bool := (d.cmd.bind s.cmd?).any again
  { s with
    cmds := s.cmds.map (fun c => if again c ∧ c.st = .ending then { c with st := .running, started := true } else c),
    jnl := { s.jnl with due := s.jnl.due.filter (fun d => !drop d) } }

/-- A record that was with the ACTIVE comes back to the member it belongs to: it has been committed here, or is due as before. -/
def State.forwardBack (s : State) : State :=
  let t := { s with jnl := { s.jnl with fwd := none } }
  match s.jnl.fwd with
  | some (d, some _) => t.onCommit d
  | some (d, none) => { t with jnl := { t.jnl with due := d :: t.jnl.due } }
  | none => s

/-- A GRAPH_SUBMIT that started on the failed member and of which no STARTED record came runs here (DESIGN CHOICE, log 119). -/
def State.runMarked (s : State) : State :=
  forEach (s.cmds.filter (fun c => decide (c.opcode = 0x50) && c.marked && decide (c.st = .queued))) s (fun c s => graphSubmit c s)

/-- Steps 2, 5, 6 and 7 of R341 on the new ACTIVE: its Dispatcher and capture state are its own, so graphs go on. A LEAVE is left to
the hand-off that it asked for; with OUT = 1 nothing restarts (R319). -/
def State.takeoverRecovery (s : State) (handoff : Bool) : State :=
  let s := s.runMarked
  let cs := s.cmds.filter (fun c => c.jseq.isSome && decide (c.st ≠ .ending) && !(handoff && decide (c.opcode = 0xA1)))
  let went (c : Cmd) : Bool := c.went
  let units := sortBy (fun a b => decide (u a.args 0 1 ≤ u b.args 0 1)) (cs.filter (fun c => went c && s.twinUnit c))
  let begun (c : Cmd) : Cmd :=
    if c.st ≠ .queued ∨ c.jseq.isNone then c else if went c then { c with started := true, st := .running } else { c with st := .held }
  let s := { s with cmds := s.cmds.map begun }
  let s := s.abandonAll ((cs.filter (fun c => went c && decide (c.opcode ≠ 0x50) && !s.twinUnit c)).map (·.id)) 1
  let ws := (List.range 4).filter (fun w => units.any (fun c => decide (c.ward.val = w)) ||
    cs.any (fun c => decide (c.ward.val = w) && !went c))
  let s := forEach ws s (fun w s => s.porterHalt w)
  if s.out then s
  else
  let rel := s.replayAt
  let s := forEach units s (fun c s => s.twinReplay c rel)
  let s := { s with recs := s.recs ++ ws.map (fun w => (⟨w, none, (units.filter (fun (c : Cmd) => decide (c.ward.val = w))).length, true⟩ : RecDue)) }
  s.recoveryEnd

/-- The commands that the peer has carried are this member's own. -/
def State.ownAll (s : State) : State := { s with cmds := s.cmds.map (fun c => { c with own := true }) }

/-- The STANDBY becomes ACTIVE: it asserts SIDE, the commands are its own, and it recovers. -/
def State.takeover (s : State) (pair : Bool) (cause : Nat) : State :=
  let s := ((s.pb TWN_STATUS_SIDE true).p TWN_STATUS_ROLE 1).pb TWN_STATUS_PAIRED pair
  let s := { s with jnl := { s.jnl with stop := false }, twin := { s.twin with rx := [] } }
  let s := s.reopen.ownAll.forwardBack.twinEvent cause
  (s.openTails.takeoverRecovery pair).pumpJournal

/-- Failover at td (R351). -/
def State.failover (s : State) : State :=
  if s.role = 2 then ((s.inc TWN_COUNTS_FAILOVERS 1).assertFlt 361).takeover false 2 else s

/-- TW_RELEASE. -/
def execTwRelease (f : Frame) (s : State) : Host.Outcome State Fault Refusal :=
  .next (s.onLink 4 f State.failover)

/-- PEER_TIMEOUT: 10 µs after the last TWIN_PEER edge; a member in reset takes nothing over (Table 19.8). -/
def execPeerTimeout (s : State) : Host.Outcome State Fault Refusal :=
  .next (
    let s := { s with twin := { s.twin with peerToggles := false } }.pb TWN_STATUS_PEER_HB false
    if s.running then s.failover else s)

/-- TW_HANDOFF: the STANDBY becomes ACTIVE at once with the pair formed, and ends the LEAVE with its DONE record (R352). -/
def State.handoffTaken (s : State) : State :=
  if s.role ≠ 2 then s
  else
    let s := (s.inc TWN_COUNTS_HANDOFFS 1).takeover true 3
    forEach (s.cmds.filter (fun c => decide (c.opcode = 0xA1) && c.jseq.isSome)) s (fun c s => s.finishF c.id 0)

/-- TW_HANDOFF. -/
def execTwHandoff (f : Frame) (s : State) : Host.Outcome State Fault Refusal := .next (s.onTwin f State.handoffTaken)

/-! ### Detaching (R350) -/

/-- The member becomes DETACHED: what the peer's Journal carries is no longer its concern, its own records it writes itself. -/
def State.detached (s : State) (cause : Nat) : State :=
  let s := s.forwardBack
  let own (d : DueRec) : Bool := (d.cmd.bind s.cmd?).all (·.own)
  let s := (s.p TWN_STATUS_ROLE 3).pb TWN_STATUS_PAIRED false
  let s := { s with
    cmds := s.cmds.filter (·.own), jnl := { s.jnl with due := s.jnl.due.filter own },
    twin := { s.twin with rx := [], hello := false } }
  ((s.inc TWN_COUNTS_DETACHES 1).twinEvent cause).pumpJournal

/-- TW_DETACH: a STANDBY is out of step and DETACHED; the ACTIVE whose STANDBY leaves is alone. -/
def execTwDetach (f : Frame) (s : State) : Host.Outcome State Fault Refusal :=
  .next (s.onTwin f (fun s =>
    if s.role = 2 then (s.assertFlt 362).detached 4
    else if s.paired then s.detachDone 4
    else { s with twin := { s.twin with hello := false } }))

/-- LINK_TIMEOUT: no TW_HB for that time while TWIN_PEER toggles detaches the STANDBY; no frame for twice that time, the
ACTIVE. -/
def execLinkTimeout (s : State) : Host.Outcome State Fault Refusal :=
  .next (if s.role = 2 then (if s.twin.peerToggles then (s.assertFlt 362).detached 7 else s)
    else if s.paired then s.detachDone 7 else s)

/-! ### LEAVE (R352) -/

/-- The burst that runs on sequencer `k` is a replay unit. -/
def State.burstUnit (s : State) (k : Nat) : Bool :=
  match (s.seq k).burst with
  | none => true
  | some b => b.restartable && !b.dirty && (s.seq k).ckpt.isSome &&
      (match s.seqVs k with
        | some v => vsRestartable (s.gb (VS_STATUS_DICT_REDEF v)) (s.vse v).ckpt
        | none => true)

/-- LEAVE. -/
def leaveCmd (c : Cmd) (s : State) : State :=
  let m := u c.args 0 1
  if !s.plan.sealed then s.refuse c 8
  else if c.ward ≠ 0 then s.refuse c 3
  else if s.plan.twinMode = 0 ∨ c.args.length ≠ 8 ∨ 1 < m ∨ 63 < u c.args 1 1 ∨ !zeros c.args 2 6 then s.refuse c 0x0D
  else if m = 0 then
    if !s.paired ∨ s.twin.detach.isSome ∨ s.twin.handoff.isSome ∨
        (List.range 32).any (fun k => s.bursting k && !s.burstUnit k) then s.refuse c 6
    else { s.started c with twin := { (s.started c).twin with handoff := some (u c.args 1 1, c.id) } }
  else if s.paired then (s.started c).detachBegin 4 (some c.id)
  else if s.role = 2 then
    let s := (s.started c).detached 4
    { s with twin := { s.twin with detach := some (4, some c.id) } }.twinSend 0x59 []
  else s.complete c

/-- LEAVE. -/
def execLeave (w : Fin 4) (q : Fin 8) (s : State) : Host.Outcome State Fault Refusal :=
  .next (s.runCmd w.val q.val 0xA1 leaveCmd)

/-- Sequencer `k` of a member that hands off stops with its state intact: no end of a burst is shown, streams and arms stay as they
are, and what was in flight is issued again by the new ACTIVE (R352; DESIGN CHOICE, log 120). -/
def State.handStop (s : State) (k : Nat) : State :=
  let halt (x : Seq) : Seq := { x with
    st := .idle, arch := x.shown, shadow := none, pendStop := false, pendPause := false, wait := none, holdLeft := 0, urWait := false,
    urSent := false, step := false, ending := false }
  let s := if s.bursting k then (s.modSeq k halt).sqWithdraw k else s
  let s := s.modSeq k (fun x => { x with burst := none, olds := [], fifo := [], inFlight := [] })
  s.modArm k (fun x => { x with cur := none, closed := [] })

/-- The ACTIVE hands off behind the checkpoints of the release: its sequencers stop, TW_HANDOFF follows the mirrored entries, SIDE
is released, and it is the STANDBY (R352). -/
def State.handOff (s : State) (q round : Nat) : State :=
  let s := { forEach (List.range 32) s (fun k s => s.handStop k) with capq := [] }
  let s := s.denOff
  let s := s.mirror 0x58 (toLe 1 q ++ List.replicate 7 0#8 ++ toLe 4 round ++ List.replicate 4 0#8)
  let s := { s with
    cmds := s.cmds.map (fun (c : Cmd) => { c with own := false }), jnl := { s.jnl with due := [] },
    twin := { s.twin with handoff := none } }
  let s := ((s.pb TWN_STATUS_SIDE false).p TWN_STATUS_ROLE 2).pb TWN_STATUS_PAIRED false
  ((s.inc TWN_COUNTS_HANDOFFS 1).twinEvent 3).setAct false

/-- SQUARE_RELEASE: the Square releases; a LEAVE that waits for it hands off (R80, R352). -/
def execSquareRelease (q : Fin 64) (s : State) : Host.Outcome State Fault Refusal :=
  .next (if !s.ticks then s else 
    let round := s.sqRound q.val
    let s := s.squareRelease q.val
    match s.twin.handoff with
    | some (k, _) => if k = q.val ∧ s.sqRound q.val ≠ round then s.handOff k round else s
    | none => s)

/-! ### JOIN (R353) -/

/-- The payload of TW_HELLO. -/
def State.helloBytes (s : State) : List Byte :=
  toLe 4 s.plan.pairId ++ toLe 1 s.role ++ List.replicate 3 0#8 ++ toLe 8 s.plan.planId ++ toLe 4 s.plan.hdrCrc ++
    List.replicate 4 0#8 ++ toLe 8 (s.g JNL_HEAD_SEQNO)

/-- JOIN. -/
def joinCmd (c : Cmd) (s : State) : State :=
  let busy (p : Nat × Ctx) : Bool := decide (p.2.st = .loading) || decide (p.2.st = .active) || decide (p.2.st = .resetting)
  if !s.plan.sealed then s.refuse c 8
  else if c.ward ≠ 0 then s.refuse c 3
  else if s.plan.twinMode = 0 ∨ c.args.length ≠ 8 ∨ !zeros c.args 0 8 then s.refuseArg c 0x0D 0
  else if s.role ≠ 1 then s.completeArg c 0
  else if s.paired ∨ s.twin.join.isSome ∨ (List.range 32).any (fun k => decide ((s.seq k).st ≠ .idle)) ∨ s.ctxs.any busy then
    s.refuse c 6
  else
    let s := s.started c
    { s with twin := { s.twin with join := some c.id } }.twinSend 0x50 s.helloBytes

/-- JOIN. -/
def execJoin (w : Fin 4) (q : Fin 8) (s : State) : Host.Outcome State Fault Refusal :=
  .next (s.runCmd w.val q.val 0xA2 joinCmd)

/-- The instances of a register: every combination of its indices. -/
def instances : List (Nat × Nat) → Nat → List Nat
  | [], a => [a]
  | (c, st) :: t, a => (List.range c).flatMap (fun i => instances t (a + i * st))

/-- The addresses of the shadowed registers, block by block (Table 16.5). -/
def shadowAddrs : List Nat :=
  (((List.range 15).flatMap blockRegs).filter (fun d => shadowName d.name)).flatMap (fun d => instances d.dims d.base)

/-- Pieces of 32 bytes behind the address `a`, at most 63 in a frame. -/
def State.sendCut (s : State) (a : Nat) (l : List (List Byte)) : State :=
  forEach (List.range ((l.length + 62) / 63)) s (fun i s => s.twinSend 0x55 (toLe 8 a ++ ((l.drop (63 * i)).take 63).flatten))

/-- The copy of the capture arms with their batches and of the contexts with their inboxes (R353). -/
def State.joinArms (s : State) : State :=
  let s := forEach (regsOf capArmName s.regs) s (fun p s => s.twinSend 0x55 (toLe 8 p.1 ++ toLe 8 p.2.toNat))
  let s := forEach (List.range 32) s (fun k s =>
    let x := s.arm k
    let s := s.twinSend 0x55 (toLe 8 (CAP_ARM_STATUS k) ++ toLe 8 (s.rd (CAP_ARM_STATUS k)).toNat ++ toLe 8 x.timeout)
    let s := s.sendCut (CAP_RSEQ k) (x.posted.map (Batch.bytes · false) ++ x.closed.map (Batch.bytes · true))
    s.sendCut (CAP_FCM_PTR k) x.stale)
  forEach s.ctxs s (fun p s =>
    let a := DSP_CTX_STATUS p.1
    let s := s.twinSend 0x55 (toLe 8 a ++ (List.range 4).flatMap (fun q => match regAt (a + 8 * q) with
      | some (d, ix) => toLe 8 (s.liveReg 0 d ix (a + 8 * q)).toNat
      | none => []))
    s.sendCut (DSP_CTX_POSTS p.1) p.2.inbox)

/-- The JOIN copy: TW_WRITE frames for every shadowed register and control-store word, then every Ward region of the SRAM windows
and DRAM, the capture arms and the contexts. -/
def State.joinCopy (s : State) : State :=
  let s := forEach shadowAddrs s (fun a s => s.twinSend 0x55 (toLe 8 a ++ toLe 8 (s.rd a).toNat))
  let s := forEach (List.range 32) s (fun k s => forEach (List.range 0x1800) s (fun i s =>
    let w := i + 0x800
    s.twinSend 0x55 (toLe 8 (0x02080000 + k * 0x100000 + 32 * w) ++ (List.range 3).flatMap (fun q => toLe 8 (s.csQword k w q).toNat))))
  let s := forEach s.plan.regions s (fun r s => forEach (List.range ((r.size + 2031) / 2032)) s (fun i s =>
    let a := memBase r.mem + r.base + 2032 * i
    let r := s.porterRead a (min 2032 (r.size - 2032 * i))
    r.1.twinSend 0x55 (toLe 8 a ++ r.2)))
  s.joinArms

/-- A TW_HELLO that answers a JOIN: the checks of R353, then mirroring and the copy begin. -/
def State.joinHello (s : State) (id : Nat) (b : List Byte) : State :=
  let fail (arg : Nat) : State := { s with twin := { s.twin with join := none } }.finish id 0x0D arg
  if u b 0 4 ≠ s.plan.pairId then fail 1
  else if u b 8 8 ≠ s.plan.planId ∨ u b 0x10 4 ≠ s.plan.hdrCrc then fail 2
  else if u b 4 1 ≠ 3 then fail 3
  else { s with twin := { s.twin with copying := true, peerHead := u b 0x18 8 } }.joinCopy

/-- A member that sends no JOIN answers TW_HELLO with its own; a DETACHED one that fits the peer takes what it mirrors. -/
def State.answerHello (s : State) (b : List Byte) : State :=
  let fits := decide (s.role = 3) && !s.twin.actDead && decide (u b 4 1 = 1) && decide (u b 0 4 = s.plan.pairId) && decide (u b 8 8 = s.plan.planId) &&
    decide (u b 0x10 4 = s.plan.hdrCrc)
  let s := s.twinSend 0x50 s.helloBytes
  { s with twin := { s.twin with hello := fits, peerHead := u b 0x18 8 } }

/-- TW_HELLO. -/
def execTwHello (f : Frame) (s : State) : Host.Outcome State Fault Refusal :=
  .next (s.onTwin f (fun s => match s.twin.join with
    | some id => if s.twin.copying then s else s.joinHello id f.payload
    | none => s.answerHello f.payload))

/-- JOIN_COPY_COMPLETE: nothing of the copy waits any more, and no record is being written without PAIR (R19); the peer is the
STANDBY and continues the Journal, the ACTIVE has PAIRED = 1, and JOIN completes. -/
def State.joinDone (s : State) : State :=
  if s.role = 3 ∧ s.twin.hello ∧ !s.twin.actDead ∧ s.jnl.prog = none then
    let s := { s with jnl := { s.jnl with next := s.twin.peerHead + 1 }, twin := { s.twin with hello := false } }
    ((s.p TWN_STATUS_ROLE 2).inc TWN_COUNTS_JOINS 1).twinEvent 5
  else match s.twin.join with
    | some id =>
      if s.twin.copying ∧ (s.port 4).txq = [] ∧ s.twin.backlog = [] ∧ s.jnl.prog = none then
        let s := { s with twin := { s.twin with join := none, copying := false } }
        ((((s.pb TWN_STATUS_PAIRED true).pb TWN_STATUS_MIRROR_OVF false).inc TWN_COUNTS_JOINS 1).twinEvent 5).finishF id 0
      else s
    | none => s

/-- JOIN_COPY_COMPLETE. -/
def execJoinCopyComplete (s : State) : Host.Outcome State Fault Refusal := .next s.joinDone

/-! ### Heartbeat and pins (R346) -/

/-- The conditions under which TWIN_ACT toggles: ACTIVE, in operation, Porter serves its watchdog. -/
def State.beats (s : State) : Bool :=
  decide (s.role = 1) && !s.out && s.twin.wdog && decide (s.pwr.inReset = none) && !s.pwr.gatedAll

/-- TWIN_HEARTBEAT: the ACTIVE toggles TWIN_ACT, and each member sends TW_HB. -/
def execTwinHeartbeat (s : State) : Host.Outcome State Fault Refusal :=
  .next (
    let s := if s.beats then s.setAct !s.twin.act else s
    if s.role ≠ 0 ∧ s.running then s.sendLink 4 0x5F (toLe 8 (s.g JNL_HEAD_SEQNO)) else s)

/-- SIDE_RELEASE: TWIN_ACT has not toggled for 5 µs; the member releases SIDE, drives no channel and is DETACHED until a chip reset, its
TWIN_ACT low (R346, Table 19.8). -/
def execSideRelease (s : State) : Host.Outcome State Fault Refusal :=
  .next (if s.role = 1 ∧ !s.beats then
      let s := { (s.pb TWN_STATUS_SIDE false).p TWN_STATUS_ROLE 3 with jnl := { s.jnl with stop := s.jnl.stop || s.paired } }
      ((({ s with twin := { s.twin with actDead := true } }.pb TWN_STATUS_PAIRED false).twinEvent 4).denOff).setAct false
    else s)

/-- TWIN_PEER_TOGGLE: the peer's heartbeat; an ACTIVE member that sees it has a conflict. -/
def execTwinPeerToggle (s : State) : Host.Outcome State Fault Refusal :=
  .next (
    let s := { s with twin := { s.twin with peerToggles := true } }.pb TWN_STATUS_PEER_HB true
    if s.role = 1 then s.assertFlt 363 else s)

/-- TW_HB: the peer is alive; its head SEQNO is kept. -/
def execTwHb (f : Frame) (s : State) : Host.Outcome State Fault Refusal :=
  .next (s.onLink 4 f (fun s => { s with twin := { s.twin with peerHead := u f.payload 0 8 } }))

end Sys2Proof.Machine
end

