-- ==== Sys2Proof/Machine/Power.lean ====
section
/-! DEFINITION. Power, clocks and start-up: power-on and loss of power (R358, R361), RESET_N (R359, R370), the internal reset
(R366, R367, R369), the phases of start-up (R371 to R375), PLLs and clock domains (R362 to R365), and Porter's watchdog. -/

namespace Sys2Proof.Machine

/-! ### Clock domains (Table 17.2) -/

/-- The class of a domain. -/
def domClass (d : Nat) : Nat :=
  if d ≤ 32 then 0 else if d ≤ 64 then 1 else if d ≤ 80 then 2 else if d ≤ 128 then 3 else if d ≤ 134 then d - 125
  else if d ≤ 138 then 10 else 11

/-- The PLL that feeds a domain. -/
def domPll (d : Nat) : Nat :=
  if d ≤ 32 then 1 else if d ≤ 64 then 0 else if d ≤ 80 then 1 else if d ≤ 128 then 2
  else if d = 131 ∨ d = 132 then 0 else if d ≤ 134 then 1 else if d ≤ 138 then 3 else d - 135

/-- The domains that a PLL feeds. -/
def pllDomains (p : Nat) : List Nat := (List.range 143).filter (fun d => decide (d ≠ 0) && decide (domPll d = p))

/-- The classes that gate when idle. -/
def domGates (d : Nat) : Bool := decide (d ≠ 0) && [0, 1, 2, 3, 5, 7, 8].contains (domClass d)

/-- The unit of domain `d` is idle (R364). -/
def State.domIdle (s : State) (d : Nat) : Bool :=
  if d ≤ 32 then s.psQuiet (d - 1)
  else if d ≤ 64 then
    decide (s.g (CH_CB_STATUS_STATE (d - 33)) = 0) && (cbChans (d - 33)).all (fun n => decide (s.g (CH_STATUS_SPILL n) = 0))
  else if d ≤ 80 then decide (s.g (VS_STATUS_STATE (d - 65)) = 0)
  else if d ≤ 128 then s.acQuiet (d - 81)
  else if d = 130 then s.ctxs.all (fun p => !(decide (p.2.st = .loading) || decide (p.2.st = .active) || decide (p.2.st = .resetting)))
  else if d = 132 then
    decide (s.conv.cls = 0) && decide (s.conv.urgent = 0) && s.conv.inj.isEmpty && s.conv.arm.isNone
  else if d = 133 then
    (List.range 32).all (fun k => !s.gb (CAP_ARM_STATUS_ARMED k)) && decide (s.g CAP_SHUT_STATUS_STATE ≠ 1) && s.capq.isEmpty
  else false

/-- A domain may gate itself: idle, and kept by neither KEEP nor IDLE = 0; one that is not enabled runs for an access only. -/
def State.mayGate (s : State) (d : Nat) : Bool :=
  domGates d && s.domOn d && (!s.domEn d ||
    (s.domIdle d && !nbit (s.g (CLK_KEEP_KEEP (d / 64))) (d % 64) && decide (s.g (CLK_CLASS_IDLE (domClass d)) ≠ 0)))

/-- Bit `p` of LOCK and of SLEEP. -/
def State.pllShow (s : State) (p : Nat) (lock sleep : Bool) : State :=
  let l := s.g CLK_PLL_STATUS_LOCK
  let z := s.g CLK_PLL_STATUS_SLEEP
  (s.p CLK_PLL_STATUS_LOCK (maskOf 8 (fun i => if i = p then lock else nbit l i))).p CLK_PLL_STATUS_SLEEP
    (maskOf 8 (fun i => if i = p then sleep else nbit z i))

/-- A PLL is locked. -/
def State.locked (s : State) (p : Nat) : Bool := nbit (s.g CLK_PLL_STATUS_LOCK) p

/-- A PLL is powered down. -/
def State.asleep (s : State) (p : Nat) : Bool := nbit (s.g CLK_PLL_STATUS_SLEEP) p

/-- CLK_IDLE_GATE: the domain gates; PLL2 powers down with the last core domain if PLL2_SLEEP says so (R363, R364). -/
def State.idleGate (s : State) (d : Nat) : State :=
  if !s.mayGate d then s
  else
    let s := s.setDom d false
    if s.gb PWR_CFG_PLL2_SLEEP ∧ domPll d = 2 ∧ (pllDomains 2).all (fun d => !s.domOn d) then s.pllShow 2 false true else s

/-- CLK_IDLE_GATE. -/
def execClkIdleGate (dom : Nat) (s : State) : Host.Outcome State Fault Refusal := .next (s.idleGate dom)

/-- The fast clocks run. -/
def State.clocked (s : State) : Bool := !s.pwr.gatedAll && decide (s.pwr.inReset = none) && decide (1 ≤ s.g RST_STATUS_PHASE)

/-- Something waits for domain `d` to run: an access or a command that came while it was gated, or its unit, which CLK_EN enables, is
not idle (R364). -/
def State.wanted (s : State) (d : Nat) : Bool := s.pwr.demand.contains d || (domGates d && s.domEn d && !s.domIdle d)

/-- Nothing waits for domain `d` any more. -/
def State.demandOver (s : State) (d : Nat) : State :=
  { s with pwr := { s.pwr with demand := s.pwr.demand.filter (fun x => decide (x ≠ d)) } }

/-- DOMAIN_WAKE: a gated domain for which something waits runs, and the converter takes up what waits for it; the first core domain
starts PLL2 (R363 to R365). -/
def State.domainWake (s : State) (d : Nat) : State :=
  if !s.wanted d ∨ d = 0 ∨ 142 < d ∨ s.domOn d ∨ s.pwr.stopped.contains d ∨ !s.clocked then s
  else if s.asleep (domPll d) then
    if domPll d = 2 then s.pllShow 2 false false else s
  else if s.locked (domPll d) then
    let s := (s.demandOver d).setDom d true
    if d = adcDom then s.convServe else s
  else s

/-- DOMAIN_WAKE. -/
def execDomainWake (dom : Nat) (s : State) : Host.Outcome State Fault Refusal := .next (s.domainWake dom)

/-- The Ward of a domain's unit. -/
def State.domWard (s : State) (d : Nat) : Option Nat :=
  if d = 0 then none else if d ≤ 32 then s.seqWard (d - 1) else if d ≤ 64 then s.cbWard (d - 33) else if d ≤ 80 then s.vsWard (d - 65)
  else if d ≤ 128 then s.coreWard (d - 81) else none

/-- A burst whose sequencer or Channel Block has not started: its command ends with RESOURCE_BUSY, and the sequencer stops. -/
def State.burstUnclocked (s : State) (k : Nat) : State :=
  if s.bursting k then (s.finishOpt ((s.seq k).burst.bind (·.cmd)) 6 0).seqHalt k 4 else s

/-- What waited for domain `d` fails with the status of a stopped unit (R365): a core run with 0x91, everything else with RESOURCE_BUSY
(DESIGN CHOICE, log 121). -/
def State.demandFails (s : State) (d : Nat) : State :=
  if d ≤ 32 then s.burstUnclocked (d - 1)
  else if d ≤ 64 then
    match s.cbSeq (d - 33) with
    | some k => s.burstUnclocked k
    | none => s
  else if d ≤ 80 then
    match (s.vse (d - 65)).arm with
    | some id => (s.finish id 6 0).vsUnbind (d - 65)
    | none => s
  else if d ≤ 128 then s.runAccept (d - 81) 0x91
  else if d = dspDom then
    forEach (s.ctxs.filter (fun p => decide (p.2.st = .loading))) s (fun p s =>
      (s.finishOpt p.2.cmd 6 0).modCtx p.1 (fun _ => .zero))
  else if d = adcDom then
    let l := s.conv.inj
    forEach l { s with conv := { s.conv with inj := [] } } (fun j s => s.finish j.cmd 6 0)
  else if 135 ≤ d ∧ d ≤ 138 then s.drcLost (d - 135)
  else s

/-- CLK_WAKE: a domain that something waits for has not started within twice its latency: the source, an event with its latch, and the
demand fails (R365, R375). -/
def execClkWake (dom : Nat) (s : State) : Host.Outcome State Fault Refusal :=
  .next (if !s.wanted dom ∨ dom = 0 ∨ 142 < dom ∨ s.domOn dom ∨ !s.clocked then s
    else
      let latched := s.flt.pend.contains 392 || nbit (s.g (FLT_GRP_REAL_REAL 12)) 8
      let s := (s.demandOver dom).assertFlt 392
      (if latched then s else s.eventTo (s.domWard dom) 0x0E02 dom).demandFails dom)

/-! ### PLLs (R363, R374) -/

/-- PLL_LOCK: a PLL that has started locks; the time base runs from PLL0, a lane quad from its PLL, and G4 starts with PLL6 in
a pair. -/
def State.pllLock (s : State) (p : Nat) : State :=
  if !s.clocked ∨ s.asleep p ∨ s.locked p ∨ (pllDomains p).any s.pwr.stopped.contains then s
  else
    let s := s.pllShow p true false
    if p = 0 then s.setDom 131 true
    else if p < 4 then s
    else
      let s := s.setDom (135 + p) true
      if p = 6 ∧ s.plan.twinMode = 1 ∧ 4 ≤ s.g RST_STATUS_PHASE ∧ !(s.grp 4).started then s.bringup 4 else s

/-- PLL_LOCK. -/
def execPllLock (pll : Fin 8) (s : State) : Host.Outcome State Fault Refusal := .next (s.pllLock pll.val)

/-- PLL_LOSS_OF_LOCK: while REFCLK is present its source is raised; the domains it feeds stop until the next chip reset. -/
def State.pllLoss (s : State) (p : Nat) : State :=
  if !s.locked p then s
  else
    let ds := pllDomains p
    let s := if s.gb TB_STATUS_REFCLK then s.assertFlt (384 + p) else s
    let s := if p = 2 then forEach (List.range 48) s (fun c s => if (s.core c).st = .running then s.runEnd c 0x91 else s) else s
    let s := if p = 3 then
        forEach (bitsOf 4 (s.g MEM_CFG_CH_MASK)) s (fun d s => s.drcLost d)
      else s
    let s := { s with pwr := { s.pwr with stopped := s.pwr.stopped ++ ds } }
    forEach ds (s.pllShow p false false) (fun d s => s.setDom d false)

/-- PLL_LOSS_OF_LOCK. -/
def execPllLossOfLock (pll : Fin 8) (s : State) : Host.Outcome State Fault Refusal := .next (s.pllLoss pll.val)

/-! ### Power and reset -/

/-- The Plan Store as a reset of any kind leaves it: a stage of VALIDATING or VALID is STAGING again, no validation goes on; a
reset before phase D has read it finds it as the last one left it (R35). Other stages and the last verdict stay (DEDUCED, log). -/
def State.storeKept (s : State) : PlanStore :=
  if 3 ≤ s.g RST_STATUS_PHASE then
    { s.store with
      verify := none, stage := if s.stage = 2 ∨ s.stage = 3 then 1 else s.stage,
      verdict := (s.g JNL_PLAN_DIAG_CODE, s.g JNL_PLAN_DIAG_SECTION, s.g JNL_PLAN_DIAG_OFFSET) }
  else { s.store with verify := none }

/-- The device without power or at power-on: only the non-volatile memory keeps what it holds (R366). -/
def State.volatileLost (s : State) : State :=
  { State.reset with
    pending := s.pending, outs := s.outs, fresh := s.fresh, nvm := s.nvm, nvmEcc := s.nvmEcc, store := s.storeKept,
    pwr := { PwrSt.zero with romBad := s.pwr.romBad } }

/-- POWER_ON: every register takes its reset value; RESET_N is low (R358, R366). -/
def execPowerOn (s : State) : Host.Outcome State Fault Refusal := .next s.volatileLost

/-- LOSS_OF_POWER: a record in progress stays without its commit word; no seal is written (R361). -/
def execLossOfPower (s : State) : Host.Outcome State Fault Refusal := .next s.volatileLost

/-- RESET_N_LOW: recognized at the third tick; it starts a chip reset with CAUSE 1, or joins one (R359, R367), and TWIN_ACT is low
(Table 19.8). -/
def execResetNLow (s : State) : Host.Outcome State Fault Refusal :=
  .next (if s.pwr.resetN then ({ s with pwr := { s.pwr with resetN := false } }.resetBegin 1).setAct false else s)

/-- RESET_N_RISE: BOOT_SEL is sampled; a device that waited for it starts phase A (R359, R370). -/
def execResetNRise (pins : BootPins) (s : State) : Host.Outcome State Fault Refusal :=
  .next (if s.pwr.resetN then s
    else
      { s with pwr := { s.pwr with
        resetN := true, waitRise := false, romBad := pins.romBad, tA := if s.pwr.waitRise then s.flt.tick else s.pwr.tA } }.pb
          RST_STATUS_BOOT_SEL pins.sel)

/-- Registers of the always-on domain that a chip reset leaves (R226, R321). -/
def alwaysOn : RegName → Bool
  | .MEM_CFG | .DRC_CFG | .DRC_TRAIN_CA | .DRC_TRAIN_DQ | .FLT_FE | .FLT_FE_STAMP_LO | .FLT_FE_STAMP_HI | .FLT_LOG_PTR
  | .FLT_LOG_INFO | .FLT_LOG_STAMP_LO | .FLT_LOG_STAMP_HI | .FLT_STORM | .FLT_GRP_CNT => true
  | _ => false

/-- Plan-locked fields keep their values through a reset (R369). -/
def State.lockedRegs (s : State) (old : Tab Word) : State :=
  forEach old s (fun p s => match regAt p.1 with
    | some (d, ix) => s.wrMask p.1 (fldMask (rwpFields d ix)) p.2.toNat
    | none => s)

/-- Channel `d` keeps its contents through the reset: it was READY and entered self-refresh, or its record of an earlier entry still
stands in the always-on domain (R226). -/
def State.keptCh (s : State) (d : Nat) : Bool :=
  (s.pwr.selfRef && s.chReady d) || decide (s.g (DRC_STATUS_STATE d) = 3)

/-- What a chip reset keeps of memory: DRAM bytes of the channels that keep their contents (R226, R337). -/
def State.keptMem (s : State) {α : Type} (t : Tab α) (unit : Nat) : Tab α :=
  t.filter (fun p => match memOf (p.1 * unit) with
    | some (0, o) => s.keptCh (s.dramCh o)
    | some _ => true
    | none => false)

/-- The internal reset at t_i: everything outside the always-on domain takes its reset value, but for what Table 17.4 lists and DRCd_RESET_N (R391). -/
def State.internalReset (s : State) (cause : Nat) : State :=
  let t : State := { State.reset with
    pending := s.pending, outs := s.outs, fresh := s.fresh, nvm := s.nvm, nvmEcc := s.nvmEcc, store := s.storeKept,
    mem := s.keptMem s.mem 1, ecc := s.keptMem s.ecc 8, regs := regsOf alwaysOn s.regs, ra := s.ra, plan := s.plan,
    jnl := { Jnl.zero with nextId := s.jnl.nextId },
    flt := { FltSt.zero with tick := s.flt.tick, feTick := s.flt.feTick, feWin := s.flt.feWin },
    pwr := { PwrSt.zero with resetN := s.pwr.resetN, waitRise := !s.pwr.resetN, selfRef := s.pwr.selfRef, romBad := s.pwr.romBad, tA := s.flt.tick } }
  let t := if s.plan.sealed then t.lockedRegs s.regs else t
  let t := (t.pb THM_STATUS_SHUTDOWN_SEEN (s.gb THM_STATUS_SHUTDOWN_SEEN)).pb RST_STATUS_BOOT_SEL (s.gb RST_STATUS_BOOT_SEL)
  let t := ((t.p RST_STATUS_CHIP_RESETS (s.g RST_STATUS_CHIP_RESETS)).inc RST_STATUS_CHIP_RESETS 1).p RST_STATUS_CAUSE cause
  let t := forEach (List.range 4) t (fun d t =>
    let t := t.modDrc d (fun x => { x with resetN := (s.drc d).resetN })
    if s.keptCh d then (t.p (DRC_STATUS_STATE d) 3).modDrc d (fun x => { x with selfRef := true }) else t)
  if s.twin.act then t.emit (.twinAct false) else t

/-- CHIP_RESET_INTERNAL: t_i, once the record in progress has completed; one that waits for the STANDBY is given up at t0 + 5 µs
(R367). -/
def execChipResetInternal (s : State) : Host.Outcome State Fault Refusal :=
  .next (match s.pwr.inReset with
    | none => s
    | some cause => if s.jnl.prog.isSome ∧ !s.progPaired then s else s.internalReset cause)

/-! ### Start-up (R371) -/

/-- Start-up may go on from phase `n`; a thermal shutdown in phase D ends it (R294), a device whose ROM fails its check stays in
phase C (Table 17.7), and one that loses REFCLK stays where it is (R318). -/
def State.inPhase (s : State) (n : Nat) : Bool :=
  decide (s.pwr.inReset = none) && !s.pwr.waitRise && decide (s.g RST_STATUS_PHASE = n) && !s.thm.shutdown &&
    !(s.pwr.romBad && decide (n = 2)) && (!s.pwr.gatedAll || decide (n = 0))

/-- STARTUP_PLL: REFCLK is present; PLL0, PLL1 and the PLLs of the lane quads in use start (phase B). -/
def execStartupPll (s : State) : Host.Outcome State Fault Refusal :=
  .next (if s.inPhase 0 && s.gb TB_STATUS_REFCLK then
      ({ s with pwr := { s.pwr with gatedAll := false } }.p RST_STATUS_PHASE 1).p CLK_PLL_STATUS_SLEEP 0x4C
    else s)

/-- STARTUP_BOOT: Porter boots; customer words of every control store and all Waveform Tables are cleared (phase C). Where the check
of Porter's ROM fails, BOOT_ROM latches and the device stays in phase C with OUT = 1 (Table 17.7). -/
def execStartupBoot (s : State) : Host.Outcome State Fault Refusal :=
  .next (if s.inPhase 1 && [0, 1, 4, 5, 7].all s.locked then
      if s.pwr.romBad then ((s.p RST_STATUS_PHASE 2).assertFlt 395).pb FLT_STATUS_OUT true
      else
      let s := ((s.p RST_STATUS_PHASE 2).setDom 129 true).setDom 134 true
      let s := forEach (List.range 32) s (fun k s => s.modSeq k (fun x => { x with cs := [] }))
      { s with regs := s.regs.filter (fun p => match regAt p.1 with
        | some (d, _) => decide (d.name ≠ .WT_ENTRY)
        | none => true) }
    else s)

/-- The descriptor that decides this start: a pending seal or a retirement takes effect by one further commit (R37). -/
def State.takeDesc (s : State) : State :=
  let d := s.store.desc
  if d.pending then s.commitDesc ⟨!d.activeB, true, false, false⟩
  else if d.retired then s.commitDesc { d with sealed := false, retired := false }
  else s

/-- The device comes up unsealed: RWP fields are RW again, at their reset values. -/
def State.comeUnsealed (s : State) : State := s.resetRwp.applyUnsealed

/-- The registers of the stage and of the last verdict are loaded from the Plan Store (R35). -/
def State.loadStage (s : State) : State :=
  let (code, sec, off) := s.store.verdict
  let s := (s.p JNL_PLAN_STATUS_STAGE s.store.stage).p JNL_PLAN_STATUS_CODE code
  ((s.p JNL_PLAN_DIAG_CODE code).p JNL_PLAN_DIAG_SECTION sec).p JNL_PLAN_DIAG_OFFSET off

/-- The check of R39 fails at a place: the device comes up unsealed. -/
def State.restoreFails (s : State) (sec off : Nat) : State :=
  let s := s.comeUnsealed.pb JNL_PLAN_STATUS_RESTORE_FAIL true
  let s := (s.p JNL_PLAN_STATUS_CODE 0x20).p JNL_PLAN_DIAG_CODE 0x20
  let s := (s.p JNL_PLAN_DIAG_SECTION sec).p JNL_PLAN_DIAG_OFFSET off
  (s.assertFlt 352).showStore

/-- A system row that the check of R39 reads has an uncorrectable word: the newest descriptor, or, behind one that names a sealed image,
the key slots and REQUIRE_SIG (R326; DESIGN CHOICE, log 127). -/
def State.rowsBad (s : State) : Bool :=
  s.nvBad (descRow s.store.seals) 64 || (s.store.desc.sealed && s.nvBad (keyRow 0) 192)

/-- The Plan Store at start-up (R35, R37 to R39, R326, R370). -/
def State.restorePlan (s : State) : State :=
  let s := s.loadStage
  if s.gb RST_STATUS_BOOT_SEL then s.comeUnsealed.showStore
  else
    let s := (s.nvCe (descRow s.store.seals) 64).nvCe (keyRow 0) 192
    if s.rowsBad then s.restoreFails 0xFF 0 else
    let s := s.takeDesc
    let b := s.store.desc.activeB
    if !s.store.desc.sealed then s.comeUnsealed.showStore
    else
      let s := s.nvCe (slotBase b) 2097152
      match s.restoreCheck (slotBase b) with
      | none => (s.applyImage b).showStore
      | some (_, sec, off) => s.restoreFails sec off

/-- STARTUP_RESTORE: the plan, the scan of the Journal, and the short training of channels in self-refresh (phase D), where `words` of
the array have gone wrong since the start before (R326). The period timer of the sensors starts; their first requests come with the
next THM_PERIOD (R288). -/
def execStartupRestore (words : List NvWord) (s : State) : Host.Outcome State Fault Refusal :=
  .next (if s.inPhase 2 then
      let s := ((s.nvAge words).p RST_STATUS_PHASE 3).restorePlan.journalScan
      forEach (List.range 4) s (fun d s =>
        if s.g (DRC_STATUS_STATE d) = 3 then (s.drcStart d true).modDrc d (fun x => { x with selfRef := true }) else s)
    else s)

/-- Every sensor that is not OFF has given its first reading (phase D). -/
def State.sensorsRead (s : State) : Bool := (List.range 8).all (fun i => decide (s.g (THM_TS_CFG_TYPE i) = 0) || nbit s.thm.seen i)

/-- TWIN_ROLE_DECISION: the watch of TWIN_PEER ends; `toggled` is what it saw (R347). -/
def execTwinRoleDecision (toggled : Bool) (s : State) : Host.Outcome State Fault Refusal :=
  .next (if s.inPhase 3 && decide (s.plan.twinMode = 1) && !s.twin.decided then
      let s := { s with twin := { s.twin with decided := true, peerToggles := toggled } }.pb TWN_STATUS_PEER_HB toggled
      let s := if toggled then s.p TWN_STATUS_ROLE 3 else (s.p TWN_STATUS_ROLE 1).pb TWN_STATUS_SIDE true
      s.twinEvent 1
    else s)

/-- The calibration row and the device registers of the shadow are written back (R373). -/
def State.restoreCal (s : State) : State :=
  match s.ra with
  | none => s
  | some ra =>
    let dec := s.g JNL_STATUS_DECISION
    if !ra.sealOk || !s.gb MEM_STATUS_PRESERVED || s.planChanged || decide (dec = 3) || decide (dec = 4) then s
    else
      let put (l : Tab Word) (s : State) : State := forEach l s (fun p s => (s.regWrite (fun _ => true) p.1 p.2).1)
      put (ra.shadow.filter (fun p => [DSP_CFG, PS_SQ_CTRL].contains p.1)) (put ra.local_ s)

/-- The groups of Table 11.1 start: G4 in a pair, once its PLL has locked. -/
def State.startGroups (s : State) : State :=
  let s := forEach [0, 1, 2, 3, 5, 6] s (fun g s => s.bringup g)
  if s.plan.twinMode = 1 ∧ s.locked 6 = true then s.bringup 4 else s

/-- STARTUP_PORTS: the decision, the BOOT record and the ABANDONED records, the calibration restore, and the bring-up of G0 to G3,
G5, G6, and of G4 in a pair (phase E). -/
def execStartupPorts (s : State) : Host.Outcome State Fault Refusal :=
  .next (if s.inPhase 3 && (List.range 4).all (fun d => decide (s.g (DRC_STATUS_STATE d) ≠ 1)) && s.sensorsRead &&
      (s.twin.decided || decide (s.plan.twinMode = 0)) then
      let s := { s.p RST_STATUS_PHASE 4 with jnl := { s.jnl with stop := false } }
      s.decide_.restoreCal.startGroups
    else s)

/-- STARTUP_RUN: every record of phase E is written; RESET_DONE, JNL_SCAN and REPLAY_PENDING are sent, and AUTO recovery is due
(phase F). BOOT_TIME counts µs by ticks of the always-on clock, 30 of them each (R376; DESIGN CHOICE, log 124). Commands that came
before are taken. -/
def execStartupRun (s : State) : Host.Outcome State Fault Refusal :=
  .next (if s.inPhase 4 && s.jnl.prog.isNone && s.jnl.due.isEmpty then
      let s := (s.p RST_STATUS_PHASE 5).p RST_STATUS_BOOT_TIME (min (2 ^ 32 - 1) ((s.flt.tick - s.pwr.tA) / 30))
      let s := s.eventAll 0x0E01 (s.g RST_STATUS_CAUSE + 4 * b2n s.plan.sealed + 8 * s.g MEM_STATUS_PRESERVED +
        16 * s.g RST_STATUS_BOOT_SEL)
      let dec := s.g JNL_STATUS_DECISION
      let s := s.eventAll 0x0D01 (dec + 256 * min 0xFFFFFF (s.g JNL_STATUS_OPEN))
      forEach (List.range 4) s (fun w s =>
        let s := if nbit (s.g JNL_STATUS_PENDING) w then s.event w 0x0D02 (s.unitsOf w).length else s
        if dec = 1 ∧ (s.wst w).haltedByPorter ≠ 0 then s.recoveryDue w none else s) |>.earlyCmds
    else s)

/-! ### Porter's watchdog -/

/-- PORTER_WATCHDOG_EXPIRED: PORTER_WDOG is raised, and the heartbeat stops (R346, R354). -/
def execPorterWatchdogExpired (s : State) : Host.Outcome State Fault Refusal :=
  .next ({ s with twin := { s.twin with wdog := false } }.assertFlt 360)

end Sys2Proof.Machine
end

