-- ==== Sys2Proof/Machine/Ring.lean ====
section
/-! DEFINITION. Firing time triggers (R266) and the frames of the sync ring that carry global Squares (R267, R268). -/

namespace Sys2Proof.Machine

/-- The next firing of trigger `t` once the time base has reached its reading: FIRED, its event, and its consumers (R266). -/
def State.trigFire (s : State) (t : Nat) : State :=
  if s.trigState t ≠ 1 ∨ s.tb.fine < (s.trg t).at_ (s.trg t).n then s
  else
    let x := s.trg t
    let a := x.at_ x.n
    let st := mkStamp a (s.g TB_STATUS_SCALE)
    let s := (s.modTrig t (fun x => { x with n := x.n + 1 })).pb (TB_TRIG_STATUS_FIRED t) true
    let s := s.p (TB_TRIG_STATUS_FIRINGS t) (s.g (TB_TRIG_STATUS_FIRINGS t) + 1)
    let s := s.trigShow t
    let s := if x.notify then s.eventAt (s.resWard 4 t) 0x0904 st t else s
    let s := (s.timSource 3 t 0 (s.instantOf a)).acqEvent 5 t 0 st
    let s := s.sqTrigger t a
    if x.period = 0 ∨ (x.count ≠ 0 ∧ x.n + 1 = x.count) then s.trigEnd t 1 else s

/-- TRIG_FIRE. -/
def execTrigFire (t : Fin 32) (s : State) : Host.Outcome State Fault Refusal := .next (if !s.ticksOf tbDom then s else s.trigFire t.val)

/-- A ring frame is a data frame of G5 or, downstream, G6; what a slave receives on G5 it passes on (R267). -/
def State.onRing (s : State) (down : Bool) (f : Frame) (act : State → State) : State :=
  s.onData (if down then 6 else 5) f (fun s =>
    if down then s
    else
      let s := act s
      if s.g TB_CFG_ROLE = 2 then s.reply 6 f.type.toNat 0 0#16 0 f.payload else s)

/-- SQ_JOIN: the master replaces the entry of NODE; an arrival that waited only for a member that has left is complete (R268). -/
def execSqJoin (down : Bool) (f : Frame) (s : State) : Host.Outcome State Fault Refusal :=
  .next (s.onRing down f (fun s =>
    if s.g TB_CFG_ROLE = 1 then
      let node := u f.payload 0 2
      let s := { s with tb := { s.tb with joins := s.tb.joins.filter (fun p => decide (p.1 ≠ node)) ++ [(node, u f.payload 8 8)] } }
      forEach s.tb.arr s (fun p s => s.ringJudge p.1 p.2.1)
    else s))

/-- SQ_ARRIVE: the master counts the arrival (R268); it consumes its own, which it has counted (R267). -/
def execSqArrive (down : Bool) (f : Frame) (s : State) : Host.Outcome State Fault Refusal :=
  .next (s.onRing down f (fun s =>
    if s.g TB_CFG_ROLE = 1 ∧ u f.payload 0 2 ≠ s.g TB_CFG_NODE_ID then s.ringArrive (u f.payload 2 1 % 64) (u f.payload 4 4) (u f.payload 0 2) else s))

/-- SQ_RELEASE: a device releases at T_REL; the master consumes its own (R267, R268). -/
def execSqRelease (down : Bool) (f : Frame) (s : State) : Host.Outcome State Fault Refusal :=
  .next (s.onRing down f (fun s =>
    let q := u f.payload 0 1 % 64
    if s.g TB_CFG_ROLE = 2 ∧ u f.payload 4 4 = s.sqRound q then
      s.ringRelease q (stampFrac (BitVec.ofNat 96 (u f.payload 8 12)) * 2 ^ 48)
    else s))

end Sys2Proof.Machine
end

