-- ==== Sys2Proof/Machine/Dispatch.lean ====
section
/-! DEFINITION. The effect of a command: one arm per constructor, each one call of its meaning. -/

namespace Sys2Proof.Machine

/-- The effect of a command on everything but the queue. -/
def exec (i : Instr) (s : State) : Host.Outcome State Fault Refusal :=
  match i with
  | .regRd p f => Sys2Proof.Machine.execRegRd p f s
  | .regWr p f => Sys2Proof.Machine.execRegWr p f s
  | .registerWrite m a v => Sys2Proof.Machine.execRegisterWrite m a v s
  | .memRd p f => Sys2Proof.Machine.execMemRd p f s
  | .memWr p f => Sys2Proof.Machine.execMemWr p f s
  | .fcpXfer p f => Sys2Proof.Machine.execFcpXfer p f s
  | .fcpTransferDone c miso => Sys2Proof.Machine.execFcpTransferDone c miso s
  | .cmd p f => Sys2Proof.Machine.execCmd p f s
  | .unknownFrame p f => Sys2Proof.Machine.execUnknownFrame p f s
  | .nak p f => Sys2Proof.Machine.execNak p f s
  | .credit p f => Sys2Proof.Machine.execCredit p f s
  | .ackTimeout p => Sys2Proof.Machine.execAckTimeout p s
  | .linkHold p => Sys2Proof.Machine.execLinkHold p s
  | .eventFrameSend w => Sys2Proof.Machine.execEventFrameSend w s
  | .journalCommit => Sys2Proof.Machine.execJournalCommit s
  | .wrdQctlFlush m w q => Sys2Proof.Machine.execWrdQctlFlush m w q s
  | .nop w q => Sys2Proof.Machine.execNop w q s
  | .regSet w q => Sys2Proof.Machine.execRegSet w q s
  | .fcpWrite w q => Sys2Proof.Machine.execFcpWrite w q s
  | .planBegin w q => Sys2Proof.Machine.execPlanBegin w q s
  | .planLoad w q => Sys2Proof.Machine.execPlanLoad w q s
  | .planVerify w q => Sys2Proof.Machine.execPlanVerify w q s
  | .planSeal w q => Sys2Proof.Machine.execPlanSeal w q s
  | .planRetire w q => Sys2Proof.Machine.execPlanRetire w q s
  | .planRead w q => Sys2Proof.Machine.execPlanRead w q s
  | .planKey w q => Sys2Proof.Machine.execPlanKey w q s
  | .burstStart w q => Sys2Proof.Machine.execBurstStart w q s
  | .burstStop w q => Sys2Proof.Machine.execBurstStop w q s
  | .streamArm w q => Sys2Proof.Machine.execStreamArm w q s
  | .streamPrimed v => Sys2Proof.Machine.execStreamPrimed v s
  | .capArm w q => Sys2Proof.Machine.execCapArm w q s
  | .shutterArm w q => Sys2Proof.Machine.execShutterArm w q s
  | .graphSubmit w q => Sys2Proof.Machine.execGraphSubmit w q s
  | .ctxReset w q => Sys2Proof.Machine.execCtxReset w q s
  | .tbAdjust w q => Sys2Proof.Machine.execTbAdjust w q s
  | .trigArm w q => Sys2Proof.Machine.execTrigArm w q s
  | .timArm w q => Sys2Proof.Machine.execTimArm w q s
  | .acqArm w q => Sys2Proof.Machine.execAcqArm w q s
  | .adcInject w q => Sys2Proof.Machine.execAdcInject w q s
  | .calRun w q => Sys2Proof.Machine.execCalRun w q s
  | .fltInject w q => Sys2Proof.Machine.execFltInject w q s
  | .replay w q => Sys2Proof.Machine.execReplay w q s
  | .leave w q => Sys2Proof.Machine.execLeave w q s
  | .join w q => Sys2Proof.Machine.execJoin w q s
  | .csLatchWrite m k word hi v => Sys2Proof.Machine.execCsLatchWrite m k word hi v s
  | .csWordWrite m k word v => Sys2Proof.Machine.execCsWordWrite m k word v s
  | .psCtrlStop m k => Sys2Proof.Machine.execPsCtrlStop m k s
  | .psCtrlKill m k => Sys2Proof.Machine.execPsCtrlKill m k s
  | .psCtrlPause m k => Sys2Proof.Machine.execPsCtrlPause m k s
  | .psCtrlResume m k => Sys2Proof.Machine.execPsCtrlResume m k s
  | .psCtrlStep m k => Sys2Proof.Machine.execPsCtrlStep m k s
  | .uNext k => Sys2Proof.Machine.execUNext k s
  | .uJump k => Sys2Proof.Machine.execUJump k s
  | .uCall k => Sys2Proof.Machine.execUCall k s
  | .uRet k => Sys2Proof.Machine.execURet k s
  | .uLoop k => Sys2Proof.Machine.execULoop k s
  | .uLdlc k => Sys2Proof.Machine.execULdlc k s
  | .uRepeat k => Sys2Proof.Machine.execURepeat k s
  | .uBegin k => Sys2Proof.Machine.execUBegin k s
  | .uEnd k => Sys2Proof.Machine.execUEnd k s
  | .uFsync k => Sys2Proof.Machine.execUFsync k s
  | .uBreak k => Sys2Proof.Machine.execUBreak k s
  | .uJumpi k => Sys2Proof.Machine.execUJumpi k s
  | .holdBeat k => Sys2Proof.Machine.execHoldBeat k s
  | .squareRelease q => Sys2Proof.Machine.execSquareRelease q s
  | .beatTake c => Sys2Proof.Machine.execBeatTake c s
  | .beatStart c => Sys2Proof.Machine.execBeatStart c s
  | .edgeEvent c lv => Sys2Proof.Machine.execEdgeEvent c lv s
  | .cbDrainDone c => Sys2Proof.Machine.execCbDrainDone c s
  | .beatDelivery k => Sys2Proof.Machine.execBeatDelivery k s
  | .captureQueueWrite => Sys2Proof.Machine.execCaptureQueueWrite s
  | .batchTimeout k => Sys2Proof.Machine.execBatchTimeout k s
  | .batchPost k => Sys2Proof.Machine.execBatchPost k s
  | .burstDone k => Sys2Proof.Machine.execBurstDone k s
  | .capRdWrite m k spill v => Sys2Proof.Machine.execCapRdWrite m k spill v s
  | .shutterSample s0 s1 => Sys2Proof.Machine.execShutterSample s0 s1 s
  | .shutterRawWrite => Sys2Proof.Machine.execShutterRawWrite s
  | .shutRawRdWrite m v => Sys2Proof.Machine.execShutRawRdWrite m v s
  | .streamFetch v => Sys2Proof.Machine.execStreamFetch v s
  | .sPad v => Sys2Proof.Machine.execSPad v s
  | .sLit v => Sys2Proof.Machine.execSLit v s
  | .sRun v => Sys2Proof.Machine.execSRun v s
  | .sPatch v => Sys2Proof.Machine.execSPatch v s
  | .sDictDef v => Sys2Proof.Machine.execSDictDef v s
  | .sDictUse v => Sys2Proof.Machine.execSDictUse v s
  | .sScan v => Sys2Proof.Machine.execSScan v s
  | .sScanCfg v => Sys2Proof.Machine.execSScanCfg v s
  | .sLoop v => Sys2Proof.Machine.execSLoop v s
  | .sEndloop v => Sys2Proof.Machine.execSEndloop v s
  | .sSquare v => Sys2Proof.Machine.execSSquare v s
  | .sEnd v => Sys2Proof.Machine.execSEnd v s
  | .urTimeout v => Sys2Proof.Machine.execUrTimeout v s
  | .dispatcherCycle => Sys2Proof.Machine.execDispatcherCycle s
  | .coreInstruction c => Sys2Proof.Machine.execCoreInstruction c s
  | .ecall c => Sys2Proof.Machine.execEcall c s
  | .ebreak c => Sys2Proof.Machine.execEbreak c s
  | .fence c => Sys2Proof.Machine.execFence c s
  | .rxTset c => Sys2Proof.Machine.execRxTset c s
  | .rxTclrr c => Sys2Proof.Machine.execRxTclrr c s
  | .rxTclrc c => Sys2Proof.Machine.execRxTclrc c s
  | .rxTrowv c => Sys2Proof.Machine.execRxTrowv c s
  | .rxTcolv c => Sys2Proof.Machine.execRxTcolv c s
  | .rxTcolocc c => Sys2Proof.Machine.execRxTcolocc c s
  | .rxTrowocc c => Sys2Proof.Machine.execRxTrowocc c s
  | .rxTpop c => Sys2Proof.Machine.execRxTpop c s
  | .rxCover c => Sys2Proof.Machine.execRxCover c s
  | .rxTmerge c => Sys2Proof.Machine.execRxTmerge c s
  | .rxCycle c => Sys2Proof.Machine.execRxCycle c s
  | .opTimeout c => Sys2Proof.Machine.execOpTimeout c s
  | .drcCommandSlot d => Sys2Proof.Machine.execDrcCommandSlot d s
  | .refreshDue d => Sys2Proof.Machine.execRefreshDue d s
  | .drcInit m d => Sys2Proof.Machine.execDrcInit m d s
  | .drcTrainingDone d failStep ca dq => Sys2Proof.Machine.execDrcTrainingDone d failStep ca dq s
  | .cap l x => Sys2Proof.Machine.execCap l x s
  | .laneStepPass l => Sys2Proof.Machine.execLaneStepPass l s
  | .stepTimeout x => Sys2Proof.Machine.execStepTimeout x s
  | .lockTimeout x => Sys2Proof.Machine.execLockTimeout x s
  | .bringupRetry g => Sys2Proof.Machine.execBringupRetry g s
  | .laneLossOfLock x cause errs => Sys2Proof.Machine.execLaneLossOfLock x cause errs s
  | .narrow g x => Sys2Proof.Machine.execNarrow g x s
  | .narrowTimeout g => Sys2Proof.Machine.execNarrowTimeout g s
  | .widen l x => Sys2Proof.Machine.execWiden l x s
  | .retrainRetry l => Sys2Proof.Machine.execRetrainRetry l s
  | .skpSend l => Sys2Proof.Machine.execSkpSend l s
  | .lnTestMode m l mode => Sys2Proof.Machine.execLnTestMode m l mode s
  | .injOne m l => Sys2Proof.Machine.execInjOne m l s
  | .liveInj m l => Sys2Proof.Machine.execLiveInj m l s
  | .eyeScanStart m l => Sys2Proof.Machine.execEyeScanStart m l s
  | .eyeScanDone l errs => Sys2Proof.Machine.execEyeScanDone l errs s
  | .refclkWindow count => Sys2Proof.Machine.execRefclkWindow count s
  | .refclkMissingEdge => Sys2Proof.Machine.execRefclkMissingEdge s
  | .tbIncrement => Sys2Proof.Machine.execTbIncrement s
  | .tbTimeLoRead p => Sys2Proof.Machine.execTbTimeLoRead p s
  | .syncInterval at_ => Sys2Proof.Machine.execSyncInterval at_ s
  | .delayReqSend at_ => Sys2Proof.Machine.execDelayReqSend at_ s
  | .sync down f at_ => Sys2Proof.Machine.execSync down f at_ s
  | .followUp down f => Sys2Proof.Machine.execFollowUp down f s
  | .delayReq down f at_ => Sys2Proof.Machine.execDelayReq down f at_ s
  | .delayResp down f => Sys2Proof.Machine.execDelayResp down f s
  | .holdover => Sys2Proof.Machine.execHoldover s
  | .tbCtrlReseed m => Sys2Proof.Machine.execTbCtrlReseed m s
  | .trigFire t => Sys2Proof.Machine.execTrigFire t s
  | .sqJoin down f => Sys2Proof.Machine.execSqJoin down f s
  | .sqArrive down f => Sys2Proof.Machine.execSqArrive down f s
  | .sqRelease down f => Sys2Proof.Machine.execSqRelease down f s
  | .timEdge src rising q => Sys2Proof.Machine.execTimEdge src rising q s
  | .timOverflow t => Sys2Proof.Machine.execTimOverflow t s
  | .timTimeout t => Sys2Proof.Machine.execTimTimeout t s
  | .adcConversionDone r => Sys2Proof.Machine.execAdcConversionDone r s
  | .thmPeriod => Sys2Proof.Machine.execThmPeriod s
  | .bandChange => Sys2Proof.Machine.execBandChange s
  | .acqSample slice code stall => Sys2Proof.Machine.execAcqSample slice code stall s
  | .acqRearm => Sys2Proof.Machine.execAcqRearm s
  | .acqAutoTrigger => Sys2Proof.Machine.execAcqAutoTrigger s
  | .acqDeferExpiry => Sys2Proof.Machine.execAcqDeferExpiry s
  | .acqCtrlForce m => Sys2Proof.Machine.execAcqCtrlForce m s
  | .acqRdWrite m v => Sys2Proof.Machine.execAcqRdWrite m v s
  | .calSlewTick => Sys2Proof.Machine.execCalSlewTick s
  | .calItemDone r => Sys2Proof.Machine.execCalItemDone r s
  | .faultTick => Sys2Proof.Machine.execFaultTick s
  | .faultWindowEnd => Sys2Proof.Machine.execFaultWindowEnd s
  | .errNPulseEnd => Sys2Proof.Machine.execErrNPulseEnd s
  | .resetAction => Sys2Proof.Machine.execResetAction s
  | .fltRaise m n v => Sys2Proof.Machine.execFltRaise m n v s
  | .feRearm m => Sys2Proof.Machine.execFeRearm m s
  | .twHello f => Sys2Proof.Machine.execTwHello f s
  | .twJnl f preimage => Sys2Proof.Machine.execTwJnl f preimage s
  | .twJnlAck f => Sys2Proof.Machine.execTwJnlAck f s
  | .twStart f => Sys2Proof.Machine.execTwStart f s
  | .twStartAck f => Sys2Proof.Machine.execTwStartAck f s
  | .twWrite f => Sys2Proof.Machine.execTwWrite f s
  | .twPost f => Sys2Proof.Machine.execTwPost f s
  | .twCkpt f => Sys2Proof.Machine.execTwCkpt f s
  | .twHandoff f => Sys2Proof.Machine.execTwHandoff f s
  | .twDetach f => Sys2Proof.Machine.execTwDetach f s
  | .twRelease f => Sys2Proof.Machine.execTwRelease f s
  | .twHb f => Sys2Proof.Machine.execTwHb f s
  | .twinHeartbeat => Sys2Proof.Machine.execTwinHeartbeat s
  | .sideRelease => Sys2Proof.Machine.execSideRelease s
  | .twinPeerToggle => Sys2Proof.Machine.execTwinPeerToggle s
  | .peerTimeout => Sys2Proof.Machine.execPeerTimeout s
  | .linkTimeout => Sys2Proof.Machine.execLinkTimeout s
  | .recoveryRestore => Sys2Proof.Machine.execRecoveryRestore s
  | .replayRelease => Sys2Proof.Machine.execReplayRelease s
  | .powerOn => Sys2Proof.Machine.execPowerOn s
  | .resetNLow => Sys2Proof.Machine.execResetNLow s
  | .resetNRise pins => Sys2Proof.Machine.execResetNRise pins s
  | .rstCtrlChip m => Sys2Proof.Machine.execRstCtrlChip m s
  | .chipResetInternal => Sys2Proof.Machine.execChipResetInternal s
  | .rstUnitPs m v => Sys2Proof.Machine.execRstUnitPs m v s
  | .rstUnitCb m v => Sys2Proof.Machine.execRstUnitCb m v s
  | .rstUnitVs m v => Sys2Proof.Machine.execRstUnitVs m v s
  | .rstUnitAc m v => Sys2Proof.Machine.execRstUnitAc m v s
  | .rstUnitTimeout cls n => Sys2Proof.Machine.execRstUnitTimeout cls n s
  | .tapReset => Sys2Proof.Machine.execTapReset s
  | .startupPll => Sys2Proof.Machine.execStartupPll s
  | .pllLock pll => Sys2Proof.Machine.execPllLock pll s
  | .pllLossOfLock pll => Sys2Proof.Machine.execPllLossOfLock pll s
  | .startupBoot => Sys2Proof.Machine.execStartupBoot s
  | .startupRestore words => Sys2Proof.Machine.execStartupRestore words s
  | .twinRoleDecision toggled => Sys2Proof.Machine.execTwinRoleDecision toggled s
  | .startupPorts => Sys2Proof.Machine.execStartupPorts s
  | .startupRun => Sys2Proof.Machine.execStartupRun s
  | .clkIdleGate dom => Sys2Proof.Machine.execClkIdleGate dom s
  | .domainWake dom => Sys2Proof.Machine.execDomainWake dom s
  | .clkWake dom => Sys2Proof.Machine.execClkWake dom s
  | .validationComplete => Sys2Proof.Machine.execValidationComplete s
  | .graphActive c => Sys2Proof.Machine.execGraphActive c s
  | .ctxResetComplete c => Sys2Proof.Machine.execCtxResetComplete c s
  | .joinCopyComplete => Sys2Proof.Machine.execJoinCopyComplete s
  | .prbsSync x => Sys2Proof.Machine.execPrbsSync x s
  | .prbsSyncLost l bits seed => Sys2Proof.Machine.execPrbsSyncLost l bits seed s
  | .porterWatchdogExpired => Sys2Proof.Machine.execPorterWatchdogExpired s
  | .lossOfPower => Sys2Proof.Machine.execLossOfPower s

end Sys2Proof.Machine
end

