-- ==== Sys2Proof/Safety.lean ====
section
/-! DEFINITION. The words the statements use: canonical states, commands that complete with an effect, what a command leaves
alone, records that are due, frames that leave. -/

namespace Sys2Proof.Machine

/-- Every sparse array of the state is in canonical form, so that equal contents are equal data. -/
def State.canonical (s : State) : Bool :=
  Memory.wf s.mem && Memory.wf s.nvm && tabOk resetAt 0 s.regs

/-- The command answers a next state, neither a fault nor a refusal, and `P` holds of it. -/
def Gives (i : Instr) (s : State) (P : State → Prop) : Prop := ∃ t, exec i s = .next t ∧ P t

/-! ### What stays as it was -/

/-- `t` is `s` but for the registers. -/
def OnlyRegs (s t : State) : Prop := t = { s with regs := t.regs }

/-- `t` is `s` but for the registers and the Wards' event queues. -/
def OnlyRegsEvents (s t : State) : Prop := t = { s with regs := t.regs, wards := t.wards }

/-- `t` is `s` but for what a command's own records touch: the command table, the Journal with the non-volatile memory and its check
bits, and the counter of free values. -/
def OnlyJournal (s t : State) : Prop :=
  t = { s with cmds := t.cmds, jnl := t.jnl, nvm := t.nvm, nvmEcc := t.nvmEcc, fresh := t.fresh }

/-- `t` is `s` but for the ports, the Wards' event queues, what left the device, and the registers LN_TEST of the lanes, whose
LIVE_INJ a leaving frame clears (R247). -/
def OnlyComm (s t : State) : Prop :=
  t = { s with ports := t.ports, wards := t.wards, outs := t.outs, regs := t.regs } ∧
    ∀ a, (∀ l, a ≠ LN_TEST l) → t.rd a = s.rd a

/-- Every register but those at the addresses of `l` reads as before. -/
def RegsKept (l : List Nat) (s t : State) : Prop := ∀ a, a ∉ l → t.rd a = s.rd a

/-- A write of a register with this description stores its fields and does nothing else. -/
def plainReg (d : RegDesc) (ix : List Nat) : Prop :=
  effectOnly d.name = false ∧ effectMask d.name = 0#64 ∧
    ∀ (s : State) (own : Nat → Bool) (a : Nat) (old v : Word), s.writeEffect d ix own a old v = (s, 0)

/-! ### Records of a command (R329, Table 16.3) -/

/-- The record is due, in progress, or on a STANDBY with the ACTIVE member, which writes it (R19, R330). -/
def State.awaits (t : State) (d : DueRec) : Prop :=
  d ∈ t.jnl.due ∨ (∃ r, t.jnl.prog = some r ∧ r.due = some d) ∨ ∃ n, t.jnl.fwd = some (d, n)

/-- A record of kind `k` for command `id` with a body that satisfies `f` is due or being written. -/
def State.holdsDue (t : State) (k : RecKind) (id : Nat) (f : List Byte → Prop) : Prop :=
  ∃ d, t.awaits d ∧ d.kind = k ∧ d.cmd = some id ∧ f d.body

/-- BODY of a DONE record behind JSEQ: STATUS, three zero bytes, ARG. -/
def doneBody (status arg : Nat) : List Byte := toLe 1 status ++ [0#8, 0#8, 0#8] ++ toLe 4 arg

/-- The command's STARTED record is due: the command has started. -/
def State.starts (t : State) (id : Nat) : Prop := t.holdsDue .started id (fun _ => True)

/-- The command's DONE record with this STATUS and ARG is due: the command has completed. -/
def State.ends (t : State) (id status arg : Nat) : Prop := t.holdsDue .done id (fun b => b = doneBody status arg)

/-- The command's ABANDONED record with this reason is due. -/
def State.abandons (t : State) (id reason : Nat) : Prop := t.holdsDue .abandoned id (fun b => b = toLe 1 reason)

/-- The device is a member of no pair: neither an ACTIVE member with a STANDBY nor a STANDBY (R346). -/
def State.alone (s : State) : Prop := s.paired = false ∧ s.role ≠ 2

/-- The command `c` stands at the front of queue `q` of Ward `w`, has this opcode and may start (R57); the device is in no pair. -/
def State.takes (s : State) (w : Fin 4) (q : Fin 8) (op : Nat) (c : Cmd) : Prop :=
  s.startable w.val q.val op = .go c ∧ s.alone

/-- The command has started and completed with this STATUS; the manual states no ARG for it. -/
def State.completes (t : State) (id status : Nat) : Prop := t.starts id ∧ ∃ arg, t.ends id status arg

/-- The command has started and completed with OK, ARG `n`, and these bytes to follow its CMD_DONE record (R55). -/
def State.returns (t : State) (id n : Nat) (data : List Byte) : Prop :=
  t.starts id ∧ ∃ d, t.awaits d ∧ d.kind = .done ∧ d.cmd = some id ∧
    d.body = doneBody 0 n ∧ d.data = data

/-! ### Frames -/

/-- The data frame `f` is the next one that port `p` expects, fits the credits the port has given, and is not corrupt: the port
delivers it (R45, R47). -/
def State.inOrder (s : State) (p : Nat) (f : Frame) : Bool :=
  s.portHears p f.type && !s.corrupted p f && decide (f.seq = (s.port p).rxNext) && decide ((s.port p).owedHdr + 1 ≤ (s.port p).crdHdr) &&
    decide ((s.port p).owedData + dataUnits f.payload.length ≤ (s.port p).crdData)

/-- A data frame with `n` payload bytes may leave port `p` at once: no other waits and none is owed before it (R51, R57), there is room
in the replay buffer, and the peer's credits suffice (R46, R47). -/
def State.maySend (s : State) (p n : Nat) : Bool :=
  decide ((s.port p).resps = []) && decide ((s.port p).acks = []) && s.portUp p && decide (s.pwr.inReset = none) && decide ((s.port p).txq = []) && decide ((s.port p).replay.length < 128) && decide (1 ≤ (s.port p).peerHdr) &&
    decide (dataUnits n ≤ (s.port p).peerData)

/-- A data frame with `n` payload bytes may leave port `p` once nothing is owed before it. -/
def State.mayFollow (s : State) (p n : Nat) : Bool := (s.modPort p (fun q => { q with resps := [], acks := [] })).maySend p n

/-- The last thing that left the device between `s` and `t` is a data frame of port `p` with this type, STATUS, TAG, QUEUE and
payload. -/
def Sent (s t : State) (p ty status : Nat) (tag : BitVec 16) (queue : Nat) (payload : List Byte) : Prop :=
  ∃ l f a h d crc x, t.outs = s.outs ++ l ++ [Out.frame p f a h d crc x] ∧ f.type = BitVec.ofNat 8 ty ∧ f.status = BitVec.ofNat 8 status ∧
    f.tag = tag ∧ f.queue = BitVec.ofNat 8 queue ∧ f.payload = payload

/-- The data and link frames among what left. -/
def framesOf (l : List Out) : List TxFrame :=
  l.filterMap (fun o => match o with
    | .frame _ f _ _ _ _ _ => some f
    | _ => none)

/-! ### Microwords -/

/-- A microword of which only SEQ, COND, TARGET, LCSEL and IMM are not 0 (Table 4.3). -/
def ctlWord (seq cond target lcsel imm : Nat) : Micro :=
  BitVec.ofNat 160 (seq * 2 ^ 154 + cond * 2 ^ 148 + target * 2 ^ 135 + lcsel * 2 ^ 132 + imm * 2 ^ 32)

/-- Sequencer `k` is in SETUP mode and may issue; no breakpoint, trace, STEP, held request or draw concerns the next microword, no
routine waits for its commit, and DR holds no bit beyond DWIDTH. -/
def State.setupPlain (s : State) (k : Nat) : Bool :=
  s.uReady k && decide ((s.seq k).st = .setup) && !(s.seq k).arch.beatMode && !s.gb (PS_DBG_BP_EN k) && !s.gb (PS_DBG_TRACE_EN k) &&
    !(s.seq k).step && !(s.seq k).pendStop && !(s.seq k).pendPause && !(s.seq k).urWait &&
    decide ((s.seq k).arch.dr.toNat < 2 ^ s.dwidth k)

/-! ### Vector streams -/

/-- Engine `v` decodes a stream held in the Vector Buffer, and the bytes `b` stand next in it, within the stream; no stored word of the
device is in error. -/
def State.streamAt (s : State) (v : Nat) (b : List Byte) : Bool :=
  s.ticksOf (vsDom v) && s.vsDecodes v && s.vsVb v && decide (s.ecc = []) && decide (s.vsPos v + b.length ≤ s.vsLen v) &&
    decide (s.g (VS_ARM_SRC_STREAM_OFF v) + s.vsLen v ≤ 0xF00000) &&
    decide (s.ld (memBase 1 + s.g (VS_ARM_SRC_STREAM_OFF v) + s.vsPos v) b.length = b)

/-- The engine stands at offset `o`, shows the depth of its loops and the sets it holds; its STATE, stream and binding are as before, no
other engine and no other register is touched. -/
def StreamMoved (v o : Nat) (s t : State) : Prop :=
  t.vsPos v = o ∧ t.g (VS_LEVEL_QUEUE v) = (t.vse v).queue.length % 64 ∧ t.g (VS_STATUS_LOOP_DEPTH v) = (t.vse v).loops.length % 8 ∧
    t.g (VS_STATUS_SEQ v) = s.g (VS_STATUS_SEQ v) ∧ (∀ j, j ≠ v → t.vse j = s.vse j) ∧ RegsKept [VS_POS v, VS_LEVEL v, VS_STATUS v] s t

/-- The sets `l` join the output queue in order, the last of them is the current set, and nothing else of the engine changes. -/
def setsJoin (x : VsEng) (l : List (List PinWord)) : VsEng :=
  { x with queue := x.queue ++ l, cur := l.getLastD x.cur, emitted := x.emitted + l.length, part := 0 }

/-! ### Analysis Cores -/

/-- Core `c` runs, no stored word is in error, and the `n` bytes at its pc, at local offset `off`, are the encoding `w` of the
instruction `i` (R182, R184). -/
def State.atInstr (s : State) (c off n w : Nat) (i : Option Rv) : Bool :=
  s.coreRuns c && decide (s.ecc = []) && decide ((s.core c).pc = BitVec.ofNat 64 (0xFFFFFFFFFFFC0000 + off)) && decide (off + n ≤ 0x40000) &&
    decide (leNat (s.ld (coreMem c + off) n) = w) && decide ((n = 2 ∧ w % 4 ≠ 3 ∧ decode16 w = i) ∨ (n = 4 ∧ w % 4 = 3 ∧ decode32 w = i))

/-- Core `c` goes on at `pc`; register `rd` holds `v`, x0 and every other register, and every other core, are as they were. -/
def CoreWrote (c rd : Nat) (v pc : Word) (s t : State) : Prop :=
  t.core c = { s.core c with pc := pc, x := (t.core c).x } ∧ (∀ r, r < 32 → t.xr c r = if r = rd ∧ r ≠ 0 then v else s.xr c r) ∧
    ∀ d, d ≠ c → t.core d = s.core d

/-- Row `r` of the tile at local offset `o` of core `c` (R192). -/
def State.tileRow (s : State) (c o r : Nat) : Word := BitVec.ofNat 64 (leNat (s.ld (coreMem c + o + 8 * r) 8))

/-- Bit `b` of row `r` of the tile. -/
def State.tileBit (s : State) (c o r b : Nat) : Bool := (s.tileRow c o r).getLsbD b

/-- The run of core `c` ends with STATUS `st`, which the Dispatcher is offered as a failure; the core is IDLE. -/
def RunFails (c st : Nat) (r : RunInfo) (s t : State) : Prop :=
  t.disp.offers = s.disp.offers ++ [(c, .failure r.ctx r.op st)] ∧ (t.core c).st = .idle ∧ (t.core c).run = none ∧
    t.g (AC_TRAP_STATUS c) = st ∧ t.g (AC_TRAP_SLOT c) = r.slot % 2 ^ 13 ∧ t.g (AC_RUNS_RUNS c) = (s.g (AC_RUNS_RUNS c) + 1) % 2 ^ 32 ∧
    (∀ d, d ≠ c → t.core d = s.core d) ∧ (t.ctx r.ctx).running = (s.ctx r.ctx).running - 1

/-- The run `r` of core `c` is one of an operation without NOTIFY of a context that is not FAULTED; the completion FIFO has room. -/
def State.plainRun (s : State) (c : Nat) (r : RunInfo) : Prop :=
  (s.core c).run = some r ∧ r.ctx < 1024 ∧ (s.ctx r.ctx).st ≠ .faulted ∧ s.fifoHas = true ∧ r.batch = none ∧
    ∃ o, (s.ctx r.ctx).ops[r.op]? = some o ∧ nbit (u o.desc 7 1) 1 = false

end Sys2Proof.Machine
end

