-- ==== Sys2Proof/Certificates/Slice0/Obligations.lean ====
section
/-! DEFINITION. The statements for the provers, in the words of Safety: what every command does, where it completes, and what it leaves
alone. -/

open Sys2Proof Sys2Proof.Machine

/-- R49, R52, R53: a read of a run of registers that passes every check answers REG_RD_RSP with OK and the values, in order, as
they stand when the frame is delivered; besides the communication only what a read itself does happens (R253, R326, R364). The first
check that fails gives the status and nothing changes: LENGTH_ERROR, ADDR_INVALID above bit 39, ALIGN_ERROR, ADDR_INVALID outside the
register space, then the status of the first address. Of a register a Ward reads what its own units have and what belongs to the
device; another Ward's register is refused with WARD_FENCE, to the Plan Ward too, which alone reads a register of an unowned unit and
the WRD_ registers of every Ward; a Ward writes its own units' registers, and the Plan Ward alone the device's. -/
def Obligations.RegisterReadAnswers : Prop :=
  ∀ (s : State) (p w : Fin 4) (f : Frame) (a n : Nat), s.inOrder p.val f = true → s.portWard p.val = some w.val →
    s.nvmEcc = [] → f.payload = toLe 8 a ++ toLe 8 n → a < 2 ^ 64 → n < 2 ^ 64 →
    (1 ≤ n → n ≤ 256 → a % 8 = 0 → a + 8 * n ≤ 0x10000000 → s.maySend p.val (8 * n) = true →
      (∀ i, i < n → s.regCheck (.ward w) false (a + 8 * i) = 0) →
      Gives (.regRd p f) s (fun t => ∃ u : State, u = { s with ports := u.ports, wards := u.wards } ∧ u.wards = t.wards ∧
        OnlyComm (u.readMany w.val ((List.range n).map (fun i => a + 8 * i))).1 t ∧
        Sent s t p.val 0x81 0 f.tag 0
          ((u.readMany w.val ((List.range n).map (fun i => a + 8 * i))).2.flatMap (fun v : Word => toLe 8 v.toNat)))) ∧
    (s.maySend p.val 0 = true →
      (n = 0 ∨ 256 < n → Gives (.regRd p f) s (fun t => OnlyComm s t ∧ Sent s t p.val 0x81 5 f.tag 0 [])) ∧
      (1 ≤ n → n ≤ 256 →
        (2 ^ 40 ≤ a → Gives (.regRd p f) s (fun t => OnlyComm s t ∧ Sent s t p.val 0x81 2 f.tag 0 [])) ∧
        (a < 2 ^ 40 → a % 8 ≠ 0 → Gives (.regRd p f) s (fun t => OnlyComm s t ∧ Sent s t p.val 0x81 1 f.tag 0 [])) ∧
        (a < 2 ^ 40 → a % 8 = 0 → 0x10000000 < a + 8 * n →
          Gives (.regRd p f) s (fun t => OnlyComm s t ∧ Sent s t p.val 0x81 2 f.tag 0 [])) ∧
        (a % 8 = 0 → a + 8 * n ≤ 0x10000000 → ∀ i, i < n → (∀ j, j < i → s.regCheck (.ward w) false (a + 8 * j) = 0) →
          s.regCheck (.ward w) false (a + 8 * i) ≠ 0 →
          Gives (.regRd p f) s (fun t => OnlyComm s t ∧
            Sent s t p.val 0x81 (s.regCheck (.ward w) false (a + 8 * i)) f.tag 0 [])))) ∧
    (∀ write d ix, a % 8 = 0 → a < 0x10000000 → csWindow a = none → regAt a = some (d, ix) →
      (s.unitWard d ix = some (some w.val) → s.regCheck (.ward w) write a = 0) ∧
      (∀ o, s.unitWard d ix = some o → o ≠ some w.val → d.own ≠ .ward ∨ d.name = .DSP_WARD →
        s.regCheck (.ward w) write a = if write = false ∧ w = 0 ∧ o = none then 0 else 3) ∧
      (∀ o, s.unitWard d ix = some o → o ≠ some w.val → d.own = .ward → d.name ≠ .DSP_WARD →
        s.regCheck (.ward w) write a = if write = false ∧ w = 0 then 0 else 3) ∧
      (s.unitWard d ix = none → write = false → s.regCheck (.ward w) write a = 0) ∧
      (s.unitWard d ix = none → write = true → d.own ≠ .acq → d.own.isBits = false →
        s.regCheck (.ward w) write a = if w = 0 then 0 else 3))

/-- R9, R52, R71: a host's write of a register that its Ward may write and that does nothing but store: every RW field takes the bits
written where they are an encoding it may hold and else keeps its value, RO and sealed RWP fields keep theirs, no other register
changes and nothing else but the demand for the unit's clock (R364). A write that the unit turns away as busy stores nothing, and one
that the checks refuse, of another Ward's register by the Plan Ward too, changes nothing at all.
R49, R62: REG_WR of one such register stores the same and answers OK, or RESOURCE_BUSY where the unit turns it away; a word the checks
refuse is answered with their status and nothing changes; a STANDBY stores nothing and answers NOT_ACTIVE. -/
def Obligations.RegisterWritesStore : Prop :=
  (∀ (s : State) (w : Fin 4) (a : BitVec 32) (v : Word), s.paired = false → s.twin.copying = false →
    (s.regCheck (.ward w) true a.toNat ≠ 0 → Gives (.registerWrite (.ward w) a v) s (fun t => t = s)) ∧
    (∀ d ix, s.regCheck (.ward w) true a.toNat = 0 → csWindow a.toNat = none → regAt a.toNat = some (d, ix) →
      (s.writeBusy d ix v = true → Gives (.registerWrite (.ward w) a v) s (fun t => t = s.touch a.toNat)) ∧
      (s.writeBusy d ix v = false → writeVoid d v = false → plainReg d ix → d.own.isBits = false →
        Gives (.registerWrite (.ward w) a v) s (fun t =>
          t = { s.touch a.toNat with regs := t.regs } ∧ RegsKept [a.toNat] s t ∧ ∀ f, f ∈ d.flds →
            (f.acc = .rw → getBits (t.rd a.toNat) f.hi f.lo =
              if s.fieldFits d f (getBits v f.hi f.lo) = true then getBits v f.hi f.lo else getBits (s.rd a.toNat) f.hi f.lo) ∧
            (f.acc = .ro → getBits (t.rd a.toNat) f.hi f.lo = getBits (s.rd a.toNat) f.hi f.lo) ∧
            (f.acc = .rwp → s.plan.sealed = true → getBits (t.rd a.toNat) f.hi f.lo = getBits (s.rd a.toNat) f.hi f.lo))))) ∧
  (∀ (s : State) (p w : Fin 4) (f : Frame) (a : Nat) (v : Word), s.inOrder p.val f = true → s.maySend p.val 0 = true →
    s.portWard p.val = some w.val → s.paired = false → s.twin.copying = false →
    f.payload = toLe 8 a ++ toLe 8 v.toNat →
    (s.role = 2 → a < 2 ^ 64 → Gives (.regWr p f) s (fun t => OnlyComm s t ∧ Sent s t p.val 0x82 0xE f.tag 0 [])) ∧
    (s.role ≠ 2 → a < 0x10000000 → a % 8 = 0 →
      (s.regCheck (.ward w) true a ≠ 0 →
        Gives (.regWr p f) s (fun t => OnlyComm s t ∧ Sent s t p.val 0x82 (s.regCheck (.ward w) true a) f.tag 0 [])) ∧
      (∀ d ix, s.regCheck (.ward w) true a = 0 → csWindow a = none → regAt a = some (d, ix) →
        (s.writeBusy d ix v = true → Gives (.regWr p f) s (fun t => OnlyComm (s.touch a) t ∧ Sent s t p.val 0x82 6 f.tag 0 [])) ∧
        (s.writeBusy d ix v = false → writeVoid d v = false → plainReg d ix → d.own.isBits = false →
          (∀ g, g ∈ d.flds → g.acc ≠ .rwp) → (∀ l, a ≠ LN_TEST l) →
          Gives (.regWr p f) s (fun t => OnlyComm ((s.touch a).wr a (t.rd a)) t ∧ Sent s t p.val 0x82 0 f.tag 0 [] ∧
            ∀ g, g ∈ d.flds →
              (g.acc = .rw → getBits (t.rd a) g.hi g.lo =
                if s.fieldFits d g (getBits v g.hi g.lo) = true then getBits v g.hi g.lo else getBits (s.rd a) g.hi g.lo) ∧
              (g.acc = .ro → getBits (t.rd a) g.hi g.lo = getBits (s.rd a) g.hi g.lo))))))

/-- R49, R50, R62, R211, R217, R221: MEM_RD and MEM_WR of any length the rules allow, in every memory of Table 10.1. MEM_WR stores its
bytes at the address of the frame, MEM_RD returns the bytes there, and both answer OK; no other byte changes, and in DRAM only the
queues of the channels besides. A range that the Ward does not own whole is answered WARD_FENCE; a length or an address that is no
multiple of 8 ALIGN_ERROR; a range outside the windows and DRAM, or over two of them, ADDR_INVALID; a DRAM range with an offset beyond
the fitted size or on a channel that is not READY is refused whole with ADDR_INVALID, counted and raised. A write whose channel has no
room is not performed yet, and its response waits. No request waits for room before, and no word of the range is in error (that a
response waits so is the model's choice: notes/assumptions/81.md). -/
def Obligations.MemoryFramesAct : Prop :=
  ∀ (s : State) (p w : Fin 4) (f : Frame) (a n m o : Nat) (b : List Byte), s.inOrder p.val f = true → s.maySend p.val n = true →
    s.portWard p.val = some w.val → s.paired = false → s.twin.copying = false → s.role ≠ 2 → s.waitingReqs = [] →
    a < 2 ^ 40 → 8 ≤ n → b.length = n → n ≤ 2040 ∨ n ≤ 2048 ∧ f.payload = toLe 8 a ++ toLe 8 n →
    (f.payload = toLe 8 a ++ b ∨ f.payload = toLe 8 a ++ toLe 8 n →
      let wr : Bool := decide (f.payload = toLe 8 a ++ b)
      let i : Instr := if wr then .memWr p f else .memRd p f
      let ty := if wr then 0x84 else 0x83
      (a % 8 ≠ 0 ∨ n % 8 ≠ 0 → Gives i s (fun t => OnlyComm s t ∧ Sent s t p.val ty 1 f.tag 0 [])) ∧
      (a % 8 = 0 → n % 8 = 0 →
        (memOf a = none ∨ memOf (a + n - 1) = none ∨ (memOf a).map (·.1) ≠ (memOf (a + n - 1)).map (·.1) →
          Gives i s (fun t => OnlyComm s t ∧ Sent s t p.val ty 2 f.tag 0 [])) ∧
        (memOf a = some (m, o) → memOf (a + n - 1) = some (m, o + n - 1) →
          (s.memOwned w.val m o n = false → Gives i s (fun t => OnlyComm s t ∧ Sent s t p.val ty 3 f.tag 0 [])) ∧
          (s.memOwned w.val m o n = true → m = 0 → (∃ j, j < n ∧ s.rangeBad (o + j) = true) →
            Gives i s (fun t => Sent s t p.val ty 2 f.tag 0 [] ∧ t.mem = s.mem ∧ t.drcs = s.drcs ∧ 260 ∈ t.flt.pend ∧
              t.g MEM_RANGE_ERR_COUNT = satAdd 16 (s.g MEM_RANGE_ERR_COUNT) 1))))) ∧
    (f.payload = toLe 8 a ++ b → a % 8 = 0 → n % 8 = 0 → memOf a = some (m, o) → memOf (a + n - 1) = some (m, o + n - 1) →
      s.memOwned w.val m o n = true →
      (m ≠ 0 → Gives (.memWr p f) s (fun t => t.ld a n = b ∧ (∀ x, x < a ∨ a + n ≤ x → t.ldB x = s.ldB x) ∧
        OnlyComm { s with mem := t.mem, ecc := t.ecc } t ∧ Sent s t p.val 0x84 0 f.tag 0 [])) ∧
      (m = 0 → (∀ j, j < n → s.rangeBad (o + j) = false) →
        ((∀ d, d < 4 → (s.drc d).be.length + ((o + n - 1) / 64 - o / 64 + 1) ≤ 32) →
          Gives (.memWr p f) s (fun t => t.ld a n = b ∧ (∀ x, x < a ∨ a + n ≤ x → t.ldB x = s.ldB x) ∧
            OnlyComm { s with mem := t.mem, ecc := t.ecc, drcs := t.drcs } t ∧ Sent s t p.val 0x84 0 f.tag 0 [])) ∧
        (o / 64 = (o + n - 1) / 64 → 32 ≤ (s.drc (s.dramCh o)).be.length → s.dramCh o < 4 →
          Gives (.memWr p f) s (fun t => t.mem = s.mem ∧ t.outs = s.outs ∧
            (t.port p.val).resps = (s.port p.val).resps ++ [⟨some (memTok p f), dataFrame 0x84 0 f.tag 0 []⟩])))) ∧
    (f.payload = toLe 8 a ++ toLe 8 n → a % 8 = 0 → n % 8 = 0 → memOf a = some (m, o) → memOf (a + n - 1) = some (m, o + n - 1) →
      s.memOwned w.val m o n = true → (∀ x, x < n → s.eccAt (a + x) = none) →
      (m ≠ 0 → Gives (.memRd p f) s (fun t => OnlyComm s t ∧ Sent s t p.val 0x83 0 f.tag 0 (s.ld a n))) ∧
      (m = 0 → (∀ j, j < n → s.rangeBad (o + j) = false) →
        (∀ d, d < 4 → (s.drc d).be.length + ((o + n - 1) / 64 - o / 64 + 1) ≤ 32) →
        Gives (.memRd p f) s (fun t => OnlyComm { s with drcs := t.drcs } t ∧ Sent s t p.val 0x83 0 f.tag 0 (s.ld a n))))

/-- R51, R61: a front-end transfer of a Ward that may use the port starts at once: its bytes leave on the port, and the port is busy until
FCP_TRANSFER_DONE, whose sampled bytes the response returns, padded to 8 bytes; while it is busy another transfer is answered
RESOURCE_BUSY, behind what the host port still owes: responses leave in the order of their transactions. -/
def Obligations.FrontEndTransfers : Prop :=
  ∀ (s : State) (p w : Fin 4) (f : Frame) (c : Fin 8) (b : List Byte), b.length = 8 →
    (s.inOrder p.val f = true → s.maySend p.val 0 = true → s.portWard p.val = some w.val → s.role ≠ 2 →
      f.payload = toLe 8 (c.val + 8 * 8) ++ b → s.mayArm w.val 1 c.val = true →
      (s.fcp[c] = none →
        Gives (.fcpXfer p f) s (fun t => OnlyComm { s with fcp := s.fcp.set c (some ⟨w, some (p.val, f.tag), none, b⟩) } t ∧
          t.outs = s.outs ++ [.fcp c.val b])) ∧
      (s.fcp[c] ≠ none → Gives (.fcpXfer p f) s (fun t => OnlyComm s t ∧ Sent s t p.val 0x86 6 f.tag 0 []))) ∧
    (∀ x : FcpXfer, ∀ tag miso, s.ticks = true → s.fcp[c] = some x → x.port = some (p.val, tag) → miso.length = x.mosi.length →
      (s.port p.val).resps = [⟨some c.val, dataFrame 0x86 0 tag 0 []⟩] → s.mayFollow p.val (pad8 miso).length = true →
      Gives (.fcpTransferDone c miso) s (fun t => OnlyComm { s with fcp := s.fcp.set c none } t ∧
        Sent s t p.val 0x86 0 tag 0 (pad8 miso))) ∧
    (∀ (x : Owed) (l : List Owed) (d : Fin 8), (s.port p.val).resps = x :: l → x.wait.isSome = true → (s.port p.val).txq = [] →
      s.inOrder p.val f = true → s.portWard p.val = some w.val → s.role ≠ 2 → f.payload = toLe 8 (d.val + 8 * 8) ++ b →
      s.mayArm w.val 1 d.val = true → s.fcp[d] ≠ none →
      Gives (.fcpXfer p f) s (fun t => OnlyComm s t ∧ t.outs = s.outs ∧
        (t.port p.val).resps = x :: l ++ [⟨none, dataFrame 0x86 6 f.tag 0 []⟩]))

/-- R54, R56, R57: CMD completes for every command frame that passes the acceptance checks, on a single device, a member of a pair, and a
STANDBY for REPLAY, LEAVE and JOIN: the command takes the last place of the command table with its opcode, arguments, FENCE and NOTIFY,
its ACCEPTED record becomes due, and its CMD_ACK is owed behind those of earlier commands; the queue's LAST_TAG is its TAG. Outside a
pair no other register changes, and nothing else but what a record touches. Before the start-up reaches RUN a frame waits at its port
(the model's choice: notes/assumptions/123.md). -/
def Obligations.CommandsAreAccepted : Prop :=
  ∀ (s : State) (p w : Fin 4) (f : Frame) (op n : Nat) (fence notify : Bool), s.inOrder p.val f = true →
    (s.port p.val).txq = [] → s.portWard p.val = some w.val →
    (5 ≤ s.g RST_STATUS_PHASE → (s.port p.val).acks.takeWhile (fun o => o.wait.isNone) = [] → op ∈ opcodes →
      (isPlanOp op = true → w = 0) → (s.role = 2 → op ∈ [0xA0, 0xA1, 0xA2]) → s.out = false →
      s.queueDepth w.val (f.queue.toNat % 8) < 512 → n ≤ 2040 →
      u f.payload 0 8 = op + 2 ^ 16 * n + 2 ^ 32 * b2n fence + 2 ^ 33 * b2n notify → f.payload.length = roundUp 8 (8 + n) →
      Gives (.cmd p f) s (fun t =>
        (∃ c : Cmd, c.id = s.jnl.nextId ∧ c.ward = w ∧ c.queue.val = f.queue.toNat % 8 ∧ c.port = p.val ∧ c.tag = f.tag ∧
          c.opcode = op ∧ c.hdr.toNat = u f.payload 0 8 ∧ c.args = sub f.payload 8 n ∧ c.fence = fence ∧ c.notify = notify ∧
          c.st = .queued ∧ c.committed = false ∧ c.started = false ∧ c.own = true ∧
          t.cmds.map (fun x => { x with jseq := none }) = (s.cmds ++ [c]).map (fun x => { x with jseq := none })) ∧
        t.holdsDue .accepted s.jnl.nextId (fun _ => True) ∧ t.g (WRD_QSTATUS_LAST_TAG w.val (f.queue.toNat % 8)) = f.tag.toNat ∧
        (t.port p.val).acks = (s.port p.val).acks ++ [⟨some s.jnl.nextId, dataFrame 0x85 0 f.tag (f.queue.toNat % 8) []⟩] ∧
        (s.alone → RegsKept [WRD_QSTATUS w.val (f.queue.toNat % 8)] s t ∧
          OnlyJournal { s with regs := t.regs, ports := t.ports, wards := t.wards } t))) ∧
    (s.g RST_STATUS_PHASE < 5 → Gives (.cmd p f) s (fun t => OnlyComm s t ∧ t.outs = s.outs ∧
      (t.port p.val).early = (s.port p.val).early ++ [f]))

/-- R54, R56, R63: a command frame that fails an acceptance check is not accepted: CMD_ACK carries the status of the first check that
fails, for whatever header the frame has: LENGTH_ERROR, BAD_OPCODE for an opcode outside Table 3.5 or a reserved bit, NOT_PLAN_WARD,
NOT_ACTIVE, OUT_OF_OPERATION, QUEUE_FULL. The Ward's refusal is counted with its status and queue, and neither the command table nor the
Journal nor any other register changes. -/
def Obligations.CommandsAreRefused : Prop :=
  ∀ (s : State) (p w : Fin 4) (f : Frame) (op n : Nat) (fence notify : Bool), s.inOrder p.val f = true → s.maySend p.val 0 = true →
    s.portWard p.val = some w.val → 5 ≤ s.g RST_STATUS_PHASE →
    let q := f.queue.toNat % 8
    let h := u f.payload 0 8
    let refused (st : Nat) : Prop := Gives (.cmd p f) s (fun t => Sent s t p.val 0x85 st f.tag q [] ∧
      OnlyComm { s with regs := t.regs } t ∧ (∀ a, a ≠ WRD_REFUSED w.val → (∀ l, a ≠ LN_TEST l) → t.rd a = s.rd a) ∧
      t.g (WRD_REFUSED_COUNT w.val) = satAdd 32 (s.g (WRD_REFUSED_COUNT w.val)) 1 ∧
      t.g (WRD_REFUSED_LAST_STATUS w.val) = st ∧ t.g (WRD_REFUSED_LAST_QUEUE w.val) = q)
    (f.payload.length < 8 ∨ f.payload.length ≠ roundUp 8 (8 + h / 2 ^ 16 % 2 ^ 11) → refused 5) ∧
    (8 ≤ f.payload.length → f.payload.length = roundUp 8 (8 + h / 2 ^ 16 % 2 ^ 11) →
      (h % 2 ^ 16 ∉ opcodes ∨ h / 2 ^ 27 % 2 ^ 5 ≠ 0 ∨ h / 2 ^ 34 % 2 ^ 30 ≠ 0 → refused 0xC) ∧
      (h = op + 2 ^ 16 * n + 2 ^ 32 * b2n fence + 2 ^ 33 * b2n notify → op ∈ opcodes → n < 2 ^ 11 →
        (isPlanOp op = true → w ≠ 0 → refused 9) ∧
        ((isPlanOp op = true → w = 0) →
          (s.role = 2 → op ∉ [0xA0, 0xA1, 0xA2] → refused 0xE) ∧
          ((s.role = 2 → op ∈ [0xA0, 0xA1, 0xA2]) →
            (s.out = true → refused 0xF) ∧
            (s.out = false → 512 ≤ s.queueDepth w.val q → refused 0xB)))))

/-- R42 to R47: on a port that is UP, a frame whose CRC does not fit its bytes is dropped and counted; a data frame of an unknown type in order takes its SEQ and is counted as a sequence error; a
CREDIT frame adds its credits and drops what it acknowledges; NAK and an acknowledgement timeout send every unacknowledged frame
again, in order.
R48, R59, R60: a host port that has not come UP within LINK_HOLD becomes DOWN and forgets its link state, while the event records
of its Ward stay queued; queued event records of a Ward leave in one EVENT frame when the port may send. -/
def Obligations.LinksCarryFrames : Prop :=
  (∀ (s : State) (p : Fin 4) (f : Frame), s.portHears p.val f.type = true → (s.port p.val).txq = [] →
    (s.corrupted p.val f = true → (s.port p.val).nakSent = true → Gives (.credit ⟨p.val, by omega⟩ f) s (fun t =>
      t = s.inc (LNK_PORT_ERR_CRC_ERR p.val) 1)) ∧
    (s.corrupted p.val f = false →
    (s.inOrder p.val f = true → Gives (.unknownFrame ⟨p.val, by omega⟩ f) s (fun t =>
      (t.port p.val).rxNext = (s.port p.val).rxNext + 1#16 ∧
      t.g (LNK_PORT_ERR_SEQ_ERR p.val) = satAdd 16 (s.g (LNK_PORT_ERR_SEQ_ERR p.val)) 1 ∧
      RegsKept [LNK_PORT_ERR p.val] s t ∧ t.outs = s.outs)) ∧
    Gives (.credit ⟨p.val, by omega⟩ f) s (fun t =>
      (t.port p.val).peerHdr = (s.port p.val).peerHdr + f.crdHdr.toNat ∧
      (t.port p.val).peerData = (s.port p.val).peerData + f.crdData.toNat ∧
      (t.port p.val).replay = (s.port p.val).replay.dropWhile (fun x => covers f.ack x.seq) ∧
      t = { s with ports := t.ports, wards := t.wards }) ∧
    (((s.port p.val).replay.dropWhile (fun x => covers f.ack x.seq)) ≠ [] →
      (s.port p.val).replays < s.g (LNK_PORT_CFG_REPLAY_LIMIT p.val) →
      Gives (.nak ⟨p.val, by omega⟩ f) s (fun t =>
        framesOf t.outs = framesOf s.outs ++ (s.port p.val).replay.dropWhile (fun x => covers f.ack x.seq) ∧
        (t.port p.val).replay = (s.port p.val).replay.dropWhile (fun x => covers f.ack x.seq)))) ∧
    ((s.port p.val).replay ≠ [] → (s.port p.val).replays < s.g (LNK_PORT_CFG_REPLAY_LIMIT p.val) →
      Gives (.ackTimeout ⟨p.val, by omega⟩) s (fun t =>
        framesOf t.outs = framesOf s.outs ++ (s.port p.val).replay ∧ (t.port p.val).replay = (s.port p.val).replay ∧
        (t.port p.val).replays = (s.port p.val).replays + 1))) ∧
  (∀ (s : State), (∀ (p : Fin 4), (s.port p.val).holding = true → s.g (LN_GRP_STATUS_STATE p.val) = 1 →
      Gives (.linkHold ⟨p.val, by omega⟩) s (fun t => t.g (LN_GRP_STATUS_STATE p.val) = 0 ∧ t.port p.val = .zero ∧
        (∀ w : Fin 4, ∀ e ∈ (s.wst w.val).evq, e ∈ (t.wst w.val).evq) ∧
        t.outs = s.outs)) ∧
    (∀ (w : Fin 4) (e : Ev), (s.ward w.val).enable = true → (s.ward w.val).port < 4 → e.data = [] →
      s.maySend (s.ward w.val).port 32 = true → (s.wst w.val).evq = [e] → (s.wst w.val).flight = 0 →
      Gives (.eventFrameSend w) s (fun t => OnlyComm s t ∧ Sent s t (s.ward w.val).port 0x87 0 0#16 0 e.bytes ∧
        (t.wst w.val).evq = [e] ∧ (t.wst w.val).flight = 1)))

/-- R19, R329, R330: the commit of the record in progress writes its commit word into its slot and moves JNL_HEAD to it; the commit of
an ACCEPTED record acknowledges the command to its host with its JSEQ; the commit of a DONE record queues CMD_DONE for its Ward and
ends the command. A word that does not verify for good leaves the record torn and raises JNL_WRITE; that no record follows it is the
model's choice (assumption 93). -/
def Obligations.JournalCommits : Prop :=
  ∀ (s : State) (r : Prog) (d : DueRec) (c : Cmd), s.jnl.prog = some r → r.due = some d → r.cmd = some c.id → d.cmd = some c.id →
    s.ofPeer (some c.id) = false → s.jnl.due = [] → s.thm.finalDue = none → s.cmds = [c] → c.port < 4 →
    r.seqno % jnlSlots ≠ jnlSlots - 1 → r.seqno < 2 ^ 64 →
    (s.progWorn = false → s.progPaired = false → d.kind = .accepted → (s.port c.port).acks = [⟨some c.id, dataFrame 0x85 0 c.tag c.queue.val []⟩] → s.mayFollow c.port 8 = true →
      Gives .journalCommit s (fun t =>
        t.nvLd (jnlAddr (r.seqno % jnlSlots) + 14) 2 = toLe 2 (commitWord r.seqno) ∧ t.g JNL_HEAD_SEQNO = r.seqno ∧
        t.jnl = { s.jnl with prog := none } ∧ t.cmds = [{ c with latest := some r.seqno, committed := true }] ∧
        Sent s t c.port 0x85 0 c.tag c.queue.val (toLe 8 c.jseqN) ∧
        OnlyComm { s with nvm := t.nvm, nvmEcc := t.nvmEcc, jnl := t.jnl, cmds := t.cmds, regs := (s.p JNL_HEAD_SEQNO r.seqno).regs } t)) ∧
    (s.progWorn = false → s.progPaired = false → d.kind = .done → (s.ward c.ward.val).enable = true → (s.wst c.ward.val).evq = [] → (s.wst c.ward.val).lost = 0 →
      Gives .journalCommit s (fun t =>
        t.nvLd (jnlAddr (r.seqno % jnlSlots) + 14) 2 = toLe 2 (commitWord r.seqno) ∧ t.g JNL_HEAD_SEQNO = r.seqno ∧
        t.jnl = { s.jnl with prog := none } ∧ t.cmds = [] ∧
        (t.wst c.ward.val).evq = [⟨2, c.queue.val, u d.body 0 1, c.tag.toNat, c.jseqN, s.now, u d.body 4 4, d.data⟩] ∧
        t = { s with nvm := t.nvm, nvmEcc := t.nvmEcc, jnl := t.jnl, cmds := [], wards := t.wards, regs := (s.p JNL_HEAD_SEQNO r.seqno).regs })) ∧
    (s.progWorn = true → Gives .journalCommit s (fun t => t = { s with jnl := { s.jnl with prog := none, stop := true }, flt := (s.assertFlt 355).flt }))

/-- R56: WRD_QCTL.FLUSH by the Ward of the queue completes in every state of the queue: it abandons every entry of the queue that has not started, with reason HOST; running
commands and those of other queues go on, and every register keeps its value. -/
def Obligations.FlushAbandonsTheQueue : Prop :=
  ∀ (s : State) (w : Fin 4) (q : Fin 8), (s.ward w.val).enable = true → s.alone → s.twin.copying = false →
    (∃ t, Sys2Proof.Machine.exec (.wrdQctlFlush (.ward w) w q) s = .next t ∧
      (∀ c ∈ s.cmds, c.ward = w → c.queue = q → c.waits = true → s.cmds.countP (fun x => decide (x.id = c.id)) = 1 →
        t.abandons c.id 3) ∧
      (∀ c ∈ s.cmds, ¬(c.ward = w ∧ c.queue = q ∧ c.waits = true) → s.cmds.countP (fun x => decide (x.id = c.id)) = 1 →
        ∃ x ∈ t.cmds, x = { c with jseq := x.jseq }) ∧
      RegsKept [] s t ∧ OnlyJournal { s with regs := t.regs } t)

/-- R52, R70, R71: a write to the control-store window of sequencer `k` by its Ward fills a latch with qword 0 or 1; qword 2 stores
the whole word, both latches and its own low 32 bits, under the code of R395, at its place and at no other. While the sequencer runs the
latch takes its qwords all the same, and no word is stored. Every access asks for the clock of the sequencer (R364). -/
def Obligations.ControlStoreWrites : Prop :=
  ∀ (s : State) (w : Fin 4) (k : Fin 32) (word : Fin 8192) (v : Word), (s.ward w.val).enable = true →
    s.seqWard k.val = some w.val → 0x800 ≤ word.val → s.paired = false → s.twin.copying = false →
    (
      Gives (.csLatchWrite (.ward w) k word false v) s (fun t => t = (s.demand (psDom k.val)).modSeq k.val (fun x => { x with latch0 := v })) ∧
      Gives (.csLatchWrite (.ward w) k word true v) s (fun t => t = (s.demand (psDom k.val)).modSeq k.val (fun x => { x with latch1 := v })) ∧
      ((s.seq k.val).st = .idle → Gives (.csWordWrite (.ward w) k word v) s (fun t =>
        t.csWord k.val word.val = csEncode (v.extractLsb' 0 32 ++ (s.seq k.val).latch1 ++ (s.seq k.val).latch0) ∧
        (∀ n, n ≠ word.val → t.csWord k.val n = s.csWord k.val n) ∧
        t = (s.demand (psDom k.val)).modSeq k.val (fun x => { x with cs := (t.seq k.val).cs })))) ∧
    ((s.seq k.val).st = .beat → Gives (.csWordWrite (.ward w) k word v) s (fun t => t = s.demand (psDom k.val)))

/-- R87, R89, R90 (Table 4.13): PS_CTRL of a sequencer of the writing Ward. STOP and PAUSE of a burst in BEAT are held for its next
window, KILL ends the burst at once with cause 3 and completes the commands that stop it, RESUME and STEP leave PAUSED, STEP for one microword. Nothing but this sequencer
changes by STOP, PAUSE, RESUME and STEP but the demand for its clock (R364), and no register does. -/
def Obligations.SequencerControls : Prop :=
  ∀ (s : State) (w : Fin 4) (k : Fin 32), (s.ward w.val).enable = true → s.seqWard k.val = some w.val → s.paired = false →
    s.twin.copying = false →
    ((s.seq k.val).st = .beat →
      Gives (.psCtrlStop (.ward w) k) s (fun t => t.seq k.val = { s.seq k.val with pendStop := true } ∧ RegsKept [] s t ∧
        (∀ j, j ≠ k.val → t.seq j = s.seq j) ∧ t = { s.demand (psDom k.val) with regs := t.regs, seqs := t.seqs }) ∧
      Gives (.psCtrlPause (.ward w) k) s (fun t => t.seq k.val = { s.seq k.val with pendPause := true } ∧ RegsKept [] s t ∧
        (∀ j, j ≠ k.val → t.seq j = s.seq j) ∧ t = { s.demand (psDom k.val) with regs := t.regs, seqs := t.seqs }) ∧
      Gives (.psCtrlKill (.ward w) k) s (fun t => (t.seq k.val).st = .idle ∧ t.g (PS_BURST_END_CAUSE k.val) = 3 ∧
        (t.seq k.val).burst.map (fun b => { b with stream := none }) =
          (s.seq k.val).burst.map (fun b => { b with ended := some 3, stops := [], stream := none }) ∧
        (∀ b i, (s.seq k.val).burst = some b → i ∈ b.stops → s.cmdOpen i = true → t.ends i 0 3) ∧
        (s.seqVs k.val = none → (∀ x, x < 8 → (s.tim x).cmd = none) → (∀ b, (s.seq k.val).burst = some b → b.stops = []) → t.cmds = s.cmds) ∧
        (∀ j, j ≠ k.val → t.seq j = s.seq j) ∧ t.mem = s.mem)) ∧
    ((s.seq k.val).st = .paused → (s.seq k.val).ending = false →
      Gives (.psCtrlResume (.ward w) k) s (fun t =>
        t.seq k.val = { s.seq k.val with st := if (s.seq k.val).arch.beatMode then .beat else .setup, step := false } ∧
        RegsKept [] s t ∧ (∀ j, j ≠ k.val → t.seq j = s.seq j) ∧ t = { s.demand (psDom k.val) with regs := t.regs, seqs := t.seqs }) ∧
      Gives (.psCtrlStep (.ward w) k) s (fun t =>
        t.seq k.val = { s.seq k.val with st := if (s.seq k.val).arch.beatMode then .beat else .setup, step := true } ∧
        RegsKept [] s t ∧ (∀ j, j ≠ k.val → t.seq j = s.seq j) ∧ t = { s.demand (psDom k.val) with regs := t.regs, seqs := t.seqs }))

/-- R72, R74 (Tables 4.3 to 4.5): the silent microwords of SETUP mode. On a sequencer in SETUP without breakpoint, trace, STEP or a held
request, a control word executes as its SEQ says: the PC, a loop counter with its reload register, the stack or the repeat count take
the values of Table 4.4, with COND true or, inverted, false; everything else of the machine stays as it is. -/
def Obligations.ControlMicrowords : Prop :=
  ∀ (s : State) (k : Fin 32) (c : Bool) (target imm lc : Nat), s.setupPlain k.val = true → target < 2 ^ 13 → imm < 2 ^ 32 → lc < 8 →
    let a := (s.seq k.val).arch
    let is (q : Nat) : Prop := s.csWord k.val a.pc = csEncode (ctlWord q (if c then 0 else 32) target lc imm)
    let gets (b : Arch) (t : State) : Prop := t = s.modSeq k.val (fun x => { x with arch := b })
    a.pc + 1 < 2 ^ 13 → 0x800 ≤ a.pc →
    (is 0 → Gives (.uNext k) s (gets { a with pc := a.pc + 1 })) ∧
    (is 1 → (c = true → 0x800 ≤ target) → Gives (.uJump k) s (gets { a with pc := if c then target else a.pc + 1 })) ∧
    (is 2 → c = false → Gives (.uCall k) s (gets { a with pc := a.pc + 1 })) ∧
    (is 3 → c = false → Gives (.uRet k) s (gets { a with pc := a.pc + 1 })) ∧
    (is 0xB → c = false → Gives (.uJumpi k) s (gets { a with pc := a.pc + 1 })) ∧
    (is 2 → c = true → 0x800 ≤ target → ∀ h : a.sp < 16, Gives (.uCall k) s
      (gets { a with stack := a.stack.set a.sp (a.pc + 1), sp := a.sp + 1, pc := target })) ∧
    (is 3 → c = true → 0 < a.sp → 0x800 ≤ a.stack.toList.getD (a.sp - 1) 0 → a.stack.toList.getD (a.sp - 1) 0 < 2 ^ 13 →
      Gives (.uRet k) s (gets { a with sp := a.sp - 1, pc := a.stack.toList.getD (a.sp - 1) 0 })) ∧
    (is 4 → 0x800 ≤ target → (c = true → a.lcv lc ≠ 0 →
      Gives (.uLoop k) s (gets { a.setLc lc (a.lcv lc - 1) with pc := target })) ∧
      (c = false ∨ a.lcv lc = 0 → Gives (.uLoop k) s (gets { a.setLc lc (a.rlv lc) with pc := a.pc + 1 }))) ∧
    (is 5 → Gives (.uLdlc k) s (gets { (a.setLc lc (imm % 2 ^ 24)).setRl lc (imm % 2 ^ 24) with pc := a.pc + 1 })) ∧
    (is 6 → a.rep = none → 0 < imm % 2 ^ 24 → Gives (.uRepeat k) s (gets { a with rep := some (imm % 2 ^ 24) })) ∧
    (∀ r, is 6 → a.rep = some r → Gives (.uRepeat k) s
      (gets (if r ≤ 1 then { a with rep := none, pc := a.pc + 1 } else { a with rep := some (r - 1) }))) ∧
    (is 9 → a.rep = none → Gives (.uFsync k) s (gets { a with pc := a.pc + 1 })) ∧
    (is 0xA → s.gb (PS_DBG_BRK_EN k.val) = false → Gives (.uBreak k) s (gets { a with pc := a.pc + 1 })) ∧
    (is 0xB → c = true → 0x800 ≤ (a.grv (target % 16)).toNat % 2 ^ 13 →
      Gives (.uJumpi k) s (gets { a with pc := (a.grv (target % 16)).toNat % 2 ^ 13 }))

/-- R72, R88, R91, R92: BEGIN in SETUP mode enters BEAT mode and issues the first beat, with the beat number that PS_BEATS had; END
without a held STOP ends the burst with cause 1 and leaves the sequencer IDLE. Other sequencers and the memories are not touched. -/
def Obligations.BurstsBeginAndEnd : Prop :=
  ∀ (s : State) (k : Fin 32), s.setupPlain k.val = true → (s.seq k.val).arch.rep = none → (s.seq k.val).olds = [] →
    let a := (s.seq k.val).arch
    a.pc + 1 < 2 ^ 13 → 0x800 ≤ a.pc →
    (s.csWord k.val a.pc = csEncode (ctlWord 7 0 0 0 0) → s.g (PS_BEATS_BEATS k.val) < 2 ^ 48 - 1 →
      Gives (.uBegin k) s (fun t => (t.seq k.val).st = .beat ∧ (t.seq k.val).arch.beatMode = true ∧
        (t.seq k.val).arch.pc = a.pc + 1 ∧ (t.seq k.val).shadow = none ∧
        t.g (PS_BEATS_BEATS k.val) = s.g (PS_BEATS_BEATS k.val) + 1 ∧
        (∃ r : BeatRec, (t.seq k.val).inFlight = (s.seq k.val).inFlight ++ [r] ∧ r.beat = s.g (PS_BEATS_BEATS k.val) ∧
          r.start = s.firstStart ∧ r.len = effPeriod (s.g (PS_PERIOD_PERIOD k.val 0)) ∧ r.hold = false ∧ r.event = none) ∧
        (∀ j, j ≠ k.val → t.seq j = s.seq j) ∧
        t = { s with regs := t.regs, seqs := t.seqs, cbs := t.cbs, chans := t.chans })) ∧
    (s.csWord k.val a.pc = csEncode (ctlWord 8 0 0 0 0) →
      Gives (.uEnd k) s (fun t => (t.seq k.val).st = .idle ∧
        (t.seq k.val).burst.map (fun b => { b with stream := none }) =
          (s.seq k.val).burst.map (fun b => { b with ended := some 1, stops := [], stream := none }) ∧
        (s.seqVs k.val = none → (∀ x, x < 8 → (s.tim x).cmd = none) → (∀ b, (s.seq k.val).burst = some b → b.stops = []) → t.cmds = s.cmds) ∧
        t.g (PS_BURST_END_CAUSE k.val) = 1 ∧ (∀ j, j ≠ k.val → t.seq j = s.seq j) ∧ t.mem = s.mem))

/-- R67, R81, R85, R89: a sequencer paused in BEAT mode issues a hold beat: the last record again, from the end of the last beat, one
period long, comparing nothing and without an event. A Square whose T_rel is fixed releases its one member, which had waited in SETUP:
it leaves the wait with a checkpoint of that Square, the round is empty again, and the releases count up. -/
def Obligations.HoldsAndReleases : Prop :=
  ∀ (s : State) (k : Fin 32), s.running = true → s.domOn (psDom k.val) = true →
    (∀ (r : BeatRec) (e : Nat), (s.seq k.val).st = .paused → (s.seq k.val).arch.beatMode = true → s.fifoRoom k.val = true →
      (s.seq k.val).holdRec = some r → (s.seq k.val).tEnd = some e → s.liveCbs k.val = [] →
      Gives (.holdBeat k) s (fun t => (∃ h : BeatRec, (t.seq k.val).inFlight = (s.seq k.val).inFlight ++ [h] ∧
          h.pins = r.pins ∧ h.tset = r.tset ∧ h.period = r.period ∧ h.cmp = 0 ∧ h.event = none ∧ h.hold = true ∧ h.start = e ∧
          h.len = effPeriod r.period ∧ h.beat = s.g (PS_BEATS_BEATS k.val)) ∧
        (t.seq k.val).tEnd = some (e + effPeriod r.period) ∧ (t.seq k.val).st = .paused ∧
        (∀ j, j ≠ k.val → t.seq j = s.seq j) ∧ t = { s with regs := t.regs, seqs := t.seqs })) ∧
    (∀ (q : Fin 64) (a trel arr p h prev : Nat) (rel : Option Nat), (s.sq q.val).trel = some trel → (s.sq q.val).relAt ≤ s.tb.tm → (s.sq q.val).arr = [(k.val, a)] →
      (∀ j, j ≠ k.val → (s.seq j).wait = none) → (s.seq k.val).wait = some ⟨q.val, arr, p, h, rel, none, prev⟩ →
      (s.seq k.val).st = .wait → (s.seq k.val).arch.beatMode = false → (s.seq k.val).step = false →
      (s.seq k.val).pendStop = false → (s.seq k.val).pendPause = false → s.paired = false → s.twin.handoff = none →
      s.gb (PS_SQ_ENROL_NOTIFY q.val) = false →
      Gives (.squareRelease q) s (fun t => (t.seq k.val).wait = none ∧ (t.seq k.val).st = .setup ∧ t.sq q.val = .zero ∧
        (∃ c : Ckpt, (t.seq k.val).ckpt = some c ∧ c.sq = some q.val ∧ c.trel = trel ∧ c.beats = s.g (PS_BEATS_BEATS k.val)) ∧
        t.g (PS_SQ_COUNT_RELEASES q.val) = (s.g (PS_SQ_COUNT_RELEASES q.val) + 1) % 2 ^ 32 ∧
        (∀ j, j ≠ k.val → t.seq j = s.seq j) ∧ (∀ j, j ≠ q.val → t.sq j = s.sq j) ∧
        t = { s with regs := t.regs, seqs := t.seqs, sqs := t.sqs }))

/-- R395: the control-store code. Data bit i stands at the (i + 1)-th position from 3 that is not a power of two; check bit k is the exclusive or
of the data bits whose position has bit k set, and the 169 bits have even parity. A fetch decides by the syndrome and the parity of the stored
bits as the table says. So every stored microword comes back, every single wrong bit is corrected, be it of the data, a check bit or the parity
bit, and every pair of wrong bits is uncorrectable. R70: qword 3 of the window returns the check bits. -/
def Obligations.ControlStoreCodeCorrects : Prop :=
  let positions : List Nat := (List.range 169).filter (fun n => decide (3 ≤ n) && !([4, 8, 16, 32, 64, 128].contains n))
  let ones (n : Nat) (f : Nat → Bool) : Bool := decide (((List.range n).filter f).length % 2 = 1)
  let check (d : Nat → Bool) (k : Nat) : Bool := ones 160 (fun i => nbit (positions.getD i 0) k && d i)
  (∀ d : Micro, (∀ i, i < 160 → (csEncode d).getLsbD i = d.getLsbD i) ∧ (∀ k, k < 8 → (csEncode d).getLsbD (160 + k) = check d.getLsbD k) ∧
    ones 169 (csEncode d).getLsbD = false ∧ csDecode (csEncode d) = some (d, false)) ∧
  (∀ w : CsWord,
    let d : Micro := BitVec.ofNat 160 w.toNat
    let s := maskOf 8 (fun k => w.getLsbD (160 + k) ^^ check w.getLsbD k)
    (ones 169 w.getLsbD = false → csDecode w = if s = 0 then some (d, false) else none) ∧
    (ones 169 w.getLsbD = true → (s = 0 → csDecode w = some (d, true)) ∧ (168 < s → csDecode w = none) ∧
      (∀ i, i < 160 → positions.getD i 0 = s → csDecode w = some (d ^^^ (1#160 <<< i), true)) ∧
      (1 ≤ s → s ≤ 168 → s ∉ positions → csDecode w = some (d, true)))) ∧
  (∀ (d : Micro) (i : Fin 169), csDecode (csEncode d ^^^ (1#169 <<< i.val)) = some (d, true)) ∧
  (∀ (d : Micro) (i j : Fin 169), i ≠ j → csDecode (csEncode d ^^^ (1#169 <<< i.val) ^^^ (1#169 <<< j.val)) = none) ∧
  (∀ (s : State) (w : Nat) (k : Fin 32) (n : Nat), 0x800 ≤ n → n < 0x2000 →
    let v := s.readReg w (0x02080000 + k.val * 0x100000 + 32 * n + 24)
    v.toNat < 512 ∧ ∀ j, j < 9 → v.getLsbD j = (csRead (s.csWord k.val n)).getLsbD (160 + j))

/-- R33, R35 (Table 2.11): PLAN_BEGIN clears the staging slot up to the announced length and makes the stage STAGING; PLAN_LOAD puts its
DATA into the staging slot at OFFSET; PLAN_VERIFY makes the stage VALIDATING and waits for the validation. The first two complete at
once. The active slot, the key slots and the descriptor keep their contents. -/
def Obligations.StagingFillsTheSlot : Prop :=
  ∀ (s : State) (w : Fin 4) (q : Fin 8) (c : Cmd),
    (∀ n : Nat, s.takes w q 0x10 c → c.args = toLe 4 n ++ toLe 4 0 → 128 ≤ n → n ≤ 2097152 → s.stage ≠ 2 →
      s.store.desc.pending = false →
      Gives (.planBegin w q) s (fun t => t.completes c.id 0 ∧ t.stage = 1 ∧ t.store = { s.store with stageLen := n } ∧
        (∀ i, i < n → tabGet 0#8 t.nvm (slotBase s.stageSlot + i) = 0#8) ∧
        (∀ a, a < 4194304 → a < slotBase s.stageSlot ∨ slotBase s.stageSlot + roundUp 64 n ≤ a → tabGet 0#8 t.nvm a = tabGet 0#8 s.nvm a) ∧
        RegsKept [JNL_PLAN_STATUS, JNL_PLAN_SEALS, JNL_PLAN_PENDING_ID, JNL_PLAN_CRC] s t ∧
        OnlyJournal { s with regs := t.regs, store := t.store } t)) ∧
    (∀ (o : Nat) (data : List Byte), s.takes w q 0x11 c → c.args = toLe 4 o ++ toLe 4 0 ++ data → 1 ≤ data.length →
      data.length ≤ 1024 → o % 64 = 0 → s.stage = 1 → o + data.length ≤ s.store.stageLen → s.store.stageLen ≤ 2097152 →
      Gives (.planLoad w q) s (fun t => t.completes c.id 0 ∧ t.stage = 1 ∧ t.store = s.store ∧
        t.nvLd (slotBase s.stageSlot + o) data.length = data ∧
        (∀ a, a < 4194304 → a < slotBase s.stageSlot + o ∨ slotBase s.stageSlot + o + data.length ≤ a →
          tabGet 0#8 t.nvm a = tabGet 0#8 s.nvm a) ∧
        RegsKept [JNL_PLAN_STATUS, JNL_PLAN_SEALS, JNL_PLAN_PENDING_ID, JNL_PLAN_CRC] s t ∧ OnlyJournal { s with regs := t.regs } t)) ∧
    (s.takes w q 0x12 c → c.args = [] → s.stage = 1 →
      Gives (.planVerify w q) s (fun t => t.starts c.id ∧ t.stage = 2 ∧ t.store = { s.store with verify := some c.id } ∧
        (∀ a, a < 4194304 → tabGet 0#8 t.nvm a = tabGet 0#8 s.nvm a) ∧
        RegsKept [JNL_PLAN_STATUS, JNL_PLAN_SEALS, JNL_PLAN_PENDING_ID, JNL_PLAN_CRC] s t ∧
        OnlyJournal { s with regs := t.regs, store := t.store } t))

/-- R31, R398: the validation of PLAN_VERIFY ends: an image that passes every check makes the stage VALID and the command completes with
OK; otherwise the stage is REJECTED, JNL_PLAN_DIAG names the first failed check, its section and its offset, and the command completes
with 0x80 + code. The image is left as it is. -/
def Obligations.ValidationEnds : Prop :=
  ∀ (s : State) (id : Nat), s.ticks = true → s.paired = false → s.store.verify = some id → s.cmdOpen id = true →
    (s.validate (slotBase s.stageSlot) s.store.stageLen = none →
      Gives .validationComplete s (fun t => t.stage = 3 ∧ (∃ arg, t.ends id 0 arg) ∧ t.store = { s.store with verify := none } ∧
        (∀ a, a < 4194304 → tabGet 0#8 t.nvm a = tabGet 0#8 s.nvm a))) ∧
    (∀ code sec off, s.validate (slotBase s.stageSlot) s.store.stageLen = some (code, sec, off) → code < 0x20 → sec < 256 →
      off < 2 ^ 32 →
      Gives .validationComplete s (fun t => t.stage = 4 ∧ (∃ arg, t.ends id (0x80 + code) arg) ∧
        t.g JNL_PLAN_DIAG_CODE = code ∧ t.g JNL_PLAN_DIAG_SECTION = sec ∧ t.g JNL_PLAN_DIAG_OFFSET = off ∧
        t.store = { s.store with verify := none } ∧ (∀ a, a < 4194304 → tabGet 0#8 t.nvm a = tabGet 0#8 s.nvm a) ∧
        t.plan = s.plan))

/-- R33, R36, R37: PLAN_SEAL of the VALID image by its PLAN_ID puts it in force on an unsealed device: the plan, SEALED and the
descriptor say so at once; on a sealed device it makes the image pending for the next chip reset and leaves the plan in force alone.
PLAN_RETIRE cancels a pending seal and marks the sealed image retired; the plan stays in force. -/
def Obligations.SealingTakesEffect : Prop :=
  ∀ (s : State) (w : Fin 4) (q : Fin 8) (c : Cmd),
    (s.takes w q 0x13 c → c.args.length = 8 → s.stage = 3 → u c.args 0 8 = s.iu (slotBase s.stageSlot) 0x10 8 →
      (s.plan.sealed = true →
        Gives (.planSeal w q) s (fun t => t.completes c.id 0 ∧ t.stage = 0 ∧ t.plan = s.plan ∧
          t.store = { s.store with
            desc := { s.store.desc with pending := true, retired := false }, past := (s.store.desc :: s.store.past).take 127, seals := s.store.seals + 1 } ∧
          RegsKept [JNL_PLAN_STATUS, JNL_PLAN_SEALS, JNL_PLAN_PENDING_ID, JNL_PLAN_CRC] s t ∧
          OnlyJournal { s with regs := t.regs, store := t.store } t)) ∧
      (s.plan.sealed = false →
        Gives (.planSeal w q) s (fun t => t.completes c.id 0 ∧ t.stage = 0 ∧ t.plan.sealed = true ∧
          t.plan.planId = s.iu (slotBase s.stageSlot) 0x10 8 ∧ t.plan.hdrCrc = s.iu (slotBase s.stageSlot) 0x7C 4 ∧
          t.gb JNL_PLAN_STATUS_SEALED = true ∧ t.g JNL_PLAN_ID_PLAN_ID = u c.args 0 8 ∧
          t.store = { s.store with
            desc := ⟨s.stageSlot, true, false, false⟩, past := (s.store.desc :: s.store.past).take 127, seals := s.store.seals + 1 } ∧
          t.mem = s.mem ∧ t.seqs = s.seqs ∧ t.ctxs = s.ctxs))) ∧
    (s.takes w q 0x14 c → c.args = [] → s.plan.sealed = true →
      Gives (.planRetire w q) s (fun t => t.completes c.id 0 ∧ t.plan = s.plan ∧
        t.store = { s.store with
            desc := { s.store.desc with pending := false, retired := true }, past := (s.store.desc :: s.store.past).take 127, seals := s.store.seals + 1 } ∧
        t.gb JNL_PLAN_STATUS_PENDING = false ∧ t.gb JNL_PLAN_STATUS_RETIRED = true ∧
        RegsKept [JNL_PLAN_STATUS, JNL_PLAN_SEALS, JNL_PLAN_PENDING_ID, JNL_PLAN_CRC] s t ∧
        OnlyJournal { s with regs := t.regs, store := t.store } t))

/-- R30, R55, R326 (Table 2.11): PLAN_READ and PLAN_KEY complete with OK once the queue's command may start: PLAN_READ returns the bytes of a slot with its CMD_DONE record and changes nothing else, but that a
corrected word raises JNL_NVM_CE; PLAN_KEY on a device
that requires no signature writes a key slot with a key that is a point of the curve, or empties it, and keeps the other slot. -/
def Obligations.PlanReadAndKeys : Prop :=
  ∀ (s : State) (w : Fin 4) (q : Fin 8) (c : Cmd),
    (∀ (slot : Bool) (o n : Nat), s.takes w q 0x15 c → c.args = toLe 1 (b2n slot) ++ toLe 3 0 ++ toLe 4 o ++ toLe 2 n ++ toLe 6 0 →
      o % 8 = 0 → 8 ≤ n → n ≤ 1024 → n % 8 = 0 → o + n ≤ 2097152 →
      (∃ t, Sys2Proof.Machine.exec (.planRead w q) s = .next t ∧ t.returns c.id n (s.nvLd (slotBase slot + o) n) ∧ OnlyJournal { s with flt := t.flt } t ∧
        t.flt = (if s.nvMark .single (slotBase slot + o) n then (s.assertFlt 353).flt else s.flt))) ∧
    (∀ (slot : Bool) (key sig : List Byte), s.takes w q 0x16 c → s.store.requireSig = false → key.length = 64 → sig.length = 64 →
      (c.args = toLe 1 (b2n slot) ++ toLe 1 0 ++ toLe 6 0 ++ key ++ sig → onCurve (keyPoint key).1 (keyPoint key).2 = true →
        (∃ t, Sys2Proof.Machine.exec (.planKey w q) s = .next t ∧ t.completes c.id 0 ∧
          t.store = (if slot then { s.store with key1 := some key } else { s.store with key0 := some key }) ∧
          RegsKept [JNL_PLAN_STATUS, JNL_PLAN_SEALS, JNL_PLAN_PENDING_ID, JNL_PLAN_CRC] s t ∧
          OnlyJournal { s with regs := t.regs, store := t.store } t)) ∧
      (c.args = toLe 1 (b2n slot) ++ toLe 1 1 ++ toLe 6 0 ++ toLe 64 0 ++ sig →
        (∃ t, Sys2Proof.Machine.exec (.planKey w q) s = .next t ∧ t.completes c.id 0 ∧
          t.store = (if slot then { s.store with key1 := none } else { s.store with key0 := none }) ∧
          RegsKept [JNL_PLAN_STATUS, JNL_PLAN_SEALS, JNL_PLAN_PENDING_ID, JNL_PLAN_CRC] s t ∧
          OnlyJournal { s with regs := t.regs, store := t.store } t)))

/-- R54, R57, R61, R329: NOP, REG_SET and FCP_WRITE complete once the queue's command may start: NOP changes nothing but its own records; REG_SET of CH_CB_PMIN by the Ward of the block stores the value and asks for the block's clock (R364); both
complete with OK. FCP_WRITE by a Ward that may use an idle front-end port starts the transfer, which leaves the command running until
FCP_TRANSFER_DONE completes it. -/
def Obligations.RegisterCommands : Prop :=
  ∀ (s : State) (w : Fin 4) (q : Fin 8) (c : Cmd), c.ward = w →
    (s.takes w q 1 c → (∃ t, Sys2Proof.Machine.exec (.nop w q) s = .next t ∧ t.completes c.id 0 ∧ OnlyJournal s t)) ∧
    (∀ (k : Fin 32) (v : Word), s.takes w q 2 c → c.args = toLe 8 (CH_CB_PMIN k.val) ++ toLe 8 v.toNat → (s.ward w.val).enable = true →
      s.cbWard k.val = some w.val → s.twin.copying = false →
      (∃ t, Sys2Proof.Machine.exec (.regSet w q) s = .next t ∧ t.completes c.id 0 ∧ t.g (CH_CB_PMIN_COUNT k.val) = v.toNat % 2 ^ 32 ∧
        RegsKept [CH_CB_PMIN k.val] s t ∧ OnlyJournal { s.demand (cbDom k.val) with regs := t.regs } t)) ∧
    (∀ (p : Fin 8) (b : List Byte), s.takes w q 3 c → 1 ≤ b.length → b.length ≤ 256 → c.args = toLe 8 (p.val + 8 * b.length) ++ b →
      s.mayArm w.val 1 p.val = true → s.fcp[p] = none →
      (∃ t, Sys2Proof.Machine.exec (.fcpWrite w q) s = .next t ∧ t.starts c.id ∧ t.outs = s.outs ++ [.fcp p.val b] ∧
        t.fcp = s.fcp.set p (some ⟨w, none, some c.id, b⟩) ∧ OnlyJournal { s with fcp := t.fcp, outs := t.outs } t)) ∧
    (∀ (p : Fin 8) (x : FcpXfer) (id : Nat) (miso : List Byte), s.ticks = true → s.alone → s.fcp[p] = some x → x.port = none →
      x.cmd = some id → s.cmdOpen id = true →
      (∃ t, Sys2Proof.Machine.exec (.fcpTransferDone p miso) s = .next t ∧ (∃ arg, t.ends id 0 arg) ∧ OnlyJournal { s with fcp := s.fcp.set p none } t))

/-- R85, R91: BURST_START on an idle sequencer of the command's Ward starts the burst at ENTRY in SETUP mode, with the beat number 0, the
end record cleared, the JSEQ of the command in PS_BURST and the entry checkpoint taken; the command runs on until the burst ends. No
other sequencer changes, nor does any memory. That a repeat count left over is dropped and that the general registers, the loop
counters and the stack are kept is the model's choice (notes/assumptions/33.md, notes/assumptions/66.md). -/
def Obligations.BurstsStart : Prop :=
  ∀ (s : State) (w : Fin 4) (q : Fin 8) (c : Cmd) (k : Fin 32) (entry : Nat) (r : Bool), s.takes w q 0x20 c →
    c.args = toLe 1 k.val ++ toLe 1 (b2n r) ++ toLe 2 entry ++ toLe 4 0 → 0x800 ≤ entry → entry ≤ 0x1FFF → s.plan.sealed = true →
    s.seqWard k.val = some w.val → (s.seq k.val).st = .idle → s.calHolds k.val = false →
    Gives (.burstStart w q) s (fun t => t.starts c.id ∧ (t.seq k.val).st = .setup ∧
      (t.seq k.val).arch = { (s.seq k.val).arch with pc := entry, beatMode := false, rep := none } ∧
      (t.seq k.val).burst = some ⟨some c.id, c.jseqN, [], r, false, false, none, none⟩ ∧
      (∃ e : Ckpt, (t.seq k.val).ckpt = some e ∧ e.sq = none ∧ e.beats = 0 ∧ e.arch = (t.seq k.val).arch) ∧
      t.g (PS_BURST_JSEQ k.val) = c.jseqN % 2 ^ 64 ∧ t.g (PS_BEATS_BEATS k.val) = 0 ∧ t.g (PS_BURST_END_CAUSE k.val) = 0 ∧
      t.gb (PS_STATUS_RESTARTABLE k.val) = r ∧ t.gb (CAP_DELIV_VALID k.val) = false ∧
      (∀ j, j ≠ k.val → t.seq j = s.seq j) ∧ t.mem = s.mem ∧ t.plan = s.plan ∧ t.ctxs = s.ctxs)

/-- R87, R90, R92, R94: BURST_STOP of an idle or faulted sequencer completes at once with ARG 0; of a burst in BEAT it waits for the
burst's end, which a STOP leaves to the next window and a KILL brings at once with cause 3, the ARG of the command. When the beats of an
ended burst are delivered and the batches of an arm with a context posted, BURST_START completes with OK and the end cause as ARG, also while a later burst has begun. -/
def Obligations.BurstsStop : Prop :=
  ∀ (s : State) (w : Fin 4) (q : Fin 8) (c : Cmd) (k : Fin 32),
    (∀ kill : Bool, s.takes w q 0x21 c → c.args = toLe 1 k.val ++ toLe 1 (b2n kill) ++ toLe 6 0 → s.seqWard k.val = some w.val →
      ((s.seq k.val).st = .idle ∨ (s.seq k.val).st = .fault → Gives (.burstStop w q) s (fun t => t.starts c.id ∧ t.ends c.id 0 0 ∧ OnlyJournal s t)) ∧
      ((s.seq k.val).st = .beat → kill = false → Gives (.burstStop w q) s (fun t => t.starts c.id ∧
        t.seq k.val = { s.seq k.val with
          burst := (s.seq k.val).burst.map (fun b => { b with stops := b.stops ++ [c.id] }), pendStop := true } ∧
        (∀ j, j ≠ k.val → t.seq j = s.seq j) ∧ OnlyJournal { s with seqs := t.seqs } t)) ∧
      ((s.seq k.val).st = .beat → kill = true → Gives (.burstStop w q) s (fun t => t.starts c.id ∧ (t.seq k.val).st = .idle ∧
        (t.seq k.val).burst.map (fun b => { b with stream := none }) =
          (s.seq k.val).burst.map (fun b => { b with stops := [], ended := some 3, stream := none }) ∧
        ((s.seq k.val).burst.isSome = true → t.ends c.id 0 3) ∧
        t.g (PS_BURST_END_CAUSE k.val) = 3 ∧ (∀ j, j ≠ k.val → t.seq j = s.seq j) ∧ t.mem = s.mem))) ∧
    (∀ (b : Burst) (cause i : Nat), s.ticks = true → s.alone → b.ended = some cause → b.cmd = some i → s.cmdOpen i = true →
      s.drained k.val = true →
      (s.batching k.val = true → s.capIdle k.val = true ∧ (s.arm k.val).cur = none ∧ (s.arm k.val).closed = []) →
      ((s.seq k.val).olds = [] → (s.seq k.val).burst = some b →
        Gives (.burstDone k) s (fun t => t.ends i 0 cause ∧ t.seq k.val = { s.seq k.val with burst := none } ∧
          (∀ n, n ≠ k.val → t.seq n = s.seq n) ∧ t.shut = { s.shut with spent := s.shut.spent || s.shutDueOf k.val } ∧
          OnlyJournal { s with seqs := t.seqs, shut := t.shut } t)) ∧
      (∀ b', (s.seq k.val).olds = [b] → (s.seq k.val).burst = some b' → b'.ended = none →
        Gives (.burstDone k) s (fun t => t.ends i 0 cause ∧ t.seq k.val = { s.seq k.val with olds := [] } ∧
          (∀ n, n ≠ k.val → t.seq n = s.seq n) ∧ t.mem = s.mem)))

/-- R117 to R120: STREAM_ARM binds an idle engine of the Ward to its sequencer and starts it PRIMING with the stream, ring and dictionary
it names, from position 0, with the current set all zero; the command runs until the engine is PRIMED. An engine that meets R120 becomes
PRIMED and READY and completes it with ARG 0. STREAM_ARM with DISARM of an idle engine completes at once; of a bound engine whose sequencer
runs no burst it ends the binding and both commands complete (that the first one completes then, and a sequencer in FAULT where R119 says
IDLE, is the model's choice: notes/assumptions/54.md). -/
def Obligations.StreamsArm : Prop :=
  ∀ (s : State) (v : Fin 16),
    (∀ (w : Fin 4) (q : Fin 8) (c : Cmd) (k : Fin 32) (vb pre : Bool) (n off len roff rsize de doff : Nat), s.takes w q 0x30 c →
      c.args = toLe 1 v.val ++ toLe 1 k.val ++ toLe 1 (b2n vb + 4 * b2n pre) ++ toLe 1 n ++ toLe 4 0 ++ toLe 8 off ++ toLe 8 len ++
        toLe 8 roff ++ toLe 4 rsize ++ toLe 4 de ++ toLe 8 doff →
      s.plan.sealed = true → s.vsWard v.val = some w.val → s.seqWard k.val = some w.val → n = (s.seqCbs k.val).length → n ≠ 0 →
      off < 2 ^ 36 → len < 2 ^ 36 → off % 64 = 0 → len % 64 = 0 → len ≠ 0 → s.ownsRange w.val (if vb then 1 else 0) off len = true →
      (vb = true → roff = 0 ∧ rsize = 0) →
      (vb = false → roff < 2 ^ 24 ∧ roff % 4096 = 0 ∧ rsize % 4096 = 0 ∧ 16384 ≤ rsize ∧ rsize ≤ 4194304 ∧
        s.ownsRange w.val 1 roff rsize = true) →
      de = 0 → doff = 0 → s.g (VS_STATUS_STATE v.val) = 0 → s.seqVs k.val = none → (s.seq k.val).st = .idle →
      Gives (.streamArm w q) s (fun t => t.starts c.id ∧ t.g (VS_STATUS_STATE v.val) = 1 ∧ t.gb (VS_STATUS_BOUND v.val) = true ∧
        t.g (VS_STATUS_SEQ v.val) = k.val ∧ t.gb (VS_STATUS_SRC_VB v.val) = vb ∧ t.g (VS_POS_OFFSET v.val) = 0 ∧
        t.g (VS_COUNT_SETS v.val) = 0 ∧ t.g (VS_ARM_SRC_STREAM_OFF v.val) = off ∧ t.g (VS_ARM_LEN_STREAM_LEN v.val) = len ∧
        t.g (VS_ARM_RING_RING_OFF v.val) = roff ∧ t.g (VS_ARM_RING_RING_SIZE v.val) = rsize ∧
        t.vse v.val = { VsEng.zero with cur := List.replicate (4 * n) 0#11, arm := some c.id } ∧
        (∀ j, j ≠ v.val → t.vse j = s.vse j) ∧
        RegsKept ([VS_STATUS v.val, VS_POS v.val, VS_LEVEL v.val, VS_COUNT v.val, VS_UR v.val, VS_ERR v.val, VS_CKPT v.val,
          VS_ARM_SRC v.val, VS_ARM_LEN v.val, VS_ARM_RING v.val, VS_ARM_DICT v.val] ++ (List.range 4).map (VS_CKPT_LOOP v.val)) s t ∧
        OnlyJournal { s with regs := t.regs, vs := t.vs } t)) ∧
    (∀ (w : Fin 4) (q : Fin 8) (c : Cmd), s.takes w q 0x30 c → c.args = toLe 1 v.val ++ toLe 1 0 ++ toLe 1 2 ++ toLe 45 0 →
      s.plan.sealed = true → s.vsWard v.val = some w.val →
      (s.g (VS_STATUS_STATE v.val) = 0 → Gives (.streamArm w q) s (fun t => t.completes c.id 0 ∧ OnlyJournal s t)) ∧
      (∀ i, s.g (VS_STATUS_STATE v.val) ≠ 0 → s.bursting (s.g (VS_STATUS_SEQ v.val)) = false → (s.vse v.val).arm = some i → i ≠ c.id →
        s.cmdOpen i = true → Gives (.streamArm w q) s (fun t => t.completes c.id 0 ∧ (∃ a, t.ends i 0 a) ∧
          t.g (VS_STATUS_STATE v.val) = 0 ∧ t.gb (VS_STATUS_BOUND v.val) = false ∧ t.mem = s.mem ∧ t.seqs = s.seqs))) ∧
    (∀ i, s.ticksOf (vsDom v.val) = true → s.alone → s.g (VS_STATUS_STATE v.val) = 1 → s.gb (VS_STATUS_PRIMED v.val) = false →
      s.vsVb v.val = true → (s.vse v.val).queue.length = 32 → (s.vse v.val).arm = some i → s.cmdOpen i = true →
      Gives (.streamPrimed v) s (fun t => t.ends i 0 0 ∧ t.g (VS_STATUS_STATE v.val) = 2 ∧ t.gb (VS_STATUS_PRIMED v.val) = true ∧
        t.vse v.val = { s.vse v.val with arm := none } ∧ (∀ j, j ≠ v.val → t.vse j = s.vse j) ∧ RegsKept [VS_STATUS v.val] s t ∧
        OnlyJournal { s with regs := t.regs, vs := t.vs } t))

/-- R165 to R167: CAP_ARM on an idle sequencer of the Ward, with an FCM area and no spill ring, arms it without a context: both rings are
empty, RSEQ is 0, the counts of its channels are cleared, and the command completes. Disarming an armed sequencer whose records are
all written completes and clears ARMED. The field SIZE holds 0 for 128 units (Table 8.11). That batches of the arm before which
were posted and not consumed stay known is the model's choice (notes/assumptions/88.md); the capture fabric's clock is asked for (R364).
R176, R180: SHUTTER_ARM for a sequencer of the Ward that owns every selected channel arms the Shutter: its state is ARMED, its sums and
histogram are cleared, and the command completes; with DISARM an armed Shutter ends its arm with cause 2. -/
def Obligations.CapturesArm : Prop :=
  (∀ (s : State) (w : Fin 4) (q : Fin 8) (c : Cmd) (k : Fin 32), s.takes w q 0x40 c → s.plan.sealed = true →
    s.seqWard k.val = some w.val → (s.seq k.val).st = .idle →
    (∀ to_ fo fs : Nat, c.args = toLe 1 k.val ++ toLe 1 0 ++ toLe 2 0xFFFF ++ toLe 4 to_ ++ toLe 4 (fo * 65536) ++ toLe 4 (fs * 65536) ++
        toLe 8 0 ++ toLe 8 0 → to_ ≤ 1000000 → 1 ≤ fs → fs ≤ 128 → fo < 256 → s.ownsRange w.val 2 (fo * 65536) (fs * 65536) = true →
      s.seqSites k.val = [] → (∀ j, j < 32 → s.gb (CAP_ARM_STATUS_ARMED j) = false) →
      Gives (.capArm w q) s (fun t => t.completes c.id 0 ∧ t.gb (CAP_ARM_STATUS_ARMED k.val) = true ∧
        t.gb (CAP_ARM_STATUS_HAS_CTX k.val) = false ∧ t.g (CAP_FCM_AREA_OFF k.val) = fo ∧ t.g (CAP_FCM_AREA_SIZE k.val) = (if fs = 128 then 0 else fs) ∧
        t.rd (CAP_FCM_PTR k.val) = 0#64 ∧ t.rd (CAP_SPILL_PTR k.val) = 0#64 ∧ t.g (CAP_SPILL_SIZE_SIZE k.val) = 0 ∧
        t.g (CAP_RSEQ_NEXT k.val) = 0 ∧ (∀ n ∈ s.seqChans k.val, t.g (CAP_CH_FAILS_FAILS n) = 0) ∧
        t.arm k.val = { CapArm.zero with
          timeout := to_, stale := (s.arm k.val).stale ++ ((s.arm k.val).posted.filter (fun b => !b.consumed)).map (s.batchDesc k.val) } ∧ (∀ j, j ≠ k.val → t.arm j = s.arm j) ∧
        RegsKept ([CAP_ARM_STATUS k.val, CAP_FCM_PTR k.val, CAP_SPILL_PTR k.val, CAP_RSEQ k.val, CAP_FCM_AREA k.val, CAP_SPILL_BASE k.val,
          CAP_SPILL_SIZE k.val] ++ (s.seqChans k.val).map CAP_CH_FAILS) s t ∧
        OnlyJournal { s.demandWork capDom with regs := t.regs, arms := t.arms } t)) ∧
    (c.args = toLe 1 k.val ++ toLe 1 1 ++ toLe 30 0 → s.gb (CAP_ARM_STATUS_ARMED k.val) = true → s.drained k.val = true →
      s.capIdle k.val = true → (s.arm k.val).cur = none → (s.arm k.val).closed = [] →
      Gives (.capArm w q) s (fun t => t.completes c.id 0 ∧ t.gb (CAP_ARM_STATUS_ARMED k.val) = false ∧
        RegsKept [CAP_ARM_STATUS k.val] s t ∧ OnlyJournal { s with regs := t.regs, arms := t.arms } t))) ∧
  (∀ (s : State) (w : Fin 4) (q : Fin 8) (c : Cmd) (k : Fin 32), s.takes w q 0x41 c → s.plan.sealed = true →
    s.seqWard k.val = some w.val → s.mayArm w.val 6 0 = true →
    (∀ n : Nat, c.args = toLe 1 k.val ++ toLe 1 0 ++ toLe 2 0 ++ toLe 4 n → n < 2 ^ 24 → s.g CAP_SHUT_STATUS_STATE ≠ 1 →
      s.shutValid k.val = true → (∀ e ∈ s.shutEntries, s.cbWard (e.2 / 4) = some w.val) →
      Gives (.shutterArm w q) s (fun t => t.completes c.id 0 ∧ t.g CAP_SHUT_STATUS_STATE = 1 ∧ t.g CAP_SHUT_STATUS_SEQ = k.val ∧
        t.g CAP_SHUT_STATUS_UIS = 0 ∧ t.shut.count = n ∧ t.shut.due = [] ∧ t.shut.fifo = s.shut.fifo ∧
        (∀ i, i < 16 → t.rd (CAP_SHUT_SUM i) = resetAt (CAP_SHUT_SUM i)) ∧
        (∀ i b, i < 16 → b < 64 → t.rd (CAP_SHUT_HIST i b) = resetAt (CAP_SHUT_HIST i b)) ∧
        (∀ a, a ≠ CAP_SHUT_STATUS → a < CAP_SHUT_HIST 0 0 ∨ CAP_SHUT_HIST 16 0 ≤ a → (∀ i, i < 16 → a ≠ CAP_SHUT_SUM i) → t.rd a = s.rd a) ∧
        OnlyJournal { s.demandWork capDom with regs := t.regs, shut := t.shut } t)) ∧
    (c.args = toLe 1 k.val ++ toLe 1 1 ++ toLe 6 0 → s.g CAP_SHUT_STATUS_STATE = 1 →
      Gives (.shutterArm w q) s (fun t => t.completes c.id 0 ∧ t.g CAP_SHUT_STATUS_STATE = 2 ∧ t.shut.due = [] ∧
        RegsKept [CAP_SHUT_STATUS] s t ∧ OnlyJournal { s with regs := t.regs, shut := t.shut, wards := t.wards } t)))

/-- R194 to R197: GRAPH_SUBMIT of a graph of plain operations that keeps the rules of R196, into an EMPTY context of the Ward with slots
to spare, loads the descriptors into slots that no other context holds and leaves the context LOADING; other contexts, cores and memory
stay as they are. When the graph is loaded the context is ACTIVE. Operations that wait for predecessors are granted to no core (those
without become ready in a Dispatcher cycle: O45). -/
def Obligations.GraphsLoad : Prop :=
  ∀ (s : State) (x : Fin 1024),
    (∀ (w : Fin 4) (q : Fin 8) (c : Cmd) (n off : Nat) (ds : List (List Byte)), s.takes w q 0x50 c →
      c.args = toLe 2 x.val ++ toLe 1 0 ++ toLe 1 0 ++ toLe 2 n ++ toLe 2 0 ++ toLe 8 off → s.plan.sealed = true →
      s.ctxWard x.val = some w.val → s.ownsRange w.val 0 off (64 * n) = true → 1 ≤ n → n ≤ 8192 → off % 64 = 0 → off + 64 * n ≤ 2 ^ 36 →
      s.firstBad off (64 * n) = none → s.ecc = [] → s.memWaits 0x80 = false → ds = (List.range n).map (fun i => s.ld (memBase 0 + off + 64 * i) 64) →
      (∀ p ∈ ds.zipIdx, descBad n p.1 = false ∧ u p.1 4 2 = namedBy ds p.2 ∧ u p.1 6 1 = 0 ∧
        (u p.1 8 1 = 0xFF ∨ s.coreWard (u p.1 8 1) = some w.val)) →
      prune n ((ds.map descSucc).zipIdx.map (fun p => (p.2, p.1))) = [] → (s.ctx x.val).st = .empty →
      s.wardSlots w.val + n ≤ 8 * (s.ward w.val).ctxCount →
      n ≤ ((List.range 8192).filter (fun i => !s.slotsUsed.contains i)).length →
      Gives (.graphSubmit w q) s (fun t => t.starts c.id ∧ (t.ctx x.val).st = .loading ∧ (t.ctx x.val).cmd = some c.id ∧
        (t.ctx x.val).args = c.args ∧ (t.ctx x.val).jseq = c.jseqN ∧ (t.ctx x.val).producers = 0 ∧ (t.ctx x.val).doneOps = 0 ∧
        (t.ctx x.val).ops.map (·.desc) = ds ∧ (∀ o ∈ (t.ctx x.val).ops, o.st = .waiting ∧ o.dep = u o.desc 4 2 ∧ o.slot < 8192 ∧
          o.slot ∉ s.slotsUsed) ∧ ((t.ctx x.val).ops.map (·.slot)).Nodup ∧
        (∀ y, y ≠ x.val → t.ctx y = s.ctx y) ∧ t.cores = s.cores ∧ t.disp = { s.disp with marks := t.disp.marks } ∧
        (∀ p ∈ t.disp.marks, ∀ o ∈ (t.ctx x.val).ops, p.1 ≠ o.slot) ∧ t.mem = s.mem)) ∧
    (s.ticksOf dspDom = true → (s.ctx x.val).st = .loading →
      Gives (.graphActive x) s (fun t => t.ctx x.val = { s.ctx x.val with st := .active } ∧
        (∀ y, y ≠ x.val → t.ctx y = s.ctx y) ∧ t = { s with ctxs := t.ctxs })) ∧
    ((s.ctx x.val).st = .active → (∀ o ∈ (s.ctx x.val).ops, o.isInbox = false ∧ o.st = .waiting ∧ o.dep ≠ 0) →
      s.ctxs = [(x.val, s.ctx x.val)] → s.ecc = [] → s.disp = { s.disp with fifo := [], offers := [], posts := [], items := [] } →
      (∀ k, k < 48 → (s.core k).st = .idle ∧ (s.core k).stores = [] ∧ (s.core k).stall = none) → s.ticksOf dspDom = true →
      s.pwr.stopped.contains 130 = false →
      Gives .dispatcherCycle s (fun t => t.ctxs = s.ctxs ∧ t.disp = s.disp ∧ ∀ k, k < 48 → (t.core k).st = .idle))

/-- R203 to R205: CTX_RESET of a context of the Ward makes it RESETTING at once: its runs end, its operations, batches and ready items
are gone, and its GRAPH_SUBMIT completes with outcome 2; no run of another context ends. CTX_RESET_COMPLETE makes the context EMPTY and
completes CTX_RESET (that FAULT_STATUS, FAULT_OP and the failure status are cleared there is the model's choice:
notes/assumptions/128.md). -/
def Obligations.ContextsReset : Prop :=
  ∀ (s : State) (x : Fin 1024),
    (∀ (w : Fin 4) (q : Fin 8) (c : Cmd) (i : Nat), s.takes w q 0x51 c → c.args = toLe 2 x.val ++ toLe 6 0 → s.plan.sealed = true →
      s.ctxWard x.val = some w.val → (s.ctx x.val).cmd = some i → s.cmdOpen i = true →
      Gives (.ctxReset w q) s (fun t => t.starts c.id ∧ t.ends i 0 (2 + 256 * (s.ctx x.val).failStatus + 2 ^ 16 * (s.ctx x.val).failOp) ∧
        (t.ctx x.val).st = .resetting ∧ (t.ctx x.val).cmd = none ∧ (t.ctx x.val).resetCmds = (s.ctx x.val).resetCmds ++ [c.id] ∧
        (t.ctx x.val).ops = [] ∧ (t.ctx x.val).inbox = [] ∧ (t.ctx x.val).held = [] ∧
        (∀ it ∈ t.disp.items, it.ctx ≠ x.val) ∧ (∀ p ∈ t.disp.posts, p.1 ≠ x.val) ∧
        (∀ k, k < 48 → (t.core k).run.map (·.ctx) ≠ some x.val) ∧
        (∀ k, (s.core k).run.map (·.ctx) ≠ some x.val → t.core k = s.core k) ∧ t.mem = s.mem ∧ t.seqs = s.seqs)) ∧
    (∀ i, s.ticksOf dspDom = true → s.alone → (s.ctx x.val).st = .resetting → (s.ctx x.val).resetCmds = [i] → s.cmdOpen i = true →
      Gives (.ctxResetComplete x) s (fun t => (∃ a, t.ends i 0 a) ∧
        t.ctx x.val = { s.ctx x.val with st := .empty, resetCmds := [], faultStatus := 0, faultOp := 0, failStatus := 0, failOp := 0 } ∧
        (∀ y, y ≠ x.val → t.ctx y = s.ctx y) ∧ OnlyJournal { s with ctxs := t.ctxs } t))

/-- R261 to R263: TB_ADJUST of the Plan Ward on a device whose time base is no slave. Before the epoch an offset steps the reading by it,
sets EPOCH, counts the step and disarms every armed trigger; after the epoch an offset within JUMP_LIMIT is added to the slew; a rate
within 100 ppm becomes the base rate. Each completes at once; sequencers and memory are not touched. -/
def Obligations.TimeBaseAdjusts : Prop :=
  ∀ (s : State) (q : Fin 8) (c : Cmd) (v : Word), s.takes 0 q 0x60 c → s.plan.sealed = true → s.g TB_CFG_ROLE ≠ 2 →
    (c.args = toLe 1 1 ++ toLe 7 0 ++ toLe 8 v.toNat ++ toLe 8 0 →
      (s.gb TB_STATUS_EPOCH = false → Gives (.tbAdjust 0 q) s (fun t => t.completes c.id 0 ∧
        t.tb = { s.tb with fine := ((s.tb.fine : Int) + v.toInt * 2 ^ 48).toNat } ∧ t.gb TB_STATUS_EPOCH = true ∧
        t.g TB_STATUS_STEPS = satAdd 8 (s.g TB_STATUS_STEPS) 1 ∧ (∀ n, n < 32 → t.trigState n ≠ 1) ∧
        OnlyJournal { s with regs := t.regs, wards := t.wards, tb := t.tb } t)) ∧
      (s.gb TB_STATUS_EPOCH = true → s.g TB_LIMITS_JUMP_LIMIT ≠ 0 →
        (v.toInt * 2 ^ 48 + s.tb.slew).natAbs ≤ s.g TB_LIMITS_JUMP_LIMIT * 2 ^ 64 →
        Gives (.tbAdjust 0 q) s (fun t => t.completes c.id 0 ∧ t.tb = { s.tb with slew := v.toInt * 2 ^ 48 + s.tb.slew } ∧
          t.gb TB_STATUS_SLEWING = decide (v.toInt * 2 ^ 48 + s.tb.slew ≠ 0) ∧ RegsKept [TB_RATE, TB_SLEW, TB_STATUS] s t ∧
          OnlyJournal { s with regs := t.regs, tb := t.tb } t))) ∧
    (c.args = toLe 1 2 ++ toLe 7 0 ++ toLe 8 v.toNat ++ toLe 8 0 → -ppm100 ≤ v.toInt → v.toInt ≤ ppm100 → s.tb.slew = 0 →
      Gives (.tbAdjust 0 q) s (fun t => t.completes c.id 0 ∧ t.tb = { s.tb with base := v.toInt } ∧ t.gi TB_RATE_RATE = v.toInt ∧
        RegsKept [TB_RATE, TB_SLEW, TB_STATUS] s t ∧ OnlyJournal { s with regs := t.regs, tb := t.tb } t))

/-- R264, R266: TRIG_ARM of a trigger of the Ward that is not armed, with a first firing at least 2 µs ahead, arms it with that time,
period and count and clears FIRED; with DISARM it ends an armed trigger with cause 2. Both complete at once.
R272: TIM_ARM of a unit of the Ward that is not armed, with sources the Ward may use, clears its statistics and arms it for COUNT
measurements, with its TIMEOUT from now on; the command runs until the run ends. With DISARM an armed unit's run ends with cause 2 and both commands complete. -/
def Obligations.TriggersAndTimersArm : Prop :=
  (∀ (s : State) (w : Fin 4) (q : Fin 8) (c : Cmd) (n : Fin 32), s.takes w q 0x61 c → s.plan.sealed = true →
    s.mayArm w.val 4 n.val = true →
    (∀ (notify : Bool) (count period : Nat) (time : Stamp), c.args = toLe 1 n.val ++ toLe 1 (2 * b2n notify) ++ toLe 2 0 ++ toLe 4 count ++
        toLe 12 time.toNat ++ toLe 8 period ++ toLe 4 0 → s.trigState n.val ≠ 1 → count < 2 ^ 32 → 200000 ≤ period → period < 2 ^ 48 →
      time.toNat % 4 = 0 → nbits 47 18 time.toNat ≤ 999999999 → s.tb.fine + 2000 * 2 ^ 64 ≤ stampFrac time * 2 ^ 48 →
      Gives (.trigArm w q) s (fun t => t.completes c.id 0 ∧ t.trg n.val = ⟨stampFrac time * 2 ^ 48, period, count, 0, notify⟩ ∧
        t.trigState n.val = 1 ∧ t.gb (TB_TRIG_STATUS_FIRED n.val) = false ∧ (∀ j, j ≠ n.val → t.trg j = s.trg j) ∧
        RegsKept [TB_TRIG_STATUS n.val, TB_TRIG_NEXT_LO n.val, TB_TRIG_NEXT_HI n.val] s t ∧
        OnlyJournal { s with regs := t.regs, trigs := t.trigs } t)) ∧
    (c.args = toLe 1 n.val ++ toLe 1 1 ++ toLe 30 0 → s.trigState n.val = 1 →
      Gives (.trigArm w q) s (fun t => t.completes c.id 0 ∧ t.trigState n.val = 2 ∧ t.g (TB_TRIG_STATUS_END n.val) = 2 ∧
        RegsKept [TB_TRIG_STATUS n.val] s t ∧ OnlyJournal { s with regs := t.regs, wards := t.wards } t))) ∧
  (∀ (s : State) (w : Fin 4) (q : Fin 8) (c : Cmd) (n : Fin 8), s.takes w q 0x62 c → s.plan.sealed = true →
    s.mayArm w.val 2 n.val = true →
    (∀ count timeout : Nat, c.args = toLe 1 n.val ++ toLe 1 0 ++ toLe 2 0 ++ toLe 4 count ++ toLe 4 timeout ++ toLe 4 0 → 1 ≤ count →
      count ≤ 16777216 → timeout < 2 ^ 32 → s.timState n.val ≠ 1 → s.timSrcOk w.val n.val = true →
      s.g (TIM_CFG_START_INDEX n.val) < timClassSize (s.g (TIM_CFG_START_CLASS n.val)) →
      s.g (TIM_CFG_STOP_INDEX n.val) < timClassSize (s.g (TIM_CFG_STOP_CLASS n.val)) →
      Gives (.timArm w q) s (fun t => t.starts c.id ∧ t.timState n.val = 1 ∧ t.g (TIM_STATUS_DONE_N n.val) = 0 ∧
        t.g (TIM_STATUS_NSTAT n.val) = 0 ∧ t.g (TIM_SUM_SUM n.val) = 0 ∧
        t.tim n.val = ⟨count, none, [], false, none, none, some c.id, false,
          if timeout = 0 then none else some (s.tb.tm + timeout * 2000000)⟩ ∧ (∀ j, j ≠ n.val → t.tim j = s.tim j) ∧
        RegsKept [TIM_LAST n.val, TIM_MIN n.val, TIM_MAX n.val, TIM_SUM n.val, TIM_SUMSQ_LO n.val, TIM_SUMSQ_HI n.val, TIM_MEAN n.val,
          TIM_SD n.val, TIM_COUNTS n.val, TIM_STATUS n.val] s t ∧ OnlyJournal { s with regs := t.regs, tims := t.tims } t)) ∧
    (∀ i, c.args = toLe 1 n.val ++ toLe 1 1 ++ toLe 14 0 → s.timState n.val = 1 → (s.tim n.val).bound = false →
      (s.tim n.val).cmd = some i → i ≠ c.id → s.cmdOpen i = true →
      Gives (.timArm w q) s (fun t => t.completes c.id 0 ∧ t.ends i 0 2 ∧ t.timState n.val = 2 ∧ t.g (TIM_STATUS_END n.val) = 2 ∧
        RegsKept [TIM_MEAN n.val, TIM_SD n.val, TIM_STATUS n.val] s t ∧ OnlyJournal { s with regs := t.regs, tims := t.tims } t)))

/-- R277, R280, R281, R287, R301 (Tables 13.1, 13.2): ADC_INJECT on an input of the Ward queues the conversion, and an idle converter starts
it at once. ACQ_ARM that keeps Table 13.2 arms the engine with empty counts and rings and completes; with DISARM it ends the arm with
cause 2. CAL_RUN of Channel Blocks of the Ward whose sequencers are idle starts the run with the lowest of them, whose paths toggle. -/
def Obligations.AnalogCommandsStart : Prop :=
  ∀ (s : State) (w : Fin 4) (q : Fin 8) (c : Cmd), s.plan.sealed = true →
    (∀ (i : Fin 16) (n : Nat), s.takes w q 0x71 c → c.args = toLe 1 i.val ++ toLe 1 0 ++ toLe 2 n ++ toLe 4 0 → n < 2 ^ 16 →
      s.mayArm w.val 5 i.val = true → s.conv.inj = [] →
      (s.conv.cls = 1 → Gives (.adcInject w q) s (fun t => t.starts c.id ∧ t.conv = { s.conv with inj := [⟨c.id, i.val, n + 1, false⟩] } ∧
        OnlyJournal { s.demandWork adcDom with conv := t.conv } t)) ∧
      (s.conv.cls = 0 → s.conv.urgent = 0 → s.adcRuns = true → Gives (.adcInject w q) s (fun t => t.starts c.id ∧ t.conv.cls = 2 ∧
        t.conv.inj = [⟨c.id, i.val, n + 1, false⟩] ∧ t.g ADC_STATUS_CLASS = 2 ∧ t.g ADC_STATUS_INPUT = i.val ∧
        RegsKept [ADC_STATUS] s t ∧ OnlyJournal { s.demandWork adcDom with regs := t.regs, conv := t.conv } t))) ∧
    (s.takes w q 0x70 c → nbit (u c.args 1 1) 0 = false → acqBad c (acqArgs c) = false → (acqArgs c).slot ≤ (acqArgs c).size →
      s.ownsRange w.val (if nbit (u c.args 1 1) 1 then 0 else 3) (u c.args 0x20 8) (acqArgs c).size = true →
      ((acqArgs c).src = 5 → s.resWard 4 (acqArgs c).index = some w.val) → ((acqArgs c).src = 6 → s.seqWard (acqArgs c).index = some w.val) →
      s.conv.arm = none → s.conv.cls ≠ 4 → (∀ i, i < 16 → s.mayArm w.val 5 i = true) →
      Gives (.acqArm w q) s (fun t => t.completes c.id 0 ∧ t.conv.arm = some (acqArgs c) ∧ t.conv.rec_ = none ∧ t.conv.preMem = [] ∧
        t.g ACQ_STATUS_STATE = 1 ∧ t.g ACQ_STATUS_WARD = w.val ∧ t.gb ACQ_STATUS_MODE = (acqArgs c).scan ∧ t.g ACQ_STATUS_RECORDS = 0 ∧
        t.rd ACQ_PTR = 0#64 ∧ t.mem = s.mem ∧ t.seqs = s.seqs)) ∧
    (s.takes w q 0x70 c → c.args = toLe 1 0 ++ toLe 1 1 ++ toLe 46 0 → s.conv.arm.isSome = true → s.conv.rec_ = none → s.conv.cls ≠ 4 →
      Gives (.acqArm w q) s (fun t => t.completes c.id 0 ∧ t.conv.arm = none ∧ t.g ACQ_STATUS_STATE = 4 ∧ t.g ACQ_STATUS_END = 2 ∧
        RegsKept [ACQ_STATUS, ACQ_CTRL] s t ∧ OnlyJournal { s with regs := t.regs, wards := t.wards, conv := t.conv } t)) ∧
    (∀ m : Nat, s.takes w q 0x80 c → c.args = toLe 8 0 ++ toLe 4 m ++ toLe 4 0 → m ≠ 0 → m < 2 ^ 32 →
      (∀ k ∈ bitsOf 32 m, s.cbWard k = some w.val ∧ ∃ j, s.cbSeq k = some j ∧ (s.seq j).st = .idle) →
      s.cal.run = none →
      Gives (.calRun w q) s (fun t => t.starts c.id ∧ t.g CAL_STATUS_RUN = 1 ∧ t.g CAL_STATUS_ITEM = (bitsOf 32 m).headD 0 ∧
        t.cal = { s.cal with run := some ⟨c.id, 0, m, bitsOf 32 m, s.g THM_STATUS_BAND, 0, []⟩ } ∧ RegsKept [CAL_STATUS] s t ∧
        t.outs = s.outs ++ [.calEdges ((bitsOf 32 m).headD 0)] ∧ OnlyJournal { s with regs := t.regs, cal := t.cal, outs := t.outs } t))

/-- R323, R344: FLT_INJECT of a source of the Ward hands a forced assertion to the collector and completes with the source as ARG. REPLAY
with DISCARD abandons the units of the Ward that wait, with reason HOST, and completes with their number; REPLAY that runs them makes
their recovery due. Neither touches a sequencer or a memory.
The number counts replay units only, and HALT of step 7 is Porter's (the model's readings, assumptions 20 and 21). -/
def Obligations.InjectionAndReplay : Prop :=
  ∀ (s : State) (w : Fin 4) (q : Fin 8) (c : Cmd),
    (∀ (i : Nat) (dry : Bool), s.takes w q 0x90 c → c.args = toLe 2 i ++ toLe 1 (b2n dry) ++ toLe 5 0 → srcImplemented i = true →
      i < 2 ^ 16 → s.fltWard i = some w.val →
      Gives (.fltInject w q) s (fun t => t.starts c.id ∧ t.ends c.id 0 i ∧ t.flt = { s.flt with inj := s.flt.inj ++ [(i, dry)] } ∧
        OnlyJournal { s with flt := t.flt } t)) ∧
    (s.takes w q 0xA0 c → c.args = toLe 1 1 ++ toLe 7 0 → nbit (s.g JNL_STATUS_PENDING) w.val = true → (∀ x ∈ s.units, x.cmd ≠ c.id) →
      Gives (.replay w q) s (fun t => t.starts c.id ∧ t.ends c.id 0 (s.unitsOf w.val).length ∧
        (∀ x ∈ s.unitsOf w.val, s.cmdOpen x.cmd = true → t.abandons x.cmd 3) ∧ t.unitsOf w.val = [] ∧
        nbit (t.g JNL_STATUS_PENDING) w.val = false ∧ t.seqs = s.seqs ∧ t.mem = s.mem)) ∧
    (s.takes w q 0xA0 c → c.args = toLe 8 0 → (s.wst w.val).haltedByPorter ≠ 0 → s.recs = [] →
      Gives (.replay w q) s (fun t => t.starts c.id ∧ t.recs = [⟨w.val, some c.id, (s.unitsOf w.val).length, false⟩] ∧
        t.units = s.units ∧ nbit (t.g JNL_STATUS_PENDING) w.val = false ∧ RegsKept [JNL_STATUS] s t ∧
        OnlyJournal { s with regs := t.regs, recs := t.recs } t))

/-- R350, R352, R353: LEAVE with HANDOFF of a paired ACTIVE whose bursts can all be replayed waits for the named Square; LEAVE of a member
without a pair completes at once. JOIN of a member that is not ACTIVE completes with ARG 0; of an ACTIVE without a pair it sends TW_HELLO.
When nothing of the copy waits any more and no record is being written, the pair is formed and JOIN completes, and the joining member is the STANDBY. On a STANDBY, JOIN completes too and LEAVE detaches the member, with the
records of both written by the ACTIVE. That LEAVE of an unpaired member completes at once, that the JOINS count rises here and that a
record without PAIR is waited for is the model's choice (notes/assumptions/25.md), and that a DETACHED member becomes the STANDBY by this
row, too (notes/assumptions/51.md). -/
def Obligations.PairsFormAndPart : Prop :=
  ∀ (s : State) (q : Fin 8) (c : Cmd), s.plan.sealed = true → s.plan.twinMode ≠ 0 →
    (∀ n : Fin 64, s.startable 0 q.val 0xA1 = .go c → c.args = toLe 1 0 ++ toLe 1 n.val ++ toLe 6 0 → s.paired = true →
      s.twin.detach = none → s.twin.handoff = none → (∀ k, k < 32 → s.bursting k = true → s.burstUnit k = true) →
      Gives (.leave 0 q) s (fun t => t.starts c.id ∧ t.twin.handoff = some (n.val, c.id) ∧ t.seqs = s.seqs ∧ t.mem = s.mem ∧
        t.role = 1 ∧ t.paired = true)) ∧
    (s.takes 0 q 0xA1 c → c.args = toLe 1 1 ++ toLe 7 0 → s.role ≠ 2 → Gives (.leave 0 q) s (fun t => t.completes c.id 0 ∧ OnlyJournal s t)) ∧
    (s.takes 0 q 0xA2 c → c.args = toLe 8 0 →
      (s.role ≠ 1 → Gives (.join 0 q) s (fun t => t.starts c.id ∧ t.ends c.id 0 0 ∧ OnlyJournal s t)) ∧
      (s.role = 1 → s.twin.join = none → (∀ k, k < 32 → (s.seq k).st = .idle) →
        (∀ p ∈ s.ctxs, p.2.st ≠ .loading ∧ p.2.st ≠ .active ∧ p.2.st ≠ .resetting) → s.twin.backlog = [] → s.maySend 4 32 = true →
        Gives (.join 0 q) s (fun t => t.starts c.id ∧ t.twin.join = some c.id ∧ Sent s t 4 0x50 0 0#16 0 s.helloBytes ∧
          t.seqs = s.seqs ∧ t.mem = s.mem))) ∧
    (s.role = 2 →
      (s.startable 0 q.val 0xA2 = .go c → c.args = toLe 8 0 →
        Gives (.join 0 q) s (fun t => t.starts c.id ∧ t.ends c.id 0 0 ∧ t.role = 2 ∧ t.seqs = s.seqs ∧ t.mem = s.mem)) ∧
      (s.startable 0 q.val 0xA1 = .go c → c.args = toLe 1 1 ++ toLe 7 0 → (∀ x ∈ s.cmds, x.id = c.id → x.own = true) →
        Gives (.leave 0 q) s (fun t => t.starts c.id ∧ t.role = 3 ∧ t.twin.detach = some (4, some c.id) ∧ t.seqs = s.seqs ∧
          t.mem = s.mem))) ∧
    (∀ id, s.role = 1 → s.twin.join = some id → s.twin.copying = true → (s.port 4).txq = [] → s.twin.backlog = [] →
      s.jnl.prog = none → s.cmdOpen id = true →
      Gives .joinCopyComplete s (fun t => t.paired = true ∧ t.twin.join = none ∧ t.twin.copying = false ∧ (∃ a, t.ends id 0 a) ∧
        t.g TWN_COUNTS_JOINS = satAdd 16 (s.g TWN_COUNTS_JOINS) 1 ∧ t.seqs = s.seqs ∧ t.mem = s.mem)) ∧
    (s.role = 3 → s.twin.hello = true → s.twin.actDead = false → s.jnl.prog = none → Gives .joinCopyComplete s (fun t => t.role = 2 ∧ t.twin.hello = false ∧ t.jnl.stop = s.jnl.stop ∧
      t.jnl.next = s.twin.peerHead + 1 ∧ t.seqs = s.seqs ∧ t.mem = s.mem ∧ t.cmds = s.cmds))

/-- R138, R140 to R142, R148, R152: an owned Channel Block that is not stopped takes its next record, which stays in the beat FIFO as long
as another block has not taken it. A beat starts: the block is PLAYING it, counts it, shows its timing set and, of the first since it was IDLE, the stamp
of its start; a free channel places the beat's single event at the beat's start plus its offset, a disabled one nothing. When the burst has
ended and nothing is pending, the block is IDLE, and a channel without END_HOLD takes its rest level with DEN 0. -/
def Obligations.BeatsPlay : Prop :=
  ∀ (s : State) (c k : Fin 32), s.ticksOf (cbDom c.val) = true → s.cbSeq c.val = some k.val →
    (∀ r : BeatRec, (s.seq k.val).fifo = [r] → r.beat = (s.cb c.val).nextTake → s.g (CH_CB_STATUS_STATE c.val) ≠ 3 →
      Gives (.beatTake c) s (fun t =>
        t.cb c.val = { s.cb c.val with taken := (s.cb c.val).taken ++ [r], nextTake := (s.cb c.val).nextTake + 1 } ∧
        (t.seq k.val).fifo = (if (s.liveCbs k.val).any (fun d => decide (d ≠ c.val) && decide ((s.cb d).nextTake ≤ r.beat)) then [r] else []) ∧
        t.seq k.val = { s.seq k.val with fifo := (t.seq k.val).fifo } ∧ (∀ d, d ≠ c.val → t.cb d = s.cb d) ∧
        (∀ j, j ≠ k.val → t.seq j = s.seq j) ∧ t = { s with cbs := t.cbs, seqs := t.seqs })) ∧
    (∀ (r : BeatRec) (l : List BeatRec), (s.cb c.val).taken = r :: l → 1250 ≤ r.period → r.event = none → r.tset < 256 →
      Gives (.beatStart c) s (fun t =>
        t.cb c.val = { s.cb c.val with taken := l, cur := some r, started := true, played := true, violSent := (t.cb c.val).violSent } ∧
        t.g (CH_CB_STATUS_STATE c.val) = 1 ∧ t.g (CH_CB_STATUS_TSET c.val) = r.tset ∧
        t.g (CH_CB_BEATS_BEATS c.val) = (s.g (CH_CB_BEATS_BEATS c.val) + 1) % 2 ^ 64 ∧
        ((s.cb c.val).started = false → t.g (CH_CB_T0_LO_STAMP c.val) = (s.stampAt r.start).toNat % 2 ^ 64 ∧
          t.g (CH_CB_T0_HI_STAMP c.val) = (s.stampAt r.start).toNat / 2 ^ 64) ∧
        (∀ n ∈ cbChans c.val, (s.ch n).placed = [] →
          (s.gb (CH_CFG_DISABLE n) = true → (t.ch n).placed = []) ∧
          (∀ e, s.gb (CH_CFG_DISABLE n) = false → s.ch n = Chan.zero →
            waveEvents (s.wtEntry n r.tset) r.period r.cmp (r.pins.getD ((s.seqChans k.val).idxOf n) 0#11) = [e] →
            (t.ch n).placed = [⟨r.beat, e.slot, e.ui, r.start + e.off, e.kind,
              (r.pins.getD ((s.seqChans k.val).idxOf n) 0#11).getLsbD e.ui, (r.pins.getD ((s.seqChans k.val).idxOf n) 0#11).getLsbD 10, false, e.serial⟩])) ∧
        (∀ n, n ∉ cbChans c.val → t.ch n = s.ch n) ∧ (∀ d, d ≠ c.val → t.cb d = s.cb d) ∧ t.mem = s.mem ∧ t.arms = s.arms)) ∧
    (∀ b : Burst, (s.seq k.val).burst = some b → b.ended.isSome = true →
      s.g (CH_CB_STATUS_STATE c.val) = 1 ∨ s.g (CH_CB_STATUS_STATE c.val) = 2 → (s.cb c.val).taken = [] →
      (s.seq k.val).fifo = [] → (∀ n ∈ cbChans c.val, (s.ch n).placed = [] ∧ (s.ch n).window = none) →
      Gives (.cbDrainDone c) s (fun t => t.g (CH_CB_STATUS_STATE c.val) = 0 ∧
        t.cb c.val = { s.cb c.val with cur := none, started := false } ∧
        (∀ n ∈ cbChans c.val, s.gb (CH_CFG_END_HOLD n) = false →
          t.gb (CH_STATUS_DEN n) = false ∧ t.g (CH_STATUS_DRV n) = s.g (CH_CFG_DRV_REST n)) ∧
        (∀ d, d ≠ c.val → t.cb d = s.cb d) ∧ t.seqs = s.seqs ∧ t.mem = s.mem))

/-- R146 to R148, R156 to R159 (Tables 7.2, 8.1): the next event of a channel takes effect. A drive or DEN event sets its level, DEN high only on a device that drives its channels
(one of no pair, or its ACTIVE member); a strobe
judges the level at it and adds the result of its UI, a pass where the beat's MASK is 1; WIN_OPEN opens a window, and the WIN_CLOSE of the
same UI closes it with a fail if either end fails; a WIN_CLOSE without a window is a window error, and its UI yields NONE. The channel
keeps the cycle, phase and vernier of the edge. Other channels are not touched. -/
def Obligations.EdgesTakeEffect : Prop :=
  ∀ (s : State) (n : Fin 128) (lv : Level) (p : Placed), s.ticksOf (cbDom (n.val / 4)) = true → s.nextEvent n.val = some p →
    let fail := !passes (s.g (CAP_CMP_CFG_XCODE n.val)) p.expect (lv.hi ^^ s.gb (CAP_CMP_CFG_POL_H n.val)) (lv.lo ^^ s.gb (CAP_CMP_CFG_POL_L n.val))
    let x : Chan := { s.ch n.val with
      placed := (s.ch n.val).placed.erase p, edge := resolveEdge ((p.t : Int) + s.corr n.val p.kind).toNat }
    let others (t : State) : Prop := (∀ m, m ≠ n.val → t.ch m = s.ch m) ∧ RegsKept [CH_STATUS n.val, CAP_CH_FAILS n.val] s t ∧
      t = { s with regs := t.regs, chans := t.chans }
    (∀ v, p.kind = .drv v → Gives (.edgeEvent n lv) s (fun t => t.gb (CH_STATUS_DRV n.val) = v ∧ t.gb (CH_STATUS_DEN n.val) = s.gb (CH_STATUS_DEN n.val) ∧
      t.ch n.val = x ∧ others t)) ∧
    (∀ v, p.kind = .den v → Gives (.edgeEvent n lv) s (fun t => t.gb (CH_STATUS_DEN n.val) = (v && s.active) ∧ t.gb (CH_STATUS_DRV n.val) = s.gb (CH_STATUS_DRV n.val) ∧
      t.ch n.val = x ∧ others t)) ∧
    (p.kind = .strobe → (s.ch n.val).results = [] →
      Gives (.edgeEvent n lv) s (fun t => t.ch n.val = { x with results := [⟨p.beat, p.ui, fail && !p.mask, false⟩] } ∧ others t)) ∧
    (p.kind = .winOpen → (s.ch n.val).window = none →
      Gives (.edgeEvent n lv) s (fun t => t.ch n.val = { x with window := some ⟨p.beat, p.ui, fail, p.mask⟩ } ∧ others t)) ∧
    (∀ w, p.kind = .winClose → (s.ch n.val).window = some w → (s.ch n.val).results = [] → w.beat = p.beat → w.ui = p.ui →
      Gives (.edgeEvent n lv) s (fun t => t.ch n.val = { x with window := none, results := [⟨p.beat, p.ui, (w.fail || fail) && !p.mask, false⟩] } ∧
        others t)) ∧
    (p.kind = .winClose → (s.ch n.val).window = none → (s.ch n.val).results = [] →
      Gives (.edgeEvent n lv) s (fun t => t.ch n.val = { x with results := [⟨p.beat, p.ui, false, true⟩] } ∧
        t.g (CAP_CH_FAILS_WIN_ERR n.val) = satAdd 16 (s.g (CAP_CH_FAILS_WIN_ERR n.val)) 1 ∧ others t))

/-- R160, R161, R165: the delivery of the oldest beat, whose Channel Blocks are all stopped or have started it and judged it: it becomes
the last beat delivered; each channel counts its failing UIs; the sequencer's beat-fail flag says whether any failed, and a fail of a beat
that no later clear covers sets SFAIL. A sequencer that is not armed records nothing. -/
def Obligations.BeatsDeliver : Prop :=
  ∀ (s : State) (k : Fin 32) (r : BeatRec) (l : List BeatRec), s.ticksOf capDom = true → (s.seq k.val).inFlight = r :: l → r.beat < 2 ^ 48 →
    (∀ c ∈ s.liveCbs k.val, r.beat < (s.cb c).notStarted ∧
      ∀ n ∈ cbChans c, ∀ p ∈ (s.ch n).placed, ¬ (p.beat = r.beat ∧ p.kind.cls = .strobe)) →
    s.gb (CAP_ARM_STATUS_ARMED k.val) = false → (s.arm k.val).disarm = [] →
    Gives (.beatDelivery k) s (fun t =>
      let failed := (s.seqChans k.val).any (fun n => decide (s.failUis n r.beat ≠ 0))
      (t.seq k.val).inFlight = l ∧ t.g (CAP_DELIV_BEAT k.val) = r.beat ∧ t.gb (CAP_DELIV_VALID k.val) = true ∧
      (∀ n ∈ s.seqChans k.val, t.g (CAP_CH_FAILS_FAILS n) = satAdd 32 (s.g (CAP_CH_FAILS_FAILS n)) (popN 8 (s.failUis n r.beat)) ∧
        ∀ q ∈ (t.ch n).results, q.beat ≠ r.beat) ∧
      (t.seq k.val).bfail = failed ∧
      (t.seq k.val).arch = (if failed && decide ((s.seq k.val).clearBeat ≤ r.beat) then { (s.seq k.val).arch with sfail := true }
        else (s.seq k.val).arch) ∧
      (∀ j, j ≠ k.val → t.seq j = s.seq j) ∧ t.capq = s.capq ∧ t.mem = s.mem ∧ t.cmds = s.cmds)

/-- R171, R172, R174: the writer puts the oldest record of the capture queue into the next slot of the FCM area, counts it for its site
and moves WR by one; no other byte of memory changes. -/
def Obligations.RecordsAreWritten : Prop :=
  ∀ (s : State) (q : QRec) (l : List QRec), s.ticksOf capDom = true → s.memWaits 0x90 = false → s.paired = false → s.twin.copying = false → s.capq = q :: l →
    q.marker = false → q.bytes.length = 64 → q.seq < 32 → q.site < 64 →
    s.gb (CAP_SITE_STATUS_FLOODED q.site) = false → s.gb (CAP_ARM_STATUS_HAS_CTX q.seq) = false →
    (s.g (CAP_FCM_PTR_WR q.seq) + 2 ^ 32 - s.g (CAP_FCM_PTR_RD q.seq)) % 2 ^ 32 < s.fcmCap q.seq →
    s.g (CAP_FCM_AREA_OFF q.seq) * 65536 + 64 * s.fcmCap q.seq ≤ 2 ^ 23 → (∀ j, (s.arm j).markers = []) → s.drained q.seq = false →
    (s.arm q.seq).disarm = [] →
    let a := 0x0101000000 + s.g (CAP_FCM_AREA_OFF q.seq) * 65536 + s.g (CAP_FCM_PTR_WR q.seq) % s.fcmCap q.seq * 64
    Gives .captureQueueWrite s (fun t => t.capq = l ∧ t.ld a 64 = q.bytes ∧
      (∀ b, b < a ∨ a + 64 ≤ b → t.ldB b = s.ldB b) ∧
      t.g (CAP_FCM_PTR_WR q.seq) = (s.g (CAP_FCM_PTR_WR q.seq) + 1) % 2 ^ 32 ∧ t.g (CAP_FCM_PTR_RD q.seq) = s.g (CAP_FCM_PTR_RD q.seq) ∧
      t.g (CAP_SITE_STATUS_RECORDS q.site) = satAdd 32 (s.g (CAP_SITE_STATUS_RECORDS q.site)) 1 ∧
      RegsKept [CAP_QUEUE, CAP_FCM_PTR q.seq, CAP_SITE_STATUS q.site] s t ∧
      t = { s with regs := t.regs, capq := l, mem := t.mem, ecc := t.ecc })

/-- R173, R174, R199 (Table 8.5): BATCH_TIMEOUT closes the open batch without LAST; a closed batch is posted to the context of the arm,
whose inbox has room, with its descriptor; a write of RD by the Ward of the sequencer frees records up to WR and no further. -/
def Obligations.BatchesPost : Prop :=
  ∀ (s : State) (k : Fin 32),
    (∀ b, s.ticksOf capDom = true → (s.arm k.val).timeout ≠ 0 → (s.arm k.val).cur = some b → Gives (.batchTimeout k) s (fun t =>
      t = s.modArm k.val (fun x => { x with cur := none, closed := x.closed ++ [{ b with last := false }] }))) ∧
    (∀ b l, s.ticksOf capDom = true → s.paired = false → s.twin.copying = false → (s.arm k.val).closed = b :: l → (s.arm k.val).disarm = [] →
      s.gb (CAP_ARM_STATUS_HAS_CTX k.val) = true → (s.ctx (s.g (CAP_ARM_STATUS_CTX k.val))).st ≠ .resetting →
      s.inboxUsed (s.g (CAP_ARM_STATUS_CTX k.val)) < 64 →
      Gives (.batchPost k) s (fun t => t.arm k.val = { s.arm k.val with closed := l, posted := (s.arm k.val).posted ++ [b] } ∧
        (∀ j, j ≠ k.val → t.arm j = s.arm j) ∧
        t.disp = { s.disp with posts := s.disp.posts ++ [(s.g (CAP_ARM_STATUS_CTX k.val), s.batchDesc k.val b)] } ∧
        (t.ctx (s.g (CAP_ARM_STATUS_CTX k.val))).posted = ((s.ctx (s.g (CAP_ARM_STATUS_CTX k.val))).posted + 1) % 2 ^ 32 ∧
        (∀ x, x ≠ s.g (CAP_ARM_STATUS_CTX k.val) → t.ctx x = s.ctx x) ∧ RegsKept [CAP_RSEQ k.val] s t ∧
        t = { s with regs := t.regs, arms := t.arms, disp := t.disp, ctxs := t.ctxs, pwr := (s.demandWork dspDom).pwr })) ∧
    (∀ (w : Fin 4) (v : Word), (s.ward w.val).enable = true → s.paired = false → s.twin.copying = false →
      (s.seqWard k.val = some w.val → s.gb (CAP_ARM_STATUS_HAS_CTX k.val) = false →
        Gives (.capRdWrite (.ward w) k false v) s (fun t => t.g (CAP_FCM_PTR_WR k.val) = s.g (CAP_FCM_PTR_WR k.val) ∧
          t.g (CAP_FCM_PTR_RD k.val) = (if (v.toNat / 2 ^ 32 + 2 ^ 32 - s.g (CAP_FCM_PTR_RD k.val)) % 2 ^ 32 ≤
            (s.g (CAP_FCM_PTR_WR k.val) + 2 ^ 32 - s.g (CAP_FCM_PTR_RD k.val)) % 2 ^ 32 then v.toNat / 2 ^ 32
            else s.g (CAP_FCM_PTR_RD k.val)) ∧ RegsKept [CAP_FCM_PTR k.val] s t ∧ t = { s.demand capDom with regs := t.regs })) ∧
      (s.seqWard k.val ≠ some w.val → Gives (.capRdWrite (.ward w) k false v) s (fun t => t = s)))

/-- R177 to R179 (Table 8.7): the samples of the UI that is due count in the bin of their first change in histogram mode, and enter the
raw FIFO with the beat number in raw mode. A raw entry goes to the next slot of the DRAM ring, which has room, as has the
channel's queue, and nowhere else; an entry
whose slot lies in no region of the Shutter's Ward is dropped and counted (the count is the model's choice, assumption 87). A write
of RD by the Ward of the Shutter frees entries up to WR and no further (that R173's rule for it holds of this ring is the model's choice,
assumption 29). -/
def Obligations.ShutterSamples : Prop :=
  ∀ (s : State),
    (∀ (s0 s1 : BitVec 32) (beat ui i n : Nat) (l : List (Nat × Nat × Nat)), s.ticksOf capDom = true → s.shut.due = (beat, ui, i) :: l → l ≠ [] →
      s.shutEntries = [(i, n)] → i < 16 → s.gb CAP_SHUT_CFG_CMP = false → s.gb (CAP_CMP_CFG_POL_H n) = false → s.shut.count = 0 →
      (s.gb CAP_SHUT_CFG_RAW = false →
        Gives (.shutterSample s0 s1) s (fun t =>
          t.g (CAP_SHUT_HIST_COUNT i (shutBin s0)) = satAdd 32 (s.g (CAP_SHUT_HIST_COUNT i (shutBin s0))) 1 ∧
          t.shut = { s.shut with due := l, uis := t.shut.uis } ∧ t.mem = s.mem ∧
          (∀ b, b < 64 → b ≠ shutBin s0 → t.g (CAP_SHUT_HIST_COUNT i b) = s.g (CAP_SHUT_HIST_COUNT i b)))) ∧
      (s.gb CAP_SHUT_CFG_RAW = true → s.shut.fifo.length < 1024 →
        Gives (.shutterSample s0 s1) s (fun t => 
          t.shut = { s.shut with due := l, uis := t.shut.uis, fifo := s.shut.fifo ++ [BitVec.ofNat 64 (s0.toNat + beat % 2 ^ 32 * 2 ^ 32)] } ∧
          t.mem = s.mem ∧
          (∀ b, b < 64 → t.g (CAP_SHUT_HIST_COUNT i b) = s.g (CAP_SHUT_HIST_COUNT i b))))) ∧
    (∀ (e : Word) (l : List Word), s.ticksOf capDom = true → s.memWaits 0x90 = false → s.shut.fifo = e :: l → 8 ≤ s.g CAP_SHUT_RAW_SIZE_SIZE →
      s.g CAP_SHUT_RAW_BASE_OFF % 8 = 0 →
      s.g CAP_SHUT_RAW_BASE_OFF + s.g CAP_SHUT_RAW_SIZE_SIZE ≤ 2 ^ 36 →
      (s.g CAP_SHUT_RAW_PTR_WR + 2 ^ 32 - s.g CAP_SHUT_RAW_PTR_RD) % 2 ^ 32 < s.g CAP_SHUT_RAW_SIZE_SIZE / 8 →
      let o := s.g CAP_SHUT_RAW_BASE_OFF + s.g CAP_SHUT_RAW_PTR_WR % (s.g CAP_SHUT_RAW_SIZE_SIZE / 8) * 8
      (∀ w, s.resWard 6 0 = some w → s.ownsRange w 0 o 8 = false → s.shut.dropSent = true →
        Gives .shutterRawWrite s (fun t => t = { s with regs := t.regs, shut := { s.shut with fifo := l } } ∧
          t.g CAP_SHUT_RAW_DROP_DROPS = satAdd 32 (s.g CAP_SHUT_RAW_DROP_DROPS) 1 ∧ RegsKept [CAP_SHUT_RAW_DROP] s t)) ∧
      (∀ w, s.resWard 6 0 = some w → s.ownsRange w 0 o 8 = true → s.firstBad o 8 = none → s.dramRoom 0x90 o = true →
      Gives .shutterRawWrite s (fun t => t.shut = { s.shut with fifo := l } ∧ t.ld (0x1000000000 + o) 8 = toLe 8 e.toNat ∧
        (∀ a, a < 0x1000000000 + o ∨ 0x1000000000 + o + 8 ≤ a → t.ldB a = s.ldB a) ∧
        t.g CAP_SHUT_RAW_PTR_WR = (s.g CAP_SHUT_RAW_PTR_WR + 1) % 2 ^ 32 ∧ RegsKept [CAP_SHUT_RAW_PTR] s t ∧
        t = { s with regs := t.regs, shut := t.shut, mem := t.mem, ecc := t.ecc, drcs := t.drcs }))) ∧
    (∀ (w : Fin 4) (v : Word), (s.ward w.val).enable = true → s.paired = false → s.twin.copying = false → s.resWard 6 0 = some w.val →
      Gives (.shutRawRdWrite (.ward w) v) s (fun t => t.g CAP_SHUT_RAW_PTR_WR = s.g CAP_SHUT_RAW_PTR_WR ∧
        t.g CAP_SHUT_RAW_PTR_RD = (if (v.toNat / 2 ^ 32 + 2 ^ 32 - s.g CAP_SHUT_RAW_PTR_RD) % 2 ^ 32 ≤
          (s.g CAP_SHUT_RAW_PTR_WR + 2 ^ 32 - s.g CAP_SHUT_RAW_PTR_RD) % 2 ^ 32 then v.toNat / 2 ^ 32 else s.g CAP_SHUT_RAW_PTR_RD) ∧
        RegsKept [CAP_SHUT_RAW_PTR] s t ∧ t = { s.demand capDom with regs := t.regs }))

/-- R121 to R124, R126 (Table 6.2): the emitting records of a stream, when the output queue has room for their sets. LIT emits its
sets as written, RUN the current set N times, PATCH the current set with its entries replaced, DICT_USE a valid entry N times, SCAN the
current set with DATA[B−1:0] of its scan channels, and MASK if MASKED, taken from the packed bits. The last set emitted is the current
set, the decoder stands behind the record, and memory stays as it is. -/
def Obligations.StreamSetsEmerge : Prop :=
  ∀ (s : State) (v : Fin 16) (n : Nat), (s.vse v.val).part = 0 → 1 ≤ n → (s.vse v.val).queue.length + n ≤ 32 →
    let x := s.vse v.val
    let w := s.vsW v.val
    let l := setLen w
    (∀ b, b.length = n * l → s.streamAt v.val (0x10#8 :: toLe 2 (n - 1) ++ b) = true →
      Gives (.sLit v) s (fun t => t.vse v.val = setsJoin x ((List.range n).map (fun i => setWords w (sub b (i * l) l))) ∧
        StreamMoved v.val (s.vsPos v.val + 3 + n * l) s t ∧ t = { s with regs := t.regs, vs := t.vs })) ∧
    (s.streamAt v.val (0x20#8 :: toLe 3 (n - 1)) = true →
      Gives (.sRun v) s (fun t => t.vse v.val = setsJoin x (List.replicate n x.cur) ∧ StreamMoved v.val (s.vsPos v.val + 4) s t ∧
        t = { s with regs := t.regs, vs := t.vs })) ∧
    (∀ es : List (Nat × Nat), es ≠ [] → es.length ≤ 128 → (∀ e ∈ es, e.1 < w ∧ e.1 < 128 ∧ e.2 < 2048) →
      s.streamAt v.val (0x30#8 :: toLe 1 (es.length - 1) ++ es.flatMap (fun e => toLe 1 e.1 ++ toLe 2 e.2)) = true →
      Gives (.sPatch v) s (fun t => t.vse v.val = setsJoin x [es.foldl (fun c e => c.set e.1 (BitVec.ofNat 11 e.2)) x.cur] ∧
        StreamMoved v.val (s.vsPos v.val + 2 + 3 * es.length) s t ∧ t = { s with regs := t.regs, vs := t.vs })) ∧
    (∀ i, i < s.g (VS_ARM_DICT_DICT_ENTRIES v.val) → i < 4096 → nbit x.dictValid i = true →
      s.g (VS_ARM_DICT_DICT_OFF v.val) + (i + 1) * dictE w ≤ 0xF00000 →
      s.streamAt v.val (0x50#8 :: toLe 2 i ++ toLe 2 (n - 1)) = true →
      Gives (.sDictUse v) s (fun t => t.vse v.val = setsJoin x (List.replicate n (setWords w (s.ld (s.dictAddr v.val i) l))) ∧
        StreamMoved v.val (s.vsPos v.val + 5) s t ∧ t = { s with regs := t.regs, vs := t.vs })) ∧
    (∀ (m : Bool) (bw mask d k : Nat), x.scan = some (bw, mask) → 1 ≤ bw → bw ≤ 8 → bitsOf w mask ≠ [] →
      k = ((bitsOf w mask).length * (bw + b2n m) + 7) / 8 → x.cur.length = w →
      s.streamAt v.val (BitVec.ofNat 8 (0x60 + b2n m) :: toLe 3 0 ++ toLe k d) = true →
      Gives (.sScan v) s (fun t => (∃ y, t.vse v.val = setsJoin x [y] ∧ y.length = w ∧
          (∀ c, c < w → c ∉ bitsOf w mask → y.getD c 0#11 = x.cur.getD c 0#11) ∧
          (∀ p c, (bitsOf w mask)[p]? = some c →
            (∀ j, j < bw → (y.getD c 0#11).getLsbD j = nbit d (p * (bw + b2n m) + j)) ∧
            (∀ j, bw ≤ j → j < 10 → (y.getD c 0#11).getLsbD j = (x.cur.getD c 0#11).getLsbD j) ∧
            (y.getD c 0#11).getLsbD 10 = (if m then nbit d (p * (bw + b2n m) + bw) else (x.cur.getD c 0#11).getLsbD 10))) ∧
        StreamMoved v.val (s.vsPos v.val + 4 + k) s t ∧ t = { s with regs := t.regs, vs := t.vs }))

/-- R122, R123, R125, R133, R135 (Table 6.2): the records that emit nothing. PAD only passes; DICT_DEF writes its set to its dictionary
entry, makes the entry valid, and sets DICT_REDEF where it was; DICT_USE with SETONLY makes the entry the current set; SCAN_CFG sets the
scan configuration; LOOP opens a loop at the next record; ENDLOOP runs the body again while the count is not 0 after the decrement, else
closes the loop; SQUARE makes the engine arrive and wait there; END ends the stream. -/
def Obligations.StreamRecordsAct : Prop :=
  ∀ (s : State) (v : Fin 16), (s.vse v.val).part = 0 →
    let x := s.vse v.val
    let w := s.vsW v.val
    let o := s.vsPos v.val
    let only (t : State) : Prop := t = { s with regs := t.regs, vs := t.vs }
    (s.streamAt v.val [0#8] = true → Gives (.sPad v) s (fun t => t.vse v.val = x ∧ StreamMoved v.val (o + 1) s t ∧ only t)) ∧
    (∀ i b, i < s.g (VS_ARM_DICT_DICT_ENTRIES v.val) → i < 4096 → s.g (VS_ARM_DICT_DICT_OFF v.val) + (i + 1) * dictE w ≤ 0xF00000 →
      s.paired = false → s.twin.copying = false → b.length = setLen w → s.streamAt v.val (0x40#8 :: toLe 2 i ++ b) = true →
      Gives (.sDictDef v) s (fun t => t.ld (s.dictAddr v.val i) b.length = b ∧
        (∀ a, a < s.dictAddr v.val i ∨ s.dictAddr v.val i + b.length ≤ a → t.ldB a = s.ldB a) ∧
        t.vse v.val = { x with dictValid := x.dictValid ||| (1 <<< i) } ∧
        t.gb (VS_STATUS_DICT_REDEF v.val) = (nbit x.dictValid i || s.gb (VS_STATUS_DICT_REDEF v.val)) ∧
        StreamMoved v.val (o + 3 + b.length) s t ∧ t = { s with regs := t.regs, vs := t.vs, mem := t.mem })) ∧
    (∀ i, i < s.g (VS_ARM_DICT_DICT_ENTRIES v.val) → i < 4096 → nbit x.dictValid i = true →
      s.g (VS_ARM_DICT_DICT_OFF v.val) + (i + 1) * dictE w ≤ 0xF00000 →
      s.streamAt v.val (0x51#8 :: toLe 2 i ++ toLe 2 0) = true →
      Gives (.sDictUse v) s (fun t => t.vse v.val = { x with cur := setWords w (s.ld (s.dictAddr v.val i) (setLen w)) } ∧
        StreamMoved v.val (o + 5) s t ∧ only t)) ∧
    (∀ b m, 1 ≤ b → b ≤ 8 → m < 2 ^ 128 → s.streamAt v.val (BitVec.ofNat 8 (0x70 + (b - 1)) :: toLe 16 m) = true →
      Gives (.sScanCfg v) s (fun t => t.vse v.val = { x with scan := some (b, m) } ∧ StreamMoved v.val (o + 17) s t ∧ only t)) ∧
    (∀ n, 1 ≤ n → n ≤ 2 ^ 24 → x.loops.length < 4 → s.streamAt v.val (0x80#8 :: toLe 3 (n - 1)) = true →
      Gives (.sLoop v) s (fun t => t.vse v.val = { x with loops := (o + 4, n) :: x.loops } ∧ StreamMoved v.val (o + 4) s t ∧ only t)) ∧
    (∀ a n l, x.loops = (a, n) :: l → a ≤ s.vsLen v.val → s.streamAt v.val [0x90#8] = true →
      (2 ≤ n → Gives (.sEndloop v) s (fun t => t.vse v.val = { x with loops := (a, n - 1) :: l } ∧ StreamMoved v.val a s t ∧ only t)) ∧
      (n = 1 → Gives (.sEndloop v) s (fun t => t.vse v.val = { x with loops := l } ∧ StreamMoved v.val (o + 1) s t ∧ only t))) ∧
    (∀ q, q < 64 → nbit (s.g (PS_SQ_ENROL_VS q)) v.val = true → (s.sq q).trel = none → (s.sq q).has (32 + v.val) = false →
      (∃ k, k < 32 ∧ nbit (s.g (PS_SQ_ENROL_SEQ q)) k = true ∧ (s.sq q).has k = false) →
      s.streamAt v.val (0xA0#8 :: toLe 1 q) = true →
      Gives (.sSquare v) s (fun t => t.g (VS_STATUS_STATE v.val) = 4 ∧ t.g (VS_STATUS_SQ v.val) = q ∧
        (t.sq q).arr = (s.sq q).arr ++ [(32 + v.val, s.tb.fine)] ∧ (t.sq q).trel = none ∧ (∀ r, r ≠ q → t.sq r = s.sq r) ∧
        t.vse v.val = x ∧ t.vsPos v.val = o + 2 ∧ t.mem = s.mem ∧ t.seqs = s.seqs)) ∧
    (x.loops = [] → s.streamAt v.val [0xB0#8] = true →
      Gives (.sEnd v) s (fun t => t.vse v.val = { x with ended := true } ∧ t.g (VS_STATUS_STATE v.val) = 5 ∧
        StreamMoved v.val (o + 1) s t ∧ only t))

/-- R127, R131, R136 (Table 6.4): STREAM_FETCH moves the next 64 bytes of a stream in DRAM into the staging ring, which has room, and
nowhere else. A record of a reserved type is BAD_RECORD: the engine is in ERROR at its offset, its fault is asserted, its Ward learns it,
and its sets stay. An underrun that outlasts UR_TIMEOUT, its set still not there, stops the burst with UR_TIMEOUT. -/
def Obligations.StreamsFetchAndFail : Prop :=
  ∀ (s : State) (v : Fin 16),
    (let size := s.g (VS_ARM_RING_RING_SIZE v.val)
     let f := (s.vse v.val).fetched
     let a := memBase 1 + s.g (VS_ARM_RING_RING_OFF v.val) + f % size
     let o := s.g (VS_ARM_SRC_STREAM_OFF v.val) + f
     s.ticksOf (vsDom v.val) = true → s.paired = false → s.twin.copying = false → s.ecc = [] → s.memWaits (0x30 + v.val) = false →
      s.outstanding (0x30 + v.val) < 32 → s.vsVb v.val = false → 1 ≤ s.g (VS_STATUS_STATE v.val) →
      s.g (VS_STATUS_STATE v.val) ≤ 5 → f < s.vsLen v.val → s.vsFull v.val = false → size % 64 = 0 → size ≠ 0 → f % 64 = 0 →
      s.g (VS_ARM_RING_RING_OFF v.val) + size ≤ 0xF00000 → o + 64 ≤ 2 ^ 36 → s.firstBad o 64 = none →
      Gives (.streamFetch v) s (fun t => t.ld a 64 = s.ld (memBase 0 + o) 64 ∧ (∀ b, b < a ∨ a + 64 ≤ b → t.ldB b = s.ldB b) ∧
        t.vse v.val = { s.vse v.val with fetched := f + 64 } ∧ StreamMoved v.val (s.vsPos v.val) s t ∧
        t = { s with regs := t.regs, vs := t.vs, mem := t.mem, drcs := t.drcs })) ∧
    (∀ h : BitVec 8, 0xC0 ≤ h.toNat → (s.vse v.val).arm = none → s.streamAt v.val [h] = true →
      Gives (.sPad v) s (fun t => t.g (VS_STATUS_STATE v.val) = 6 ∧ t.g (VS_ERR_CODE v.val) = 1 ∧ t.g (VS_ERR_OFFSET v.val) = s.vsPos v.val ∧
        144 + v.val ∈ t.flt.pend ∧ t.vse v.val = s.vse v.val ∧ RegsKept [VS_STATUS v.val, VS_ERR v.val] s t ∧
        t.wards = (s.eventTo (s.vsWard v.val) 0x0302 (v.val + 256)).wards ∧
        t = { s with regs := t.regs, vs := t.vs, flt := t.flt, wards := t.wards })) ∧
    (s.ticksOf (vsDom v.val) = true → s.gb (VS_STATUS_BOUND v.val) = true → (s.seq (s.g (VS_STATUS_SEQ v.val))).urWait = true →
      s.bursting (s.g (VS_STATUS_SEQ v.val)) = true → s.drawMeets (s.g (VS_STATUS_SEQ v.val)) = 2 →
      Gives (.urTimeout v) s (fun t => t.g (VS_ERR_CODE v.val) = 0x0C ∧ 144 + v.val ∈ t.flt.pend ∧
        t.g (PS_FAULT_CAUSE (s.g (VS_STATUS_SEQ v.val))) = 7 ∧
        ((t.seq (s.g (VS_STATUS_SEQ v.val))).burst.bind (·.ended)).isSome = true ∧ t.mem = s.mem))

/-- R182 to R185 (the encodings and results are those of the RISC-V manuals, PRESUMED, assumption 9): CORE_INSTRUCTION executes the instruction at pc.
A computation, a jump or a branch gives rd its result and moves pc, and touches neither memory nor another core; a load from the local
alias gives rd the extended bytes; a store to it writes its bytes and no other. What is no instruction ends the run with status 0x82,
its bits in AC_TRAP_VAL. -/
def Obligations.CoreInstructionsExecute : Prop :=
  ∀ (s : State) (c : Fin 48) (o n w : Nat),
    let pc := (s.core c.val).pc
    let next := pc + BitVec.ofNat 64 n
    let x := s.xr c.val
    let at_ (i : Rv) : Prop := s.atInstr c.val o n w (some i) = true
    let gives (rd : Nat) (v p : Word) : Prop :=
      Gives (.coreInstruction c) s (fun t => CoreWrote c.val rd v p s t ∧ t = { s with cores := t.cores })
    (∀ rd v, at_ (.lui rd v) → gives rd v next) ∧
    (∀ rd v, at_ (.auipc rd v) → gives rd (pc + v) next) ∧
    (∀ rd v, at_ (.jal rd v) → gives rd next (pc + v)) ∧
    (∀ rd rs1 v, at_ (.jalr rd rs1 v) → gives rd next ((x rs1 + v) &&& ~~~1#64)) ∧
    (∀ b rs1 rs2 v, at_ (.br b rs1 rs2 v) → gives 0 0#64 (if b.holds (x rs1) (x rs2) then pc + v else next)) ∧
    (∀ f rd rs1 v, at_ (.opi f rd rs1 v) → gives rd (f.val (x rs1) v) next) ∧
    (∀ f rd rs1 rs2, at_ (.op f rd rs1 rs2) → gives rd (f.val (x rs1) (x rs2)) next) ∧
    (∀ f rd rs1 v, at_ (.opiw f rd rs1 v) → gives rd (f.val (x rs1) v) next) ∧
    (∀ f rd rs1 rs2, at_ (.opw f rd rs1 rs2) → gives rd (f.val (x rs1) (x rs2)) next) ∧
    (∀ f rd rs1, at_ (.un f rd rs1) → gives rd (f.val (x rs1)) next) ∧
    (∀ k sg rd rs1 v a, at_ (.load k sg rd rs1 v) → x rs1 + v = BitVec.ofNat 64 (0xFFFFFFFFFFFC0000 + a) → a + k ≤ 0x40000 →
      gives rd (if sg then sx (8 * k) (leNat (s.ld (coreMem c.val + a) k)) else BitVec.ofNat 64 (leNat (s.ld (coreMem c.val + a) k))) next) ∧
    (∀ k rs1 rs2 v a, at_ (.store k rs1 rs2 v) → x rs1 + v = BitVec.ofNat 64 (0xFFFFFFFFFFFC0000 + a) → a + k ≤ 0x40000 →
      Gives (.coreInstruction c) s (fun t => t.ld (coreMem c.val + a) k = toLe k (x rs2).toNat ∧
        (∀ b, b < coreMem c.val + a ∨ coreMem c.val + a + k ≤ b → t.ldB b = s.ldB b) ∧ CoreWrote c.val 0 0#64 next s t ∧
        t = { s with cores := t.cores, mem := t.mem })) ∧
    (∀ r, s.atInstr c.val o n w none = true → s.plainRun c.val r →
      Gives (.coreInstruction c) s (fun t => RunFails c.val 0x82 r s t ∧ t.rd (AC_TRAP_PC c.val) = pc ∧
        t.rd (AC_TRAP_VAL c.val) = BitVec.ofNat 64 w ∧ RegsKept [AC_TRAP c.val, AC_TRAP_PC c.val, AC_TRAP_VAL c.val, AC_RUNS c.val] s t ∧
        t.mem = s.mem))

/-- R182, R186, R190 to R192, R200: how a run without waiting stores ends. FENCE only moves pc. RX.CYCLE answers the cycles since the
run started (the model counts them two by two with the Dispatcher, assumption 35). ECALL with a0[6:0] = 0 offers the
completion of its operation, with another value a failure of that status; EBREAK ends the run with status 0x83, a run that lasts
longer than OP_TIMEOUT with 0x91, whether or not the completion FIFO has room. The core is IDLE and the run counted. -/
def Obligations.RunsEnd : Prop :=
  ∀ (s : State) (c : Fin 48) (o n w : Nat) (r : RunInfo), (s.core c.val).stores = [] →
    (s.atInstr c.val o n w (some .fence) = true → Gives (.fence c) s (fun t =>
      CoreWrote c.val 0 0#64 ((s.core c.val).pc + BitVec.ofNat 64 n) s t ∧ t = { s with cores := t.cores })) ∧
    (∀ rd, s.atInstr c.val o n w (some (.rx .cycle rd 0 0)) = true → Gives (.rxCycle c) s (fun t =>
      CoreWrote c.val rd (BitVec.ofNat 64 (s.core c.val).cycles) ((s.core c.val).pc + BitVec.ofNat 64 n) s t ∧
      t = { s with cores := t.cores })) ∧
    (s.plainRun c.val r →
      (s.atInstr c.val o n w (some .ecall) = true → (s.xr c.val 10).toNat % 128 = 0 → Gives (.ecall c) s (fun t =>
        t.disp = { s.disp with offers := s.disp.offers ++ [(c.val, .completion r.ctx r.op)] } ∧ (t.core c.val).st = .idle ∧
        (t.core c.val).run = none ∧ (t.ctx r.ctx).running = (s.ctx r.ctx).running - 1 ∧ (∀ d, d ≠ c.val → t.core d = s.core d) ∧
        RegsKept [AC_RUNS c.val] s t ∧ t = { s with regs := t.regs, cores := t.cores, ctxs := t.ctxs, disp := t.disp })) ∧
      (s.atInstr c.val o n w (some .ecall) = true → (s.xr c.val 10).toNat % 128 ≠ 0 → Gives (.ecall c) s (fun t =>
        RunFails c.val ((s.xr c.val 10).toNat % 128) r s t ∧ RegsKept [AC_TRAP c.val, AC_RUNS c.val] s t ∧ t.mem = s.mem)) ∧
      (s.atInstr c.val o n w (some .ebreak) = true → Gives (.ebreak c) s (fun t => RunFails c.val 0x83 r s t ∧
        t.rd (AC_TRAP_PC c.val) = (s.core c.val).pc ∧ RegsKept [AC_TRAP c.val, AC_TRAP_PC c.val, AC_TRAP_VAL c.val, AC_RUNS c.val] s t ∧
        t.mem = s.mem))) ∧
    (∀ p, s.ticksOf dspDom = true → s.g DSP_CFG_OP_TIMEOUT ≠ 0 → (s.core c.val).st = .running → (s.core c.val).run = some r → r.ctx < 1024 →
      (s.ctx r.ctx).st ≠ .faulted → r.batch = none → (s.ctx r.ctx).ops[r.op]? = some p → nbit (u p.desc 7 1) 1 = false →
      Gives (.opTimeout c) s (fun t => RunFails c.val 0x91 r s t ∧ RegsKept [AC_TRAP c.val, AC_RUNS c.val] s t ∧ t.mem = s.mem))

/-- R192 (Table 9.4): the repair instructions on the tile at local offset `a`. TSET answers the old bit and sets it; TCLRR and TCLRC clear
rows and columns; TMERGE joins a second tile into the first; the others leave memory alone: TROWV and TCOLV find the rows and columns
with more ones than the threshold, TCOLOCC and TROWOCC the occupied ones, TPOP counts. No byte outside
the tile changes. -/
def Obligations.TilesAreRepaired : Prop :=
  ∀ (s : State) (c : Fin 48) (o w rd rs1 rs2 a : Nat), s.xr c.val rs1 = BitVec.ofNat 64 (0xFFFFFFFFFFFC0000 + a) → a % 512 = 0 → a < 0x40000 →
    let next := (s.core c.val).pc + 4#64
    let b := s.xr c.val rs2
    let at_ (x : Rx) : Prop := s.atInstr c.val o 4 w (some (.rx x rd rs1 rs2)) = true
    let count (t : State) : Nat := ((List.range 64).map (fun r => popN 64 (t.tileRow c.val a r).toNat)).sum
    let reads (x : Rx) (i : Instr) (v : Word → Prop) : Prop :=
      at_ x → Gives i s (fun t => ∃ y, v y ∧ CoreWrote c.val rd y next s t ∧ t = { s with cores := t.cores })
    let writes (i : Instr) (v : State → Nat) (bit : Nat → Nat → Bool) : Prop :=
      Gives i s (fun t => (∀ r k, r < 64 → k < 64 → t.tileBit c.val a r k = bit r k) ∧ CoreWrote c.val rd (BitVec.ofNat 64 (v t)) next s t ∧
        (∀ d, d < coreMem c.val + a ∨ coreMem c.val + a + 512 ≤ d → t.ldB d = s.ldB d) ∧ t = { s with cores := t.cores, mem := t.mem })
    (at_ .tset → b.toNat < 4096 → writes (.rxTset c) (fun _ => b2n (s.tileBit c.val a (b.toNat / 64) (b.toNat % 64)))
      (fun r k => s.tileBit c.val a r k || decide (64 * r + k = b.toNat))) ∧
    (at_ .tclrr → writes (.rxTclrr c) (fun t => count s - count t) (fun r k => s.tileBit c.val a r k && !b.getLsbD r)) ∧
    (at_ .tclrc → writes (.rxTclrc c) (fun t => count s - count t) (fun r k => s.tileBit c.val a r k && !b.getLsbD k)) ∧
    (∀ e, at_ .tmerge → b = BitVec.ofNat 64 (0xFFFFFFFFFFFC0000 + e) → e % 512 = 0 → e < 0x40000 →
      writes (.rxTmerge c) count (fun r k => s.tileBit c.val a r k || s.tileBit c.val e r k)) ∧
    reads .trowv (.rxTrowv c) (fun y => ∀ r, r < 64 → y.getLsbD r = decide (b.toNat < popN 64 (s.tileRow c.val a r).toNat)) ∧
    reads .tcolv (.rxTcolv c) (fun y => ∀ k, k < 64 →
      y.getLsbD k = decide (b.toNat < ((List.range 64).filter (fun r => s.tileBit c.val a r k)).length)) ∧
    reads .tcolocc (.rxTcolocc c) (fun y => ∀ k, k < 64 → (y.getLsbD k = true ↔ ∃ r, r < 64 ∧ s.tileBit c.val a r k = true)) ∧
    reads .trowocc (.rxTrowocc c) (fun y => ∀ r, r < 64 → (y.getLsbD r = true ↔ s.tileRow c.val a r ≠ 0#64)) ∧
    reads .tpop (.rxTpop c) (fun y => y = BitVec.ofNat 64 (count s))

/-- R193: RX.COVER leaves memory alone and answers a set of at most p rows with ones such that the ones of all other rows lie in at most
q columns, and no such set costs less, where a set costs its rows and the columns left; of sets of equal cost it has fewest rows, and of
those the lowest value. With no such set it answers all ones. -/
def Obligations.CoverIsCheapest : Prop :=
  ∀ (s : State) (c : Fin 48) (o w rd rs1 rs2 a : Nat), s.xr c.val rs1 = BitVec.ofNat 64 (0xFFFFFFFFFFFC0000 + a) → a % 512 = 0 → a < 0x40000 →
    s.atInstr c.val o 4 w (some (.rx .cover rd rs1 rs2)) = true → (s.xr c.val rs2).toNat < 1024 → (s.xr c.val rs2).toNat % 16 ≤ 8 →
    let p := (s.xr c.val rs2).toNat % 16
    let q := (s.xr c.val rs2).toNat / 16
    let cols (m : Word) : Nat := ((List.range 64).filter (fun k => (List.range 64).any (fun r => s.tileBit c.val a r k && !m.getLsbD r))).length
    let cost (m : Word) : Nat := popN 64 m.toNat + cols m
    let covers (m : Word) : Prop := popN 64 m.toNat ≤ p ∧ cols m ≤ q ∧ ∀ r, r < 64 → m.getLsbD r = true → s.tileRow c.val a r ≠ 0#64
    Gives (.rxCover c) s (fun t => ∃ m, CoreWrote c.val rd m ((s.core c.val).pc + 4#64) s t ∧ t = { s with cores := t.cores } ∧
      ((covers m ∧ ∀ m', covers m' → cost m < cost m' ∨ (cost m = cost m' ∧
          (popN 64 m.toNat < popN 64 m'.toNat ∨ (popN 64 m.toNat = popN 64 m'.toNat ∧ m.toNat ≤ m'.toNat)))) ∨
        (m = BitVec.allOnes 64 ∧ ∀ m', ¬ covers m')))

/-- R189, R197, R200 to R202: a DISPATCHER_CYCLE with nothing else to do, no slot in error. An operation of an ACTIVE context that waits for
no predecessor becomes ready. A completion in the FIFO counts its operation DONE and decrements
each successor by 1, and no other counter, of its context alone. The one ready item goes to its idle home core: the mailbox and the
registers are as R189 gives them, the operation is running, and no other core starts a run. -/
def Obligations.DispatcherCycles : Prop :=
  ∀ (s : State) (x : Fin 1024), s.ticksOf dspDom = true → s.disp.offers = [] → s.disp.posts = [] → s.disp.marks = [] →
    (∀ k, (s.core k).stores = [] ∧ (s.core k).stall = none) → (s.ctx x.val).st = .active →
    (∀ i o, s.disp.fifo = [] → (∀ k, k < 48 → (s.core k).st ≠ .idle) → (s.ctx x.val).ops[i]? = some o → o.st = .waiting → o.dep = 0 →
      o.isInbox = false → Gives .dispatcherCycle s (fun t => ((t.ctx x.val).ops[i]?).map (·.st) = some .ready ∧
        (∃ it ∈ t.disp.items, it.ctx = x.val ∧ it.op = i ∧ it.runNo = 0 ∧ it.batch = none) ∧ t.mem = s.mem)) ∧
    (∀ i o, s.disp.fifo = [.completion x.val i] → s.disp.items = [] → (∀ k, k < 48 → (s.core k).st ≠ .idle) →
      (s.ctx x.val).ops[i]? = some o → (∀ j ∈ descSucc o.desc, j < (s.ctx x.val).ops.length) → (s.ctx x.val).doneOps + 1 < (s.ctx x.val).ops.length → (s.ctx x.val).inbox = [] →
      Gives .dispatcherCycle s (fun t => t.disp.fifo = [] ∧ (t.ctx x.val).doneOps = (s.ctx x.val).doneOps + 1 ∧
        ((t.ctx x.val).ops[i]?).map (·.st) = some .done ∧
        (t.ctx x.val).ops.map (·.dep) = (s.ctx x.val).ops.zipIdx.map (fun p => p.1.dep - b2n ((descSucc o.desc).contains p.2)) ∧
        (∀ y, y ≠ x.val → (t.ctx y).doneOps = (s.ctx y).doneOps ∧ (t.ctx y).ops.map (·.dep) = (s.ctx y).ops.map (·.dep)) ∧ t.mem = s.mem)) ∧
    (∀ (i : Nat) (o : Op) (it : Item) (c : Fin 48) (w : Nat), s.disp.fifo = [] → s.disp.items = [it] → it.ctx = x.val → it.op = i →
      it.batch = none → it.runNo = 0 → (∀ y, ∀ p ∈ (s.ctx y).ops, p.isInbox = false ∧ (p.st ≠ .waiting ∨ p.dep ≠ 0)) → (s.ctx x.val).ops[i]? = some o → o.home = c.val → o.isInbox = false →
      u o.desc 0 4 < 0x40000 → o.desc.length = 64 → s.ctxWard x.val = some w → s.coreWard c.val = some w → (s.core c.val).st = .idle → s.out = false →
      Gives .dispatcherCycle s (fun t => t.disp.items = [] ∧ (t.core c.val).st = .running ∧
        (t.core c.val).run = some ⟨x.val, i, o.slot, 0, none⟩ ∧
        (t.core c.val).pc = BitVec.ofNat 64 (0xFFFFFFFFFFFC0000 + u o.desc 0 4) ∧
        t.ld (coreMem c.val) 128 = List.replicate 64 0#8 ++ o.desc ∧
        (∀ a, a < coreMem c.val ∨ coreMem c.val + 128 ≤ a → t.ldB a = s.ldB a) ∧
        (∀ r, r < 32 → t.xr c.val r = (if r = 10 then BitVec.ofNat 64 x.val else if r = 11 then BitVec.ofNat 64 i
          else if r = 12 then BitVec.ofNat 64 (u o.desc 0x20 8) else if r = 13 then BitVec.ofNat 64 (u o.desc 0x28 8)
          else if r = 14 then BitVec.ofNat 64 (u o.desc 0x30 8) else if r = 15 then 0xFFFFFFFFFFFC0000#64 else 0#64)) ∧
        (t.ctx x.val).running = (s.ctx x.val).running + 1 ∧ ((t.ctx x.val).ops[i]?).map (·.st) = some .running ∧
        (∀ k, k < 48 → k ≠ c.val → (t.core k).run = (s.core k).run) ∧ ∀ y, y ≠ x.val → t.ctx y = s.ctx y))

/-- R219, R221, R222, R224, R225 (Tables 10.5, 10.7): a READY DRAM channel in a command slot refreshes when 4 refreshes are outstanding and
back to back until none is, else issues the oldest panic request of the RT port, else refreshes when one is due, else serves RT until
RT_WEIGHT grants have gone to it, then BE; a request to a row of its own leaves the queues alone, requests that wait enter behind it and what they write is then
performed (the queue of those that wait is the model's, assumption 81), and a read-modify-write is two accesses: with ROW_CHAIN of at most 1
it takes one slot more. The slots with a panic request are counted by the µs (a slot of
every kind is one burst, the model's choice, assumption 82). A refresh that becomes due is counted, up to 4. INIT acts on a channel in CH_MASK that is
OFF, in self-refresh or FAILED and makes it TRAINING. Training ends at a step it runs (R226): READY, without a full run leaving every byte in place, or FAILED with
the step and its fault; every change of state is told to all Wards. -/
def Obligations.DramChannelsServe : Prop :=
  ∀ (s : State) (d : Fin 4),
    let due := s.g (DRC_STATUS_POSTPONED d.val)
    let x := s.drc d.val
    let drcs (t : State) (y : Drc) : Prop := t.drc d.val = { y with panicN := (t.drc d.val).panicN, beN := (t.drc d.val).beN } ∧
      (∀ e, e ≠ d.val → t.drc e = s.drc e) ∧
      (x.rtWait = [] → x.beWait = [] → RegsKept [DRC_STAT d.val] s t ∧ t = { s with drcs := t.drcs, regs := t.regs })
    let refreshed : Prop := Gives (.drcCommandSlot d) s (fun t => t.g (DRC_STATUS_POSTPONED d.val) = due - 1 ∧
      (due = 1 → t.gb (DRC_STATUS_REF2X d.val) = nbit (s.g MEM_CFG_REF2X_BANDS) (s.g THM_STATUS_BAND)) ∧
      (t.drc d.val).rt = x.rt ∧ (t.drc d.val).be = x.be ∧ (4 ≤ due → (t.drc d.val).flush = true) ∧
      RegsKept [DRC_STATUS d.val, DRC_STAT d.val] s t ∧ t = { s with regs := t.regs, drcs := t.drcs })
    let alone (r : DramReq) : Prop := ∀ y ∈ x.rt ++ x.be, y.ord ≠ r.ord → s.dramRow y.off ≠ s.dramRow r.off
    let left (r : DramReq) (l : List DramReq) : List DramReq := l.filter (fun y => decide (y.ord ≠ r.ord))
    let served (r : DramReq) (n : Nat) : Drc := { ({ x with rt := left r x.rt, be := left r x.be } : Drc).refill with wrr := n }
    let one (r : DramReq) : Prop := alone r ∧ (r.rmw = false ∨ 2 ≤ s.g MEM_CFG_ROW_CHAIN)
    (s.ticksOf (drcDom d.val) = true → s.chReady d.val = true →
      (4 ≤ due ∨ (x.flush = true ∧ 0 < due) → refreshed) ∧
      (∀ r, due < 4 → x.flush = false → x.rt.find? (·.panic) = some r → one r →
        Gives (.drcCommandSlot d) s (fun t => drcs t (served r x.wrr))) ∧
      (∀ r, due < 4 → x.flush = false → x.rt.find? (·.panic) = some r → alone r → r.rmw = true → s.g MEM_CFG_ROW_CHAIN ≤ 1 →
        Gives (.drcCommandSlot d) s (fun t =>
          let read (l : List DramReq) : List DramReq := l.map (fun y => if y.ord = r.ord then { y with rmw := false } else y)
          drcs t { x with rt := read x.rt, be := read x.be })) ∧
      (x.rt.any (·.panic) = true → s.slotsPerUs d.val ≤ x.panicN + 1 → Gives (.drcCommandSlot d) s (fun t => (t.drc d.val).panicN = 0 ∧
        t.g (DRC_STAT_PANIC d.val) = satAdd 32 (s.g (DRC_STAT_PANIC d.val)) 1)) ∧
      (x.rt.find? (·.panic) = none → 0 < due → refreshed) ∧
      (∀ r l, x.rt.find? (·.panic) = none → due = 0 → x.rt = r :: l → x.be = [] ∨ x.wrr < s.g MEM_CFG_RT_WEIGHT → one r →
        Gives (.drcCommandSlot d) s (fun t => drcs t (served r (x.wrr + 1)))) ∧
      (∀ r l, x.rt.find? (·.panic) = none → due = 0 → x.be = r :: l → x.rt = [] ∨ s.g MEM_CFG_RT_WEIGHT ≤ x.wrr → one r →
        Gives (.drcCommandSlot d) s (fun t => drcs t (served r 0))) ∧
      (∀ r l w o b, due = 0 → x.rt = [] → x.rtWait = [] → x.be = r :: l → x.be.length = 32 → x.beWait = [w] → one r → b.length = 8 → o % 8 = 0 →
        w.data = b.zipIdx.map (fun p => (o + p.2, p.1)) → s.firstBad o 8 = none → (∀ p, (s.port p).resps = []) →
        Gives (.drcCommandSlot d) s (fun t => drcs t (served r 0) ∧ t.ld (memBase 0 + o) 8 = b ∧
          ∀ a, a < memBase 0 + o ∨ memBase 0 + o + 8 ≤ a → t.ldB a = s.ldB a)) ∧
      (due < 4 → Gives (.refreshDue d) s (fun t => t.g (DRC_STATUS_POSTPONED d.val) = due + 1 ∧ RegsKept [DRC_STATUS d.val] s t ∧
        t = { s with regs := t.regs }))) ∧
    ((s.ward 0).enable = true →
      (s.initActs d.val = true → Gives (.drcInit (.ward 0) d) s (fun t => t.g (DRC_STATUS_STATE d.val) = 1 ∧
        t.g (DRC_STATUS_FAIL_STEP d.val) = 0 ∧ t.gb (DRC_CTRL_INIT d.val) = true ∧
        t.drc d.val = { x with short := s.gb (DRC_CTRL_USE_SAVED d.val), selfRef := false, resetN := true } ∧ (∀ e, e ≠ d.val → t.drc e = s.drc e) ∧
        t.gb MEM_STATUS_READY = false ∧ t.wards = (s.eventAll 0x0702 (d.val + 16)).wards ∧
        RegsKept [DRC_CTRL d.val, DRC_STATUS d.val, MEM_STATUS, CLK_PLL_STATUS] s t ∧
        t = { s with regs := t.regs, drcs := t.drcs, wards := t.wards, pwr := (s.demandWork (drcDom d.val)).pwr })) ∧
      (s.initActs d.val = false → Gives (.drcInit (.ward 0) d) s (fun t => RegsKept [DRC_CTRL d.val] s t ∧ t = { s with regs := t.regs }))) ∧
    (∀ (n : Nat) (ca : Word) (dq : List Word), s.ticksOf (drcDom d.val) = true → s.g (DRC_STATUS_STATE d.val) = 1 → s.cal.run = none → x.canEnd n = true →
      Gives (.drcTrainingDone d n ca dq) s (fun t => t.gb (DRC_CTRL_INIT d.val) = false ∧
        t.g (DRC_STATUS_STATE d.val) = (if n = 0 then 2 else 4) ∧ (n ≠ 0 → t.g (DRC_STATUS_FAIL_STEP d.val) = n ∧ 272 + d.val ∈ t.flt.pend) ∧
        (n = 0 → t.flt = s.flt) ∧ t.wards = (s.eventAll 0x0702 (d.val + 16 * (if n = 0 then 2 else 4))).wards ∧
        (n ≠ 7 → x.short = true ∨ n ≠ 0 → t.mem = s.mem) ∧
        (n = 0 → x.short = false → t.g (DRC_TRAIN_CA_CA_DLY d.val) = getBits ca 7 0 ∧ t.g (DRC_TRAIN_CA_CS_DLY d.val) = getBits ca 15 8) ∧
        (n = 0 → ∀ j, j < 40 → t.g (DRC_TRAIN_DQ_RD_DLY d.val j) = getBits (dq.getD j 0#64) 7 0 ∧
          t.g (DRC_TRAIN_DQ_GATE d.val j) = getBits (dq.getD j 0#64) 47 40) ∧
        (∀ e, e ≠ d.val → t.drc e = s.drc e) ∧ t.cmds = s.cmds ∧ t.seqs = s.seqs))

/-- R234, R237 to R240, R244 (Tables 11.2, 11.3): bring-up and retraining. A lane that has passed its rate shows RX_LOCK in the CAP it sends,
in one column with the lanes that step with it. A CAP that fits its group teaches it the peer's rates and credits, one of another role or
of another GROUP_ID than another lane accepted unlocks the lane (that it also loses what it had passed and counted is the model's choice,
assumption 100), a malformed one, or one in a polarity that RX_INV does not set right, does nothing; the
sixteenth READY on the one lane of a bring-up at its last rate brings the group UP. A DOWN group starts again at 1.25 Gbaud; a step that times
out sends every lane back to the rate before; a lock timeout with too few lanes starts again, else leaves out the lanes that have not
passed; in a group that is UP it fails the retrains it names that have not
passed or have no common rate left below the group's; a lane whose retrain failed starts a retrain.
How sets arrive and lanes are numbered, and which retrains a timeout names, is the model's reading (assumption 38). -/
def Obligations.LanesTrain : Prop :=
  ∀ (s : State) (l : Fin 16), s.cal.run = none →
    let g := laneGroup l.val
    let x := s.lane l.val
    let others (t : State) : Prop := ∀ k, k ≠ l.val →
      t.lane k = if k ∈ s.bringLanes g then { s.lane k with sent := 0, sentFor := 0 } else s.lane k
    let alone (t : State) : Prop := ∀ k, k ≠ l.val → t.lane k = s.lane k
    let column (t : State) (ok : List Byte → Prop) : Prop := ∃ bs : List (Nat × List Byte), bs.map (·.1) = s.bringLanes g ∧
      t.outs = s.outs ++ bs.map (fun p => Out.set p.1 0 p.2 (s.gb (LN_CFG_TX_INV p.1))) ∧
      ∀ p ∈ bs, p.2.length = 14 ∧ u p.2 0 1 = laneLogical p.1 + 4 * grpRole g ∧ u p.2 1 1 = s.ownRates g ∧ u p.2 3 1 = 64 ∧
        u p.2 4 2 = 512 ∧ u p.2 6 4 = (s.grp g).id % 2 ^ 32 ∧ (p.1 = l.val → ok p.2)
    let only (t : State) : Prop := t = { s with regs := t.regs, lanes := t.lanes, groups := t.groups, outs := t.outs }
    (s.ticks = true → s.stepping l.val = true → x.passed = false → x.retrain = false → x.peerLock = false →
      Gives (.laneStepPass l) s (fun t => t.lane l.val = { x with passed := true, sent := 0, sentFor := 0 } ∧ others t ∧
        t.gb (LN_STATUS_LOCK l.val) = true ∧ t.g (LN_STATUS_STATE l.val) = 2 ∧
        column t (fun b => u b 2 1 = s.g (LN_STATUS_RATE l.val) + 8) ∧ RegsKept [LN_STATUS l.val] s t ∧ only t)) ∧
    (∀ b : List Byte, s.stepping l.val = true → x.retrain = false → nbit (u b 2 1) 7 = false →
      let foreign : Prop := u b 0 1 / 4 ≠ grpRole g ∨ ∃ i k, (s.grp g).peerId = some (i, k) ∧ k ≠ l.val ∧ i ≠ u b 6 4
      let set : SetBytes := ⟨b, s.gb (LN_CFG_RX_INV l.val)⟩
      Gives (.cap l ⟨b, !set.inv⟩) s (fun t => t = s) ∧
      (capOk b = false → Gives (.cap l set) s (fun t => t = s)) ∧
      (capOk b = true → foreign → x.eye = false → Gives (.cap l set) s (fun t => t.gb (LN_STATUS_LOCK l.val) = false ∧
        t.lane l.val = { x with peerLock := false, peerOk := false, passed := false, reqN := 0, readyN := 0 } ∧ alone t ∧
        RegsKept [LN_STATUS l.val] s t ∧ only t)) ∧
      (capOk b = true → ¬ foreign →
        (nbit (u b 2 1) 4 = false → nbit (u b 2 1) 5 = false → nbit (u b 2 1) 6 = false → Gives (.cap l set) s (fun t =>
          t.grp g = { s.grp g with
            peerRates := u b 1 1 ||| 1, peerId := some (u b 6 4, ((s.grp g).peerId.map (·.2)).getD l.val), peerHdr := u b 3 1,
            peerData := u b 4 2 % 4096 } ∧
          t.lane l.val = { x with
            logicalRx := u b 0 1 % 4, peerLock := nbit (u b 2 1) 3, peerOk := false, reqN := 0, reqFor := u b 2 1 % 8, readyN := 0,
            sent := 0, sentFor := 0 } ∧ others t ∧ column t (fun _ => True) ∧
          t.g (LN_STATUS_PEER_RATES l.val) = u b 1 1 ∧ t.gb (LN_STATUS_LOCK l.val) = true ∧ RegsKept [LN_STATUS l.val] s t ∧ only t)) ∧
        (nbit (u b 2 1) 3 = true → nbit (u b 2 1) 5 = true → nbit (u b 2 1) 6 = true → s.g (LN_GRP_STATUS_STATE g) = 1 → s.bringLanes g = [l.val] →
          g ≠ 4 → x.passed = true → x.sentFor = 16 → 15 ≤ x.sent → 15 ≤ x.readyN → (s.grp g).peerRates = u b 1 1 ||| 1 →
          s.nextRate l.val = none →
          Gives (.cap l set) s (fun t => t.g (LN_GRP_STATUS_STATE g) = 2 ∧ t.g (LN_GRP_STATUS_WIDTH g) = 1 ∧ t.g (LN_STATUS_STATE l.val) = 3 ∧
            t.g (LN_GRP_STATUS_RATE g) = s.g (LN_GRP_STATUS_RATE g) ∧ t.mem = s.mem ∧ t.cmds = s.cmds)))) ∧
    (∀ (g : Fin 7) (m : Fin 16),
      ((s.grp g.val).started = true → s.g (LN_GRP_STATUS_STATE g.val) = 0 → Gives (.bringupRetry g) s (fun t =>
        t.g (LN_GRP_STATUS_STATE g.val) = 1 ∧ t.g (LN_GRP_STATUS_RATE g.val) = 0 ∧ t.g (LN_GRP_STATUS_WIDTH g.val) = 0 ∧
        t.g (LN_GRP_STATUS_BRINGUPS g.val) = satAdd 16 (s.g (LN_GRP_STATUS_BRINGUPS g.val)) 1 ∧
        (∀ k ∈ grpLanes g.val, (t.lane k).passed = false ∧ t.g (LN_STATUS_RATE k) = 0 ∧ (t.lane k).lost = false) ∧
        (∀ k, k ∉ grpLanes g.val → t.lane k = s.lane k) ∧ t.mem = s.mem ∧ t.ports = s.ports)) ∧
      (s.g (LN_GRP_STATUS_STATE g.val) = 1 → 0 < s.g (LN_GRP_STATUS_RATE g.val) → (s.grp g.val).low < 8 →
        (∃ k ∈ s.bringLanes g.val, (s.lane k).passed = false) → Gives (.stepTimeout ⟨g, m⟩) s (fun t =>
          t.g (LN_GRP_STATUS_RATE g.val) = (s.grp g.val).low ∧ (t.grp g.val) = { s.grp g.val with fallback := true } ∧
          (∀ k ∈ s.bringLanes g.val, t.g (LN_STATUS_RATE k) = (s.grp g.val).low ∧ (t.lane k).passed = true) ∧
          (∀ k, k ∉ s.bringLanes g.val → t.lane k = s.lane k) ∧ t.mem = s.mem ∧ t.ports = s.ports)) ∧
      (s.g (LN_GRP_STATUS_STATE g.val) = 1 → s.g (LN_GRP_STATUS_RATE g.val) = 0 →
        (((s.bringLanes g.val).filter (fun k => (s.lane k).passed)).length < grpMin g.val → Gives (.lockTimeout ⟨g, m⟩) s (fun t =>
          t.g (LN_GRP_STATUS_STATE g.val) = 1 ∧ (∀ k ∈ grpLanes g.val, (t.lane k).passed = false ∧ t.g (LN_STATUS_RATE k) = 0) ∧ t.mem = s.mem)) ∧
        (∀ k, k ∈ s.bringLanes g.val → (s.lane k).passed = false → (s.bringLanes g.val).all (fun k => !(s.lane k).peerOk) = true →
          grpMin g.val ≤ ((s.bringLanes g.val).filter (fun k => (s.lane k).passed)).length → Gives (.lockTimeout ⟨g, m⟩) s (fun t =>
            t.lane k = { s.lane k with lost := true } ∧ t.g (LN_STATUS_CAUSE k) = 6 ∧ (∀ j ∈ s.bringLanes g.val, (s.lane j).passed = true →
              t.lane j = s.lane j) ∧ t.mem = s.mem))) ∧
      (s.g (LN_GRP_STATUS_STATE g.val) = 2 →
        let fails (first : Bool) (k : Nat) : Bool := decide (k ∈ grpLanes g.val) && nbit m.val (laneLogical k) && (s.lane k).retrain &&
          !((s.lane k).passed && (s.lane k).peerLock && (s.lane k).peerOk &&
            ((s.nextRate k).isSome || decide (s.g (LN_STATUS_RATE k) = s.g (LN_GRP_STATUS_RATE g.val)))) && (decide (s.g (LN_STATUS_RATE k) = 0) == first)
        let failed (first : Bool) (t : State) : Prop := t = { s with regs := t.regs, lanes := t.lanes } ∧
          (∀ k, t.lane k = if fails first k then { s.lane k with retrain := false, ready := false } else s.lane k) ∧
          ∀ k, k < 16 → t.g (LN_ERR_RETRAIN_FAIL k) = satAdd 16 (s.g (LN_ERR_RETRAIN_FAIL k)) (b2n (fails first k))
        Gives (.lockTimeout ⟨g, m⟩) s (failed true) ∧ Gives (.stepTimeout ⟨g, m⟩) s (failed false))) ∧
    (x.lost = true → x.retrain = false → x.eye = false → s.laneUsable l.val = true → s.g (LN_GRP_STATUS_STATE g) = 2 →
      Gives (.retrainRetry l) s (fun t =>
      (t.lane l.val).retrain = true ∧ (t.lane l.val).passed = false ∧ alone t ∧ t.g (LN_STATUS_STATE l.val) = 4 ∧ t.g (LN_STATUS_RATE l.val) = 0 ∧
      (∃ b, t.outs = s.outs ++ [.set l.val 0 b (s.gb (LN_CFG_TX_INV l.val))] ∧ u b 2 1 = 128) ∧
      RegsKept [LN_STATUS l.val, LN_GRP_STATUS g] s t ∧ only t))

/-- R232, R234, R236, R241, R242, R244, R246 to R248: an end that loses one of its two lanes stays UP, sends NARROW three times on both,
transmits on the other from then on, counts and reports the loss, and retrains the lane; fewer than 8 code errors are only counted (the
model's choice, assumption 91). The
answer that names every lane this end named narrows its receiver; no answer in time ends UP with LN_GROUP_DOWN, and a host port keeps its
numbers. WIDEN with a lane that retrains at the group's rate widens the receiver. SKP goes out on every lane that transmits. The test bits
of a lane act as they say, on it alone: in PRBS mode it sends the sequence, and its checker is in sync once 64 bits agree, counts bits and
errors while it is, and is not after more than 32 errors among 256 bits, INJ_ONE inverts its next bit; in FAR mode the received bits go
out again. LOCK at the checker's sync is the model's choice (assumption 116).
How MASK numbers lanes, which width is shown and where a sequence begins is the model's reading (assumptions 38, 90 and 92). -/
def Obligations.LanesNarrowAndTest : Prop :=
  ∀ (s : State) (l : Fin 16), s.cal.run = none →
    let g := laneGroup l.val
    let x := s.lane l.val
    let bit := 1 <<< laneLogical l.val
    let set (k kind : Nat) (b : List Byte) : Out := .set k kind b (s.gb (LN_CFG_TX_INV k))
    let only (t : State) : Prop := t = { s with regs := t.regs, outs := t.outs, lanes := t.lanes }
    (∀ (c : Fin 3) (n : Nat),
      (c.val = 1 → n < 8 → Gives (.laneLossOfLock ⟨l, 0⟩ c n) s (fun t =>
        t.g (LN_ERR_CODE_ERR l.val) = satAdd 16 (s.g (LN_ERR_CODE_ERR l.val)) n ∧ RegsKept [LN_ERR l.val] s t ∧ t = { s with regs := t.regs })) ∧
      ((c.val = 1 → 8 ≤ n) → g ≠ 4 → s.g (LN_GRP_STATUS_STATE g) = 2 → (s.grp g).rxMask = 3 → (s.grp g).txMask = 3 →
      (s.grp g).narrowing = none → s.g (LN_STATUS_STATE l.val) = 3 → s.laneUsable l.val = true → x.retrain = false → x.eye = false →
      (∀ k ∈ grpLanes g, k ≠ l.val → s.gb (LN_CFG_DISABLE k) = false ∧ (s.lane k).retrain = false) →
      Gives (.laneLossOfLock ⟨l, 0⟩ c n) s (fun t => t.g (LN_GRP_STATUS_STATE g) = 2 ∧ (t.grp g).txMask = 3 &&& (15 ^^^ bit) ∧
        (t.grp g).narrowing = some bit ∧ t.g (LN_GRP_STATUS_WIDTH g) = 1 ∧ t.g (LN_STATUS_STATE l.val) = 4 ∧ t.g (LN_STATUS_CAUSE l.val) = c.val + 1 ∧
        t.g (LN_ERR_LOL l.val) = satAdd 16 (s.g (LN_ERR_LOL l.val)) 1 ∧ t.g (LN_ERR_CODE_ERR l.val) = satAdd 16 (s.g (LN_ERR_CODE_ERR l.val)) n ∧
        288 + l.val ∈ t.flt.pend ∧ (t.lane l.val).retrain = true ∧ (∀ k, k ≠ l.val → t.lane k = s.lane k) ∧
        (∃ b, t.outs = s.outs ++ (List.replicate 3 ((grpLanes g).map (fun k => set k 1 (maskSet bit)))).flatten ++ [set l.val 0 b]) ∧
        t.ports = s.ports ∧ t.mem = s.mem))) ∧
    (∀ (g : Fin 7) (m own : Nat), s.g (LN_GRP_STATUS_STATE g.val) = 2 → (s.grp g.val).narrowing = some own →
      (∀ inv, (∃ k ∈ grpLanes g.val, nbit (s.grp g.val).rxMask (laneLogical k) = true ∧ s.gb (LN_CFG_RX_INV k) = inv) →
        m < 16 → s.rxOf g.val m = own → grpMin g.val ≤ s.widthLeft g.val own →
        (∀ k ∈ grpLanes g.val, (s.lane k).ready = true → nbit (s.grp g.val).txMask (laneLogical k) = true) →
        (∀ k ∈ grpLanes g.val, s.g (LN_STATUS_STATE k) = 3 → nbit (s.grp g.val).txMask (laneLogical k) = true) →
        Gives (.narrow g ⟨maskSet m, inv⟩) s (fun t => t.grp g.val = { s.grp g.val with
            narrowing := none, rxMask := s.trimRx g.val ((s.grp g.val).rxMask &&& (15 ^^^ own)) } ∧
          t.g (LN_GRP_STATUS_LANES g.val) = (t.grp g.val).inUse % 16 ∧
          RegsKept [LN_GRP_STATUS g.val] s t ∧ t = { s with regs := t.regs, groups := t.groups, wards := t.wards, tb := t.tb })) ∧
      Gives (.narrowTimeout g) s (fun t => t.g (LN_GRP_STATUS_STATE g.val) = 1 ∧ t.g (LN_GRP_STATUS_WIDTH g.val) = 0 ∧ 304 + g.val ∈ t.flt.pend ∧
        t.port g.val = (if g.val < 4 then { s.port g.val with holding := true } else Port.zero) ∧ (∀ p, p ≠ g.val → t.port p = s.port p) ∧
        t.mem = s.mem)) ∧
    (∀ w, s.g (LN_GRP_STATUS_STATE g) = 2 → w < 16 →
      let m := s.rxOf g w
      m &&& (s.grp g).rxMask = (s.grp g).rxMask →
      (∀ k ∈ grpLanes g, nbit m (laneLogical k) = true → nbit (s.grp g).rxMask (laneLogical k) = false →
        (s.lane k).retrain = true ∧ s.g (LN_STATUS_RATE k) = s.g (LN_GRP_STATUS_RATE g)) →
      (∀ k ∈ grpLanes g, nbit (s.grp g).txMask (laneLogical k) = false ∨ (s.lane k).retrain = false) →
      Gives (.widen l ⟨maskSet w, s.gb (LN_CFG_RX_INV l.val)⟩) s (fun t => t = s.modGrp g (fun y => { y with rxMask := m }))) ∧
    Gives (.skpSend l) s (fun t => t = { s with outs := s.outs ++ ((grpLanes g).filter (fun k => !s.gb (LN_CFG_DISABLE k) &&
      (nbit (s.grp g).txMask (laneLogical k) || (s.lane k).retrain ||
        (decide (s.g (LN_GRP_STATUS_STATE g) = 1) && (s.bringLanes g).contains k)))).map (fun k => set k 3 []) }) ∧
    ((s.ward 0).enable = true →
      (∀ m, 1 ≤ m → m ≤ 3 → s.g (LN_TEST_MODE l.val) = 0 → s.g (LN_STATUS_STATE l.val) ≠ 3 → x.retrain = false → x.eye = false →
        s.gb (LN_CFG_DISABLE l.val) = false →
        Gives (.lnTestMode (.ward 0) l m) s (fun t => t.g (LN_TEST_MODE l.val) = m ∧ t.g (LN_STATUS_STATE l.val) = 5 ∧ t.g (LN_STATUS_CAUSE l.val) = 4 ∧
          t.gb (LN_STATUS_LOCK l.val) = false ∧ t.gb (LN_PRBS_SYNC l.val) = false ∧ (t.lane l.val).gen ≠ 0 ∧
          t.lane l.val = { x with gen := (t.lane l.val).gen, genN := 0, seed := [], chk := 0, agree := 0, diffs := [], injOne := false } ∧
          (∀ k, k ≠ l.val → t.lane k = s.lane k) ∧
          RegsKept [LN_TEST l.val, LN_STATUS l.val, LN_PRBS l.val] s t ∧ t = { s with regs := t.regs, lanes := t.lanes, fresh := t.fresh })) ∧
      (Gives (.injOne (.ward 0) l) s (fun t => RegsKept [LN_TEST l.val] s t ∧ t.outs = s.outs ∧ only t ∧ (∀ k, k ≠ l.val → t.lane k = s.lane k) ∧
        t.lane l.val = { x with injOne := x.injOne || (decide (s.g (LN_TEST_MODE l.val) = 1) && !s.gb (LN_CFG_DISABLE l.val)) })) ∧
      (Gives (.liveInj (.ward 0) l) s (fun t => t.gb (LN_TEST_LIVE_INJ l.val) = true ∧ RegsKept [LN_TEST l.val] s t ∧ t = { s with regs := t.regs })) ∧
      (x.eye = false → s.gb (LN_STATUS_LOCK l.val) = true → Gives (.eyeScanStart (.ward 0) l) s (fun t =>
        t.lane l.val = { x with eye := true } ∧ (∀ k, k ≠ l.val → t.lane k = s.lane k) ∧ t.gb (LN_EYE_CTRL_START l.val) = true ∧
        t.gb (LN_EYE_RESULT_DONE l.val) = false ∧ RegsKept [LN_EYE_CTRL l.val, LN_EYE_RESULT l.val] s t ∧ only t))) ∧
    (∀ errs : List Nat, x.eye = true →
      (s.gb (LN_EYE_CTRL_SWEEP l.val) = false → Gives (.eyeScanDone l errs) s (fun t => t.gb (LN_EYE_RESULT_DONE l.val) = true ∧
        t.gb (LN_EYE_CTRL_START l.val) = false ∧ t.lane l.val = { x with eye := false } ∧
        t.g (LN_EYE_RESULT_ERRORS l.val) = min (errs.getD (s.gi (LN_EYE_CTRL_PHASE l.val) + 32).toNat 0) (2 ^ 32 - 1) ∧
        RegsKept [LN_EYE_CTRL l.val, LN_EYE_RESULT l.val] s t ∧ only t)) ∧
      (∀ lo hi : Nat, s.gb (LN_EYE_CTRL_SWEEP l.val) = true → errs.length = 64 → 1 ≤ lo → lo ≤ 32 → 32 ≤ hi → hi < 63 →
        errs.getD (lo - 1) 0 ≠ 0 → errs.getD (hi + 1) 0 ≠ 0 → (∀ i, lo ≤ i → i ≤ hi → errs.getD i 0 = 0) →
        Gives (.eyeScanDone l errs) s (fun t => t.gi (LN_EYE_RESULT_LEFT l.val) = (lo : Int) - 32 ∧ t.gi (LN_EYE_RESULT_RIGHT l.val) = (hi : Int) - 32 ∧
          t.g (LN_EYE_RESULT_WIDTH l.val) = hi - lo + 1 ∧ t.gb (LN_EYE_RESULT_DONE l.val) = true))) ∧
    (let inv := s.gb (LN_CFG_TX_INV l.val)
     let pat := s.g (LN_TEST_PATTERN l.val)
     let sent (t : State) : Prop := t.outs = s.outs ++ [.prbs l.val [(prbsNext pat x.gen != x.injOne) != inv]] ∧ (t.lane l.val).injOne = false
     let counted (e b : Nat) (t : State) : Prop := t.g (LN_PRBS_ERRORS l.val) = satAdd 32 (s.g (LN_PRBS_ERRORS l.val)) e ∧
       t.g (LN_PRBS_BITS_BITS l.val) = (s.g (LN_PRBS_BITS_BITS l.val) + b) % 2 ^ 64 ∧
       RegsKept [LN_PRBS l.val, LN_PRBS_BITS l.val, LN_STATUS l.val] s t ∧ only t ∧ ∀ k, k ≠ l.val → t.lane k = s.lane k
     (∀ b : Bool, s.gb (LN_CFG_DISABLE l.val) = false → s.g (LN_TEST_MODE l.val) = 1 → s.g (LN_TEST_INJ_RATE l.val) = 0 → 31 ≤ x.seed.length →
       let good : Bool := (b != s.gb (LN_CFG_RX_INV l.val)) == prbsNext pat x.chk
       (s.gb (LN_PRBS_SYNC l.val) = false → good = true → x.agree = 63 → Gives (.prbsSync ⟨l, [b]⟩) s (fun t =>
         t.gb (LN_PRBS_SYNC l.val) = true ∧ t.gb (LN_STATUS_LOCK l.val) = true ∧ sent t ∧ counted 0 0 t)) ∧
       (s.gb (LN_PRBS_SYNC l.val) = true →
         let after (t : State) : Prop := t.gb (LN_PRBS_SYNC l.val) = decide ((((!good) :: x.diffs).take 256).count true ≤ 32) ∧ sent t ∧
           counted (b2n (!good)) 1 t
         Gives (.prbsSync ⟨l, [b]⟩) s after ∧ Gives (.prbsSyncLost l [b] []) s after)) ∧
     (∀ bs : List Bool, s.gb (LN_CFG_DISABLE l.val) = false → s.g (LN_TEST_MODE l.val) = 3 → Gives (.prbsSync ⟨l, bs⟩) s (fun t =>
       t = { s with outs := s.outs ++ [.prbs l.val (bs.map (fun b => (b != s.gb (LN_CFG_RX_INV l.val)) != inv))] })))

/-- R251 to R253, R258, R259, R266, R269 to R272: time passes. An increment adds 625 half picoseconds and 20,480 units at the base rate with the
slew's part of at most 100 ppm, both together within 200 ppm. A read of TB_TIME_LO latches the reading. REFCLK is present after two good windows (9,000 to 11,000) and lost at the first bad one
or missing edge. HOLD_SYNCS intervals without a measurement lead to HOLDOVER; RESEED gives a step permission. A trigger whose reading is
reached sets FIRED, moves to the next one, and ends after COUNT; before that TRIG_FIRE does nothing. A TIM unit keeps the start edge of the
source, edge and input polarity it selects; its stop gives the interval, which enters the statistics; a start whose 2^32 - 1 coarse periods
are over has overflowed and does not; a run whose TIMEOUT is over ends with cause 3, one without goes on.
The kept stop edges are the model's (assumption 43), and so is which unit takes an edge of a source with INV (assumption 72). A window that
also shows the oscillator off its frequency raises AON_OSC. -/
def Obligations.TimeRuns : Prop :=
  ∀ (s : State),
    (s.gb TB_STATUS_AON_CLOCK = false → s.ticks = true → s.pwr.stopped = [] →
      let part : Int := max (20480 * max (-ppm100) (-rmax - s.tb.base)) (min (20480 * min ppm100 (rmax - s.tb.base)) s.tb.slew)
      Gives .tbIncrement s (fun t => t.tb = { s.tb with tm := s.tb.tm + 625, fine := ((s.tb.fine : Int) + (20480 * (2 ^ 48 + s.tb.base) + part)).toNat, slew := s.tb.slew - part } ∧
        RegsKept (if part = 0 then [] else [TB_RATE, TB_SLEW, TB_STATUS]) s t ∧ t = { s with regs := t.regs, tb := t.tb })) ∧
    (∀ p : Fin 4, (s.portWard p.val).isSome = true → Gives (.tbTimeLoRead p) s (fun t =>
      (t.rd TB_TIME_LO).toNat + 2 ^ 64 * t.g TB_TIME_HI_STAMP = s.now.toNat ∧ t.tb = { s.tb with latched := s.now.toNat } ∧
        RegsKept [TB_TIME_LO, TB_TIME_HI] s t ∧ t = { s with regs := t.regs, tb := t.tb })) ∧
    (∀ n, 9524 ≤ n → n ≤ 10526 → Gives (.refclkWindow n) s (fun t => t.g TB_REFCLK_COUNT = n ∧ t.tb = { s.tb with goodWin := s.tb.goodWin + 1 } ∧
      t.gb TB_STATUS_REFCLK = (s.gb TB_STATUS_REFCLK || (decide (1 ≤ s.tb.goodWin) && !s.gb TB_STATUS_AON_CLOCK)) ∧
      RegsKept [TB_REFCLK, TB_STATUS] s t ∧ t = { s with regs := t.regs, tb := t.tb })) ∧
    (∀ n, (9000 ≤ n ∧ n < 9524) ∨ (10526 < n ∧ n ≤ 11000) → Gives (.refclkWindow n) s (fun t => t.g TB_REFCLK_COUNT = n ∧
      t.tb = { s.tb with goodWin := s.tb.goodWin + 1 } ∧
      t.gb TB_STATUS_REFCLK = (s.gb TB_STATUS_REFCLK || (decide (1 ≤ s.tb.goodWin) && !s.gb TB_STATUS_AON_CLOCK)) ∧
      (t.gb TB_STATUS_REFCLK = true → 393 ∈ t.flt.pend) ∧ (t.gb TB_STATUS_REFCLK = false → t.flt = s.flt) ∧
      RegsKept [TB_REFCLK, TB_STATUS] s t ∧ t = { s with regs := t.regs, tb := t.tb, flt := t.flt })) ∧
    (∀ i : Instr, (i = .refclkMissingEdge ∨ ∃ n, i = .refclkWindow n ∧ (n < 9000 ∨ 11000 < n)) → s.gb TB_STATUS_REFCLK = true →
      Gives i s (fun t => t.gb TB_STATUS_REFCLK = false ∧ t.gb TB_STATUS_AON_CLOCK = true ∧ t.g TB_STATUS_SCALE = 2 ∧ t.tb = { s.tb with goodWin := 0 } ∧
        t.g TB_REFCLK_LOSSES = satAdd 16 (s.g TB_REFCLK_LOSSES) 1 ∧ 320 ∈ t.flt.pend ∧ RegsKept [TB_REFCLK, TB_STATUS] s t ∧
        t = { s with regs := t.regs, tb := t.tb, wards := t.wards, flt := t.flt, fresh := t.fresh })) ∧
    (s.ticks = true → s.g TB_CFG_ROLE = 2 → s.g TB_STATUS_STATE = 3 → s.gb TB_STATUS_AON_CLOCK = false → s.g TB_LIMITS_HOLD_SYNCS ≤ s.tb.missed →
      Gives .holdover s (fun t => t.g TB_STATUS_STATE = 4 ∧ t.g TB_STATUS_SCALE = 1 ∧ 321 ∈ t.flt.pend ∧ RegsKept [TB_STATUS] s t ∧
        t = { s with regs := t.regs, wards := t.wards, flt := t.flt })) ∧
    ((s.ward 0).enable = true → Gives (.tbCtrlReseed (.ward 0)) s (fun t => t.tb = { s.tb with perm := true } ∧ t.gb TB_CTRL_RESEED = true ∧
      (s.g TB_CFG_ROLE = 2 → t.g TB_STATUS_STATE = 1) ∧ (s.g TB_CFG_ROLE ≠ 2 → t.g TB_STATUS_STATE = s.g TB_STATUS_STATE) ∧
      RegsKept [TB_CTRL, TB_STATUS] s t ∧ t = { s with regs := t.regs, tb := t.tb, wards := t.wards })) ∧
    (∀ n : Fin 32, s.ticksOf tbDom = true → s.trigState n.val = 1 →
      let at_ : Nat := (s.trg n.val).first + (s.trg n.val).n * (s.trg n.val).period * 2 ^ 64 / 2000
      (s.tb.fine < at_ → Gives (.trigFire n) s (fun t => t = s)) ∧
      (at_ ≤ s.tb.fine → (∀ u, u < 8 → s.timState u ≠ 1) → s.conv.arm = none →
      (∀ q, q < 64 → nbit (s.g (PS_SQ_TRIG_TRIG q)) n.val = false) →
      Gives (.trigFire n) s (fun t => t.trg n.val = { s.trg n.val with n := (s.trg n.val).n + 1 } ∧ (∀ j, j ≠ n.val → t.trg j = s.trg j) ∧
        t.gb (TB_TRIG_STATUS_FIRED n.val) = true ∧
        t.g (TB_TRIG_STATUS_FIRINGS n.val) = (s.g (TB_TRIG_STATUS_FIRINGS n.val) + 1) % 2 ^ 32 ∧
        t.trigState n.val = (if (s.trg n.val).period = 0 ∨ ((s.trg n.val).count ≠ 0 ∧ (s.trg n.val).n + 1 = (s.trg n.val).count) then 2 else 1) ∧
        RegsKept [TB_TRIG_STATUS n.val, TB_TRIG_NEXT_LO n.val, TB_TRIG_NEXT_HI n.val] s t ∧
        t = { s with regs := t.regs, trigs := t.trigs, wards := t.wards }))) ∧
    (∀ (n : Fin 8) (c : Fin 3) (i : Fin 128) (up : Bool) (q : Nat), s.ticksOf tbDom = true → s.timState n.val = 1 →
      (∀ j, j < 8 → j ≠ n.val → s.timState j ≠ 1) →
      let e : Nat := if (up != (decide (c.val = 0) && s.gb (TIM_IN_CFG_INV i.val))) then 0 else 1
      let starts : Prop := s.g (TIM_CFG_START_CLASS n.val) = c.val ∧ s.g (TIM_CFG_START_INDEX n.val) = i.val ∧ s.g (TIM_CFG_START_EDGE n.val) = e
      let stops : Prop := s.g (TIM_CFG_STOP_CLASS n.val) = c.val ∧ s.g (TIM_CFG_STOP_INDEX n.val) = i.val ∧ s.g (TIM_CFG_STOP_EDGE n.val) = e
      (¬ starts → ¬ stops → Gives (.timEdge ⟨c, i⟩ up q) s (fun t => t = s)) ∧
      (starts → (s.tim n.val).start = none → (s.tim n.val).lastStart = none → (s.tim n.val).stops = [] →
        Gives (.timEdge ⟨c, i⟩ up q) s (fun t => t.tim n.val = { s.tim n.val with start := some q, lastStart := some q, order := false } ∧
          t.g (TIM_STATUS_WAIT_STOP n.val) = 1 ∧ (∀ j, j ≠ n.val → t.tim j = s.tim j) ∧ RegsKept [TIM_STATUS n.val, TIM_COUNTS n.val] s t ∧
          t = { s with regs := t.regs, tims := t.tims })) ∧
      (∀ a, (s.tim n.val).start = some a → (s.tim n.val).order = false → s.g (TIM_STATUS_DONE_N n.val) + 1 < 2 ^ 25 →
        s.g (TIM_STATUS_DONE_N n.val) + 1 ≠ (s.tim n.val).count →
        (stops → s.gb (TIM_CFG_CHAIN n.val) = false → (s.tim n.val).lastStop = none → a + 1 ≤ q → q / 32 ≤ a / 32 + 2 ^ 32 - 1 →
          Gives (.timEdge ⟨c, i⟩ up q) s (fun t => t.g (TIM_LAST_RESULT n.val) = q - a ∧ t.gb (TIM_LAST_SUBRES n.val) = false ∧
            t.gb (TIM_LAST_OVF n.val) = false ∧ t.g (TIM_STATUS_DONE_N n.val) = s.g (TIM_STATUS_DONE_N n.val) + 1 ∧
            t.g (TIM_STATUS_NSTAT n.val) = (s.g (TIM_STATUS_NSTAT n.val) + 1) % 2 ^ 25 ∧
            t.g (TIM_MIN_VALUE n.val) = min (q - a) (s.g (TIM_MIN_VALUE n.val)) ∧ t.g (TIM_MAX_VALUE n.val) = max (q - a) (s.g (TIM_MAX_VALUE n.val)) ∧
            t.g (TIM_SUM_SUM n.val) = (s.g (TIM_SUM_SUM n.val) + (q - a)) % 2 ^ 64 ∧
            t.tim n.val = { s.tim n.val with start := none, lastStop := some q } ∧ (∀ j, j ≠ n.val → t.tim j = s.tim j) ∧
            RegsKept [TIM_STATUS n.val, TIM_LAST n.val, TIM_MIN n.val, TIM_MAX n.val, TIM_SUM n.val, TIM_SUMSQ_LO n.val, TIM_SUMSQ_HI n.val] s t ∧
            t = { s with regs := t.regs, tims := t.tims })) ∧
        (a / 32 + 2 ^ 32 - 1 < quantQ s.tb.tm / 32 → Gives (.timOverflow n) s (fun t => t.g (TIM_LAST_RESULT n.val) = 0x1FFFFFFFFF ∧ t.gb (TIM_LAST_OVF n.val) = true ∧
          t.g (TIM_COUNTS_OVF n.val) = satAdd 16 (s.g (TIM_COUNTS_OVF n.val)) 1 ∧ t.tim n.val = { s.tim n.val with start := none } ∧
          (∀ j, j ≠ n.val → t.tim j = s.tim j) ∧ RegsKept [TIM_STATUS n.val, TIM_LAST n.val, TIM_COUNTS n.val] s t ∧
          t.g (TIM_STATUS_NSTAT n.val) = s.g (TIM_STATUS_NSTAT n.val) ∧ t = { s with regs := t.regs, tims := t.tims }))) ∧
      ((s.tim n.val).deadline = none → Gives (.timTimeout n) s (fun t => t = s)) ∧
      (∀ i d, (s.tim n.val).cmd = some i → (s.tim n.val).deadline = some d → d ≤ s.tb.tm → (s.tim n.val).bound = false → s.cmdOpen i = true → s.alone →
        Gives (.timTimeout n) s (fun t => t.ends i 0 3 ∧ t.timState n.val = 2 ∧ t.g (TIM_STATUS_END n.val) = 3 ∧
          t.tim n.val = { s.tim n.val with start := none, stops := [], cmd := none, deadline := none } ∧ (∀ j, j ≠ n.val → t.tim j = s.tim j) ∧
          RegsKept [TIM_STATUS n.val, TIM_MEAN n.val, TIM_SD n.val] s t ∧ OnlyJournal { s with regs := t.regs, tims := t.tims } t)))

/-- R255 to R259, R267, R268: the sync ring. Each interval a device with a role sends Sync and, with its reading, Follow_Up downstream; a slave
that owes one sends Delay_Req upstream, and answers one with its reading. Sync and Follow_Up give t2 and t1, Delay_Resp the path, as half the sum
of the two differences; a measurement steps a slave that holds a permission, and steers the rate of a LOCKED one within the limits. What is
not for the device is ignored and counted. A Delay_Resp that comes before its Follow_Up is kept, and SQ_JOIN judges the arrivals again
(both the model's reading, assumption 39). The master keeps the latest SQ_JOIN of a NODE and the arrivals that are not yet complete; a slave
fixes T_rel from SQ_RELEASE and passes the frame on; a SQ_JOIN that drops the last missing member releases. -/
def Obligations.RingFramesAct : Prop :=
  ∀ (s : State) (f : Frame) (x : Nat), s.portUp 5 = true → s.portUp 6 = true → (s.port 5).txq = [] → (s.port 6).txq = [] →
    (s.grp 5).narrowing = none → (s.grp 6).narrowing = none → s.corrupted 5 f = false → s.corrupted 6 f = false → (s.frac16 x) / 65536 / 1000000000 < 2 ^ 48 →
    let b := f.payload
    let ports (t : State) : Prop := t = { s with ports := t.ports, wards := t.wards, outs := t.outs, tb := t.tb }
    (s.ticks = true → s.g TB_CFG_ROLE ≠ 0 → s.tb.seqSync < 2 ^ 16 → Gives (.syncInterval x) s (fun t => ∃ a c,
      framesOf t.outs = framesOf s.outs ++ [a, c] ∧ a.type = 0x40#8 ∧ c.type = 0x40#8 ∧ s.ptpOk 0 a.payload = true ∧ s.ptpOk 8 c.payload = true ∧
      ptpSeq a.payload = s.tb.seqSync ∧ ptpSeq c.payload = s.tb.seqSync ∧ ptpReading c.payload = s.frac16 x ∧
      t.tb.seqSync = (s.tb.seqSync + 1) % 65536 ∧ t.tb.fine = s.tb.fine ∧ RegsKept [TB_COUNTS] s t ∧ t.mem = s.mem)) ∧
    (∀ n, s.ticks = true → s.g TB_CFG_ROLE = 2 → s.tb.reqDue = some n → s.tb.seqReq < 2 ^ 16 → Gives (.delayReqSend x) s (fun t => ∃ a,
      framesOf t.outs = framesOf s.outs ++ [a] ∧ a.type = 0x40#8 ∧ s.ptpOk 1 a.payload = true ∧ ptpSeq a.payload = s.tb.seqReq ∧
      t.tb = { s.tb with reqDue := none, req := some ⟨s.tb.seqReq, s.frac16 x, n, false⟩, seqReq := (s.tb.seqReq + 1) % 65536 } ∧ ports t)) ∧
    (s.g TB_CFG_ROLE = 2 → s.g TB_STATUS_STATE ≠ 0 → s.ptpOk 0 b = true → Gives (.sync false f x) s (fun t =>
      t.tb = { s.tb with sync := some (ptpSeq b, s.frac16 x), reqDue := some (ptpSeq b) } ∧ ports t)) ∧
    (s.g TB_CFG_ROLE ≠ 2 ∨ s.ptpOk 0 b = false → Gives (.sync false f x) s (fun t =>
      t.g TB_COUNTS_IGNORED = satAdd 16 (s.g TB_COUNTS_IGNORED) 1 ∧ RegsKept [TB_COUNTS] s t ∧
      t = { s with regs := t.regs, ports := t.ports, wards := t.wards })) ∧
    (∀ (t2 : Nat) (p : Int), s.g TB_CFG_ROLE = 2 → s.ptpOk 8 b = true → s.tb.sync = some (ptpSeq b, t2) → s.tb.path = some p → s.tb.resp = none →
      let o : Int := (t2 : Int) - ptpReading b - p - s.gi TB_ASYM_ASYM
      (-2 ^ 63 : Int) ≤ o → o < 2 ^ 63 →
      (s.g TB_STATUS_STATE = 1 → s.tb.perm = true → s.gb TB_STATUS_AON_CLOCK = false → Gives (.followUp false f) s (fun t =>
        t.tb.fine = ((s.tb.fine : Int) + -o * 2 ^ 48).toNat ∧ t.tb.perm = false ∧ t.g TB_STATUS_STATE = 2 ∧ t.gb TB_STATUS_EPOCH = true ∧
        t.gi TB_OFFSET_OFFSET = o ∧ t.tb.last = some (ptpSeq b, ptpReading b, t2) ∧ t.tb.base = s.tb.base ∧ t.mem = s.mem)) ∧
      (s.g TB_STATUS_STATE = 3 → s.tb.slew = 0 → o.natAbs * 1000 ≤ 4 * (s.g TB_LIMITS_LOCK_THRESH * 65536) → Gives (.followUp false f) s (fun t =>
        let i := clampI rmax (s.tb.integ - (o * (s.g TB_SERVO_KI : Int)) / 65536)
        t.tb = { s.tb with sync := none, last := some (ptpSeq b, ptpReading b, t2), valid := true, missed := 0, waiting := false, integ := i, base := clampI rmax (-((o * (s.g TB_SERVO_KP : Int)) / 65536) + i) } ∧
        t.g TB_STATUS_STATE = 3 ∧ t.gi TB_OFFSET_OFFSET = o ∧ t.gi TB_RATE_RATE = t.tb.base ∧
        RegsKept [TB_OFFSET, TB_COUNTS, TB_RATE, TB_SLEW, TB_STATUS] s t ∧
        t = { s with regs := t.regs, ports := t.ports, wards := t.wards, tb := t.tb }))) ∧
    (s.g TB_CFG_ROLE ≠ 0 → s.ptpOk 1 b = true → Gives (.delayReq true f x) s (fun t => ∃ a, framesOf t.outs = framesOf s.outs ++ [a] ∧
      a.type = 0x40#8 ∧ s.ptpOk 9 a.payload = true ∧ ptpSeq a.payload = ptpSeq b ∧ ptpReading a.payload = s.frac16 x ∧ ports t ∧ t.tb = s.tb)) ∧
    (∀ t3 q : Nat, s.g TB_CFG_ROLE = 2 → s.ptpOk 9 b = true → s.tb.req = some ⟨ptpSeq b, t3, q, false⟩ → s.tb.last = none → s.tb.waiting = false →
      Gives (.delayResp false f) s (fun t => t.tb = { s.tb with req := none, resp := some (q, t3, ptpReading b) } ∧ ports t)) ∧
    (∀ t1 t2 t3 q : Nat, s.g TB_CFG_ROLE = 2 → s.ptpOk 9 b = true → s.tb.req = some ⟨ptpSeq b, t3, q, false⟩ → s.tb.last = some (q, t1, t2) →
      s.tb.waiting = false →
      let p : Int := (((t2 : Int) - t1) + ((ptpReading b : Int) - t3)) / 2
      (-2 ^ 63 : Int) ≤ p → p < 2 ^ 63 → Gives (.delayResp false f) s (fun t => t.tb = { s.tb with req := none, resp := none, path := some p } ∧ t.gi TB_PATH_PATH = p ∧
        RegsKept [TB_PATH] s t ∧ t = { s with regs := t.regs, ports := t.ports, wards := t.wards, tb := t.tb })) ∧
    (s.inOrder 5 f = true →
      (let js := s.tb.joins.filter (fun p => decide (p.1 ≠ u b 0 2)) ++ [(u b 0 2, u b 8 8)]
       s.g TB_CFG_ROLE = 1 →
       ((∀ p ∈ s.tb.arr, ∃ n ∈ js, nbit n.2 p.1 = true ∧ s.tb.arr.contains (p.1, p.2.1, n.1) = false) →
         Gives (.sqJoin false f) s (fun t => t.tb = { s.tb with joins := js } ∧ ports t)) ∧
       (∀ q r n, s.tb.arr = [(q, r, n)] → q < 64 → r < 2 ^ 32 → s.gb (PS_SQ_ENROL_GLOBAL q) = false → (∃ p ∈ js, nbit p.2 q = true) →
         (∀ p ∈ js, nbit p.2 q = true → p.1 = n) → s.maySend 6 24 = true → Gives (.sqJoin false f) s (fun t =>
           t.tb = { s.tb with joins := js, arr := [] } ∧ t.mem = s.mem ∧ t.seqs = s.seqs ∧ (∀ j, t.sq j = s.sq j) ∧ ∃ l, Sent s t 6 0x43 0 0#16 0 l ∧ l.length = 24 ∧ u l 0 1 = q ∧ u l 4 4 = r))) ∧
      (∀ m, s.g TB_CFG_ROLE = 1 → m ∈ s.tb.joins → nbit m.2 (u b 2 1 % 64) = true → m.1 ≠ u b 0 2 →
        s.tb.arr.contains (u b 2 1 % 64, u b 4 4, m.1) = false → Gives (.sqArrive false f) s (fun t =>
          t.tb = { s.tb with arr := s.tb.arr ++ [(u b 2 1 % 64, u b 4 4, u b 0 2)] } ∧ ports t)) ∧
      (∀ q : Fin 64, s.g TB_CFG_ROLE = 2 → u b 0 1 = q.val → u b 4 4 = s.sqRound q.val → s.gb (PS_SQ_ENROL_GLOBAL q.val) = true → (s.sq q.val).trel = none →
        (∀ k, (s.seq k).wait = none) → s.maySend 6 b.length = true → f.type = 0x43#8 → Gives (.sqRelease false f) s (fun t =>
          t.sq q.val = { s.sq q.val with
            arr := (s.sq q.val).arr ++ [(49, s.tb.fine)], fixAt := s.instantOf s.tb.fine,
            trel := some (stampFrac (BitVec.ofNat 96 (u b 8 12)) * 2 ^ 48),
            relAt := s.instantOf (stampFrac (BitVec.ofNat 96 (u b 8 12)) * 2 ^ 48) } ∧
          (∀ j, j ≠ q.val → t.sq j = s.sq j) ∧ Sent s t 6 0x43 0 0#16 0 b ∧ t.tb = s.tb ∧ t.seqs = s.seqs ∧ t.mem = s.mem)))

/-- R271: the statistics of an interval unit, freshly armed for more measurements than it gets. `m` is any sequence of ended measurements, each
with its result and whether it overflowed; the included ones are those that did not. After it the unit holds their number, MIN, MAX, the sum
and the 128-bit sum of squares, with no result MIN all ones and the others 0; when the run ends, MEAN and SD are the integers of the rule: the
mean in 1/256 unit rounded half up, and the largest integers that the root and the division give. A single result has SD 0, and no result
leaves MEAN and SD 0. -/
def Obligations.IntervalStatisticsAreExact : Prop :=
  ∀ (s : State) (n : Fin 8) (count cause timeout : Nat) (cmd : Option Nat) (m : List (Nat × Bool)), m.length < count → m.length ≤ 2 ^ 24 → cause < 8 →
    (∀ x ∈ m, x.1 < 2 ^ 37) →
    let r : List Nat := (m.filter (fun x => !x.2)).map (·.1)
    let sq : Nat := (r.map (fun x => x * x)).sum
    let t := m.foldl (fun t x => t.timResult n.val x.1 (x.1 = 0) false x.2) (s.timArmUnit n.val count cmd false timeout)
    let e := t.timEnd n.val cause
    (t.timState n.val = 1 ∧ t.g (TIM_STATUS_DONE_N n.val) = m.length ∧ t.g (TIM_STATUS_NSTAT n.val) = r.length ∧
      t.g (TIM_SUM_SUM n.val) = r.sum ∧ t.g (TIM_SUMSQ_LO_SUMSQ n.val) + 2 ^ 64 * t.g (TIM_SUMSQ_HI_SUMSQ n.val) = sq ∧
      (∀ x ∈ r, t.g (TIM_MIN_VALUE n.val) ≤ x ∧ x ≤ t.g (TIM_MAX_VALUE n.val)) ∧
      (r ≠ [] → t.g (TIM_MIN_VALUE n.val) ∈ r ∧ t.g (TIM_MAX_VALUE n.val) ∈ r) ∧
      (r = [] → t.g (TIM_MIN_VALUE n.val) = 0x1FFFFFFFFF ∧ t.g (TIM_MAX_VALUE n.val) = 0 ∧ t.g (TIM_SUM_SUM n.val) = 0)) ∧
    (∀ f ∈ [TIM_STATUS_NSTAT n.val, TIM_MIN_VALUE n.val, TIM_MAX_VALUE n.val, TIM_SUM_SUM n.val, TIM_SUMSQ_LO_SUMSQ n.val,
      TIM_SUMSQ_HI_SUMSQ n.val], e.g f = t.g f) ∧
    (r = [] → e.g (TIM_MEAN_MEAN n.val) = 0 ∧ e.g (TIM_SD_SD n.val) = 0) ∧
    (r ≠ [] → e.g (TIM_MEAN_MEAN n.val) = (r.sum * 256 + r.length / 2) / r.length ∧
      (∃ q : Nat, q * q ≤ (r.length * sq - r.sum * r.sum) * 65536 ∧ (r.length * sq - r.sum * r.sum) * 65536 < (q + 1) * (q + 1) ∧
        e.g (TIM_SD_SD n.val) = q / r.length)) ∧
    (r.length = 1 → e.g (TIM_SD_SD n.val) = 0)

/-- R274, R275, R277 to R280, R282 to R284, R288, R293, R299, R301, R303, R305: the analog units. A conversion of an Injected request answers its command with the
mean of the corrected codes, the band and the marks. Each THM_PERIOD asks for every sensor that is not OFF. A band that differs for long
enough comes into force, and no correction jumps with it. A stored sample, whose slice follows that of
the sample before, enters the pre-trigger memory, begins a record with the set of the band in force, or enters the record; the last one
of a record writes it into its slot, as does the end of the deferral of an Urgent request, with ABORT. Re-arming, AUTO_TIME and FORCE act on an armed stream; RD
frees records up to WR. A tick moves a channel's corrections toward their targets, a measured channel passes within the limit of its residual, and a
swept lane takes the widest setting.
Roundings without a direction, the limits of a correction, the phase in which the converter runs, RD and FORCE wherever the engine is not
IDLE, and the turn of the slices, of which a command tells that of its first sample, are the model's readings (assumptions 30, 42, 53, 65
and 95). -/
def Obligations.AnalogUnitsSample : Prop :=
  ∀ (s : State), s.ticks = true → s.alone →
    (∀ (r : AdcMeas) (j : Inj), s.adcRuns = true → s.conv.cls = 2 → s.conv.inj = [j] → codesOk r.codes j.avg = true → s.conv.urgent = 0 →
      s.cal.run = none → s.conv.arm = none → s.cmdOpen j.cmd = true → Gives (.adcConversionDone r) s (fun t =>
        t.ends j.cmd 0 (unsgn 16 (s.convMean r).1 + 2 ^ 16 * s.conv.band + 2 ^ 18 * b2n j.restarted + 2 ^ 19 * b2n (s.convMean r).2) ∧
        t.conv = { s.conv with inj := [], cls := 0 } ∧ t.g ADC_STATUS_CLASS = 0 ∧ RegsKept [ADC_STATUS, ADC_COUNTS] s t ∧
        OnlyJournal { s with regs := t.regs, conv := t.conv } t)) ∧
    (s.adcRuns = true → s.gb THM_CFG_MODEL = false → s.conv.cls = 1 → Gives .thmPeriod s (fun t =>
      (∀ i, i < 8 → (nbit t.conv.urgent i = true ↔ nbit s.conv.urgent i = true ∨ s.g (THM_TS_CFG_TYPE i) ≠ 0)) ∧
      t.conv = { s.conv with urgent := t.conv.urgent } ∧ RegsKept [ADC_COUNTS] s t ∧
      t = { s with regs := t.regs, conv := t.conv, thm := { s.thm with ran := 0 } })) ∧
    (∀ n : Nat, s.adcClock = true → s.gb THM_STATUS_BAND_VALID = true → s.thm.since = some n → s.thm.cand ≠ s.g THM_STATUS_BAND → s.thm.cand < 4 →
      s.gb CAL_CFG_JUMP_IDLE = false → s.cal.run = none → Gives .bandChange s (fun t => t.g THM_STATUS_BAND = s.thm.cand ∧
        t.thm = { s.thm with since := none } ∧ (∀ c p, c < 128 → p < 3 → t.gi (calNow c p) = s.gi (calNow c p)) ∧
        (∀ c, c < 128 → t.gb (CAL_CH_NOW_SLEWING c) = !(t.calThere c 0 && t.calThere c 1 && t.calThere c 2)) ∧
        t = { s with regs := t.regs, wards := t.wards, thm := t.thm, fresh := t.fresh })) ∧
    (∀ (a : AcqArm), s.domOn adcDom = true → s.conv.arm = some a → a.scan = false →
      (∀ (sl : Fin 8) (code : Int), s.conv.cls = 4 → codesOk [code] 1 = true → a.decim = 1 → s.conv.dec = [] → s.conv.ready = false →
        a.src = 0 →
        let g := s.conv.nextSl.getD sl.val
        let x : Conv := { s.conv with nextSl := some ((g + 1) % 8) }
        (s.g ACQ_STATUS_STATE = 1 → s.conv.rec_ = none → s.conv.pendTrig = none → Gives (.acqSample sl code false) s (fun t =>
          t.conv = { x with preMem := ([(g, code)] :: s.conv.preMem).take 65536 } ∧ RegsKept [ADC_COUNTS] s t ∧
          t = { s with regs := t.regs, conv := t.conv })) ∧
        (∀ st, s.g ACQ_STATUS_STATE = 1 → s.conv.rec_ = none → s.conv.pendTrig = some st → stampKey st ≤ stampKey s.now → s.acqRoom a = true →
          a.pre = 0 → 1 < a.post → Gives (.acqSample sl code false) s (fun t =>
            let b := s.g THM_STATUS_BAND
            t.conv = { x with
              band := b, preMem := [], pendTrig := none, auto := false,
              rec_ := some ⟨2 * b2n s.conv.auto + 16 * b2n (clips code), s.now, b, [], [s.correct b g code], []⟩ } ∧
            t.g ACQ_STATUS_STATE = 2 ∧ t.g ADC_STATUS_CORR_BAND = b ∧ RegsKept [ACQ_STATUS, ACQ_CTRL, ADC_STATUS, ADC_COUNTS] s t ∧
            t = { s with regs := t.regs, conv := t.conv })) ∧
        (∀ r, s.g ACQ_STATUS_STATE = 2 → s.conv.rec_ = some r →
          let r' : AcqRec := { r with post := s.correct r.band g code :: r.post, flags := r.flags ||| (16 * b2n (clips code)) }
          (r.post.length + 1 < a.post → Gives (.acqSample sl code false) s (fun t => t.conv = { x with rec_ := some r' } ∧
            RegsKept [ADC_COUNTS] s t ∧ t = { s with regs := t.regs, conv := t.conv })) ∧
          (r.post.length + 1 = a.post → r.pre.length ≤ a.pre → a.records = 0 → a.notify = false → a.slot ≤ a.size → 0x0102000000 ≤ a.base →
            a.base + a.size ≤ 0x0102100000 → s.ecc = [] → s.conv.urgent = 0 → s.conv.inj = [] → s.cal.run = none →
            let o := a.base + s.g ACQ_PTR_WR % (a.size / a.slot) * a.slot
            let l := acqBytes a r' (s.g ACQ_STATUS_RECORDS)
            Gives (.acqSample sl code false) s (fun t => t.ld o l.length = l ∧ (∀ b, b < o ∨ o + l.length ≤ b → t.ldB b = s.ldB b) ∧
              t.g ACQ_PTR_WR = (s.g ACQ_PTR_WR + 1) % 2 ^ 32 ∧ t.g ACQ_PTR_RD = s.g ACQ_PTR_RD ∧
              t.g ACQ_STATUS_RECORDS = (s.g ACQ_STATUS_RECORDS + 1) % 2 ^ 32 ∧ t.g ACQ_STATUS_STATE = 3 ∧ t.conv.rec_ = none ∧ t.conv.arm = some a ∧
              RegsKept [ACQ_PTR, ACQ_STATUS, ADC_STATUS, ADC_COUNTS] s t ∧ t = { s with regs := t.regs, conv := t.conv, mem := t.mem })))) ∧
      (∀ r, s.conv.rec_ = some r → s.conv.urgent ≠ 0 → s.conv.urgent < 256 → a.records = 0 → a.notify = false → s.adcRuns = true →
        a.slot ≤ a.size → (acqBytes a r 0).length ≤ a.slot → 0x0102000000 ≤ a.base → a.base + a.size ≤ 0x0102100000 → s.ecc = [] →
        let o := a.base + s.g ACQ_PTR_WR % (a.size / a.slot) * a.slot
        Gives .acqDeferExpiry s (fun t => t.g ACQ_COUNTS_ABORTS = satAdd 16 (s.g ACQ_COUNTS_ABORTS) 1 ∧ t.g ACQ_STATUS_STATE = 3 ∧
          t.g ACQ_STATUS_RECORDS = (s.g ACQ_STATUS_RECORDS + 1) % 2 ^ 32 ∧ nbit (leNat (t.ld (o + 1) 1)) 2 = true ∧ t.conv.rec_ = none ∧ t.conv.cls = 1 ∧
          (∀ b, b < o ∨ o + a.slot ≤ b → t.ldB b = s.ldB b) ∧ t.cmds = s.cmds)) ∧
      (s.conv.cls = 4 → s.g ACQ_STATUS_STATE = 3 → Gives .acqRearm s (fun t => t.g ACQ_STATUS_STATE = 1 ∧
        t.conv = { s.conv with band := s.g THM_STATUS_BAND, preMem := [], dec := [] } ∧
        t.g ADC_STATUS_CORR_BAND = s.g THM_STATUS_BAND ∧ RegsKept [ACQ_STATUS, ADC_STATUS] s t ∧ t = { s with regs := t.regs, conv := t.conv })) ∧
      (s.g ACQ_STATUS_STATE = 1 → s.conv.pendTrig = none →
        (a.auto = true → Gives .acqAutoTrigger s (fun t => t = { s with conv := { s.conv with pendTrig := some s.now, auto := true } })) ∧
        (∀ w : Fin 4, (s.ward w.val).enable = true → s.g ACQ_STATUS_WARD = w.val → a.src = 0 → Gives (.acqCtrlForce (.ward w)) s (fun t =>
          t.conv = { s.conv with pendTrig := some s.now, auto := false } ∧ t.gb ACQ_CTRL_FORCE = true ∧ RegsKept [ACQ_CTRL] s t ∧
          t = { s with regs := t.regs, conv := t.conv })))) ∧
    (∀ (w : Fin 4) (v : Word), (s.ward w.val).enable = true → s.g ACQ_STATUS_STATE ≠ 0 → s.g ACQ_STATUS_WARD = w.val → s.twin.copying = false →
      Gives (.acqRdWrite (.ward w) v) s (fun t => t.g ACQ_PTR_WR = s.g ACQ_PTR_WR ∧
        t.g ACQ_PTR_RD = (if (v.toNat / 2 ^ 32 + 2 ^ 32 - s.g ACQ_PTR_RD) % 2 ^ 32 ≤ (s.g ACQ_PTR_WR + 2 ^ 32 - s.g ACQ_PTR_RD) % 2 ^ 32
          then v.toNat / 2 ^ 32 else s.g ACQ_PTR_RD) ∧ RegsKept [ACQ_PTR] s t ∧ t = { s.demand adcDom with regs := t.regs })) ∧
    (∀ n : Nat, n < 128 → (∀ m, m < 128 → (s.calMoving m = true ↔ m = n)) → s.calJumps n = false → Gives .calSlewTick s (fun t =>
      (∀ p, p < 3 →
        let x := s.gi (calNow n p)
        let y := s.calTarget n p
        let k : Nat := min ((tabGet 0 s.cal.acc (3 * n + p) + s.g CAL_CFG_SLEW) / 128) (y - x).natAbs
        t.gi (calNow n p) = (if x < y then x + k else x - k)) ∧
      t.gb (CAL_CH_NOW_SLEWING n) = !(t.calThere n 0 && t.calThere n 1 && t.calThere n 2) ∧ RegsKept [CAL_CH_NOW n, CAL_STATUS] s t ∧
      t = { s with regs := t.regs, cal := t.cal, wards := t.wards, fresh := t.fresh })) ∧
    (∀ (r : CalRun) (c : Fin 32) (data : List (List Int)), s.cal.run = some r → r.target = 0 → r.items = [c.val] → r.band < 4 →
      s.cmdOpen r.cmd = true → data.length = 12 → Gives (.calItemDone ⟨false, data⟩) s (fun t => t.cal.run = none ∧ t.g CAL_STATUS_RUN = 0 ∧
        (∃ n, t.ends r.cmd 0 n) ∧ ∀ j, j < 4 →
          let e (p : Nat) : List Int := data.getD (3 * j + p) []
          let res := max (max (calResid (e 0)) (calResid (e 1))) (calResid (e 2))
          t.g (CAL_CH_TAB_RESID (4 * c.val + j) r.band) = res ∧
          t.gb (CAL_CH_TAB_VALID (4 * c.val + j) r.band) = decide (res ≤ s.g CAL_CFG_RESID_LIMIT) ∧
          (res ≤ s.g CAL_CFG_RESID_LIMIT → t.gi (CAL_CH_TAB_DRV (4 * c.val + j) r.band) = calCorr (e 0) ∧
            t.gi (CAL_CH_TAB_DEN (4 * c.val + j) r.band) = calCorr (e 1) ∧ t.gi (CAL_CH_TAB_STB (4 * c.val + j) r.band) = calCorr (e 2)))) ∧
    (∀ (r : CalRun) (l : Fin 16) (data : List (List Int)) (i : Nat), s.cal.run = some r → r.target = 1 → r.items = [l.val] → s.cmdOpen r.cmd = true →
      let width (j : Nat) : Nat := sweepWidth ((data.getD j []).map Int.toNat)
      data.length = 16 → (∀ e ∈ data, e.length = 64) → i < 16 → (∀ j, j < 16 → width j ≤ width i) →
      (∀ j, j < i → width j < width i) → Gives (.calItemDone ⟨false, data⟩) s (fun t =>
        t.g (LN_EQ_RX_CTLE l.val) = i ∧ t.g (CAL_LN_Q_WIDTH l.val) = width i ∧ t.g (CAL_LN_Q_CTLE l.val) = i ∧
        t.gb (CAL_LN_Q_VALID l.val) = true ∧ t.ends r.cmd 0 (b2n (decide (r.fails ≠ 0)) + 16 * r.band + 256 * min r.fails 255) ∧ t.cal.run = none ∧
        t.g CAL_STATUS_RUN = 0 ∧ RegsKept [LN_EQ l.val, CAL_LN_Q l.val, CAL_STATUS] s t ∧ OnlyJournal { s with regs := t.regs, cal := t.cal } t))

/-- R312, R313, R315, R317 to R320, R322, R324: a tick latches the source that asserts, records it in the log and, when the first-error
registers are free, there; a source that is latched already counts as a repeat. STOP_UNIT stops the sequencer of the source. 29 ticks later the
fault is reported to its Ward and the first error freezes. The pulse of ERR_N ends; RESET_DELAY of a RESET action begins a chip reset with
DEN 0 on every channel and no byte of memory touched but the seal of the Recovery Area (whose place is the model's choice, assumption 126),
but none once a real loss of REFCLK or a thermal shutdown has stopped the device; FLT_RAISE asserts the user sources its Ward owns; FE_REARM frees the first-error registers. -/
def Obligations.FaultsLatch : Prop :=
  ∀ (s : State),
    (∀ i : Nat, srcImplemented i = true → (∀ c, c < 4 → s.g (rstUnitField c) = 0) → s.thm.finalDue = none → s.flt.pend = [i] → s.flt.inj = [] → s.flt.win = [] → s.gb TB_STATUS_AON_CLOCK = false → i ≠ 320 →
      s.srcSev i < 3 → s.gb (FLT_REACT_ERRN i) = false →
      (nbit (s.g (FLT_GRP_REAL_REAL (i / 32))) (i % 32) = false → s.g (FLT_REACT_ACTION i) = 0 → Gives .faultTick s (fun t =>
        t.flt.tick = s.flt.tick + 1 ∧ t.flt.pend = [] ∧ nbit (t.g (FLT_GRP_REAL_REAL (i / 32))) (i % 32) = true ∧
        (∀ b, b < 32 → b ≠ i % 32 → nbit (t.g (FLT_GRP_REAL_REAL (i / 32))) b = nbit (s.g (FLT_GRP_REAL_REAL (i / 32))) b) ∧
        t.g (FLT_LOG_INFO_SOURCE (s.g FLT_LOG_PTR_NEXT)) = i ∧ t.g (FLT_LOG_INFO_SEV (s.g FLT_LOG_PTR_NEXT)) = s.srcSev i ∧
        t.g FLT_LOG_PTR_NEXT = (s.g FLT_LOG_PTR_NEXT + 1) % 64 ∧ t.gb FLT_FE_VALID = true ∧
        t.g FLT_FE_SOURCE = (if s.gb FLT_FE_VALID then s.g FLT_FE_SOURCE else i) ∧ t.gb FLT_STATUS_ANY = true ∧
        RegsKept [FLT_GRP_REAL (i / 32), FLT_FE, FLT_FE_STAMP_LO, FLT_FE_STAMP_HI, FLT_LOG_PTR, FLT_LOG_INFO (s.g FLT_LOG_PTR_NEXT),
          FLT_LOG_STAMP_LO (s.g FLT_LOG_PTR_NEXT), FLT_LOG_STAMP_HI (s.g FLT_LOG_PTR_NEXT), FLT_SUMMARY, FLT_STATUS] s t ∧
        t = { s with regs := t.regs, flt := t.flt })) ∧
      (nbit (s.g (FLT_GRP_REAL_REAL (i / 32))) (i % 32) = true → Gives .faultTick s (fun t =>
        t.g (FLT_GRP_CNT_REPEATS (i / 32)) = satAdd 32 (s.g (FLT_GRP_CNT_REPEATS (i / 32))) 1 ∧
        t.flt = { s.flt with tick := s.flt.tick + 1, pend := [] } ∧ RegsKept [FLT_GRP_CNT (i / 32)] s t ∧ t = { s with regs := t.regs, flt := t.flt })) ∧
      (nbit (s.g (FLT_GRP_REAL_REAL (i / 32))) (i % 32) = false → s.g (FLT_REACT_ACTION i) = 1 → i < 96 → s.bursting (i % 32) = true →
        Gives .faultTick s (fun t => t.bursting (i % 32) = false ∧ t.g (PS_BURST_END_CAUSE (i % 32)) = 4 ∧ t.g (PS_FAULT_CAUSE (i % 32)) = 7 ∧ t.mem = s.mem))) ∧
    (∀ l : Latch, s.flt.win = [l] → l.reported = false → l.tick + 29 ≤ s.flt.tick → l.report = true → l.storm = false →
      Gives .faultWindowEnd s (fun t => t.flt.win = [{ l with reported := true }] ∧
        t.wards = (s.eventAt (s.fltWard l.src) 0x0C01 l.stamp l.arg).wards ∧
        (s.flt.feWin = true → s.flt.feTick + 29 ≤ s.flt.tick → s.gb FLT_FE_VALID = true → t.gb FLT_FE_FROZEN = true) ∧
        RegsKept [FLT_FE] s t ∧ t = { s with regs := t.regs, wards := t.wards, flt := t.flt })) ∧
    (∀ n, s.flt.pulse = some n → n ≤ s.flt.tick → Gives .errNPulseEnd s (fun t => t.flt = { s.flt with pulse := none } ∧
      t.gb FLT_STATUS_PULSE = false ∧ (s.thm.finalDue = none → t.gb FLT_STATUS_ERR_N_LOW = (s.gb FLT_CTRL_ERR_HOLD || s.thm.shutdown || s.out)) ∧
      RegsKept [FLT_STATUS] s t ∧ t = { s with regs := t.regs, flt := t.flt })) ∧
    (s.pwr.gatedAll = true ∨ s.thm.shutdown = true → Gives .resetAction s (fun t => t = s)) ∧
    (s.flt.resetPend = true → s.pwr.inReset = none → s.pwr.gatedAll = false → s.thm.shutdown = false → Gives .resetAction s (fun t => t.pwr.inReset = some 2 ∧ t.jnl.stop = true ∧
      t.flt.resetPend = false ∧ (∀ n, n < 128 → t.gb (CH_STATUS_DEN n) = false) ∧ t.gb TWN_STATUS_SIDE = false ∧
      (∀ k, k < 32 → t.bursting k = false) ∧
      (∀ a, a < memBase 0 + s.raBase ∨ memBase 0 + s.raBase + 24 ≤ a → t.ldB a = s.ldB a) ∧ t.nvm = s.nvm ∧ t.nvmEcc = s.nvmEcc)) ∧
    (∀ (w : Fin 4) (n : Fin 19) (b : Fin 32), (s.ward w.val).enable = true → s.fltWard (32 * (13 + n.val) + b.val) = some w.val → s.paired = false →
      s.twin.copying = false → Gives (.fltRaise (.ward w) n (BitVec.ofNat 64 (2 ^ b.val))) s (fun t =>
        t.flt = (s.assertFlt (32 * (13 + n.val) + b.val)).flt ∧ RegsKept [FLT_RAISE n.val] s t ∧ t = { s with regs := t.regs, flt := t.flt })) ∧
    ((s.ward 0).enable = true → Gives (.feRearm (.ward 0)) s (fun t => t.gb FLT_FE_VALID = false ∧ t.flt = { s.flt with feWin := false } ∧
      t.gb FLT_CTRL_ERR_HOLD = s.gb FLT_CTRL_ERR_HOLD ∧ RegsKept [FLT_CTRL, FLT_FE, FLT_STATUS] s t ∧ t = { s with regs := t.regs, flt := t.flt }))

/-- R330, R331, R346, R348, R349, R353: what a frame of the twin link does. TW_HELLO is answered with the member's own; an answer of another pair
ends the JOIN with BAD_ARGUMENT, ARG 1. A member that was released stays out (R346). A STANDBY commits a TW_JNL record in its slot, acknowledges it, and enters the command of an
ACCEPTED record; a start mark is kept and acknowledged. The record of a pair commits with TW_JNL_ACK and not before. TW_WRITE stores in
a register, in memory, or as a fail record in the slot that WR names; TW_POST posts the batch here; the images of a round are adopted with LAST. TW_HB
tells the peer's head.
A record of the STANDBY's own goes to the ACTIVE for its SEQNO, comes back, and takes effect when both Journals hold it.
What a takeover and a copy do in corners is the model's reading (assumptions 22 to 25), and so is how a STANDBY's own record is
carried (assumption 117); the demand for a clock is assumption 121's. -/
def Obligations.TwinFramesAct : Prop :=
  ∀ (s : State) (f : Frame), s.inOrder 4 f = true → (s.port 4).txq = [] → s.twin.backlog = [] → s.twin.detach = none →
    let b := f.payload
    let n := u b 0 8
    let link (t : State) : Prop := t = { s with ports := t.ports, wards := t.wards, outs := t.outs, regs := t.regs, twin := t.twin }
    let quiet (t : State) : Prop := ∀ a, (∀ l, a ≠ LN_TEST l) → t.rd a = s.rd a
    (s.maySend 4 32 = true → s.twin.join = none → Gives (.twHello f) s (fun t => Sent s t 4 0x50 0 0#16 0 s.helloBytes ∧
      t.twin.peerHead = u b 0x18 8 ∧ (t.twin.hello = true ↔ s.role = 3 ∧ s.twin.actDead = false ∧ u b 4 1 = 1 ∧ u b 0 4 = s.plan.pairId ∧ u b 8 8 = s.plan.planId ∧
        u b 0x10 4 = s.plan.hdrCrc) ∧ quiet t ∧ link t)) ∧
    (∀ id, s.twin.join = some id → s.twin.copying = false → u b 0 4 ≠ s.plan.pairId → s.alone → s.cmdOpen id = true →
      Gives (.twHello f) s (fun t => t.ends id 0x0D 1 ∧ t.twin = { s.twin with join := none } ∧ t.regs = s.regs ∧ t.mem = s.mem)) ∧
    (s.role = 2 → 64 ≤ b.length → s.maySend 4 8 = true → n % jnlSlots ≠ jnlSlots - 1 → u b 9 1 % 2 = 0 → nbit f.queue.toNat 0 = false →
      (u b 8 1 % 8 = 0 → Gives (.twJnl f []) s (fun t => t.nvLd (jnlAddr (n % jnlSlots)) 64 = sub b 0 64 ∧ t.g JNL_HEAD_SEQNO = n ∧
        t.jnl.next = n + 1 ∧ Sent s t 4 0x52 0 0#16 0 (toLe 8 n) ∧ (∃ c, t.cmds = s.cmds ++ [c] ∧ c.jseq = some n ∧ c.opcode = u b 0xA 2 ∧
          c.ward.val = u b 8 1 / 8 % 4 ∧ c.queue.val = u b 8 1 / 32 % 8 ∧ c.tag.toNat = u b 0xC 2 ∧ c.st = .queued ∧ c.own = false) ∧
        (∀ a, a ≠ JNL_HEAD → (∀ l, a ≠ LN_TEST l) → t.rd a = s.rd a) ∧ t.mem = s.mem ∧ t.seqs = s.seqs)) ∧
      (∀ c, u b 8 1 % 8 = 2 → s.byJseq false (u b 0x10 8) = some c → Gives (.twJnl f []) s (fun t =>
        t.nvLd (jnlAddr (n % jnlSlots)) 64 = sub b 0 64 ∧ t.g JNL_HEAD_SEQNO = n ∧ Sent s t 4 0x52 0 0#16 0 (toLe 8 n) ∧
        (∀ x, x ∈ t.cmds → x.id ≠ c.id) ∧ t.mem = s.mem ∧ t.seqs = s.seqs))) ∧
    (∀ d, s.role = 2 → 64 ≤ b.length → s.maySend 4 8 = true → n % jnlSlots ≠ jnlSlots - 1 → u b 9 1 % 2 = 0 → nbit f.queue.toNat 0 = true →
      s.jnl.fwd = some (d, none) → Gives (.twJnl f []) s (fun t => t.jnl.fwd = some (d, some n) ∧ t.jnl.due = s.jnl.due ∧
        t.nvLd (jnlAddr (n % jnlSlots)) 64 = sub b 0 64 ∧ t.g JNL_HEAD_SEQNO = n ∧ Sent s t 4 0x52 0 0#16 0 (toLe 8 n) ∧ t.mem = s.mem ∧ t.seqs = s.seqs)) ∧
    (∀ d c, s.role = 2 → s.jnl.prog = none → s.jnl.fwd = some (d, some n) → s.jnl.due = [] → d.kind = .done → d.cmd.bind s.cmd? = some c →
      Gives (.twJnlAck f) s (fun t => t.jnl = { s.jnl with fwd := none } ∧ (∀ x, x ∈ t.cmds ↔ x ∈ s.cmds ∧ x.id ≠ c.id) ∧ t.regs = s.regs ∧
        t.mem = s.mem ∧ t.seqs = s.seqs)) ∧
    (s.paired = true → nbit f.queue.toNat 0 = true → s.jnl.prog.isSome = true → 64 ≤ b.length → u b 8 1 % 8 = 0 → Gives (.twJnl f []) s (fun t =>
      ∃ c, t.cmds = s.cmds ++ [c] ∧ c.opcode = u b 0xA 2 ∧ c.own = false ∧ c.jseq = none ∧
        t.jnl = { s.jnl with nextId := s.jnl.nextId + 1, due := s.jnl.due ++ [⟨.accepted, some c.id, sub b 0x10 32, []⟩] } ∧ t.mem = s.mem ∧ t.seqs = s.seqs)) ∧
    (s.progPaired = true → s.progWorn = false → Gives .journalCommit s (fun t => t = s)) ∧
    (∀ r, s.jnl.prog = some r → s.progPaired = true → s.progWorn = false → r.seqno < 2 ^ 64 → r.seqno % jnlSlots ≠ jnlSlots - 1 → s.jnl.due = [] → s.thm.finalDue = none →
      (r.seqno = n → Gives (.twJnlAck f) s (fun t => t.jnl = { s.jnl with prog := none } ∧ t.g JNL_HEAD_SEQNO = n ∧
        t.nvLd (jnlAddr (n % jnlSlots) + 0xE) 2 = toLe 2 (commitWord n) ∧ t.mem = s.mem ∧ t.seqs = s.seqs)) ∧
      (r.seqno ≠ n → s.role ≠ 2 → Gives (.twJnlAck f) s (fun t => t = { s with ports := t.ports, wards := t.wards }))) ∧
    (∀ c, (s.cmds.map (·.id)).Nodup →
      (s.byJseq false n = some c → s.role = 2 → s.maySend 4 8 = true → Gives (.twStart f) s (fun t =>
        t.byJseq false n = some { c with marked := true } ∧ (∀ o m, o = true ∨ m ≠ n → t.byJseq o m = s.byJseq o m) ∧ Sent s t 4 0x54 0 0#16 0 (toLe 8 n) ∧ quiet t ∧ link { t with cmds := s.cmds })) ∧
      (s.byJseq true n = some c → s.role = 1 → Gives (.twStartAck f) s (fun t => t.byJseq true n = some { c with marked := true } ∧
        (∀ o m, o = false ∨ m ≠ n → t.byJseq o m = s.byJseq o m) ∧
        t.regs = s.regs ∧ link { t with cmds := s.cmds }))) ∧
    (s.takesMirror = false → Gives (.twWrite f) s (fun t => t = { s with ports := t.ports, wards := t.wards })) ∧
    (s.takesMirror = true →
      (∀ (k : Fin 32) (v : Word), b = toLe 8 (CH_CB_PMIN k.val) ++ toLe 8 v.toNat → Gives (.twWrite f) s (fun t =>
        t.g (CH_CB_PMIN_COUNT k.val) = v.toNat % 2 ^ 32 ∧ RegsKept [CH_CB_PMIN k.val] s t ∧ t.pwr = (s.demand (cbDom k.val)).pwr ∧ link { t with pwr := s.pwr })) ∧
      (∀ (o : Nat) (d : List Byte), b = toLe 8 (0x0100000000 + o) ++ d → d.length = 8 → o % 8 = 0 → o + 8 ≤ 0xF00000 →
        Gives (.twWrite f) s (fun t => t.ld (0x0100000000 + o) 8 = d ∧
          (∀ a, a < 0x0100000000 + o ∨ 0x0100000000 + o + 8 ≤ a → t.ldB a = s.ldB a) ∧ t.regs = s.regs ∧ t.cmds = s.cmds ∧ t.seqs = s.seqs)) ∧
      (∀ (k : Fin 32) (d : List Byte), (∀ j, j < 32 → (s.gb (CAP_ARM_STATUS_ARMED j) = true ↔ j = k.val)) →
        let a := 0x0101000000 + s.g (CAP_FCM_AREA_OFF k.val) * 65536 + s.g (CAP_FCM_PTR_WR k.val) % s.fcmCap k.val * 64
        b = toLe 8 a ++ d → d.length = 64 → a + 64 ≤ 0x0101800000 → u d 0 1 ≠ 3 → u d 1 1 < 128 → Gives (.twWrite f) s (fun t => t.ld a 64 = d ∧
          t.g (CAP_FCM_PTR_WR k.val) = (s.g (CAP_FCM_PTR_WR k.val) + 1) % 2 ^ 32 ∧ t.g (CAP_RSEQ_NEXT k.val) = (u d 4 4 + 1) % 2 ^ 32 ∧
          t.g (CAP_SITE_STATUS_RECORDS (u d 1 1)) = satAdd 32 (s.g (CAP_SITE_STATUS_RECORDS (u d 1 1))) 1 ∧
          RegsKept [CAP_FCM_PTR k.val, CAP_RSEQ k.val, CAP_SITE_STATUS (u d 1 1)] s t ∧ (∀ x, x < a ∨ a + 64 ≤ x → t.ldB x = s.ldB x))) ∧
      (∀ k : Fin 32, u b 2 1 = k.val → nbit (u b 3 1) 0 = false → (s.arm k.val).closed = [] → (s.arm k.val).disarm = [] → s.paired = false →
        s.twin.copying = false → s.gb (CAP_ARM_STATUS_HAS_CTX k.val) = true → (s.ctx (s.g (CAP_ARM_STATUS_CTX k.val))).st ≠ .resetting →
        s.inboxUsed (s.g (CAP_ARM_STATUS_CTX k.val)) < 64 → Gives (.twPost f) s (fun t =>
          (∃ x, (t.arm k.val).posted = (s.arm k.val).posted ++ [x] ∧ x.count = u b 4 2 ∧ x.rseq = u b 8 4 ∧ x.spill = false ∧
            t.disp.posts = s.disp.posts ++ [(s.g (CAP_ARM_STATUS_CTX k.val), s.batchDesc k.val x)]) ∧
          t.g (CAP_RSEQ_BATCHES k.val) = (s.g (CAP_RSEQ_BATCHES k.val) + 1) % 2 ^ 32 ∧ RegsKept [CAP_RSEQ k.val] s t ∧ t.mem = s.mem ∧ t.cmds = s.cmds)) ∧
      (nbit (u b 1 1) 0 = false → Gives (.twCkpt f) s (fun t => t.twin = { s.twin with rx := s.twin.rx ++ [b] } ∧ t.regs = s.regs ∧ link t)) ∧
      (nbit (u b 1 1) 0 = true → s.twin.rx = [] → 32 ≤ u b 2 1 → Gives (.twCkpt f) s (fun t => t.g TWN_CKPT_SQ = u b 0 1 % 64 ∧
        t.gb TWN_CKPT_VALID = true ∧ t.g TWN_CKPT_ROUND = u b 8 4 ∧ RegsKept [TWN_CKPT] s t ∧ link t ∧
        t.twin = { s.twin with adopted := s.twin.adopted.filter (fun p => decide (p.1 ≠ u b 2 1)) ++ [(u b 2 1, b.drop 16)] }))) ∧
    Gives (.twHb f) s (fun t => t.twin = { s.twin with peerHead := n } ∧ t.regs = s.regs ∧ link t)

/-- R341, R342, R346, R350 to R352: roles. A STANDBY takes over on TW_RELEASE, on the silence of TWIN_PEER and on TW_HANDOFF: it is ACTIVE, asserts SIDE and
abandons what the peer had started and it cannot restart. It is DETACHED on TW_DETACH and on the silence of the link; the ACTIVE then stands
alone. The heartbeat toggles TWIN_ACT and sends TW_HB; a member without one gives SIDE up, in a pair with no new record begun, drives no channel any more and leaves its TWIN_ACT low; two ACTIVE members are a conflict. A recovery
that is due restores the control stores of its Ward and completes its REPLAY; at T_rel′ each burst goes on.
What is abandoned and cleared is the model's reading (assumptions 18 and 25), and so are the Journal writer of a released member
(assumption 99, over R330) and the Recovery Area's seal (assumption 126). -/
def Obligations.MembersChangeRole : Prop :=
  ∀ (s : State), s.paired = false →
    let alone (t : State) : Prop := t = { s with ports := t.ports, wards := t.wards, outs := t.outs, regs := t.regs, twin := t.twin, jnl := t.jnl, flt := t.flt, cmds := t.cmds, fresh := t.fresh }
    let takes (t : State) (p : Bool) : Prop := t.role = 1 ∧ t.gb TWN_STATUS_SIDE = true ∧ t.gb TWN_STATUS_PAIRED = p ∧ t.jnl.stop = false ∧ t.twin.rx = []
    (s.role = 2 → s.cmds = [] → s.recs = [] → s.jnl.due = [] → s.jnl.fwd = none → (∀ k, k < 32 → s.gb (CAP_ARM_STATUS_HAS_CTX k) = false) →
      (s.running = true → Gives .peerTimeout s (fun t => takes t false ∧ t.g TWN_STATUS_CAUSE = 2 ∧ t.g TWN_COUNTS_FAILOVERS = satAdd 16 (s.g TWN_COUNTS_FAILOVERS) 1 ∧
        t.flt = (s.assertFlt 361).flt ∧ t.gb TWN_STATUS_PEER_HB = false ∧ RegsKept [TWN_STATUS, TWN_COUNTS] s t ∧ alone t)) ∧
      (∀ f, s.inOrder 4 f = true → (s.port 4).txq = [] → s.twin.backlog = [] → s.twin.detach = none →
        Gives (.twRelease f) s (fun t => takes t false ∧ t.g TWN_STATUS_CAUSE = 2 ∧ t.g TWN_COUNTS_FAILOVERS = satAdd 16 (s.g TWN_COUNTS_FAILOVERS) 1 ∧
          t.flt = (s.assertFlt 361).flt ∧ RegsKept [TWN_STATUS, TWN_COUNTS] s t ∧ alone t) ∧
        Gives (.twHandoff f) s (fun t => takes t true ∧ t.g TWN_STATUS_CAUSE = 3 ∧ t.g TWN_COUNTS_HANDOFFS = satAdd 16 (s.g TWN_COUNTS_HANDOFFS) 1 ∧
          t.flt = s.flt ∧ RegsKept [TWN_STATUS, TWN_COUNTS] s t ∧ alone t) ∧
        Gives (.twDetach f) s (fun t => t.role = 3 ∧ t.gb TWN_STATUS_PAIRED = false ∧ t.g TWN_STATUS_CAUSE = 4 ∧ t.jnl = s.jnl ∧
          t.g TWN_COUNTS_DETACHES = satAdd 16 (s.g TWN_COUNTS_DETACHES) 1 ∧ t.flt = (s.assertFlt 362).flt ∧
          RegsKept [TWN_STATUS, TWN_COUNTS] s t ∧ alone t)) ∧
      (s.twin.peerToggles = true → Gives .linkTimeout s (fun t => t.role = 3 ∧ t.g TWN_STATUS_CAUSE = 7 ∧ t.flt = (s.assertFlt 362).flt ∧
        RegsKept [TWN_STATUS, TWN_COUNTS] s t ∧ alone t)) ∧
      (s.twin.peerToggles = false → Gives .linkTimeout s (fun t => t = s))) ∧
    (∀ c, s.role = 2 → s.cmds = [c] → c.jseq.isSome = true → c.st = .running → c.started = true → c.opcode ≠ 0x20 → c.opcode ≠ 0x50 → s.jnl.fwd = none → s.running = true →
      (∀ k, k < 32 → s.gb (CAP_ARM_STATUS_HAS_CTX k) = false) → Gives .peerTimeout s (fun t => t.role = 1 ∧ t.abandons c.id 1 ∧ t.seqs = s.seqs)) ∧
    (∀ p : State, p.paired = true → p.jnl.prog = none → p.jnl.due = [] → p.twin.detach = none → (∀ c, c ∈ p.cmds → c.own = true) → Gives .linkTimeout p (fun t =>
      t.paired = false ∧ t.role = 1 ∧ t.g TWN_STATUS_CAUSE = 7 ∧ t.twin = { p.twin with backlog := [] } ∧ RegsKept [TWN_STATUS, TWN_COUNTS] p t ∧
      t = { p with regs := t.regs, wards := t.wards, twin := t.twin })) ∧
    (s.beats = true → s.running = true → s.portUp 4 = true → Gives .twinHeartbeat s (fun t => t.twin = { s.twin with act := !s.twin.act } ∧
      (∃ x a h d c l, t.outs = s.outs ++ [Out.twinAct !s.twin.act, Out.frame 4 x a h d c l] ∧ x.type = 0x5F#8 ∧ x.payload = toLe 8 (s.g JNL_HEAD_SEQNO)) ∧
      t = { s with twin := t.twin, outs := t.outs, ports := t.ports })) ∧
    (s.role = 1 → s.beats = false → Gives .sideRelease s (fun t => t.role = 3 ∧ t.gb TWN_STATUS_SIDE = false ∧ t.gb TWN_STATUS_PAIRED = false ∧
      t.g TWN_STATUS_CAUSE = 4 ∧ t.twin = { s.twin with actDead := true, act := false } ∧ t.jnl = s.jnl ∧
      (∀ n, n < 128 → t.rd (CH_STATUS n) = (s.pb (CH_STATUS_DEN n) false).rd (CH_STATUS n)) ∧
      (∀ a, a ≠ TWN_STATUS → (∀ n, n < 128 → a ≠ CH_STATUS n) → t.rd a = s.rd a) ∧ alone t)) ∧
    (∀ p : State, p.paired = true → p.beats = false → Gives .sideRelease p (fun t => t.role = 3 ∧ t.gb TWN_STATUS_SIDE = false ∧
      t.paired = false ∧ t.jnl = { p.jnl with stop := true } ∧ t.cmds = p.cmds ∧ t.mem = p.mem ∧ t.nvm = p.nvm)) ∧
    Gives .twinPeerToggle s (fun t => t.gb TWN_STATUS_PEER_HB = true ∧ t.twin = { s.twin with peerToggles := true } ∧
      t.flt = (if s.role = 1 then (s.assertFlt 363).flt else s.flt) ∧ RegsKept [TWN_STATUS] s t ∧ alone t) ∧
    (∀ (ra : Recov) (w : Fin 4) (id : Nat), s.ticks = true → s.running = true → s.out = false → s.gb MEM_STATUS_READY = true → s.gb THM_STATUS_BAND_VALID = true →
      s.ra = some ra → ra.sealOk = true → s.ecc = [] → s.firstBad s.raBase 24 = none → (s.busRead 0x08 (memBase 0 + s.raBase) 24).2.1 = ra.seal → s.recs = [⟨w.val, some id, 0, false⟩] → s.units = [] → s.ctxs = [] → ra.ctxs = [] → ra.runs = [] → s.cmdOpen id = true →
      ra.shadow = [] → regsOf shadowName s.regs = [] → ra.armRegs = [] → regsOf armName s.regs = [] → (∀ k, (s.seq k).wait = none) →
      Gives .recoveryRestore s (fun t => (∀ k, k < 32 → (t.seq k).cs = if nbit (s.ward w.val).seqMask k then ra.cs.toList.getD k [] else (s.seq k).cs) ∧
        t.ends id 0 0 ∧ t.recs = [] ∧ (t.wst w.val).haltedByPorter = 0 ∧ t.mem = s.mem)) ∧
    (∀ k : Fin 32, s.ticks = true → s.recs = [] → (∀ j, ((s.seq j).wait.map (·.sq) = some replaySq ↔ j = k.val)) → (s.seq k.val).pendStop = false →
      (s.seq k.val).pendPause = false → Gives .replayRelease s (fun t => (t.seq k.val).wait = none ∧
        (t.seq k.val).st = (if (s.seq k.val).arch.beatMode then .beat else .setup) ∧ (t.seq k.val).arch = (s.seq k.val).arch ∧
        ((s.seq k.val).arch.beatMode = true → (t.seq k.val).tEnd = (s.seq k.val).wait.bind (·.rel)) ∧
        (∀ j, j ≠ k.val → t.seq j = s.seq j) ∧ t = { s with seqs := t.seqs }))

/-- R35, R226, R318, R359, R361, R366 to R370, R374 (Tables 17.4, 17.5): resets. Power-on and loss of power keep the non-volatile memory only, and end a
validation. RESET_N low, and RST_CTRL.CHIP of the Plan Ward, start a chip reset, CHIP not after a REAL loss of REFCLK or a thermal shutdown: DEN is 0,
SIDE released, every sequencer stopped, no record is begun, the recovery state is sealed when every channel is READY. A cause of the same tick joins it, the
lower one counts; a later one changes nothing. The internal reset waits for a record that needs no acknowledgement; it keeps the non-volatile memory, the
SRAM windows, the DRAM of channels in self-refresh and the plan, records CAUSE and counts. BOOT_SEL is sampled at the rise of RESET_N. A unit reset returns a quiet unit of the writer's Ward to its reset state, keeps its
control store, and touches no other; its bit reads 1 until it has completed, and RST_UNIT_TIMEOUT is reported while it does; a busy unit stays as it is.
TWIN_ACT is low while RESET_N is, and DRCd_RESET_N keeps its level (R389, R391).
What survives a loss of power in the middle of a record, and the drop of DRAM, are the model's readings (assumptions 15 and 16), and so are the recovery
state with what a Ward still waits for (18), the kept Recovery Area with channels already in self-refresh (85), the stores that a reset core keeps (37), the
seal's place in DRAM (126) and when a unit reset completes (122). -/
def Obligations.ResetsAct : Prop :=
  ∀ (s : State),
    (∀ i ∈ [Instr.powerOn, Instr.lossOfPower], Gives i s (fun t => t.nvm = s.nvm ∧ t.nvmEcc = s.nvmEcc ∧ t.store = s.storeKept ∧
      t.store.verify = none ∧ t.store.desc = s.store.desc ∧ t.regs = [] ∧ t.mem = [] ∧ t.cmds = [] ∧
      t.ra = none ∧ t.plan = Plan.unsealed ∧ t.pwr = { PwrSt.zero with romBad := s.pwr.romBad } ∧ (∀ k, t.seq k = Seq.zero))) ∧
    (let begun (c : Nat) (t : State) : Prop := t.pwr.inReset = some c ∧ t.jnl.stop = true ∧ (∀ n, n < 128 → t.gb (CH_STATUS_DEN n) = false) ∧
        t.gb TWN_STATUS_SIDE = false ∧ (∀ k, k < 32 → t.bursting k = false) ∧ t.nvm = s.nvm ∧ t.plan = s.plan ∧
        t.pwr.t0 = s.flt.tick ∧ t.raHeld = none ∧ t.flt.resetPend = false ∧ t.nvmEcc = s.nvmEcc ∧ t.store = s.store ∧
        (∀ a, a < memBase 0 + s.raBase ∨ memBase 0 + s.raBase + 24 ≤ a → t.ldB a = s.ldB a) ∧ t.twin.backlog = [] ∧
        ((s.fabricRuns && s.gb MEM_STATUS_READY) = true → t.ra = some (s.recovSnap.withHeld s.raHeld)) ∧
        ((s.fabricRuns && s.gb MEM_STATUS_READY) = false → t.mem = s.mem ∧
          t.ra = if (bitsOf 4 (s.g MEM_CFG_CH_MASK)).all (fun d => decide (s.g (DRC_STATUS_STATE d) = 3)) then s.ra else none);
      (s.pwr.resetN = true → s.pwr.inReset = none → Gives .resetNLow s (fun t => begun 1 t ∧ t.pwr.resetN = false ∧ t.twin.act = false)) ∧
      (s.pwr.resetN = false → Gives .resetNLow s (fun t => t = s)) ∧
      (∀ c, s.pwr.resetN = true → s.pwr.inReset = some c → Gives .resetNLow s (fun t =>
        t = { s with
          pwr := { s.pwr with resetN := false, inReset := some (if s.pwr.t0 = s.flt.tick then min 1 c else c) },
          twin := { s.twin with act := false }, outs := t.outs })) ∧
      ((s.ward 0).enable = true → s.pwr.inReset = none → s.canonical = true → s.pwr.gatedAll = false → s.thm.shutdown = false →
        Gives (.rstCtrlChip (.ward 0)) s (fun t => begun 3 t)) ∧
      ((s.ward 0).enable = true → (s.pwr.gatedAll || s.thm.shutdown) = true →
        Gives (.rstCtrlChip (.ward 0)) s (fun t => t.pwr = s.pwr ∧ t.seqs = s.seqs ∧ t.jnl = s.jnl ∧ t.mem = s.mem ∧ t.ra = s.ra)) ∧
      (∀ w : Fin 4, w ≠ 0 → Gives (.rstCtrlChip (.ward w)) s (fun t => t = s))) ∧
    (∀ c, s.pwr.inReset = some c →
      (s.jnl.prog.isSome = true → s.progPaired = false → Gives .chipResetInternal s (fun t => t = s)) ∧
      (c < 4 → s.jnl.prog = none → Gives .chipResetInternal s (fun t => t.pwr.inReset = none ∧ t.g RST_STATUS_CAUSE = c ∧ t.g RST_STATUS_PHASE = 0 ∧
        t.g RST_STATUS_CHIP_RESETS = satAdd 16 (s.g RST_STATUS_CHIP_RESETS) 1 ∧ t.gb RST_STATUS_BOOT_SEL = s.gb RST_STATUS_BOOT_SEL ∧
        t.gb THM_STATUS_SHUTDOWN_SEEN = s.gb THM_STATUS_SHUTDOWN_SEEN ∧ t.nvm = s.nvm ∧ t.nvmEcc = s.nvmEcc ∧ t.store = s.storeKept ∧
        t.store.verify = none ∧ t.store.desc = s.store.desc ∧ (3 ≤ s.g RST_STATUS_PHASE → t.store.stage = if s.stage = 2 ∨ s.stage = 3 then 1 else s.stage) ∧
        t.plan = s.plan ∧ t.ra = s.ra ∧ (∀ a, a < 0x1000000000 → (memOf a).isSome = true → t.ldB a = s.ldB a) ∧
        (∀ a o, memOf a = some (0, o) → t.ldB a = if s.keptCh (s.dramCh o) = true then s.ldB a else 0) ∧
        (∀ d, d < 4 → t.g (DRC_STATUS_STATE d) = if s.keptCh d = true then 3 else 0) ∧
        t.cmds = [] ∧ t.ctxs = [] ∧ (∀ k, t.seq k = Seq.zero) ∧ t.tb = TbSt.zero ∧ t.twin.act = false ∧ (∀ d, d < 4 → (t.drc d).resetN = (s.drc d).resetN) ∧
        (∀ a d ix, regAt a = some (d, ix) → alwaysOn d.name = true → s.plan.sealed = false → t.rd a = s.rd a)))) ∧
    (∀ b : BootPins, (s.pwr.resetN = false → Gives (.resetNRise b) s (fun t => t.gb RST_STATUS_BOOT_SEL = b.sel ∧
        t.pwr = { s.pwr with
          resetN := true, waitRise := false, romBad := b.romBad, tA := if s.pwr.waitRise = true then s.flt.tick else s.pwr.tA } ∧ RegsKept [RST_STATUS] s t ∧ t = { s with regs := t.regs, pwr := t.pwr })) ∧
      (s.pwr.resetN = true → Gives (.resetNRise b) s (fun t => t = s))) ∧
    (∀ w : Fin 4, (s.ward w.val).enable = true → s.pwr.inReset = none → s.paired = false → s.twin.copying = false →
      (∀ k : Fin 32, s.seqWard k.val = some w.val →
        (s.psQuiet k.val = true → Gives (.rstUnitPs (.ward w) (BitVec.ofNat 64 (2 ^ k.val))) s (fun t => (t.seq k.val).st = .idle ∧
          (t.seq k.val).arch = Arch.zero ∧ nbit (t.g RST_UNIT_PS_PS) k.val = true ∧ (t.seq k.val).cs = (s.seq k.val).cs ∧ (∀ j, j ≠ k.val → t.seq j = s.seq j) ∧
          (∀ a, 0x02000000 + k.val * 0x100000 ≤ a → a < 0x02060000 + k.val * 0x100000 → t.rd a = resetAt a) ∧ t.mem = s.mem ∧ t.cmds = s.cmds ∧
          t.plan = s.plan)) ∧
        (s.psQuiet k.val = false → Gives (.rstUnitPs (.ward w) (BitVec.ofNat 64 (2 ^ k.val))) s (fun t => RegsKept [] s t ∧ t = { s with regs := t.regs }))) ∧
      (∀ c : Fin 32, s.cbWard c.val = some w.val → s.cbQuiet c.val = true → Gives (.rstUnitCb (.ward w) (BitVec.ofNat 64 (2 ^ c.val))) s (fun t =>
        t.cb c.val = Cblk.zero ∧ (∀ n, n / 4 = c.val → t.ch n = Chan.zero) ∧ (∀ n, n / 4 ≠ c.val → t.ch n = s.ch n) ∧ t.g (CH_CB_STATUS_STATE c.val) = 0 ∧
        (∀ a d ix, regAt a = some (d, ix) → d.name = .WT_ENTRY → t.rd a = s.rd a) ∧ t.seqs = s.seqs ∧ t.mem = s.mem ∧ t.cmds = s.cmds)) ∧
      (∀ v : Fin 16, s.vsWard v.val = some w.val → s.vsQuiet v.val = true → Gives (.rstUnitVs (.ward w) (BitVec.ofNat 64 (2 ^ v.val))) s (fun t =>
        t.vse v.val = VsEng.zero ∧ (∀ j, j ≠ v.val → t.vse j = s.vse j) ∧ t.g (VS_STATUS_STATE v.val) = 0 ∧ t.gb (VS_STATUS_BOUND v.val) = false ∧
        t.seqs = s.seqs ∧ t.mem = s.mem ∧ t.cmds = s.cmds)) ∧
      (∀ c : Fin 48, s.coreWard c.val = some w.val → s.acQuiet c.val = true → Gives (.rstUnitAc (.ward w) (BitVec.ofNat 64 (2 ^ c.val))) s (fun t =>
        t.core c.val = { Core.zero with stores := (s.core c.val).stores } ∧ (∀ d, d ≠ c.val → t.core d = s.core d) ∧
        t.seqs = s.seqs ∧ t.mem = s.mem ∧ t.ctxs = s.ctxs ∧ t.cmds = s.cmds))) ∧
    (∀ (c : Fin 4) (n : Nat), (nbit (s.g (rstUnitField c.val)) n = true →
        Gives (.rstUnitTimeout c n) s (fun t => t.flt = (s.assertFlt 394).flt ∧ t = { s with flt := t.flt })) ∧
      (nbit (s.g (rstUnitField c.val)) n = false → Gives (.rstUnitTimeout c n) s (fun t => t = s))) ∧
    Gives .tapReset s (fun t => t = s) ∧
    Gives .porterWatchdogExpired s (fun t => t.twin = { s.twin with wdog := false } ∧ t.flt = (s.assertFlt 360).flt ∧ t = { s with twin := t.twin, flt := t.flt })

/-- R35, R362 to R365, R370, R371, R374, R375 (Table 17.6): start-up goes through its phases in order, each only after the one before: PLLs with REFCLK; boot, which clears the control
stores and Waveform Tables, or stays in its phase with BOOT_ROM reported where the check of Porter's ROM fails; restore, which finds the words of the array that have gone wrong, and applies the sealed image unless BOOT_SEL is 1; the twin role; ports with the BOOT record, once
every sensor in use has been read; RUN with RESET_DONE
to every Ward. A PLL that locks shows LOCK; one that loses it stops its domains and is reported. A domain gates when it may and wakes for what waits for it; one that does not start in time is reported
once, and what waits for it fails with the status of a stopped unit.
The order of the events of phase F and the wait for due records are the model's readings (assumption 17), and so are the PLLs that sleep at phase A (14), the
BOOT_ROM operand and the state behind it (48, 97), the words gone wrong (48, 127), what waits for a domain (121) and the unit of BOOT_TIME (124). -/
def Obligations.StartUpRuns : Prop :=
  ∀ (s : State), s.alone →
    (s.inPhase 0 = true →
      (s.gb TB_STATUS_REFCLK = true → Gives .startupPll s (fun t => t.g RST_STATUS_PHASE = 1 ∧ t.pwr = { s.pwr with gatedAll := false } ∧
        t.g CLK_PLL_STATUS_SLEEP = 0x4C ∧ RegsKept [RST_STATUS, CLK_PLL_STATUS] s t ∧ t = { s with regs := t.regs, pwr := t.pwr })) ∧
      (s.gb TB_STATUS_REFCLK = false → Gives .startupPll s (fun t => t = s))) ∧
    (∀ n, n ≠ 0 → s.g RST_STATUS_PHASE = n → Gives .startupPll s (fun t => t = s)) ∧
    (s.inPhase 1 = true → (∀ p ∈ [0, 1, 4, 5, 7], s.locked p = true) → s.pwr.romBad = false → Gives .startupBoot s (fun t =>
      t.g RST_STATUS_PHASE = 2 ∧ t.domOn 129 = true ∧ t.domOn 134 = true ∧ (∀ k, k < 32 → (t.seq k).cs = []) ∧ (∀ a d ix, regAt a = some (d, ix) → d.name = .WT_ENTRY → t.rd a = resetAt a) ∧
      (∀ a d ix, regAt a = some (d, ix) → d.name ≠ .WT_ENTRY → a ≠ RST_STATUS → a ≠ CLK_ON 2 → t.rd a = s.rd a) ∧
      t = { s with regs := t.regs, seqs := t.seqs })) ∧
    (s.inPhase 1 = true → (∀ p ∈ [0, 1, 4, 5, 7], s.locked p = true) → s.pwr.romBad = true → Gives .startupBoot s (fun t =>
      t.g RST_STATUS_PHASE = 2 ∧ t.gb FLT_STATUS_OUT = true ∧ 395 ∈ t.flt.pend ∧ t.seqs = s.seqs ∧
      t.pwr = s.pwr ∧ t.inPhase 2 = false)) ∧
    (∀ ws : List NvWord, s.inPhase 2 = true → (∀ d, d < 4 → s.g (DRC_STATUS_STATE d) ≠ 3) → s.jnl.stop = true → s.nvm = [] →
      (s.gb RST_STATUS_BOOT_SEL = true → Gives (.startupRestore ws) s (fun t => t.g RST_STATUS_PHASE = 3 ∧ t.plan = Plan.unsealed ∧
        t.store = (s.nvAge ws).store ∧ t.nvmEcc = (s.nvAge ws).nvmEcc ∧
        t.g JNL_PLAN_STATUS_STAGE = s.store.stage % 8 ∧ t.g JNL_PLAN_STATUS_CODE = s.store.verdict.1 % 256 ∧
        t.g JNL_PLAN_DIAG_SECTION = s.store.verdict.2.1 % 256 ∧
        t.jnl.next = 0 ∧ t.g JNL_STATUS_OPEN = 0 ∧ t.pwr.scanOpen = [] ∧ t.mem = s.mem ∧ t.nvm = s.nvm)) ∧
      (s.gb RST_STATUS_BOOT_SEL = false → s.store.desc.pending = false → s.store.desc.retired = false → s.store.desc.sealed = false →
        Gives (.startupRestore ws) s (fun t => t.g RST_STATUS_PHASE = 3 ∧ t.plan = Plan.unsealed ∧ t.store = (s.nvAge ws).store))) ∧
    (∀ (b : Bool) (ws : List NvWord), s.inPhase 2 = true → s.gb RST_STATUS_BOOT_SEL = false → s.store.desc = ⟨b, true, false, false⟩ → (s.nvAge ws).rowsBad = false →
      (s.nvAge ws).restoreCheck (slotBase b) = none → Gives (.startupRestore ws) s (fun t => t.plan.sealed = true ∧ t.plan = s.readPlan (slotBase b) ∧
        t.store = (s.nvAge ws).store)) ∧
    (∀ (b : Bool) (f : Nat × Nat × Nat) (ws : List NvWord), s.inPhase 2 = true → s.gb RST_STATUS_BOOT_SEL = false → s.store.desc = ⟨b, true, false, false⟩ →
      (s.nvAge ws).rowsBad = true ∨ (s.nvAge ws).restoreCheck (slotBase b) = some f → Gives (.startupRestore ws) s (fun t => t.plan = Plan.unsealed ∧
        t.gb JNL_PLAN_STATUS_RESTORE_FAIL = true ∧ t.g JNL_PLAN_STATUS_CODE = 0x20 ∧ 352 ∈ t.flt.pend ∧ t.store = (s.nvAge ws).store)) ∧
    (∀ b : Bool, s.inPhase 3 = true → s.plan.twinMode = 1 → s.twin.decided = false → Gives (.twinRoleDecision b) s (fun t =>
      t.role = (if b then 3 else 1) ∧ t.gb TWN_STATUS_SIDE = (s.gb TWN_STATUS_SIDE || !b) ∧ t.g TWN_STATUS_CAUSE = 1 ∧ t.gb TWN_STATUS_PEER_HB = b ∧
      t.twin = { s.twin with decided := true, peerToggles := b } ∧ RegsKept [TWN_STATUS] s t ∧ t = { s with regs := t.regs, twin := t.twin, wards := t.wards })) ∧
    (s.inPhase 3 = true → s.sensorsRead = false → Gives .startupPorts s (fun t => t = s)) ∧
    (s.inPhase 3 = true → s.sensorsRead = true → s.cal.run = none → (∀ d, d < 4 → s.g (DRC_STATUS_STATE d) ≠ 1) →
      s.plan.twinMode = 0 → s.pwr.scanOpen = [] → s.ra = none → s.ticks = true →
      Gives .startupPorts s (fun t => t.g RST_STATUS_PHASE = 4 ∧ t.g JNL_STATUS_DECISION = 0 ∧
        (∃ d, (d ∈ t.jnl.due ∨ ∃ r, t.jnl.prog = some r ∧ r.due = some d) ∧ d.kind = .boot ∧ u d.body 0 1 = s.g RST_STATUS_CAUSE ∧ u d.body 1 1 = 0 ∧
          u d.body 4 4 = 0) ∧ (∀ g, g ∈ [0, 1, 2, 3, 5, 6] → t.g (LN_GRP_STATUS_STATE g) = 1) ∧ t.g (LN_GRP_STATUS_STATE 4) = s.g (LN_GRP_STATUS_STATE 4) ∧
        t.plan = s.plan ∧ t.mem = s.mem ∧ t.cmds = s.cmds)) ∧
    (s.inPhase 4 = true → s.jnl.prog = none → s.jnl.due = [] → s.g JNL_STATUS_DECISION ≠ 1 → (∀ p, p < 4 → (s.port p).early = []) → Gives .startupRun s (fun t =>
      t.g RST_STATUS_PHASE = 5 ∧ t.g RST_STATUS_BOOT_TIME = min (2 ^ 32 - 1) ((s.flt.tick - s.pwr.tA) / 30) ∧ RegsKept [RST_STATUS] s t ∧ t = { s with regs := t.regs, wards := t.wards, fresh := t.fresh } ∧
      (∀ w : Fin 4, (s.ward w.val).enable = true → (s.wst w.val).evq.length < 4090 → (s.wst w.val).lost = 0 →
        (∃ e ∈ (t.wst w.val).evq, e.code = 0x0E01 ∧
          e.arg = s.g RST_STATUS_CAUSE + 4 * b2n s.plan.sealed + 8 * s.g MEM_STATUS_PRESERVED + 16 * s.g RST_STATUS_BOOT_SEL) ∧
        (∃ e ∈ (t.wst w.val).evq, e.code = 0x0D01 ∧ e.arg = s.g JNL_STATUS_DECISION + 256 * min 0xFFFFFF (s.g JNL_STATUS_OPEN))))) ∧
    (∀ p : Fin 8,
      (s.clocked = true → s.asleep p.val = false → s.locked p.val = false → (∀ d ∈ pllDomains p.val, d ∉ s.pwr.stopped) → p ≠ 6 →
        Gives (.pllLock p) s (fun t => t.locked p.val = true ∧ (∀ q, q < 8 → q ≠ p.val → t.locked q = s.locked q) ∧
          (p = 0 → t.domOn 131 = true) ∧ (4 ≤ p.val → t.domOn (135 + p.val) = true) ∧ RegsKept [CLK_PLL_STATUS, CLK_ON 2] s t ∧ t = { s with regs := t.regs })) ∧
      (s.locked p.val = true → Gives (.pllLossOfLock p) s (fun t => t.locked p.val = false ∧
        (∀ d ∈ pllDomains p.val, t.domOn d = false ∧ d ∈ t.pwr.stopped) ∧ (s.gb TB_STATUS_REFCLK = true → 384 + p.val ∈ t.flt.pend) ∧
        (∀ k, t.seq k = s.seq k)))) ∧
    (∀ d : Nat, 0 < d → d < 143 →
      (s.mayGate d = true → Gives (.clkIdleGate d) s (fun t => t.domOn d = false ∧ (∀ e, e < 143 → e ≠ d → t.domOn e = s.domOn e) ∧
        RegsKept [CLK_ON (d / 64), CLK_PLL_STATUS] s t ∧
        nbit t.thm.ran d = true ∧ t = { s with regs := t.regs, thm := { s.thm with ran := t.thm.ran } })) ∧
      (s.mayGate d = false → Gives (.clkIdleGate d) s (fun t => t = s)) ∧
      (s.wanted d = false → Gives (.domainWake d) s (fun t => t = s) ∧ Gives (.clkWake d) s (fun t => t = s)) ∧
      (s.wanted d = true → s.domOn d = false → s.clocked = true →
        (d ∉ s.pwr.stopped → d ≠ adcDom → s.asleep (domPll d) = false → s.locked (domPll d) = true → Gives (.domainWake d) s (fun t => t.domOn d = true ∧
          d ∉ t.pwr.demand ∧ (∀ e, e < 143 → e ≠ d → t.domOn e = s.domOn e) ∧ RegsKept [CLK_ON (d / 64)] s t ∧
          t = { s with regs := t.regs, pwr := (s.demandOver d).pwr })) ∧
        (d ∉ s.pwr.stopped → s.asleep 2 = true → domPll d = 2 → Gives (.domainWake d) s (fun t => t.asleep 2 = false ∧
          RegsKept [CLK_PLL_STATUS] s t ∧ t = { s with regs := t.regs })) ∧
        (d ≤ 32 → s.bursting (d - 1) = false → Gives (.clkWake d) s (fun t => t.flt = (s.assertFlt 392).flt ∧
          (392 ∈ s.flt.pend ∨ nbit (s.g (FLT_GRP_REAL_REAL 12)) 8 = true → t.wards = s.wards) ∧
          (392 ∉ s.flt.pend → nbit (s.g (FLT_GRP_REAL_REAL 12)) 8 = false → t.wards = (s.eventTo (s.domWard d) 0x0E02 d).wards) ∧
          t = { s with flt := t.flt, wards := t.wards, pwr := (s.demandOver d).pwr })) ∧
        (∀ id, d ≤ 32 → s.bursting (d - 1) = true → (s.seq (d - 1)).burst.bind (·.cmd) = some id → s.cmdOpen id = true →
          Gives (.clkWake d) s (fun t => 392 ∈ t.flt.pend ∧ t.ends id 6 0 ∧ t.bursting (d - 1) = false))))

/-- What the model makes of a queue of commands (assumption 1): a step takes the command at the front and is its effect on the state with the rest of the
queue; with no command waiting it changes nothing. -/
def Obligations.StepRunsTheFront : Prop :=
  (∀ (c : Instr) (l : List Instr) (s : State), step { s with pending := c :: l } = exec c { s with pending := l }) ∧
    ∀ s : State, s.pending = [] → step s = .next s

/-- R358, R366: what power-on leaves: no command waits, RESET_N is low and no start-up phase has begun, every sequencer and core is IDLE, no device is sealed, every
register reads its reset value, RST_IDENT its fixed one, and the state is in canonical form. (That memory reads 0 there is the model's choice,
assumption 3.) -/
def Obligations.ResetLeaves : Prop :=
  State.reset.pending = [] ∧ (∀ a, State.reset.rd a = resetAt a) ∧ State.reset.g RST_STATUS_PHASE = 0 ∧ State.reset.pwr.resetN = false ∧
    State.reset.g RST_IDENT_PART = 0x128 ∧ State.reset.g RST_IDENT_CHANNELS = 128 ∧ State.reset.g RST_IDENT_SEQUENCERS = 32 ∧
    State.reset.g RST_IDENT_CORES = 48 ∧ (∀ k, (State.reset.seq k).st = .idle) ∧ (∀ c, (State.reset.core c).st = .idle) ∧
    State.reset.sealedNow = false ∧ State.reset.cmds = [] ∧ State.reset.canonical = true

/-- Every step keeps the state in canonical form: memory, non-volatile memory and registers list each address once, in rising order, and only where the
value differs from what an unlisted address reads as; so equal contents are equal data. -/
def Obligations.StateStaysCanonical : Prop :=
  ∀ s t : State, s.canonical = true → step s = .next t → t.canonical = true
end

