-- ==== Sys2Proof/Laws/State.lean ====
section
/-! SUPPORT. One lemma for each field of the state and each named update: which fields an update leaves as they were. -/

namespace Sys2Proof.Machine

variable (s : State)

/-! ### wr -/

@[simp] theorem State.wr_pending (a : Nat) (w : Word) : (s.wr a w).pending = s.pending := rfl
@[simp] theorem State.wr_outs (a : Nat) (w : Word) : (s.wr a w).outs = s.outs := rfl
@[simp] theorem State.wr_fresh (a : Nat) (w : Word) : (s.wr a w).fresh = s.fresh := rfl
@[simp] theorem State.wr_mem (a : Nat) (w : Word) : (s.wr a w).mem = s.mem := rfl
@[simp] theorem State.wr_ecc (a : Nat) (w : Word) : (s.wr a w).ecc = s.ecc := rfl
@[simp] theorem State.wr_rangeArmed (a : Nat) (w : Word) : (s.wr a w).rangeArmed = s.rangeArmed := rfl
@[simp] theorem State.wr_nvm (a : Nat) (w : Word) : (s.wr a w).nvm = s.nvm := rfl
@[simp] theorem State.wr_nvmEcc (a : Nat) (w : Word) : (s.wr a w).nvmEcc = s.nvmEcc := rfl
@[simp] theorem State.wr_ports (a : Nat) (w : Word) : (s.wr a w).ports = s.ports := rfl
@[simp] theorem State.wr_wards (a : Nat) (w : Word) : (s.wr a w).wards = s.wards := rfl
@[simp] theorem State.wr_cmds (a : Nat) (w : Word) : (s.wr a w).cmds = s.cmds := rfl
@[simp] theorem State.wr_fcp (a : Nat) (w : Word) : (s.wr a w).fcp = s.fcp := rfl
@[simp] theorem State.wr_plan (a : Nat) (w : Word) : (s.wr a w).plan = s.plan := rfl
@[simp] theorem State.wr_store (a : Nat) (w : Word) : (s.wr a w).store = s.store := rfl
@[simp] theorem State.wr_jnl (a : Nat) (w : Word) : (s.wr a w).jnl = s.jnl := rfl
@[simp] theorem State.wr_seqs (a : Nat) (w : Word) : (s.wr a w).seqs = s.seqs := rfl
@[simp] theorem State.wr_sqs (a : Nat) (w : Word) : (s.wr a w).sqs = s.sqs := rfl
@[simp] theorem State.wr_vs (a : Nat) (w : Word) : (s.wr a w).vs = s.vs := rfl
@[simp] theorem State.wr_chans (a : Nat) (w : Word) : (s.wr a w).chans = s.chans := rfl
@[simp] theorem State.wr_cbs (a : Nat) (w : Word) : (s.wr a w).cbs = s.cbs := rfl
@[simp] theorem State.wr_capq (a : Nat) (w : Word) : (s.wr a w).capq = s.capq := rfl
@[simp] theorem State.wr_arms (a : Nat) (w : Word) : (s.wr a w).arms = s.arms := rfl
@[simp] theorem State.wr_shut (a : Nat) (w : Word) : (s.wr a w).shut = s.shut := rfl
@[simp] theorem State.wr_cores (a : Nat) (w : Word) : (s.wr a w).cores = s.cores := rfl
@[simp] theorem State.wr_ctxs (a : Nat) (w : Word) : (s.wr a w).ctxs = s.ctxs := rfl
@[simp] theorem State.wr_disp (a : Nat) (w : Word) : (s.wr a w).disp = s.disp := rfl
@[simp] theorem State.wr_drcs (a : Nat) (w : Word) : (s.wr a w).drcs = s.drcs := rfl
@[simp] theorem State.wr_lanes (a : Nat) (w : Word) : (s.wr a w).lanes = s.lanes := rfl
@[simp] theorem State.wr_groups (a : Nat) (w : Word) : (s.wr a w).groups = s.groups := rfl
@[simp] theorem State.wr_tb (a : Nat) (w : Word) : (s.wr a w).tb = s.tb := rfl
@[simp] theorem State.wr_trigs (a : Nat) (w : Word) : (s.wr a w).trigs = s.trigs := rfl
@[simp] theorem State.wr_tims (a : Nat) (w : Word) : (s.wr a w).tims = s.tims := rfl
@[simp] theorem State.wr_conv (a : Nat) (w : Word) : (s.wr a w).conv = s.conv := rfl
@[simp] theorem State.wr_thm (a : Nat) (w : Word) : (s.wr a w).thm = s.thm := rfl
@[simp] theorem State.wr_cal (a : Nat) (w : Word) : (s.wr a w).cal = s.cal := rfl
@[simp] theorem State.wr_flt (a : Nat) (w : Word) : (s.wr a w).flt = s.flt := rfl
@[simp] theorem State.wr_ra (a : Nat) (w : Word) : (s.wr a w).ra = s.ra := rfl
@[simp] theorem State.wr_raHeld (a : Nat) (w : Word) : (s.wr a w).raHeld = s.raHeld := rfl
@[simp] theorem State.wr_twin (a : Nat) (w : Word) : (s.wr a w).twin = s.twin := rfl
@[simp] theorem State.wr_units (a : Nat) (w : Word) : (s.wr a w).units = s.units := rfl
@[simp] theorem State.wr_recs (a : Nat) (w : Word) : (s.wr a w).recs = s.recs := rfl
@[simp] theorem State.wr_pwr (a : Nat) (w : Word) : (s.wr a w).pwr = s.pwr := rfl

/-! ### p -/

@[simp] theorem State.p_pending (f : FRef) (v : Nat) : (s.p f v).pending = s.pending := rfl
@[simp] theorem State.p_outs (f : FRef) (v : Nat) : (s.p f v).outs = s.outs := rfl
@[simp] theorem State.p_fresh (f : FRef) (v : Nat) : (s.p f v).fresh = s.fresh := rfl
@[simp] theorem State.p_mem (f : FRef) (v : Nat) : (s.p f v).mem = s.mem := rfl
@[simp] theorem State.p_ecc (f : FRef) (v : Nat) : (s.p f v).ecc = s.ecc := rfl
@[simp] theorem State.p_rangeArmed (f : FRef) (v : Nat) : (s.p f v).rangeArmed = s.rangeArmed := rfl
@[simp] theorem State.p_nvm (f : FRef) (v : Nat) : (s.p f v).nvm = s.nvm := rfl
@[simp] theorem State.p_nvmEcc (f : FRef) (v : Nat) : (s.p f v).nvmEcc = s.nvmEcc := rfl
@[simp] theorem State.p_ports (f : FRef) (v : Nat) : (s.p f v).ports = s.ports := rfl
@[simp] theorem State.p_wards (f : FRef) (v : Nat) : (s.p f v).wards = s.wards := rfl
@[simp] theorem State.p_cmds (f : FRef) (v : Nat) : (s.p f v).cmds = s.cmds := rfl
@[simp] theorem State.p_fcp (f : FRef) (v : Nat) : (s.p f v).fcp = s.fcp := rfl
@[simp] theorem State.p_plan (f : FRef) (v : Nat) : (s.p f v).plan = s.plan := rfl
@[simp] theorem State.p_store (f : FRef) (v : Nat) : (s.p f v).store = s.store := rfl
@[simp] theorem State.p_jnl (f : FRef) (v : Nat) : (s.p f v).jnl = s.jnl := rfl
@[simp] theorem State.p_seqs (f : FRef) (v : Nat) : (s.p f v).seqs = s.seqs := rfl
@[simp] theorem State.p_sqs (f : FRef) (v : Nat) : (s.p f v).sqs = s.sqs := rfl
@[simp] theorem State.p_vs (f : FRef) (v : Nat) : (s.p f v).vs = s.vs := rfl
@[simp] theorem State.p_chans (f : FRef) (v : Nat) : (s.p f v).chans = s.chans := rfl
@[simp] theorem State.p_cbs (f : FRef) (v : Nat) : (s.p f v).cbs = s.cbs := rfl
@[simp] theorem State.p_capq (f : FRef) (v : Nat) : (s.p f v).capq = s.capq := rfl
@[simp] theorem State.p_arms (f : FRef) (v : Nat) : (s.p f v).arms = s.arms := rfl
@[simp] theorem State.p_shut (f : FRef) (v : Nat) : (s.p f v).shut = s.shut := rfl
@[simp] theorem State.p_cores (f : FRef) (v : Nat) : (s.p f v).cores = s.cores := rfl
@[simp] theorem State.p_ctxs (f : FRef) (v : Nat) : (s.p f v).ctxs = s.ctxs := rfl
@[simp] theorem State.p_disp (f : FRef) (v : Nat) : (s.p f v).disp = s.disp := rfl
@[simp] theorem State.p_drcs (f : FRef) (v : Nat) : (s.p f v).drcs = s.drcs := rfl
@[simp] theorem State.p_lanes (f : FRef) (v : Nat) : (s.p f v).lanes = s.lanes := rfl
@[simp] theorem State.p_groups (f : FRef) (v : Nat) : (s.p f v).groups = s.groups := rfl
@[simp] theorem State.p_tb (f : FRef) (v : Nat) : (s.p f v).tb = s.tb := rfl
@[simp] theorem State.p_trigs (f : FRef) (v : Nat) : (s.p f v).trigs = s.trigs := rfl
@[simp] theorem State.p_tims (f : FRef) (v : Nat) : (s.p f v).tims = s.tims := rfl
@[simp] theorem State.p_conv (f : FRef) (v : Nat) : (s.p f v).conv = s.conv := rfl
@[simp] theorem State.p_thm (f : FRef) (v : Nat) : (s.p f v).thm = s.thm := rfl
@[simp] theorem State.p_cal (f : FRef) (v : Nat) : (s.p f v).cal = s.cal := rfl
@[simp] theorem State.p_flt (f : FRef) (v : Nat) : (s.p f v).flt = s.flt := rfl
@[simp] theorem State.p_ra (f : FRef) (v : Nat) : (s.p f v).ra = s.ra := rfl
@[simp] theorem State.p_raHeld (f : FRef) (v : Nat) : (s.p f v).raHeld = s.raHeld := rfl
@[simp] theorem State.p_twin (f : FRef) (v : Nat) : (s.p f v).twin = s.twin := rfl
@[simp] theorem State.p_units (f : FRef) (v : Nat) : (s.p f v).units = s.units := rfl
@[simp] theorem State.p_recs (f : FRef) (v : Nat) : (s.p f v).recs = s.recs := rfl
@[simp] theorem State.p_pwr (f : FRef) (v : Nat) : (s.p f v).pwr = s.pwr := rfl

/-! ### pb -/

@[simp] theorem State.pb_pending (f : FRef) (v : Bool) : (s.pb f v).pending = s.pending := rfl
@[simp] theorem State.pb_outs (f : FRef) (v : Bool) : (s.pb f v).outs = s.outs := rfl
@[simp] theorem State.pb_fresh (f : FRef) (v : Bool) : (s.pb f v).fresh = s.fresh := rfl
@[simp] theorem State.pb_mem (f : FRef) (v : Bool) : (s.pb f v).mem = s.mem := rfl
@[simp] theorem State.pb_ecc (f : FRef) (v : Bool) : (s.pb f v).ecc = s.ecc := rfl
@[simp] theorem State.pb_rangeArmed (f : FRef) (v : Bool) : (s.pb f v).rangeArmed = s.rangeArmed := rfl
@[simp] theorem State.pb_nvm (f : FRef) (v : Bool) : (s.pb f v).nvm = s.nvm := rfl
@[simp] theorem State.pb_nvmEcc (f : FRef) (v : Bool) : (s.pb f v).nvmEcc = s.nvmEcc := rfl
@[simp] theorem State.pb_ports (f : FRef) (v : Bool) : (s.pb f v).ports = s.ports := rfl
@[simp] theorem State.pb_wards (f : FRef) (v : Bool) : (s.pb f v).wards = s.wards := rfl
@[simp] theorem State.pb_cmds (f : FRef) (v : Bool) : (s.pb f v).cmds = s.cmds := rfl
@[simp] theorem State.pb_fcp (f : FRef) (v : Bool) : (s.pb f v).fcp = s.fcp := rfl
@[simp] theorem State.pb_plan (f : FRef) (v : Bool) : (s.pb f v).plan = s.plan := rfl
@[simp] theorem State.pb_store (f : FRef) (v : Bool) : (s.pb f v).store = s.store := rfl
@[simp] theorem State.pb_jnl (f : FRef) (v : Bool) : (s.pb f v).jnl = s.jnl := rfl
@[simp] theorem State.pb_seqs (f : FRef) (v : Bool) : (s.pb f v).seqs = s.seqs := rfl
@[simp] theorem State.pb_sqs (f : FRef) (v : Bool) : (s.pb f v).sqs = s.sqs := rfl
@[simp] theorem State.pb_vs (f : FRef) (v : Bool) : (s.pb f v).vs = s.vs := rfl
@[simp] theorem State.pb_chans (f : FRef) (v : Bool) : (s.pb f v).chans = s.chans := rfl
@[simp] theorem State.pb_cbs (f : FRef) (v : Bool) : (s.pb f v).cbs = s.cbs := rfl
@[simp] theorem State.pb_capq (f : FRef) (v : Bool) : (s.pb f v).capq = s.capq := rfl
@[simp] theorem State.pb_arms (f : FRef) (v : Bool) : (s.pb f v).arms = s.arms := rfl
@[simp] theorem State.pb_shut (f : FRef) (v : Bool) : (s.pb f v).shut = s.shut := rfl
@[simp] theorem State.pb_cores (f : FRef) (v : Bool) : (s.pb f v).cores = s.cores := rfl
@[simp] theorem State.pb_ctxs (f : FRef) (v : Bool) : (s.pb f v).ctxs = s.ctxs := rfl
@[simp] theorem State.pb_disp (f : FRef) (v : Bool) : (s.pb f v).disp = s.disp := rfl
@[simp] theorem State.pb_drcs (f : FRef) (v : Bool) : (s.pb f v).drcs = s.drcs := rfl
@[simp] theorem State.pb_lanes (f : FRef) (v : Bool) : (s.pb f v).lanes = s.lanes := rfl
@[simp] theorem State.pb_groups (f : FRef) (v : Bool) : (s.pb f v).groups = s.groups := rfl
@[simp] theorem State.pb_tb (f : FRef) (v : Bool) : (s.pb f v).tb = s.tb := rfl
@[simp] theorem State.pb_trigs (f : FRef) (v : Bool) : (s.pb f v).trigs = s.trigs := rfl
@[simp] theorem State.pb_tims (f : FRef) (v : Bool) : (s.pb f v).tims = s.tims := rfl
@[simp] theorem State.pb_conv (f : FRef) (v : Bool) : (s.pb f v).conv = s.conv := rfl
@[simp] theorem State.pb_thm (f : FRef) (v : Bool) : (s.pb f v).thm = s.thm := rfl
@[simp] theorem State.pb_cal (f : FRef) (v : Bool) : (s.pb f v).cal = s.cal := rfl
@[simp] theorem State.pb_flt (f : FRef) (v : Bool) : (s.pb f v).flt = s.flt := rfl
@[simp] theorem State.pb_ra (f : FRef) (v : Bool) : (s.pb f v).ra = s.ra := rfl
@[simp] theorem State.pb_raHeld (f : FRef) (v : Bool) : (s.pb f v).raHeld = s.raHeld := rfl
@[simp] theorem State.pb_twin (f : FRef) (v : Bool) : (s.pb f v).twin = s.twin := rfl
@[simp] theorem State.pb_units (f : FRef) (v : Bool) : (s.pb f v).units = s.units := rfl
@[simp] theorem State.pb_recs (f : FRef) (v : Bool) : (s.pb f v).recs = s.recs := rfl
@[simp] theorem State.pb_pwr (f : FRef) (v : Bool) : (s.pb f v).pwr = s.pwr := rfl

/-! ### pi -/

@[simp] theorem State.pi_pending (f : FRef) (v : Int) : (s.pi f v).pending = s.pending := rfl
@[simp] theorem State.pi_outs (f : FRef) (v : Int) : (s.pi f v).outs = s.outs := rfl
@[simp] theorem State.pi_fresh (f : FRef) (v : Int) : (s.pi f v).fresh = s.fresh := rfl
@[simp] theorem State.pi_mem (f : FRef) (v : Int) : (s.pi f v).mem = s.mem := rfl
@[simp] theorem State.pi_ecc (f : FRef) (v : Int) : (s.pi f v).ecc = s.ecc := rfl
@[simp] theorem State.pi_rangeArmed (f : FRef) (v : Int) : (s.pi f v).rangeArmed = s.rangeArmed := rfl
@[simp] theorem State.pi_nvm (f : FRef) (v : Int) : (s.pi f v).nvm = s.nvm := rfl
@[simp] theorem State.pi_nvmEcc (f : FRef) (v : Int) : (s.pi f v).nvmEcc = s.nvmEcc := rfl
@[simp] theorem State.pi_ports (f : FRef) (v : Int) : (s.pi f v).ports = s.ports := rfl
@[simp] theorem State.pi_wards (f : FRef) (v : Int) : (s.pi f v).wards = s.wards := rfl
@[simp] theorem State.pi_cmds (f : FRef) (v : Int) : (s.pi f v).cmds = s.cmds := rfl
@[simp] theorem State.pi_fcp (f : FRef) (v : Int) : (s.pi f v).fcp = s.fcp := rfl
@[simp] theorem State.pi_plan (f : FRef) (v : Int) : (s.pi f v).plan = s.plan := rfl
@[simp] theorem State.pi_store (f : FRef) (v : Int) : (s.pi f v).store = s.store := rfl
@[simp] theorem State.pi_jnl (f : FRef) (v : Int) : (s.pi f v).jnl = s.jnl := rfl
@[simp] theorem State.pi_seqs (f : FRef) (v : Int) : (s.pi f v).seqs = s.seqs := rfl
@[simp] theorem State.pi_sqs (f : FRef) (v : Int) : (s.pi f v).sqs = s.sqs := rfl
@[simp] theorem State.pi_vs (f : FRef) (v : Int) : (s.pi f v).vs = s.vs := rfl
@[simp] theorem State.pi_chans (f : FRef) (v : Int) : (s.pi f v).chans = s.chans := rfl
@[simp] theorem State.pi_cbs (f : FRef) (v : Int) : (s.pi f v).cbs = s.cbs := rfl
@[simp] theorem State.pi_capq (f : FRef) (v : Int) : (s.pi f v).capq = s.capq := rfl
@[simp] theorem State.pi_arms (f : FRef) (v : Int) : (s.pi f v).arms = s.arms := rfl
@[simp] theorem State.pi_shut (f : FRef) (v : Int) : (s.pi f v).shut = s.shut := rfl
@[simp] theorem State.pi_cores (f : FRef) (v : Int) : (s.pi f v).cores = s.cores := rfl
@[simp] theorem State.pi_ctxs (f : FRef) (v : Int) : (s.pi f v).ctxs = s.ctxs := rfl
@[simp] theorem State.pi_disp (f : FRef) (v : Int) : (s.pi f v).disp = s.disp := rfl
@[simp] theorem State.pi_drcs (f : FRef) (v : Int) : (s.pi f v).drcs = s.drcs := rfl
@[simp] theorem State.pi_lanes (f : FRef) (v : Int) : (s.pi f v).lanes = s.lanes := rfl
@[simp] theorem State.pi_groups (f : FRef) (v : Int) : (s.pi f v).groups = s.groups := rfl
@[simp] theorem State.pi_tb (f : FRef) (v : Int) : (s.pi f v).tb = s.tb := rfl
@[simp] theorem State.pi_trigs (f : FRef) (v : Int) : (s.pi f v).trigs = s.trigs := rfl
@[simp] theorem State.pi_tims (f : FRef) (v : Int) : (s.pi f v).tims = s.tims := rfl
@[simp] theorem State.pi_conv (f : FRef) (v : Int) : (s.pi f v).conv = s.conv := rfl
@[simp] theorem State.pi_thm (f : FRef) (v : Int) : (s.pi f v).thm = s.thm := rfl
@[simp] theorem State.pi_cal (f : FRef) (v : Int) : (s.pi f v).cal = s.cal := rfl
@[simp] theorem State.pi_flt (f : FRef) (v : Int) : (s.pi f v).flt = s.flt := rfl
@[simp] theorem State.pi_ra (f : FRef) (v : Int) : (s.pi f v).ra = s.ra := rfl
@[simp] theorem State.pi_raHeld (f : FRef) (v : Int) : (s.pi f v).raHeld = s.raHeld := rfl
@[simp] theorem State.pi_twin (f : FRef) (v : Int) : (s.pi f v).twin = s.twin := rfl
@[simp] theorem State.pi_units (f : FRef) (v : Int) : (s.pi f v).units = s.units := rfl
@[simp] theorem State.pi_recs (f : FRef) (v : Int) : (s.pi f v).recs = s.recs := rfl
@[simp] theorem State.pi_pwr (f : FRef) (v : Int) : (s.pi f v).pwr = s.pwr := rfl

/-! ### inc -/

@[simp] theorem State.inc_pending (f : FRef) (v : Nat) : (s.inc f v).pending = s.pending := rfl
@[simp] theorem State.inc_outs (f : FRef) (v : Nat) : (s.inc f v).outs = s.outs := rfl
@[simp] theorem State.inc_fresh (f : FRef) (v : Nat) : (s.inc f v).fresh = s.fresh := rfl
@[simp] theorem State.inc_mem (f : FRef) (v : Nat) : (s.inc f v).mem = s.mem := rfl
@[simp] theorem State.inc_ecc (f : FRef) (v : Nat) : (s.inc f v).ecc = s.ecc := rfl
@[simp] theorem State.inc_rangeArmed (f : FRef) (v : Nat) : (s.inc f v).rangeArmed = s.rangeArmed := rfl
@[simp] theorem State.inc_nvm (f : FRef) (v : Nat) : (s.inc f v).nvm = s.nvm := rfl
@[simp] theorem State.inc_nvmEcc (f : FRef) (v : Nat) : (s.inc f v).nvmEcc = s.nvmEcc := rfl
@[simp] theorem State.inc_ports (f : FRef) (v : Nat) : (s.inc f v).ports = s.ports := rfl
@[simp] theorem State.inc_wards (f : FRef) (v : Nat) : (s.inc f v).wards = s.wards := rfl
@[simp] theorem State.inc_cmds (f : FRef) (v : Nat) : (s.inc f v).cmds = s.cmds := rfl
@[simp] theorem State.inc_fcp (f : FRef) (v : Nat) : (s.inc f v).fcp = s.fcp := rfl
@[simp] theorem State.inc_plan (f : FRef) (v : Nat) : (s.inc f v).plan = s.plan := rfl
@[simp] theorem State.inc_store (f : FRef) (v : Nat) : (s.inc f v).store = s.store := rfl
@[simp] theorem State.inc_jnl (f : FRef) (v : Nat) : (s.inc f v).jnl = s.jnl := rfl
@[simp] theorem State.inc_seqs (f : FRef) (v : Nat) : (s.inc f v).seqs = s.seqs := rfl
@[simp] theorem State.inc_sqs (f : FRef) (v : Nat) : (s.inc f v).sqs = s.sqs := rfl
@[simp] theorem State.inc_vs (f : FRef) (v : Nat) : (s.inc f v).vs = s.vs := rfl
@[simp] theorem State.inc_chans (f : FRef) (v : Nat) : (s.inc f v).chans = s.chans := rfl
@[simp] theorem State.inc_cbs (f : FRef) (v : Nat) : (s.inc f v).cbs = s.cbs := rfl
@[simp] theorem State.inc_capq (f : FRef) (v : Nat) : (s.inc f v).capq = s.capq := rfl
@[simp] theorem State.inc_arms (f : FRef) (v : Nat) : (s.inc f v).arms = s.arms := rfl
@[simp] theorem State.inc_shut (f : FRef) (v : Nat) : (s.inc f v).shut = s.shut := rfl
@[simp] theorem State.inc_cores (f : FRef) (v : Nat) : (s.inc f v).cores = s.cores := rfl
@[simp] theorem State.inc_ctxs (f : FRef) (v : Nat) : (s.inc f v).ctxs = s.ctxs := rfl
@[simp] theorem State.inc_disp (f : FRef) (v : Nat) : (s.inc f v).disp = s.disp := rfl
@[simp] theorem State.inc_drcs (f : FRef) (v : Nat) : (s.inc f v).drcs = s.drcs := rfl
@[simp] theorem State.inc_lanes (f : FRef) (v : Nat) : (s.inc f v).lanes = s.lanes := rfl
@[simp] theorem State.inc_groups (f : FRef) (v : Nat) : (s.inc f v).groups = s.groups := rfl
@[simp] theorem State.inc_tb (f : FRef) (v : Nat) : (s.inc f v).tb = s.tb := rfl
@[simp] theorem State.inc_trigs (f : FRef) (v : Nat) : (s.inc f v).trigs = s.trigs := rfl
@[simp] theorem State.inc_tims (f : FRef) (v : Nat) : (s.inc f v).tims = s.tims := rfl
@[simp] theorem State.inc_conv (f : FRef) (v : Nat) : (s.inc f v).conv = s.conv := rfl
@[simp] theorem State.inc_thm (f : FRef) (v : Nat) : (s.inc f v).thm = s.thm := rfl
@[simp] theorem State.inc_cal (f : FRef) (v : Nat) : (s.inc f v).cal = s.cal := rfl
@[simp] theorem State.inc_flt (f : FRef) (v : Nat) : (s.inc f v).flt = s.flt := rfl
@[simp] theorem State.inc_ra (f : FRef) (v : Nat) : (s.inc f v).ra = s.ra := rfl
@[simp] theorem State.inc_raHeld (f : FRef) (v : Nat) : (s.inc f v).raHeld = s.raHeld := rfl
@[simp] theorem State.inc_twin (f : FRef) (v : Nat) : (s.inc f v).twin = s.twin := rfl
@[simp] theorem State.inc_units (f : FRef) (v : Nat) : (s.inc f v).units = s.units := rfl
@[simp] theorem State.inc_recs (f : FRef) (v : Nat) : (s.inc f v).recs = s.recs := rfl
@[simp] theorem State.inc_pwr (f : FRef) (v : Nat) : (s.inc f v).pwr = s.pwr := rfl

/-! ### rst -/

@[simp] theorem State.rst_pending (a : Nat) : (s.rst a).pending = s.pending := rfl
@[simp] theorem State.rst_outs (a : Nat) : (s.rst a).outs = s.outs := rfl
@[simp] theorem State.rst_fresh (a : Nat) : (s.rst a).fresh = s.fresh := rfl
@[simp] theorem State.rst_mem (a : Nat) : (s.rst a).mem = s.mem := rfl
@[simp] theorem State.rst_ecc (a : Nat) : (s.rst a).ecc = s.ecc := rfl
@[simp] theorem State.rst_rangeArmed (a : Nat) : (s.rst a).rangeArmed = s.rangeArmed := rfl
@[simp] theorem State.rst_nvm (a : Nat) : (s.rst a).nvm = s.nvm := rfl
@[simp] theorem State.rst_nvmEcc (a : Nat) : (s.rst a).nvmEcc = s.nvmEcc := rfl
@[simp] theorem State.rst_ports (a : Nat) : (s.rst a).ports = s.ports := rfl
@[simp] theorem State.rst_wards (a : Nat) : (s.rst a).wards = s.wards := rfl
@[simp] theorem State.rst_cmds (a : Nat) : (s.rst a).cmds = s.cmds := rfl
@[simp] theorem State.rst_fcp (a : Nat) : (s.rst a).fcp = s.fcp := rfl
@[simp] theorem State.rst_plan (a : Nat) : (s.rst a).plan = s.plan := rfl
@[simp] theorem State.rst_store (a : Nat) : (s.rst a).store = s.store := rfl
@[simp] theorem State.rst_jnl (a : Nat) : (s.rst a).jnl = s.jnl := rfl
@[simp] theorem State.rst_seqs (a : Nat) : (s.rst a).seqs = s.seqs := rfl
@[simp] theorem State.rst_sqs (a : Nat) : (s.rst a).sqs = s.sqs := rfl
@[simp] theorem State.rst_vs (a : Nat) : (s.rst a).vs = s.vs := rfl
@[simp] theorem State.rst_chans (a : Nat) : (s.rst a).chans = s.chans := rfl
@[simp] theorem State.rst_cbs (a : Nat) : (s.rst a).cbs = s.cbs := rfl
@[simp] theorem State.rst_capq (a : Nat) : (s.rst a).capq = s.capq := rfl
@[simp] theorem State.rst_arms (a : Nat) : (s.rst a).arms = s.arms := rfl
@[simp] theorem State.rst_shut (a : Nat) : (s.rst a).shut = s.shut := rfl
@[simp] theorem State.rst_cores (a : Nat) : (s.rst a).cores = s.cores := rfl
@[simp] theorem State.rst_ctxs (a : Nat) : (s.rst a).ctxs = s.ctxs := rfl
@[simp] theorem State.rst_disp (a : Nat) : (s.rst a).disp = s.disp := rfl
@[simp] theorem State.rst_drcs (a : Nat) : (s.rst a).drcs = s.drcs := rfl
@[simp] theorem State.rst_lanes (a : Nat) : (s.rst a).lanes = s.lanes := rfl
@[simp] theorem State.rst_groups (a : Nat) : (s.rst a).groups = s.groups := rfl
@[simp] theorem State.rst_tb (a : Nat) : (s.rst a).tb = s.tb := rfl
@[simp] theorem State.rst_trigs (a : Nat) : (s.rst a).trigs = s.trigs := rfl
@[simp] theorem State.rst_tims (a : Nat) : (s.rst a).tims = s.tims := rfl
@[simp] theorem State.rst_conv (a : Nat) : (s.rst a).conv = s.conv := rfl
@[simp] theorem State.rst_thm (a : Nat) : (s.rst a).thm = s.thm := rfl
@[simp] theorem State.rst_cal (a : Nat) : (s.rst a).cal = s.cal := rfl
@[simp] theorem State.rst_flt (a : Nat) : (s.rst a).flt = s.flt := rfl
@[simp] theorem State.rst_ra (a : Nat) : (s.rst a).ra = s.ra := rfl
@[simp] theorem State.rst_raHeld (a : Nat) : (s.rst a).raHeld = s.raHeld := rfl
@[simp] theorem State.rst_twin (a : Nat) : (s.rst a).twin = s.twin := rfl
@[simp] theorem State.rst_units (a : Nat) : (s.rst a).units = s.units := rfl
@[simp] theorem State.rst_recs (a : Nat) : (s.rst a).recs = s.recs := rfl
@[simp] theorem State.rst_pwr (a : Nat) : (s.rst a).pwr = s.pwr := rfl

/-! ### emit -/

@[simp] theorem State.emit_pending (x : Out) : (s.emit x).pending = s.pending := rfl
@[simp] theorem State.emit_fresh (x : Out) : (s.emit x).fresh = s.fresh := rfl
@[simp] theorem State.emit_regs (x : Out) : (s.emit x).regs = s.regs := rfl
@[simp] theorem State.emit_mem (x : Out) : (s.emit x).mem = s.mem := rfl
@[simp] theorem State.emit_ecc (x : Out) : (s.emit x).ecc = s.ecc := rfl
@[simp] theorem State.emit_rangeArmed (x : Out) : (s.emit x).rangeArmed = s.rangeArmed := rfl
@[simp] theorem State.emit_nvm (x : Out) : (s.emit x).nvm = s.nvm := rfl
@[simp] theorem State.emit_nvmEcc (x : Out) : (s.emit x).nvmEcc = s.nvmEcc := rfl
@[simp] theorem State.emit_ports (x : Out) : (s.emit x).ports = s.ports := rfl
@[simp] theorem State.emit_wards (x : Out) : (s.emit x).wards = s.wards := rfl
@[simp] theorem State.emit_cmds (x : Out) : (s.emit x).cmds = s.cmds := rfl
@[simp] theorem State.emit_fcp (x : Out) : (s.emit x).fcp = s.fcp := rfl
@[simp] theorem State.emit_plan (x : Out) : (s.emit x).plan = s.plan := rfl
@[simp] theorem State.emit_store (x : Out) : (s.emit x).store = s.store := rfl
@[simp] theorem State.emit_jnl (x : Out) : (s.emit x).jnl = s.jnl := rfl
@[simp] theorem State.emit_seqs (x : Out) : (s.emit x).seqs = s.seqs := rfl
@[simp] theorem State.emit_sqs (x : Out) : (s.emit x).sqs = s.sqs := rfl
@[simp] theorem State.emit_vs (x : Out) : (s.emit x).vs = s.vs := rfl
@[simp] theorem State.emit_chans (x : Out) : (s.emit x).chans = s.chans := rfl
@[simp] theorem State.emit_cbs (x : Out) : (s.emit x).cbs = s.cbs := rfl
@[simp] theorem State.emit_capq (x : Out) : (s.emit x).capq = s.capq := rfl
@[simp] theorem State.emit_arms (x : Out) : (s.emit x).arms = s.arms := rfl
@[simp] theorem State.emit_shut (x : Out) : (s.emit x).shut = s.shut := rfl
@[simp] theorem State.emit_cores (x : Out) : (s.emit x).cores = s.cores := rfl
@[simp] theorem State.emit_ctxs (x : Out) : (s.emit x).ctxs = s.ctxs := rfl
@[simp] theorem State.emit_disp (x : Out) : (s.emit x).disp = s.disp := rfl
@[simp] theorem State.emit_drcs (x : Out) : (s.emit x).drcs = s.drcs := rfl
@[simp] theorem State.emit_lanes (x : Out) : (s.emit x).lanes = s.lanes := rfl
@[simp] theorem State.emit_groups (x : Out) : (s.emit x).groups = s.groups := rfl
@[simp] theorem State.emit_tb (x : Out) : (s.emit x).tb = s.tb := rfl
@[simp] theorem State.emit_trigs (x : Out) : (s.emit x).trigs = s.trigs := rfl
@[simp] theorem State.emit_tims (x : Out) : (s.emit x).tims = s.tims := rfl
@[simp] theorem State.emit_conv (x : Out) : (s.emit x).conv = s.conv := rfl
@[simp] theorem State.emit_thm (x : Out) : (s.emit x).thm = s.thm := rfl
@[simp] theorem State.emit_cal (x : Out) : (s.emit x).cal = s.cal := rfl
@[simp] theorem State.emit_flt (x : Out) : (s.emit x).flt = s.flt := rfl
@[simp] theorem State.emit_ra (x : Out) : (s.emit x).ra = s.ra := rfl
@[simp] theorem State.emit_raHeld (x : Out) : (s.emit x).raHeld = s.raHeld := rfl
@[simp] theorem State.emit_twin (x : Out) : (s.emit x).twin = s.twin := rfl
@[simp] theorem State.emit_units (x : Out) : (s.emit x).units = s.units := rfl
@[simp] theorem State.emit_recs (x : Out) : (s.emit x).recs = s.recs := rfl
@[simp] theorem State.emit_pwr (x : Out) : (s.emit x).pwr = s.pwr := rfl

/-! ### useFree -/

@[simp] theorem State.useFree_pending : (s.useFree).pending = s.pending := rfl
@[simp] theorem State.useFree_outs : (s.useFree).outs = s.outs := rfl
@[simp] theorem State.useFree_regs : (s.useFree).regs = s.regs := rfl
@[simp] theorem State.useFree_mem : (s.useFree).mem = s.mem := rfl
@[simp] theorem State.useFree_ecc : (s.useFree).ecc = s.ecc := rfl
@[simp] theorem State.useFree_rangeArmed : (s.useFree).rangeArmed = s.rangeArmed := rfl
@[simp] theorem State.useFree_nvm : (s.useFree).nvm = s.nvm := rfl
@[simp] theorem State.useFree_nvmEcc : (s.useFree).nvmEcc = s.nvmEcc := rfl
@[simp] theorem State.useFree_ports : (s.useFree).ports = s.ports := rfl
@[simp] theorem State.useFree_wards : (s.useFree).wards = s.wards := rfl
@[simp] theorem State.useFree_cmds : (s.useFree).cmds = s.cmds := rfl
@[simp] theorem State.useFree_fcp : (s.useFree).fcp = s.fcp := rfl
@[simp] theorem State.useFree_plan : (s.useFree).plan = s.plan := rfl
@[simp] theorem State.useFree_store : (s.useFree).store = s.store := rfl
@[simp] theorem State.useFree_jnl : (s.useFree).jnl = s.jnl := rfl
@[simp] theorem State.useFree_seqs : (s.useFree).seqs = s.seqs := rfl
@[simp] theorem State.useFree_sqs : (s.useFree).sqs = s.sqs := rfl
@[simp] theorem State.useFree_vs : (s.useFree).vs = s.vs := rfl
@[simp] theorem State.useFree_chans : (s.useFree).chans = s.chans := rfl
@[simp] theorem State.useFree_cbs : (s.useFree).cbs = s.cbs := rfl
@[simp] theorem State.useFree_capq : (s.useFree).capq = s.capq := rfl
@[simp] theorem State.useFree_arms : (s.useFree).arms = s.arms := rfl
@[simp] theorem State.useFree_shut : (s.useFree).shut = s.shut := rfl
@[simp] theorem State.useFree_cores : (s.useFree).cores = s.cores := rfl
@[simp] theorem State.useFree_ctxs : (s.useFree).ctxs = s.ctxs := rfl
@[simp] theorem State.useFree_disp : (s.useFree).disp = s.disp := rfl
@[simp] theorem State.useFree_drcs : (s.useFree).drcs = s.drcs := rfl
@[simp] theorem State.useFree_lanes : (s.useFree).lanes = s.lanes := rfl
@[simp] theorem State.useFree_groups : (s.useFree).groups = s.groups := rfl
@[simp] theorem State.useFree_tb : (s.useFree).tb = s.tb := rfl
@[simp] theorem State.useFree_trigs : (s.useFree).trigs = s.trigs := rfl
@[simp] theorem State.useFree_tims : (s.useFree).tims = s.tims := rfl
@[simp] theorem State.useFree_conv : (s.useFree).conv = s.conv := rfl
@[simp] theorem State.useFree_thm : (s.useFree).thm = s.thm := rfl
@[simp] theorem State.useFree_cal : (s.useFree).cal = s.cal := rfl
@[simp] theorem State.useFree_flt : (s.useFree).flt = s.flt := rfl
@[simp] theorem State.useFree_ra : (s.useFree).ra = s.ra := rfl
@[simp] theorem State.useFree_raHeld : (s.useFree).raHeld = s.raHeld := rfl
@[simp] theorem State.useFree_twin : (s.useFree).twin = s.twin := rfl
@[simp] theorem State.useFree_units : (s.useFree).units = s.units := rfl
@[simp] theorem State.useFree_recs : (s.useFree).recs = s.recs := rfl
@[simp] theorem State.useFree_pwr : (s.useFree).pwr = s.pwr := rfl

/-! ### stB -/

@[simp] theorem State.stB_pending (a : Nat) (b : Byte) : (s.stB a b).pending = s.pending := rfl
@[simp] theorem State.stB_outs (a : Nat) (b : Byte) : (s.stB a b).outs = s.outs := rfl
@[simp] theorem State.stB_fresh (a : Nat) (b : Byte) : (s.stB a b).fresh = s.fresh := rfl
@[simp] theorem State.stB_regs (a : Nat) (b : Byte) : (s.stB a b).regs = s.regs := rfl
@[simp] theorem State.stB_ecc (a : Nat) (b : Byte) : (s.stB a b).ecc = s.ecc := rfl
@[simp] theorem State.stB_rangeArmed (a : Nat) (b : Byte) : (s.stB a b).rangeArmed = s.rangeArmed := rfl
@[simp] theorem State.stB_nvm (a : Nat) (b : Byte) : (s.stB a b).nvm = s.nvm := rfl
@[simp] theorem State.stB_nvmEcc (a : Nat) (b : Byte) : (s.stB a b).nvmEcc = s.nvmEcc := rfl
@[simp] theorem State.stB_ports (a : Nat) (b : Byte) : (s.stB a b).ports = s.ports := rfl
@[simp] theorem State.stB_wards (a : Nat) (b : Byte) : (s.stB a b).wards = s.wards := rfl
@[simp] theorem State.stB_cmds (a : Nat) (b : Byte) : (s.stB a b).cmds = s.cmds := rfl
@[simp] theorem State.stB_fcp (a : Nat) (b : Byte) : (s.stB a b).fcp = s.fcp := rfl
@[simp] theorem State.stB_plan (a : Nat) (b : Byte) : (s.stB a b).plan = s.plan := rfl
@[simp] theorem State.stB_store (a : Nat) (b : Byte) : (s.stB a b).store = s.store := rfl
@[simp] theorem State.stB_jnl (a : Nat) (b : Byte) : (s.stB a b).jnl = s.jnl := rfl
@[simp] theorem State.stB_seqs (a : Nat) (b : Byte) : (s.stB a b).seqs = s.seqs := rfl
@[simp] theorem State.stB_sqs (a : Nat) (b : Byte) : (s.stB a b).sqs = s.sqs := rfl
@[simp] theorem State.stB_vs (a : Nat) (b : Byte) : (s.stB a b).vs = s.vs := rfl
@[simp] theorem State.stB_chans (a : Nat) (b : Byte) : (s.stB a b).chans = s.chans := rfl
@[simp] theorem State.stB_cbs (a : Nat) (b : Byte) : (s.stB a b).cbs = s.cbs := rfl
@[simp] theorem State.stB_capq (a : Nat) (b : Byte) : (s.stB a b).capq = s.capq := rfl
@[simp] theorem State.stB_arms (a : Nat) (b : Byte) : (s.stB a b).arms = s.arms := rfl
@[simp] theorem State.stB_shut (a : Nat) (b : Byte) : (s.stB a b).shut = s.shut := rfl
@[simp] theorem State.stB_cores (a : Nat) (b : Byte) : (s.stB a b).cores = s.cores := rfl
@[simp] theorem State.stB_ctxs (a : Nat) (b : Byte) : (s.stB a b).ctxs = s.ctxs := rfl
@[simp] theorem State.stB_disp (a : Nat) (b : Byte) : (s.stB a b).disp = s.disp := rfl
@[simp] theorem State.stB_drcs (a : Nat) (b : Byte) : (s.stB a b).drcs = s.drcs := rfl
@[simp] theorem State.stB_lanes (a : Nat) (b : Byte) : (s.stB a b).lanes = s.lanes := rfl
@[simp] theorem State.stB_groups (a : Nat) (b : Byte) : (s.stB a b).groups = s.groups := rfl
@[simp] theorem State.stB_tb (a : Nat) (b : Byte) : (s.stB a b).tb = s.tb := rfl
@[simp] theorem State.stB_trigs (a : Nat) (b : Byte) : (s.stB a b).trigs = s.trigs := rfl
@[simp] theorem State.stB_tims (a : Nat) (b : Byte) : (s.stB a b).tims = s.tims := rfl
@[simp] theorem State.stB_conv (a : Nat) (b : Byte) : (s.stB a b).conv = s.conv := rfl
@[simp] theorem State.stB_thm (a : Nat) (b : Byte) : (s.stB a b).thm = s.thm := rfl
@[simp] theorem State.stB_cal (a : Nat) (b : Byte) : (s.stB a b).cal = s.cal := rfl
@[simp] theorem State.stB_flt (a : Nat) (b : Byte) : (s.stB a b).flt = s.flt := rfl
@[simp] theorem State.stB_ra (a : Nat) (b : Byte) : (s.stB a b).ra = s.ra := rfl
@[simp] theorem State.stB_raHeld (a : Nat) (b : Byte) : (s.stB a b).raHeld = s.raHeld := rfl
@[simp] theorem State.stB_twin (a : Nat) (b : Byte) : (s.stB a b).twin = s.twin := rfl
@[simp] theorem State.stB_units (a : Nat) (b : Byte) : (s.stB a b).units = s.units := rfl
@[simp] theorem State.stB_recs (a : Nat) (b : Byte) : (s.stB a b).recs = s.recs := rfl
@[simp] theorem State.stB_pwr (a : Nat) (b : Byte) : (s.stB a b).pwr = s.pwr := rfl

/-! ### modCtx -/

@[simp] theorem State.modCtx_pending (c : Nat) (f : Ctx → Ctx) : (s.modCtx c f).pending = s.pending := rfl
@[simp] theorem State.modCtx_outs (c : Nat) (f : Ctx → Ctx) : (s.modCtx c f).outs = s.outs := rfl
@[simp] theorem State.modCtx_fresh (c : Nat) (f : Ctx → Ctx) : (s.modCtx c f).fresh = s.fresh := rfl
@[simp] theorem State.modCtx_regs (c : Nat) (f : Ctx → Ctx) : (s.modCtx c f).regs = s.regs := rfl
@[simp] theorem State.modCtx_mem (c : Nat) (f : Ctx → Ctx) : (s.modCtx c f).mem = s.mem := rfl
@[simp] theorem State.modCtx_ecc (c : Nat) (f : Ctx → Ctx) : (s.modCtx c f).ecc = s.ecc := rfl
@[simp] theorem State.modCtx_rangeArmed (c : Nat) (f : Ctx → Ctx) : (s.modCtx c f).rangeArmed = s.rangeArmed := rfl
@[simp] theorem State.modCtx_nvm (c : Nat) (f : Ctx → Ctx) : (s.modCtx c f).nvm = s.nvm := rfl
@[simp] theorem State.modCtx_nvmEcc (c : Nat) (f : Ctx → Ctx) : (s.modCtx c f).nvmEcc = s.nvmEcc := rfl
@[simp] theorem State.modCtx_ports (c : Nat) (f : Ctx → Ctx) : (s.modCtx c f).ports = s.ports := rfl
@[simp] theorem State.modCtx_wards (c : Nat) (f : Ctx → Ctx) : (s.modCtx c f).wards = s.wards := rfl
@[simp] theorem State.modCtx_cmds (c : Nat) (f : Ctx → Ctx) : (s.modCtx c f).cmds = s.cmds := rfl
@[simp] theorem State.modCtx_fcp (c : Nat) (f : Ctx → Ctx) : (s.modCtx c f).fcp = s.fcp := rfl
@[simp] theorem State.modCtx_plan (c : Nat) (f : Ctx → Ctx) : (s.modCtx c f).plan = s.plan := rfl
@[simp] theorem State.modCtx_store (c : Nat) (f : Ctx → Ctx) : (s.modCtx c f).store = s.store := rfl
@[simp] theorem State.modCtx_jnl (c : Nat) (f : Ctx → Ctx) : (s.modCtx c f).jnl = s.jnl := rfl
@[simp] theorem State.modCtx_seqs (c : Nat) (f : Ctx → Ctx) : (s.modCtx c f).seqs = s.seqs := rfl
@[simp] theorem State.modCtx_sqs (c : Nat) (f : Ctx → Ctx) : (s.modCtx c f).sqs = s.sqs := rfl
@[simp] theorem State.modCtx_vs (c : Nat) (f : Ctx → Ctx) : (s.modCtx c f).vs = s.vs := rfl
@[simp] theorem State.modCtx_chans (c : Nat) (f : Ctx → Ctx) : (s.modCtx c f).chans = s.chans := rfl
@[simp] theorem State.modCtx_cbs (c : Nat) (f : Ctx → Ctx) : (s.modCtx c f).cbs = s.cbs := rfl
@[simp] theorem State.modCtx_capq (c : Nat) (f : Ctx → Ctx) : (s.modCtx c f).capq = s.capq := rfl
@[simp] theorem State.modCtx_arms (c : Nat) (f : Ctx → Ctx) : (s.modCtx c f).arms = s.arms := rfl
@[simp] theorem State.modCtx_shut (c : Nat) (f : Ctx → Ctx) : (s.modCtx c f).shut = s.shut := rfl
@[simp] theorem State.modCtx_cores (c : Nat) (f : Ctx → Ctx) : (s.modCtx c f).cores = s.cores := rfl
@[simp] theorem State.modCtx_disp (c : Nat) (f : Ctx → Ctx) : (s.modCtx c f).disp = s.disp := rfl
@[simp] theorem State.modCtx_drcs (c : Nat) (f : Ctx → Ctx) : (s.modCtx c f).drcs = s.drcs := rfl
@[simp] theorem State.modCtx_lanes (c : Nat) (f : Ctx → Ctx) : (s.modCtx c f).lanes = s.lanes := rfl
@[simp] theorem State.modCtx_groups (c : Nat) (f : Ctx → Ctx) : (s.modCtx c f).groups = s.groups := rfl
@[simp] theorem State.modCtx_tb (c : Nat) (f : Ctx → Ctx) : (s.modCtx c f).tb = s.tb := rfl
@[simp] theorem State.modCtx_trigs (c : Nat) (f : Ctx → Ctx) : (s.modCtx c f).trigs = s.trigs := rfl
@[simp] theorem State.modCtx_tims (c : Nat) (f : Ctx → Ctx) : (s.modCtx c f).tims = s.tims := rfl
@[simp] theorem State.modCtx_conv (c : Nat) (f : Ctx → Ctx) : (s.modCtx c f).conv = s.conv := rfl
@[simp] theorem State.modCtx_thm (c : Nat) (f : Ctx → Ctx) : (s.modCtx c f).thm = s.thm := rfl
@[simp] theorem State.modCtx_cal (c : Nat) (f : Ctx → Ctx) : (s.modCtx c f).cal = s.cal := rfl
@[simp] theorem State.modCtx_flt (c : Nat) (f : Ctx → Ctx) : (s.modCtx c f).flt = s.flt := rfl
@[simp] theorem State.modCtx_ra (c : Nat) (f : Ctx → Ctx) : (s.modCtx c f).ra = s.ra := rfl
@[simp] theorem State.modCtx_raHeld (c : Nat) (f : Ctx → Ctx) : (s.modCtx c f).raHeld = s.raHeld := rfl
@[simp] theorem State.modCtx_twin (c : Nat) (f : Ctx → Ctx) : (s.modCtx c f).twin = s.twin := rfl
@[simp] theorem State.modCtx_units (c : Nat) (f : Ctx → Ctx) : (s.modCtx c f).units = s.units := rfl
@[simp] theorem State.modCtx_recs (c : Nat) (f : Ctx → Ctx) : (s.modCtx c f).recs = s.recs := rfl
@[simp] theorem State.modCtx_pwr (c : Nat) (f : Ctx → Ctx) : (s.modCtx c f).pwr = s.pwr := rfl

/-! ### modWard -/

@[simp] theorem State.modWard_pending (i : Nat) (f : WardSt → WardSt) : (s.modWard i f).pending = s.pending := by
  unfold State.modWard; split <;> rfl
@[simp] theorem State.modWard_outs (i : Nat) (f : WardSt → WardSt) : (s.modWard i f).outs = s.outs := by
  unfold State.modWard; split <;> rfl
@[simp] theorem State.modWard_fresh (i : Nat) (f : WardSt → WardSt) : (s.modWard i f).fresh = s.fresh := by
  unfold State.modWard; split <;> rfl
@[simp] theorem State.modWard_regs (i : Nat) (f : WardSt → WardSt) : (s.modWard i f).regs = s.regs := by
  unfold State.modWard; split <;> rfl
@[simp] theorem State.modWard_mem (i : Nat) (f : WardSt → WardSt) : (s.modWard i f).mem = s.mem := by
  unfold State.modWard; split <;> rfl
@[simp] theorem State.modWard_ecc (i : Nat) (f : WardSt → WardSt) : (s.modWard i f).ecc = s.ecc := by
  unfold State.modWard; split <;> rfl
@[simp] theorem State.modWard_rangeArmed (i : Nat) (f : WardSt → WardSt) : (s.modWard i f).rangeArmed = s.rangeArmed := by
  unfold State.modWard; split <;> rfl
@[simp] theorem State.modWard_nvm (i : Nat) (f : WardSt → WardSt) : (s.modWard i f).nvm = s.nvm := by
  unfold State.modWard; split <;> rfl
@[simp] theorem State.modWard_nvmEcc (i : Nat) (f : WardSt → WardSt) : (s.modWard i f).nvmEcc = s.nvmEcc := by
  unfold State.modWard; split <;> rfl
@[simp] theorem State.modWard_ports (i : Nat) (f : WardSt → WardSt) : (s.modWard i f).ports = s.ports := by
  unfold State.modWard; split <;> rfl
@[simp] theorem State.modWard_cmds (i : Nat) (f : WardSt → WardSt) : (s.modWard i f).cmds = s.cmds := by
  unfold State.modWard; split <;> rfl
@[simp] theorem State.modWard_fcp (i : Nat) (f : WardSt → WardSt) : (s.modWard i f).fcp = s.fcp := by
  unfold State.modWard; split <;> rfl
@[simp] theorem State.modWard_plan (i : Nat) (f : WardSt → WardSt) : (s.modWard i f).plan = s.plan := by
  unfold State.modWard; split <;> rfl
@[simp] theorem State.modWard_store (i : Nat) (f : WardSt → WardSt) : (s.modWard i f).store = s.store := by
  unfold State.modWard; split <;> rfl
@[simp] theorem State.modWard_jnl (i : Nat) (f : WardSt → WardSt) : (s.modWard i f).jnl = s.jnl := by
  unfold State.modWard; split <;> rfl
@[simp] theorem State.modWard_seqs (i : Nat) (f : WardSt → WardSt) : (s.modWard i f).seqs = s.seqs := by
  unfold State.modWard; split <;> rfl
@[simp] theorem State.modWard_sqs (i : Nat) (f : WardSt → WardSt) : (s.modWard i f).sqs = s.sqs := by
  unfold State.modWard; split <;> rfl
@[simp] theorem State.modWard_vs (i : Nat) (f : WardSt → WardSt) : (s.modWard i f).vs = s.vs := by
  unfold State.modWard; split <;> rfl
@[simp] theorem State.modWard_chans (i : Nat) (f : WardSt → WardSt) : (s.modWard i f).chans = s.chans := by
  unfold State.modWard; split <;> rfl
@[simp] theorem State.modWard_cbs (i : Nat) (f : WardSt → WardSt) : (s.modWard i f).cbs = s.cbs := by
  unfold State.modWard; split <;> rfl
@[simp] theorem State.modWard_capq (i : Nat) (f : WardSt → WardSt) : (s.modWard i f).capq = s.capq := by
  unfold State.modWard; split <;> rfl
@[simp] theorem State.modWard_arms (i : Nat) (f : WardSt → WardSt) : (s.modWard i f).arms = s.arms := by
  unfold State.modWard; split <;> rfl
@[simp] theorem State.modWard_shut (i : Nat) (f : WardSt → WardSt) : (s.modWard i f).shut = s.shut := by
  unfold State.modWard; split <;> rfl
@[simp] theorem State.modWard_cores (i : Nat) (f : WardSt → WardSt) : (s.modWard i f).cores = s.cores := by
  unfold State.modWard; split <;> rfl
@[simp] theorem State.modWard_ctxs (i : Nat) (f : WardSt → WardSt) : (s.modWard i f).ctxs = s.ctxs := by
  unfold State.modWard; split <;> rfl
@[simp] theorem State.modWard_disp (i : Nat) (f : WardSt → WardSt) : (s.modWard i f).disp = s.disp := by
  unfold State.modWard; split <;> rfl
@[simp] theorem State.modWard_drcs (i : Nat) (f : WardSt → WardSt) : (s.modWard i f).drcs = s.drcs := by
  unfold State.modWard; split <;> rfl
@[simp] theorem State.modWard_lanes (i : Nat) (f : WardSt → WardSt) : (s.modWard i f).lanes = s.lanes := by
  unfold State.modWard; split <;> rfl
@[simp] theorem State.modWard_groups (i : Nat) (f : WardSt → WardSt) : (s.modWard i f).groups = s.groups := by
  unfold State.modWard; split <;> rfl
@[simp] theorem State.modWard_tb (i : Nat) (f : WardSt → WardSt) : (s.modWard i f).tb = s.tb := by
  unfold State.modWard; split <;> rfl
@[simp] theorem State.modWard_trigs (i : Nat) (f : WardSt → WardSt) : (s.modWard i f).trigs = s.trigs := by
  unfold State.modWard; split <;> rfl
@[simp] theorem State.modWard_tims (i : Nat) (f : WardSt → WardSt) : (s.modWard i f).tims = s.tims := by
  unfold State.modWard; split <;> rfl
@[simp] theorem State.modWard_conv (i : Nat) (f : WardSt → WardSt) : (s.modWard i f).conv = s.conv := by
  unfold State.modWard; split <;> rfl
@[simp] theorem State.modWard_thm (i : Nat) (f : WardSt → WardSt) : (s.modWard i f).thm = s.thm := by
  unfold State.modWard; split <;> rfl
@[simp] theorem State.modWard_cal (i : Nat) (f : WardSt → WardSt) : (s.modWard i f).cal = s.cal := by
  unfold State.modWard; split <;> rfl
@[simp] theorem State.modWard_flt (i : Nat) (f : WardSt → WardSt) : (s.modWard i f).flt = s.flt := by
  unfold State.modWard; split <;> rfl
@[simp] theorem State.modWard_ra (i : Nat) (f : WardSt → WardSt) : (s.modWard i f).ra = s.ra := by
  unfold State.modWard; split <;> rfl
@[simp] theorem State.modWard_raHeld (i : Nat) (f : WardSt → WardSt) : (s.modWard i f).raHeld = s.raHeld := by
  unfold State.modWard; split <;> rfl
@[simp] theorem State.modWard_twin (i : Nat) (f : WardSt → WardSt) : (s.modWard i f).twin = s.twin := by
  unfold State.modWard; split <;> rfl
@[simp] theorem State.modWard_units (i : Nat) (f : WardSt → WardSt) : (s.modWard i f).units = s.units := by
  unfold State.modWard; split <;> rfl
@[simp] theorem State.modWard_recs (i : Nat) (f : WardSt → WardSt) : (s.modWard i f).recs = s.recs := by
  unfold State.modWard; split <;> rfl
@[simp] theorem State.modWard_pwr (i : Nat) (f : WardSt → WardSt) : (s.modWard i f).pwr = s.pwr := by
  unfold State.modWard; split <;> rfl

/-! ### modSeq -/

@[simp] theorem State.modSeq_pending (i : Nat) (f : Seq → Seq) : (s.modSeq i f).pending = s.pending := by
  unfold State.modSeq; split <;> rfl
@[simp] theorem State.modSeq_outs (i : Nat) (f : Seq → Seq) : (s.modSeq i f).outs = s.outs := by
  unfold State.modSeq; split <;> rfl
@[simp] theorem State.modSeq_fresh (i : Nat) (f : Seq → Seq) : (s.modSeq i f).fresh = s.fresh := by
  unfold State.modSeq; split <;> rfl
@[simp] theorem State.modSeq_regs (i : Nat) (f : Seq → Seq) : (s.modSeq i f).regs = s.regs := by
  unfold State.modSeq; split <;> rfl
@[simp] theorem State.modSeq_mem (i : Nat) (f : Seq → Seq) : (s.modSeq i f).mem = s.mem := by
  unfold State.modSeq; split <;> rfl
@[simp] theorem State.modSeq_ecc (i : Nat) (f : Seq → Seq) : (s.modSeq i f).ecc = s.ecc := by
  unfold State.modSeq; split <;> rfl
@[simp] theorem State.modSeq_rangeArmed (i : Nat) (f : Seq → Seq) : (s.modSeq i f).rangeArmed = s.rangeArmed := by
  unfold State.modSeq; split <;> rfl
@[simp] theorem State.modSeq_nvm (i : Nat) (f : Seq → Seq) : (s.modSeq i f).nvm = s.nvm := by
  unfold State.modSeq; split <;> rfl
@[simp] theorem State.modSeq_nvmEcc (i : Nat) (f : Seq → Seq) : (s.modSeq i f).nvmEcc = s.nvmEcc := by
  unfold State.modSeq; split <;> rfl
@[simp] theorem State.modSeq_ports (i : Nat) (f : Seq → Seq) : (s.modSeq i f).ports = s.ports := by
  unfold State.modSeq; split <;> rfl
@[simp] theorem State.modSeq_wards (i : Nat) (f : Seq → Seq) : (s.modSeq i f).wards = s.wards := by
  unfold State.modSeq; split <;> rfl
@[simp] theorem State.modSeq_cmds (i : Nat) (f : Seq → Seq) : (s.modSeq i f).cmds = s.cmds := by
  unfold State.modSeq; split <;> rfl
@[simp] theorem State.modSeq_fcp (i : Nat) (f : Seq → Seq) : (s.modSeq i f).fcp = s.fcp := by
  unfold State.modSeq; split <;> rfl
@[simp] theorem State.modSeq_plan (i : Nat) (f : Seq → Seq) : (s.modSeq i f).plan = s.plan := by
  unfold State.modSeq; split <;> rfl
@[simp] theorem State.modSeq_store (i : Nat) (f : Seq → Seq) : (s.modSeq i f).store = s.store := by
  unfold State.modSeq; split <;> rfl
@[simp] theorem State.modSeq_jnl (i : Nat) (f : Seq → Seq) : (s.modSeq i f).jnl = s.jnl := by
  unfold State.modSeq; split <;> rfl
@[simp] theorem State.modSeq_sqs (i : Nat) (f : Seq → Seq) : (s.modSeq i f).sqs = s.sqs := by
  unfold State.modSeq; split <;> rfl
@[simp] theorem State.modSeq_vs (i : Nat) (f : Seq → Seq) : (s.modSeq i f).vs = s.vs := by
  unfold State.modSeq; split <;> rfl
@[simp] theorem State.modSeq_chans (i : Nat) (f : Seq → Seq) : (s.modSeq i f).chans = s.chans := by
  unfold State.modSeq; split <;> rfl
@[simp] theorem State.modSeq_cbs (i : Nat) (f : Seq → Seq) : (s.modSeq i f).cbs = s.cbs := by
  unfold State.modSeq; split <;> rfl
@[simp] theorem State.modSeq_capq (i : Nat) (f : Seq → Seq) : (s.modSeq i f).capq = s.capq := by
  unfold State.modSeq; split <;> rfl
@[simp] theorem State.modSeq_arms (i : Nat) (f : Seq → Seq) : (s.modSeq i f).arms = s.arms := by
  unfold State.modSeq; split <;> rfl
@[simp] theorem State.modSeq_shut (i : Nat) (f : Seq → Seq) : (s.modSeq i f).shut = s.shut := by
  unfold State.modSeq; split <;> rfl
@[simp] theorem State.modSeq_cores (i : Nat) (f : Seq → Seq) : (s.modSeq i f).cores = s.cores := by
  unfold State.modSeq; split <;> rfl
@[simp] theorem State.modSeq_ctxs (i : Nat) (f : Seq → Seq) : (s.modSeq i f).ctxs = s.ctxs := by
  unfold State.modSeq; split <;> rfl
@[simp] theorem State.modSeq_disp (i : Nat) (f : Seq → Seq) : (s.modSeq i f).disp = s.disp := by
  unfold State.modSeq; split <;> rfl
@[simp] theorem State.modSeq_drcs (i : Nat) (f : Seq → Seq) : (s.modSeq i f).drcs = s.drcs := by
  unfold State.modSeq; split <;> rfl
@[simp] theorem State.modSeq_lanes (i : Nat) (f : Seq → Seq) : (s.modSeq i f).lanes = s.lanes := by
  unfold State.modSeq; split <;> rfl
@[simp] theorem State.modSeq_groups (i : Nat) (f : Seq → Seq) : (s.modSeq i f).groups = s.groups := by
  unfold State.modSeq; split <;> rfl
@[simp] theorem State.modSeq_tb (i : Nat) (f : Seq → Seq) : (s.modSeq i f).tb = s.tb := by
  unfold State.modSeq; split <;> rfl
@[simp] theorem State.modSeq_trigs (i : Nat) (f : Seq → Seq) : (s.modSeq i f).trigs = s.trigs := by
  unfold State.modSeq; split <;> rfl
@[simp] theorem State.modSeq_tims (i : Nat) (f : Seq → Seq) : (s.modSeq i f).tims = s.tims := by
  unfold State.modSeq; split <;> rfl
@[simp] theorem State.modSeq_conv (i : Nat) (f : Seq → Seq) : (s.modSeq i f).conv = s.conv := by
  unfold State.modSeq; split <;> rfl
@[simp] theorem State.modSeq_thm (i : Nat) (f : Seq → Seq) : (s.modSeq i f).thm = s.thm := by
  unfold State.modSeq; split <;> rfl
@[simp] theorem State.modSeq_cal (i : Nat) (f : Seq → Seq) : (s.modSeq i f).cal = s.cal := by
  unfold State.modSeq; split <;> rfl
@[simp] theorem State.modSeq_flt (i : Nat) (f : Seq → Seq) : (s.modSeq i f).flt = s.flt := by
  unfold State.modSeq; split <;> rfl
@[simp] theorem State.modSeq_ra (i : Nat) (f : Seq → Seq) : (s.modSeq i f).ra = s.ra := by
  unfold State.modSeq; split <;> rfl
@[simp] theorem State.modSeq_raHeld (i : Nat) (f : Seq → Seq) : (s.modSeq i f).raHeld = s.raHeld := by
  unfold State.modSeq; split <;> rfl
@[simp] theorem State.modSeq_twin (i : Nat) (f : Seq → Seq) : (s.modSeq i f).twin = s.twin := by
  unfold State.modSeq; split <;> rfl
@[simp] theorem State.modSeq_units (i : Nat) (f : Seq → Seq) : (s.modSeq i f).units = s.units := by
  unfold State.modSeq; split <;> rfl
@[simp] theorem State.modSeq_recs (i : Nat) (f : Seq → Seq) : (s.modSeq i f).recs = s.recs := by
  unfold State.modSeq; split <;> rfl
@[simp] theorem State.modSeq_pwr (i : Nat) (f : Seq → Seq) : (s.modSeq i f).pwr = s.pwr := by
  unfold State.modSeq; split <;> rfl

/-! ### modSq -/

@[simp] theorem State.modSq_pending (i : Nat) (f : Sq → Sq) : (s.modSq i f).pending = s.pending := by
  unfold State.modSq; split <;> rfl
@[simp] theorem State.modSq_outs (i : Nat) (f : Sq → Sq) : (s.modSq i f).outs = s.outs := by
  unfold State.modSq; split <;> rfl
@[simp] theorem State.modSq_fresh (i : Nat) (f : Sq → Sq) : (s.modSq i f).fresh = s.fresh := by
  unfold State.modSq; split <;> rfl
@[simp] theorem State.modSq_regs (i : Nat) (f : Sq → Sq) : (s.modSq i f).regs = s.regs := by
  unfold State.modSq; split <;> rfl
@[simp] theorem State.modSq_mem (i : Nat) (f : Sq → Sq) : (s.modSq i f).mem = s.mem := by
  unfold State.modSq; split <;> rfl
@[simp] theorem State.modSq_ecc (i : Nat) (f : Sq → Sq) : (s.modSq i f).ecc = s.ecc := by
  unfold State.modSq; split <;> rfl
@[simp] theorem State.modSq_rangeArmed (i : Nat) (f : Sq → Sq) : (s.modSq i f).rangeArmed = s.rangeArmed := by
  unfold State.modSq; split <;> rfl
@[simp] theorem State.modSq_nvm (i : Nat) (f : Sq → Sq) : (s.modSq i f).nvm = s.nvm := by
  unfold State.modSq; split <;> rfl
@[simp] theorem State.modSq_nvmEcc (i : Nat) (f : Sq → Sq) : (s.modSq i f).nvmEcc = s.nvmEcc := by
  unfold State.modSq; split <;> rfl
@[simp] theorem State.modSq_ports (i : Nat) (f : Sq → Sq) : (s.modSq i f).ports = s.ports := by
  unfold State.modSq; split <;> rfl
@[simp] theorem State.modSq_wards (i : Nat) (f : Sq → Sq) : (s.modSq i f).wards = s.wards := by
  unfold State.modSq; split <;> rfl
@[simp] theorem State.modSq_cmds (i : Nat) (f : Sq → Sq) : (s.modSq i f).cmds = s.cmds := by
  unfold State.modSq; split <;> rfl
@[simp] theorem State.modSq_fcp (i : Nat) (f : Sq → Sq) : (s.modSq i f).fcp = s.fcp := by
  unfold State.modSq; split <;> rfl
@[simp] theorem State.modSq_plan (i : Nat) (f : Sq → Sq) : (s.modSq i f).plan = s.plan := by
  unfold State.modSq; split <;> rfl
@[simp] theorem State.modSq_store (i : Nat) (f : Sq → Sq) : (s.modSq i f).store = s.store := by
  unfold State.modSq; split <;> rfl
@[simp] theorem State.modSq_jnl (i : Nat) (f : Sq → Sq) : (s.modSq i f).jnl = s.jnl := by
  unfold State.modSq; split <;> rfl
@[simp] theorem State.modSq_seqs (i : Nat) (f : Sq → Sq) : (s.modSq i f).seqs = s.seqs := by
  unfold State.modSq; split <;> rfl
@[simp] theorem State.modSq_vs (i : Nat) (f : Sq → Sq) : (s.modSq i f).vs = s.vs := by
  unfold State.modSq; split <;> rfl
@[simp] theorem State.modSq_chans (i : Nat) (f : Sq → Sq) : (s.modSq i f).chans = s.chans := by
  unfold State.modSq; split <;> rfl
@[simp] theorem State.modSq_cbs (i : Nat) (f : Sq → Sq) : (s.modSq i f).cbs = s.cbs := by
  unfold State.modSq; split <;> rfl
@[simp] theorem State.modSq_capq (i : Nat) (f : Sq → Sq) : (s.modSq i f).capq = s.capq := by
  unfold State.modSq; split <;> rfl
@[simp] theorem State.modSq_arms (i : Nat) (f : Sq → Sq) : (s.modSq i f).arms = s.arms := by
  unfold State.modSq; split <;> rfl
@[simp] theorem State.modSq_shut (i : Nat) (f : Sq → Sq) : (s.modSq i f).shut = s.shut := by
  unfold State.modSq; split <;> rfl
@[simp] theorem State.modSq_cores (i : Nat) (f : Sq → Sq) : (s.modSq i f).cores = s.cores := by
  unfold State.modSq; split <;> rfl
@[simp] theorem State.modSq_ctxs (i : Nat) (f : Sq → Sq) : (s.modSq i f).ctxs = s.ctxs := by
  unfold State.modSq; split <;> rfl
@[simp] theorem State.modSq_disp (i : Nat) (f : Sq → Sq) : (s.modSq i f).disp = s.disp := by
  unfold State.modSq; split <;> rfl
@[simp] theorem State.modSq_drcs (i : Nat) (f : Sq → Sq) : (s.modSq i f).drcs = s.drcs := by
  unfold State.modSq; split <;> rfl
@[simp] theorem State.modSq_lanes (i : Nat) (f : Sq → Sq) : (s.modSq i f).lanes = s.lanes := by
  unfold State.modSq; split <;> rfl
@[simp] theorem State.modSq_groups (i : Nat) (f : Sq → Sq) : (s.modSq i f).groups = s.groups := by
  unfold State.modSq; split <;> rfl
@[simp] theorem State.modSq_tb (i : Nat) (f : Sq → Sq) : (s.modSq i f).tb = s.tb := by
  unfold State.modSq; split <;> rfl
@[simp] theorem State.modSq_trigs (i : Nat) (f : Sq → Sq) : (s.modSq i f).trigs = s.trigs := by
  unfold State.modSq; split <;> rfl
@[simp] theorem State.modSq_tims (i : Nat) (f : Sq → Sq) : (s.modSq i f).tims = s.tims := by
  unfold State.modSq; split <;> rfl
@[simp] theorem State.modSq_conv (i : Nat) (f : Sq → Sq) : (s.modSq i f).conv = s.conv := by
  unfold State.modSq; split <;> rfl
@[simp] theorem State.modSq_thm (i : Nat) (f : Sq → Sq) : (s.modSq i f).thm = s.thm := by
  unfold State.modSq; split <;> rfl
@[simp] theorem State.modSq_cal (i : Nat) (f : Sq → Sq) : (s.modSq i f).cal = s.cal := by
  unfold State.modSq; split <;> rfl
@[simp] theorem State.modSq_flt (i : Nat) (f : Sq → Sq) : (s.modSq i f).flt = s.flt := by
  unfold State.modSq; split <;> rfl
@[simp] theorem State.modSq_ra (i : Nat) (f : Sq → Sq) : (s.modSq i f).ra = s.ra := by
  unfold State.modSq; split <;> rfl
@[simp] theorem State.modSq_raHeld (i : Nat) (f : Sq → Sq) : (s.modSq i f).raHeld = s.raHeld := by
  unfold State.modSq; split <;> rfl
@[simp] theorem State.modSq_twin (i : Nat) (f : Sq → Sq) : (s.modSq i f).twin = s.twin := by
  unfold State.modSq; split <;> rfl
@[simp] theorem State.modSq_units (i : Nat) (f : Sq → Sq) : (s.modSq i f).units = s.units := by
  unfold State.modSq; split <;> rfl
@[simp] theorem State.modSq_recs (i : Nat) (f : Sq → Sq) : (s.modSq i f).recs = s.recs := by
  unfold State.modSq; split <;> rfl
@[simp] theorem State.modSq_pwr (i : Nat) (f : Sq → Sq) : (s.modSq i f).pwr = s.pwr := by
  unfold State.modSq; split <;> rfl

/-! ### modVs -/

@[simp] theorem State.modVs_pending (i : Nat) (f : VsEng → VsEng) : (s.modVs i f).pending = s.pending := by
  unfold State.modVs; split <;> rfl
@[simp] theorem State.modVs_outs (i : Nat) (f : VsEng → VsEng) : (s.modVs i f).outs = s.outs := by
  unfold State.modVs; split <;> rfl
@[simp] theorem State.modVs_fresh (i : Nat) (f : VsEng → VsEng) : (s.modVs i f).fresh = s.fresh := by
  unfold State.modVs; split <;> rfl
@[simp] theorem State.modVs_regs (i : Nat) (f : VsEng → VsEng) : (s.modVs i f).regs = s.regs := by
  unfold State.modVs; split <;> rfl
@[simp] theorem State.modVs_mem (i : Nat) (f : VsEng → VsEng) : (s.modVs i f).mem = s.mem := by
  unfold State.modVs; split <;> rfl
@[simp] theorem State.modVs_ecc (i : Nat) (f : VsEng → VsEng) : (s.modVs i f).ecc = s.ecc := by
  unfold State.modVs; split <;> rfl
@[simp] theorem State.modVs_rangeArmed (i : Nat) (f : VsEng → VsEng) : (s.modVs i f).rangeArmed = s.rangeArmed := by
  unfold State.modVs; split <;> rfl
@[simp] theorem State.modVs_nvm (i : Nat) (f : VsEng → VsEng) : (s.modVs i f).nvm = s.nvm := by
  unfold State.modVs; split <;> rfl
@[simp] theorem State.modVs_nvmEcc (i : Nat) (f : VsEng → VsEng) : (s.modVs i f).nvmEcc = s.nvmEcc := by
  unfold State.modVs; split <;> rfl
@[simp] theorem State.modVs_ports (i : Nat) (f : VsEng → VsEng) : (s.modVs i f).ports = s.ports := by
  unfold State.modVs; split <;> rfl
@[simp] theorem State.modVs_wards (i : Nat) (f : VsEng → VsEng) : (s.modVs i f).wards = s.wards := by
  unfold State.modVs; split <;> rfl
@[simp] theorem State.modVs_cmds (i : Nat) (f : VsEng → VsEng) : (s.modVs i f).cmds = s.cmds := by
  unfold State.modVs; split <;> rfl
@[simp] theorem State.modVs_fcp (i : Nat) (f : VsEng → VsEng) : (s.modVs i f).fcp = s.fcp := by
  unfold State.modVs; split <;> rfl
@[simp] theorem State.modVs_plan (i : Nat) (f : VsEng → VsEng) : (s.modVs i f).plan = s.plan := by
  unfold State.modVs; split <;> rfl
@[simp] theorem State.modVs_store (i : Nat) (f : VsEng → VsEng) : (s.modVs i f).store = s.store := by
  unfold State.modVs; split <;> rfl
@[simp] theorem State.modVs_jnl (i : Nat) (f : VsEng → VsEng) : (s.modVs i f).jnl = s.jnl := by
  unfold State.modVs; split <;> rfl
@[simp] theorem State.modVs_seqs (i : Nat) (f : VsEng → VsEng) : (s.modVs i f).seqs = s.seqs := by
  unfold State.modVs; split <;> rfl
@[simp] theorem State.modVs_sqs (i : Nat) (f : VsEng → VsEng) : (s.modVs i f).sqs = s.sqs := by
  unfold State.modVs; split <;> rfl
@[simp] theorem State.modVs_chans (i : Nat) (f : VsEng → VsEng) : (s.modVs i f).chans = s.chans := by
  unfold State.modVs; split <;> rfl
@[simp] theorem State.modVs_cbs (i : Nat) (f : VsEng → VsEng) : (s.modVs i f).cbs = s.cbs := by
  unfold State.modVs; split <;> rfl
@[simp] theorem State.modVs_capq (i : Nat) (f : VsEng → VsEng) : (s.modVs i f).capq = s.capq := by
  unfold State.modVs; split <;> rfl
@[simp] theorem State.modVs_arms (i : Nat) (f : VsEng → VsEng) : (s.modVs i f).arms = s.arms := by
  unfold State.modVs; split <;> rfl
@[simp] theorem State.modVs_shut (i : Nat) (f : VsEng → VsEng) : (s.modVs i f).shut = s.shut := by
  unfold State.modVs; split <;> rfl
@[simp] theorem State.modVs_cores (i : Nat) (f : VsEng → VsEng) : (s.modVs i f).cores = s.cores := by
  unfold State.modVs; split <;> rfl
@[simp] theorem State.modVs_ctxs (i : Nat) (f : VsEng → VsEng) : (s.modVs i f).ctxs = s.ctxs := by
  unfold State.modVs; split <;> rfl
@[simp] theorem State.modVs_disp (i : Nat) (f : VsEng → VsEng) : (s.modVs i f).disp = s.disp := by
  unfold State.modVs; split <;> rfl
@[simp] theorem State.modVs_drcs (i : Nat) (f : VsEng → VsEng) : (s.modVs i f).drcs = s.drcs := by
  unfold State.modVs; split <;> rfl
@[simp] theorem State.modVs_lanes (i : Nat) (f : VsEng → VsEng) : (s.modVs i f).lanes = s.lanes := by
  unfold State.modVs; split <;> rfl
@[simp] theorem State.modVs_groups (i : Nat) (f : VsEng → VsEng) : (s.modVs i f).groups = s.groups := by
  unfold State.modVs; split <;> rfl
@[simp] theorem State.modVs_tb (i : Nat) (f : VsEng → VsEng) : (s.modVs i f).tb = s.tb := by
  unfold State.modVs; split <;> rfl
@[simp] theorem State.modVs_trigs (i : Nat) (f : VsEng → VsEng) : (s.modVs i f).trigs = s.trigs := by
  unfold State.modVs; split <;> rfl
@[simp] theorem State.modVs_tims (i : Nat) (f : VsEng → VsEng) : (s.modVs i f).tims = s.tims := by
  unfold State.modVs; split <;> rfl
@[simp] theorem State.modVs_conv (i : Nat) (f : VsEng → VsEng) : (s.modVs i f).conv = s.conv := by
  unfold State.modVs; split <;> rfl
@[simp] theorem State.modVs_thm (i : Nat) (f : VsEng → VsEng) : (s.modVs i f).thm = s.thm := by
  unfold State.modVs; split <;> rfl
@[simp] theorem State.modVs_cal (i : Nat) (f : VsEng → VsEng) : (s.modVs i f).cal = s.cal := by
  unfold State.modVs; split <;> rfl
@[simp] theorem State.modVs_flt (i : Nat) (f : VsEng → VsEng) : (s.modVs i f).flt = s.flt := by
  unfold State.modVs; split <;> rfl
@[simp] theorem State.modVs_ra (i : Nat) (f : VsEng → VsEng) : (s.modVs i f).ra = s.ra := by
  unfold State.modVs; split <;> rfl
@[simp] theorem State.modVs_raHeld (i : Nat) (f : VsEng → VsEng) : (s.modVs i f).raHeld = s.raHeld := by
  unfold State.modVs; split <;> rfl
@[simp] theorem State.modVs_twin (i : Nat) (f : VsEng → VsEng) : (s.modVs i f).twin = s.twin := by
  unfold State.modVs; split <;> rfl
@[simp] theorem State.modVs_units (i : Nat) (f : VsEng → VsEng) : (s.modVs i f).units = s.units := by
  unfold State.modVs; split <;> rfl
@[simp] theorem State.modVs_recs (i : Nat) (f : VsEng → VsEng) : (s.modVs i f).recs = s.recs := by
  unfold State.modVs; split <;> rfl
@[simp] theorem State.modVs_pwr (i : Nat) (f : VsEng → VsEng) : (s.modVs i f).pwr = s.pwr := by
  unfold State.modVs; split <;> rfl

/-! ### modCh -/

@[simp] theorem State.modCh_pending (i : Nat) (f : Chan → Chan) : (s.modCh i f).pending = s.pending := by
  unfold State.modCh; split <;> rfl
@[simp] theorem State.modCh_outs (i : Nat) (f : Chan → Chan) : (s.modCh i f).outs = s.outs := by
  unfold State.modCh; split <;> rfl
@[simp] theorem State.modCh_fresh (i : Nat) (f : Chan → Chan) : (s.modCh i f).fresh = s.fresh := by
  unfold State.modCh; split <;> rfl
@[simp] theorem State.modCh_regs (i : Nat) (f : Chan → Chan) : (s.modCh i f).regs = s.regs := by
  unfold State.modCh; split <;> rfl
@[simp] theorem State.modCh_mem (i : Nat) (f : Chan → Chan) : (s.modCh i f).mem = s.mem := by
  unfold State.modCh; split <;> rfl
@[simp] theorem State.modCh_ecc (i : Nat) (f : Chan → Chan) : (s.modCh i f).ecc = s.ecc := by
  unfold State.modCh; split <;> rfl
@[simp] theorem State.modCh_rangeArmed (i : Nat) (f : Chan → Chan) : (s.modCh i f).rangeArmed = s.rangeArmed := by
  unfold State.modCh; split <;> rfl
@[simp] theorem State.modCh_nvm (i : Nat) (f : Chan → Chan) : (s.modCh i f).nvm = s.nvm := by
  unfold State.modCh; split <;> rfl
@[simp] theorem State.modCh_nvmEcc (i : Nat) (f : Chan → Chan) : (s.modCh i f).nvmEcc = s.nvmEcc := by
  unfold State.modCh; split <;> rfl
@[simp] theorem State.modCh_ports (i : Nat) (f : Chan → Chan) : (s.modCh i f).ports = s.ports := by
  unfold State.modCh; split <;> rfl
@[simp] theorem State.modCh_wards (i : Nat) (f : Chan → Chan) : (s.modCh i f).wards = s.wards := by
  unfold State.modCh; split <;> rfl
@[simp] theorem State.modCh_cmds (i : Nat) (f : Chan → Chan) : (s.modCh i f).cmds = s.cmds := by
  unfold State.modCh; split <;> rfl
@[simp] theorem State.modCh_fcp (i : Nat) (f : Chan → Chan) : (s.modCh i f).fcp = s.fcp := by
  unfold State.modCh; split <;> rfl
@[simp] theorem State.modCh_plan (i : Nat) (f : Chan → Chan) : (s.modCh i f).plan = s.plan := by
  unfold State.modCh; split <;> rfl
@[simp] theorem State.modCh_store (i : Nat) (f : Chan → Chan) : (s.modCh i f).store = s.store := by
  unfold State.modCh; split <;> rfl
@[simp] theorem State.modCh_jnl (i : Nat) (f : Chan → Chan) : (s.modCh i f).jnl = s.jnl := by
  unfold State.modCh; split <;> rfl
@[simp] theorem State.modCh_seqs (i : Nat) (f : Chan → Chan) : (s.modCh i f).seqs = s.seqs := by
  unfold State.modCh; split <;> rfl
@[simp] theorem State.modCh_sqs (i : Nat) (f : Chan → Chan) : (s.modCh i f).sqs = s.sqs := by
  unfold State.modCh; split <;> rfl
@[simp] theorem State.modCh_vs (i : Nat) (f : Chan → Chan) : (s.modCh i f).vs = s.vs := by
  unfold State.modCh; split <;> rfl
@[simp] theorem State.modCh_cbs (i : Nat) (f : Chan → Chan) : (s.modCh i f).cbs = s.cbs := by
  unfold State.modCh; split <;> rfl
@[simp] theorem State.modCh_capq (i : Nat) (f : Chan → Chan) : (s.modCh i f).capq = s.capq := by
  unfold State.modCh; split <;> rfl
@[simp] theorem State.modCh_arms (i : Nat) (f : Chan → Chan) : (s.modCh i f).arms = s.arms := by
  unfold State.modCh; split <;> rfl
@[simp] theorem State.modCh_shut (i : Nat) (f : Chan → Chan) : (s.modCh i f).shut = s.shut := by
  unfold State.modCh; split <;> rfl
@[simp] theorem State.modCh_cores (i : Nat) (f : Chan → Chan) : (s.modCh i f).cores = s.cores := by
  unfold State.modCh; split <;> rfl
@[simp] theorem State.modCh_ctxs (i : Nat) (f : Chan → Chan) : (s.modCh i f).ctxs = s.ctxs := by
  unfold State.modCh; split <;> rfl
@[simp] theorem State.modCh_disp (i : Nat) (f : Chan → Chan) : (s.modCh i f).disp = s.disp := by
  unfold State.modCh; split <;> rfl
@[simp] theorem State.modCh_drcs (i : Nat) (f : Chan → Chan) : (s.modCh i f).drcs = s.drcs := by
  unfold State.modCh; split <;> rfl
@[simp] theorem State.modCh_lanes (i : Nat) (f : Chan → Chan) : (s.modCh i f).lanes = s.lanes := by
  unfold State.modCh; split <;> rfl
@[simp] theorem State.modCh_groups (i : Nat) (f : Chan → Chan) : (s.modCh i f).groups = s.groups := by
  unfold State.modCh; split <;> rfl
@[simp] theorem State.modCh_tb (i : Nat) (f : Chan → Chan) : (s.modCh i f).tb = s.tb := by
  unfold State.modCh; split <;> rfl
@[simp] theorem State.modCh_trigs (i : Nat) (f : Chan → Chan) : (s.modCh i f).trigs = s.trigs := by
  unfold State.modCh; split <;> rfl
@[simp] theorem State.modCh_tims (i : Nat) (f : Chan → Chan) : (s.modCh i f).tims = s.tims := by
  unfold State.modCh; split <;> rfl
@[simp] theorem State.modCh_conv (i : Nat) (f : Chan → Chan) : (s.modCh i f).conv = s.conv := by
  unfold State.modCh; split <;> rfl
@[simp] theorem State.modCh_thm (i : Nat) (f : Chan → Chan) : (s.modCh i f).thm = s.thm := by
  unfold State.modCh; split <;> rfl
@[simp] theorem State.modCh_cal (i : Nat) (f : Chan → Chan) : (s.modCh i f).cal = s.cal := by
  unfold State.modCh; split <;> rfl
@[simp] theorem State.modCh_flt (i : Nat) (f : Chan → Chan) : (s.modCh i f).flt = s.flt := by
  unfold State.modCh; split <;> rfl
@[simp] theorem State.modCh_ra (i : Nat) (f : Chan → Chan) : (s.modCh i f).ra = s.ra := by
  unfold State.modCh; split <;> rfl
@[simp] theorem State.modCh_raHeld (i : Nat) (f : Chan → Chan) : (s.modCh i f).raHeld = s.raHeld := by
  unfold State.modCh; split <;> rfl
@[simp] theorem State.modCh_twin (i : Nat) (f : Chan → Chan) : (s.modCh i f).twin = s.twin := by
  unfold State.modCh; split <;> rfl
@[simp] theorem State.modCh_units (i : Nat) (f : Chan → Chan) : (s.modCh i f).units = s.units := by
  unfold State.modCh; split <;> rfl
@[simp] theorem State.modCh_recs (i : Nat) (f : Chan → Chan) : (s.modCh i f).recs = s.recs := by
  unfold State.modCh; split <;> rfl
@[simp] theorem State.modCh_pwr (i : Nat) (f : Chan → Chan) : (s.modCh i f).pwr = s.pwr := by
  unfold State.modCh; split <;> rfl

/-! ### modCb -/

@[simp] theorem State.modCb_pending (i : Nat) (f : Cblk → Cblk) : (s.modCb i f).pending = s.pending := by
  unfold State.modCb; split <;> rfl
@[simp] theorem State.modCb_outs (i : Nat) (f : Cblk → Cblk) : (s.modCb i f).outs = s.outs := by
  unfold State.modCb; split <;> rfl
@[simp] theorem State.modCb_fresh (i : Nat) (f : Cblk → Cblk) : (s.modCb i f).fresh = s.fresh := by
  unfold State.modCb; split <;> rfl
@[simp] theorem State.modCb_regs (i : Nat) (f : Cblk → Cblk) : (s.modCb i f).regs = s.regs := by
  unfold State.modCb; split <;> rfl
@[simp] theorem State.modCb_mem (i : Nat) (f : Cblk → Cblk) : (s.modCb i f).mem = s.mem := by
  unfold State.modCb; split <;> rfl
@[simp] theorem State.modCb_ecc (i : Nat) (f : Cblk → Cblk) : (s.modCb i f).ecc = s.ecc := by
  unfold State.modCb; split <;> rfl
@[simp] theorem State.modCb_rangeArmed (i : Nat) (f : Cblk → Cblk) : (s.modCb i f).rangeArmed = s.rangeArmed := by
  unfold State.modCb; split <;> rfl
@[simp] theorem State.modCb_nvm (i : Nat) (f : Cblk → Cblk) : (s.modCb i f).nvm = s.nvm := by
  unfold State.modCb; split <;> rfl
@[simp] theorem State.modCb_nvmEcc (i : Nat) (f : Cblk → Cblk) : (s.modCb i f).nvmEcc = s.nvmEcc := by
  unfold State.modCb; split <;> rfl
@[simp] theorem State.modCb_ports (i : Nat) (f : Cblk → Cblk) : (s.modCb i f).ports = s.ports := by
  unfold State.modCb; split <;> rfl
@[simp] theorem State.modCb_wards (i : Nat) (f : Cblk → Cblk) : (s.modCb i f).wards = s.wards := by
  unfold State.modCb; split <;> rfl
@[simp] theorem State.modCb_cmds (i : Nat) (f : Cblk → Cblk) : (s.modCb i f).cmds = s.cmds := by
  unfold State.modCb; split <;> rfl
@[simp] theorem State.modCb_fcp (i : Nat) (f : Cblk → Cblk) : (s.modCb i f).fcp = s.fcp := by
  unfold State.modCb; split <;> rfl
@[simp] theorem State.modCb_plan (i : Nat) (f : Cblk → Cblk) : (s.modCb i f).plan = s.plan := by
  unfold State.modCb; split <;> rfl
@[simp] theorem State.modCb_store (i : Nat) (f : Cblk → Cblk) : (s.modCb i f).store = s.store := by
  unfold State.modCb; split <;> rfl
@[simp] theorem State.modCb_jnl (i : Nat) (f : Cblk → Cblk) : (s.modCb i f).jnl = s.jnl := by
  unfold State.modCb; split <;> rfl
@[simp] theorem State.modCb_seqs (i : Nat) (f : Cblk → Cblk) : (s.modCb i f).seqs = s.seqs := by
  unfold State.modCb; split <;> rfl
@[simp] theorem State.modCb_sqs (i : Nat) (f : Cblk → Cblk) : (s.modCb i f).sqs = s.sqs := by
  unfold State.modCb; split <;> rfl
@[simp] theorem State.modCb_vs (i : Nat) (f : Cblk → Cblk) : (s.modCb i f).vs = s.vs := by
  unfold State.modCb; split <;> rfl
@[simp] theorem State.modCb_chans (i : Nat) (f : Cblk → Cblk) : (s.modCb i f).chans = s.chans := by
  unfold State.modCb; split <;> rfl
@[simp] theorem State.modCb_capq (i : Nat) (f : Cblk → Cblk) : (s.modCb i f).capq = s.capq := by
  unfold State.modCb; split <;> rfl
@[simp] theorem State.modCb_arms (i : Nat) (f : Cblk → Cblk) : (s.modCb i f).arms = s.arms := by
  unfold State.modCb; split <;> rfl
@[simp] theorem State.modCb_shut (i : Nat) (f : Cblk → Cblk) : (s.modCb i f).shut = s.shut := by
  unfold State.modCb; split <;> rfl
@[simp] theorem State.modCb_cores (i : Nat) (f : Cblk → Cblk) : (s.modCb i f).cores = s.cores := by
  unfold State.modCb; split <;> rfl
@[simp] theorem State.modCb_ctxs (i : Nat) (f : Cblk → Cblk) : (s.modCb i f).ctxs = s.ctxs := by
  unfold State.modCb; split <;> rfl
@[simp] theorem State.modCb_disp (i : Nat) (f : Cblk → Cblk) : (s.modCb i f).disp = s.disp := by
  unfold State.modCb; split <;> rfl
@[simp] theorem State.modCb_drcs (i : Nat) (f : Cblk → Cblk) : (s.modCb i f).drcs = s.drcs := by
  unfold State.modCb; split <;> rfl
@[simp] theorem State.modCb_lanes (i : Nat) (f : Cblk → Cblk) : (s.modCb i f).lanes = s.lanes := by
  unfold State.modCb; split <;> rfl
@[simp] theorem State.modCb_groups (i : Nat) (f : Cblk → Cblk) : (s.modCb i f).groups = s.groups := by
  unfold State.modCb; split <;> rfl
@[simp] theorem State.modCb_tb (i : Nat) (f : Cblk → Cblk) : (s.modCb i f).tb = s.tb := by
  unfold State.modCb; split <;> rfl
@[simp] theorem State.modCb_trigs (i : Nat) (f : Cblk → Cblk) : (s.modCb i f).trigs = s.trigs := by
  unfold State.modCb; split <;> rfl
@[simp] theorem State.modCb_tims (i : Nat) (f : Cblk → Cblk) : (s.modCb i f).tims = s.tims := by
  unfold State.modCb; split <;> rfl
@[simp] theorem State.modCb_conv (i : Nat) (f : Cblk → Cblk) : (s.modCb i f).conv = s.conv := by
  unfold State.modCb; split <;> rfl
@[simp] theorem State.modCb_thm (i : Nat) (f : Cblk → Cblk) : (s.modCb i f).thm = s.thm := by
  unfold State.modCb; split <;> rfl
@[simp] theorem State.modCb_cal (i : Nat) (f : Cblk → Cblk) : (s.modCb i f).cal = s.cal := by
  unfold State.modCb; split <;> rfl
@[simp] theorem State.modCb_flt (i : Nat) (f : Cblk → Cblk) : (s.modCb i f).flt = s.flt := by
  unfold State.modCb; split <;> rfl
@[simp] theorem State.modCb_ra (i : Nat) (f : Cblk → Cblk) : (s.modCb i f).ra = s.ra := by
  unfold State.modCb; split <;> rfl
@[simp] theorem State.modCb_raHeld (i : Nat) (f : Cblk → Cblk) : (s.modCb i f).raHeld = s.raHeld := by
  unfold State.modCb; split <;> rfl
@[simp] theorem State.modCb_twin (i : Nat) (f : Cblk → Cblk) : (s.modCb i f).twin = s.twin := by
  unfold State.modCb; split <;> rfl
@[simp] theorem State.modCb_units (i : Nat) (f : Cblk → Cblk) : (s.modCb i f).units = s.units := by
  unfold State.modCb; split <;> rfl
@[simp] theorem State.modCb_recs (i : Nat) (f : Cblk → Cblk) : (s.modCb i f).recs = s.recs := by
  unfold State.modCb; split <;> rfl
@[simp] theorem State.modCb_pwr (i : Nat) (f : Cblk → Cblk) : (s.modCb i f).pwr = s.pwr := by
  unfold State.modCb; split <;> rfl

/-! ### modArm -/

@[simp] theorem State.modArm_pending (i : Nat) (f : CapArm → CapArm) : (s.modArm i f).pending = s.pending := by
  unfold State.modArm; split <;> rfl
@[simp] theorem State.modArm_outs (i : Nat) (f : CapArm → CapArm) : (s.modArm i f).outs = s.outs := by
  unfold State.modArm; split <;> rfl
@[simp] theorem State.modArm_fresh (i : Nat) (f : CapArm → CapArm) : (s.modArm i f).fresh = s.fresh := by
  unfold State.modArm; split <;> rfl
@[simp] theorem State.modArm_regs (i : Nat) (f : CapArm → CapArm) : (s.modArm i f).regs = s.regs := by
  unfold State.modArm; split <;> rfl
@[simp] theorem State.modArm_mem (i : Nat) (f : CapArm → CapArm) : (s.modArm i f).mem = s.mem := by
  unfold State.modArm; split <;> rfl
@[simp] theorem State.modArm_ecc (i : Nat) (f : CapArm → CapArm) : (s.modArm i f).ecc = s.ecc := by
  unfold State.modArm; split <;> rfl
@[simp] theorem State.modArm_rangeArmed (i : Nat) (f : CapArm → CapArm) : (s.modArm i f).rangeArmed = s.rangeArmed := by
  unfold State.modArm; split <;> rfl
@[simp] theorem State.modArm_nvm (i : Nat) (f : CapArm → CapArm) : (s.modArm i f).nvm = s.nvm := by
  unfold State.modArm; split <;> rfl
@[simp] theorem State.modArm_nvmEcc (i : Nat) (f : CapArm → CapArm) : (s.modArm i f).nvmEcc = s.nvmEcc := by
  unfold State.modArm; split <;> rfl
@[simp] theorem State.modArm_ports (i : Nat) (f : CapArm → CapArm) : (s.modArm i f).ports = s.ports := by
  unfold State.modArm; split <;> rfl
@[simp] theorem State.modArm_wards (i : Nat) (f : CapArm → CapArm) : (s.modArm i f).wards = s.wards := by
  unfold State.modArm; split <;> rfl
@[simp] theorem State.modArm_cmds (i : Nat) (f : CapArm → CapArm) : (s.modArm i f).cmds = s.cmds := by
  unfold State.modArm; split <;> rfl
@[simp] theorem State.modArm_fcp (i : Nat) (f : CapArm → CapArm) : (s.modArm i f).fcp = s.fcp := by
  unfold State.modArm; split <;> rfl
@[simp] theorem State.modArm_plan (i : Nat) (f : CapArm → CapArm) : (s.modArm i f).plan = s.plan := by
  unfold State.modArm; split <;> rfl
@[simp] theorem State.modArm_store (i : Nat) (f : CapArm → CapArm) : (s.modArm i f).store = s.store := by
  unfold State.modArm; split <;> rfl
@[simp] theorem State.modArm_jnl (i : Nat) (f : CapArm → CapArm) : (s.modArm i f).jnl = s.jnl := by
  unfold State.modArm; split <;> rfl
@[simp] theorem State.modArm_seqs (i : Nat) (f : CapArm → CapArm) : (s.modArm i f).seqs = s.seqs := by
  unfold State.modArm; split <;> rfl
@[simp] theorem State.modArm_sqs (i : Nat) (f : CapArm → CapArm) : (s.modArm i f).sqs = s.sqs := by
  unfold State.modArm; split <;> rfl
@[simp] theorem State.modArm_vs (i : Nat) (f : CapArm → CapArm) : (s.modArm i f).vs = s.vs := by
  unfold State.modArm; split <;> rfl
@[simp] theorem State.modArm_chans (i : Nat) (f : CapArm → CapArm) : (s.modArm i f).chans = s.chans := by
  unfold State.modArm; split <;> rfl
@[simp] theorem State.modArm_cbs (i : Nat) (f : CapArm → CapArm) : (s.modArm i f).cbs = s.cbs := by
  unfold State.modArm; split <;> rfl
@[simp] theorem State.modArm_capq (i : Nat) (f : CapArm → CapArm) : (s.modArm i f).capq = s.capq := by
  unfold State.modArm; split <;> rfl
@[simp] theorem State.modArm_shut (i : Nat) (f : CapArm → CapArm) : (s.modArm i f).shut = s.shut := by
  unfold State.modArm; split <;> rfl
@[simp] theorem State.modArm_cores (i : Nat) (f : CapArm → CapArm) : (s.modArm i f).cores = s.cores := by
  unfold State.modArm; split <;> rfl
@[simp] theorem State.modArm_ctxs (i : Nat) (f : CapArm → CapArm) : (s.modArm i f).ctxs = s.ctxs := by
  unfold State.modArm; split <;> rfl
@[simp] theorem State.modArm_disp (i : Nat) (f : CapArm → CapArm) : (s.modArm i f).disp = s.disp := by
  unfold State.modArm; split <;> rfl
@[simp] theorem State.modArm_drcs (i : Nat) (f : CapArm → CapArm) : (s.modArm i f).drcs = s.drcs := by
  unfold State.modArm; split <;> rfl
@[simp] theorem State.modArm_lanes (i : Nat) (f : CapArm → CapArm) : (s.modArm i f).lanes = s.lanes := by
  unfold State.modArm; split <;> rfl
@[simp] theorem State.modArm_groups (i : Nat) (f : CapArm → CapArm) : (s.modArm i f).groups = s.groups := by
  unfold State.modArm; split <;> rfl
@[simp] theorem State.modArm_tb (i : Nat) (f : CapArm → CapArm) : (s.modArm i f).tb = s.tb := by
  unfold State.modArm; split <;> rfl
@[simp] theorem State.modArm_trigs (i : Nat) (f : CapArm → CapArm) : (s.modArm i f).trigs = s.trigs := by
  unfold State.modArm; split <;> rfl
@[simp] theorem State.modArm_tims (i : Nat) (f : CapArm → CapArm) : (s.modArm i f).tims = s.tims := by
  unfold State.modArm; split <;> rfl
@[simp] theorem State.modArm_conv (i : Nat) (f : CapArm → CapArm) : (s.modArm i f).conv = s.conv := by
  unfold State.modArm; split <;> rfl
@[simp] theorem State.modArm_thm (i : Nat) (f : CapArm → CapArm) : (s.modArm i f).thm = s.thm := by
  unfold State.modArm; split <;> rfl
@[simp] theorem State.modArm_cal (i : Nat) (f : CapArm → CapArm) : (s.modArm i f).cal = s.cal := by
  unfold State.modArm; split <;> rfl
@[simp] theorem State.modArm_flt (i : Nat) (f : CapArm → CapArm) : (s.modArm i f).flt = s.flt := by
  unfold State.modArm; split <;> rfl
@[simp] theorem State.modArm_ra (i : Nat) (f : CapArm → CapArm) : (s.modArm i f).ra = s.ra := by
  unfold State.modArm; split <;> rfl
@[simp] theorem State.modArm_raHeld (i : Nat) (f : CapArm → CapArm) : (s.modArm i f).raHeld = s.raHeld := by
  unfold State.modArm; split <;> rfl
@[simp] theorem State.modArm_twin (i : Nat) (f : CapArm → CapArm) : (s.modArm i f).twin = s.twin := by
  unfold State.modArm; split <;> rfl
@[simp] theorem State.modArm_units (i : Nat) (f : CapArm → CapArm) : (s.modArm i f).units = s.units := by
  unfold State.modArm; split <;> rfl
@[simp] theorem State.modArm_recs (i : Nat) (f : CapArm → CapArm) : (s.modArm i f).recs = s.recs := by
  unfold State.modArm; split <;> rfl
@[simp] theorem State.modArm_pwr (i : Nat) (f : CapArm → CapArm) : (s.modArm i f).pwr = s.pwr := by
  unfold State.modArm; split <;> rfl

/-! ### modCore -/

@[simp] theorem State.modCore_pending (i : Nat) (f : Core → Core) : (s.modCore i f).pending = s.pending := by
  unfold State.modCore; split <;> rfl
@[simp] theorem State.modCore_outs (i : Nat) (f : Core → Core) : (s.modCore i f).outs = s.outs := by
  unfold State.modCore; split <;> rfl
@[simp] theorem State.modCore_fresh (i : Nat) (f : Core → Core) : (s.modCore i f).fresh = s.fresh := by
  unfold State.modCore; split <;> rfl
@[simp] theorem State.modCore_regs (i : Nat) (f : Core → Core) : (s.modCore i f).regs = s.regs := by
  unfold State.modCore; split <;> rfl
@[simp] theorem State.modCore_mem (i : Nat) (f : Core → Core) : (s.modCore i f).mem = s.mem := by
  unfold State.modCore; split <;> rfl
@[simp] theorem State.modCore_ecc (i : Nat) (f : Core → Core) : (s.modCore i f).ecc = s.ecc := by
  unfold State.modCore; split <;> rfl
@[simp] theorem State.modCore_rangeArmed (i : Nat) (f : Core → Core) : (s.modCore i f).rangeArmed = s.rangeArmed := by
  unfold State.modCore; split <;> rfl
@[simp] theorem State.modCore_nvm (i : Nat) (f : Core → Core) : (s.modCore i f).nvm = s.nvm := by
  unfold State.modCore; split <;> rfl
@[simp] theorem State.modCore_nvmEcc (i : Nat) (f : Core → Core) : (s.modCore i f).nvmEcc = s.nvmEcc := by
  unfold State.modCore; split <;> rfl
@[simp] theorem State.modCore_ports (i : Nat) (f : Core → Core) : (s.modCore i f).ports = s.ports := by
  unfold State.modCore; split <;> rfl
@[simp] theorem State.modCore_wards (i : Nat) (f : Core → Core) : (s.modCore i f).wards = s.wards := by
  unfold State.modCore; split <;> rfl
@[simp] theorem State.modCore_cmds (i : Nat) (f : Core → Core) : (s.modCore i f).cmds = s.cmds := by
  unfold State.modCore; split <;> rfl
@[simp] theorem State.modCore_fcp (i : Nat) (f : Core → Core) : (s.modCore i f).fcp = s.fcp := by
  unfold State.modCore; split <;> rfl
@[simp] theorem State.modCore_plan (i : Nat) (f : Core → Core) : (s.modCore i f).plan = s.plan := by
  unfold State.modCore; split <;> rfl
@[simp] theorem State.modCore_store (i : Nat) (f : Core → Core) : (s.modCore i f).store = s.store := by
  unfold State.modCore; split <;> rfl
@[simp] theorem State.modCore_jnl (i : Nat) (f : Core → Core) : (s.modCore i f).jnl = s.jnl := by
  unfold State.modCore; split <;> rfl
@[simp] theorem State.modCore_seqs (i : Nat) (f : Core → Core) : (s.modCore i f).seqs = s.seqs := by
  unfold State.modCore; split <;> rfl
@[simp] theorem State.modCore_sqs (i : Nat) (f : Core → Core) : (s.modCore i f).sqs = s.sqs := by
  unfold State.modCore; split <;> rfl
@[simp] theorem State.modCore_vs (i : Nat) (f : Core → Core) : (s.modCore i f).vs = s.vs := by
  unfold State.modCore; split <;> rfl
@[simp] theorem State.modCore_chans (i : Nat) (f : Core → Core) : (s.modCore i f).chans = s.chans := by
  unfold State.modCore; split <;> rfl
@[simp] theorem State.modCore_cbs (i : Nat) (f : Core → Core) : (s.modCore i f).cbs = s.cbs := by
  unfold State.modCore; split <;> rfl
@[simp] theorem State.modCore_capq (i : Nat) (f : Core → Core) : (s.modCore i f).capq = s.capq := by
  unfold State.modCore; split <;> rfl
@[simp] theorem State.modCore_arms (i : Nat) (f : Core → Core) : (s.modCore i f).arms = s.arms := by
  unfold State.modCore; split <;> rfl
@[simp] theorem State.modCore_shut (i : Nat) (f : Core → Core) : (s.modCore i f).shut = s.shut := by
  unfold State.modCore; split <;> rfl
@[simp] theorem State.modCore_ctxs (i : Nat) (f : Core → Core) : (s.modCore i f).ctxs = s.ctxs := by
  unfold State.modCore; split <;> rfl
@[simp] theorem State.modCore_disp (i : Nat) (f : Core → Core) : (s.modCore i f).disp = s.disp := by
  unfold State.modCore; split <;> rfl
@[simp] theorem State.modCore_drcs (i : Nat) (f : Core → Core) : (s.modCore i f).drcs = s.drcs := by
  unfold State.modCore; split <;> rfl
@[simp] theorem State.modCore_lanes (i : Nat) (f : Core → Core) : (s.modCore i f).lanes = s.lanes := by
  unfold State.modCore; split <;> rfl
@[simp] theorem State.modCore_groups (i : Nat) (f : Core → Core) : (s.modCore i f).groups = s.groups := by
  unfold State.modCore; split <;> rfl
@[simp] theorem State.modCore_tb (i : Nat) (f : Core → Core) : (s.modCore i f).tb = s.tb := by
  unfold State.modCore; split <;> rfl
@[simp] theorem State.modCore_trigs (i : Nat) (f : Core → Core) : (s.modCore i f).trigs = s.trigs := by
  unfold State.modCore; split <;> rfl
@[simp] theorem State.modCore_tims (i : Nat) (f : Core → Core) : (s.modCore i f).tims = s.tims := by
  unfold State.modCore; split <;> rfl
@[simp] theorem State.modCore_conv (i : Nat) (f : Core → Core) : (s.modCore i f).conv = s.conv := by
  unfold State.modCore; split <;> rfl
@[simp] theorem State.modCore_thm (i : Nat) (f : Core → Core) : (s.modCore i f).thm = s.thm := by
  unfold State.modCore; split <;> rfl
@[simp] theorem State.modCore_cal (i : Nat) (f : Core → Core) : (s.modCore i f).cal = s.cal := by
  unfold State.modCore; split <;> rfl
@[simp] theorem State.modCore_flt (i : Nat) (f : Core → Core) : (s.modCore i f).flt = s.flt := by
  unfold State.modCore; split <;> rfl
@[simp] theorem State.modCore_ra (i : Nat) (f : Core → Core) : (s.modCore i f).ra = s.ra := by
  unfold State.modCore; split <;> rfl
@[simp] theorem State.modCore_raHeld (i : Nat) (f : Core → Core) : (s.modCore i f).raHeld = s.raHeld := by
  unfold State.modCore; split <;> rfl
@[simp] theorem State.modCore_twin (i : Nat) (f : Core → Core) : (s.modCore i f).twin = s.twin := by
  unfold State.modCore; split <;> rfl
@[simp] theorem State.modCore_units (i : Nat) (f : Core → Core) : (s.modCore i f).units = s.units := by
  unfold State.modCore; split <;> rfl
@[simp] theorem State.modCore_recs (i : Nat) (f : Core → Core) : (s.modCore i f).recs = s.recs := by
  unfold State.modCore; split <;> rfl
@[simp] theorem State.modCore_pwr (i : Nat) (f : Core → Core) : (s.modCore i f).pwr = s.pwr := by
  unfold State.modCore; split <;> rfl

/-! ### modDrc -/

@[simp] theorem State.modDrc_pending (i : Nat) (f : Drc → Drc) : (s.modDrc i f).pending = s.pending := by
  unfold State.modDrc; split <;> rfl
@[simp] theorem State.modDrc_outs (i : Nat) (f : Drc → Drc) : (s.modDrc i f).outs = s.outs := by
  unfold State.modDrc; split <;> rfl
@[simp] theorem State.modDrc_fresh (i : Nat) (f : Drc → Drc) : (s.modDrc i f).fresh = s.fresh := by
  unfold State.modDrc; split <;> rfl
@[simp] theorem State.modDrc_regs (i : Nat) (f : Drc → Drc) : (s.modDrc i f).regs = s.regs := by
  unfold State.modDrc; split <;> rfl
@[simp] theorem State.modDrc_mem (i : Nat) (f : Drc → Drc) : (s.modDrc i f).mem = s.mem := by
  unfold State.modDrc; split <;> rfl
@[simp] theorem State.modDrc_ecc (i : Nat) (f : Drc → Drc) : (s.modDrc i f).ecc = s.ecc := by
  unfold State.modDrc; split <;> rfl
@[simp] theorem State.modDrc_rangeArmed (i : Nat) (f : Drc → Drc) : (s.modDrc i f).rangeArmed = s.rangeArmed := by
  unfold State.modDrc; split <;> rfl
@[simp] theorem State.modDrc_nvm (i : Nat) (f : Drc → Drc) : (s.modDrc i f).nvm = s.nvm := by
  unfold State.modDrc; split <;> rfl
@[simp] theorem State.modDrc_nvmEcc (i : Nat) (f : Drc → Drc) : (s.modDrc i f).nvmEcc = s.nvmEcc := by
  unfold State.modDrc; split <;> rfl
@[simp] theorem State.modDrc_ports (i : Nat) (f : Drc → Drc) : (s.modDrc i f).ports = s.ports := by
  unfold State.modDrc; split <;> rfl
@[simp] theorem State.modDrc_wards (i : Nat) (f : Drc → Drc) : (s.modDrc i f).wards = s.wards := by
  unfold State.modDrc; split <;> rfl
@[simp] theorem State.modDrc_cmds (i : Nat) (f : Drc → Drc) : (s.modDrc i f).cmds = s.cmds := by
  unfold State.modDrc; split <;> rfl
@[simp] theorem State.modDrc_fcp (i : Nat) (f : Drc → Drc) : (s.modDrc i f).fcp = s.fcp := by
  unfold State.modDrc; split <;> rfl
@[simp] theorem State.modDrc_plan (i : Nat) (f : Drc → Drc) : (s.modDrc i f).plan = s.plan := by
  unfold State.modDrc; split <;> rfl
@[simp] theorem State.modDrc_store (i : Nat) (f : Drc → Drc) : (s.modDrc i f).store = s.store := by
  unfold State.modDrc; split <;> rfl
@[simp] theorem State.modDrc_jnl (i : Nat) (f : Drc → Drc) : (s.modDrc i f).jnl = s.jnl := by
  unfold State.modDrc; split <;> rfl
@[simp] theorem State.modDrc_seqs (i : Nat) (f : Drc → Drc) : (s.modDrc i f).seqs = s.seqs := by
  unfold State.modDrc; split <;> rfl
@[simp] theorem State.modDrc_sqs (i : Nat) (f : Drc → Drc) : (s.modDrc i f).sqs = s.sqs := by
  unfold State.modDrc; split <;> rfl
@[simp] theorem State.modDrc_vs (i : Nat) (f : Drc → Drc) : (s.modDrc i f).vs = s.vs := by
  unfold State.modDrc; split <;> rfl
@[simp] theorem State.modDrc_chans (i : Nat) (f : Drc → Drc) : (s.modDrc i f).chans = s.chans := by
  unfold State.modDrc; split <;> rfl
@[simp] theorem State.modDrc_cbs (i : Nat) (f : Drc → Drc) : (s.modDrc i f).cbs = s.cbs := by
  unfold State.modDrc; split <;> rfl
@[simp] theorem State.modDrc_capq (i : Nat) (f : Drc → Drc) : (s.modDrc i f).capq = s.capq := by
  unfold State.modDrc; split <;> rfl
@[simp] theorem State.modDrc_arms (i : Nat) (f : Drc → Drc) : (s.modDrc i f).arms = s.arms := by
  unfold State.modDrc; split <;> rfl
@[simp] theorem State.modDrc_shut (i : Nat) (f : Drc → Drc) : (s.modDrc i f).shut = s.shut := by
  unfold State.modDrc; split <;> rfl
@[simp] theorem State.modDrc_cores (i : Nat) (f : Drc → Drc) : (s.modDrc i f).cores = s.cores := by
  unfold State.modDrc; split <;> rfl
@[simp] theorem State.modDrc_ctxs (i : Nat) (f : Drc → Drc) : (s.modDrc i f).ctxs = s.ctxs := by
  unfold State.modDrc; split <;> rfl
@[simp] theorem State.modDrc_disp (i : Nat) (f : Drc → Drc) : (s.modDrc i f).disp = s.disp := by
  unfold State.modDrc; split <;> rfl
@[simp] theorem State.modDrc_lanes (i : Nat) (f : Drc → Drc) : (s.modDrc i f).lanes = s.lanes := by
  unfold State.modDrc; split <;> rfl
@[simp] theorem State.modDrc_groups (i : Nat) (f : Drc → Drc) : (s.modDrc i f).groups = s.groups := by
  unfold State.modDrc; split <;> rfl
@[simp] theorem State.modDrc_tb (i : Nat) (f : Drc → Drc) : (s.modDrc i f).tb = s.tb := by
  unfold State.modDrc; split <;> rfl
@[simp] theorem State.modDrc_trigs (i : Nat) (f : Drc → Drc) : (s.modDrc i f).trigs = s.trigs := by
  unfold State.modDrc; split <;> rfl
@[simp] theorem State.modDrc_tims (i : Nat) (f : Drc → Drc) : (s.modDrc i f).tims = s.tims := by
  unfold State.modDrc; split <;> rfl
@[simp] theorem State.modDrc_conv (i : Nat) (f : Drc → Drc) : (s.modDrc i f).conv = s.conv := by
  unfold State.modDrc; split <;> rfl
@[simp] theorem State.modDrc_thm (i : Nat) (f : Drc → Drc) : (s.modDrc i f).thm = s.thm := by
  unfold State.modDrc; split <;> rfl
@[simp] theorem State.modDrc_cal (i : Nat) (f : Drc → Drc) : (s.modDrc i f).cal = s.cal := by
  unfold State.modDrc; split <;> rfl
@[simp] theorem State.modDrc_flt (i : Nat) (f : Drc → Drc) : (s.modDrc i f).flt = s.flt := by
  unfold State.modDrc; split <;> rfl
@[simp] theorem State.modDrc_ra (i : Nat) (f : Drc → Drc) : (s.modDrc i f).ra = s.ra := by
  unfold State.modDrc; split <;> rfl
@[simp] theorem State.modDrc_raHeld (i : Nat) (f : Drc → Drc) : (s.modDrc i f).raHeld = s.raHeld := by
  unfold State.modDrc; split <;> rfl
@[simp] theorem State.modDrc_twin (i : Nat) (f : Drc → Drc) : (s.modDrc i f).twin = s.twin := by
  unfold State.modDrc; split <;> rfl
@[simp] theorem State.modDrc_units (i : Nat) (f : Drc → Drc) : (s.modDrc i f).units = s.units := by
  unfold State.modDrc; split <;> rfl
@[simp] theorem State.modDrc_recs (i : Nat) (f : Drc → Drc) : (s.modDrc i f).recs = s.recs := by
  unfold State.modDrc; split <;> rfl
@[simp] theorem State.modDrc_pwr (i : Nat) (f : Drc → Drc) : (s.modDrc i f).pwr = s.pwr := by
  unfold State.modDrc; split <;> rfl

/-! ### modLane -/

@[simp] theorem State.modLane_pending (i : Nat) (f : Lane → Lane) : (s.modLane i f).pending = s.pending := by
  unfold State.modLane; split <;> rfl
@[simp] theorem State.modLane_outs (i : Nat) (f : Lane → Lane) : (s.modLane i f).outs = s.outs := by
  unfold State.modLane; split <;> rfl
@[simp] theorem State.modLane_fresh (i : Nat) (f : Lane → Lane) : (s.modLane i f).fresh = s.fresh := by
  unfold State.modLane; split <;> rfl
@[simp] theorem State.modLane_regs (i : Nat) (f : Lane → Lane) : (s.modLane i f).regs = s.regs := by
  unfold State.modLane; split <;> rfl
@[simp] theorem State.modLane_mem (i : Nat) (f : Lane → Lane) : (s.modLane i f).mem = s.mem := by
  unfold State.modLane; split <;> rfl
@[simp] theorem State.modLane_ecc (i : Nat) (f : Lane → Lane) : (s.modLane i f).ecc = s.ecc := by
  unfold State.modLane; split <;> rfl
@[simp] theorem State.modLane_rangeArmed (i : Nat) (f : Lane → Lane) : (s.modLane i f).rangeArmed = s.rangeArmed := by
  unfold State.modLane; split <;> rfl
@[simp] theorem State.modLane_nvm (i : Nat) (f : Lane → Lane) : (s.modLane i f).nvm = s.nvm := by
  unfold State.modLane; split <;> rfl
@[simp] theorem State.modLane_nvmEcc (i : Nat) (f : Lane → Lane) : (s.modLane i f).nvmEcc = s.nvmEcc := by
  unfold State.modLane; split <;> rfl
@[simp] theorem State.modLane_ports (i : Nat) (f : Lane → Lane) : (s.modLane i f).ports = s.ports := by
  unfold State.modLane; split <;> rfl
@[simp] theorem State.modLane_wards (i : Nat) (f : Lane → Lane) : (s.modLane i f).wards = s.wards := by
  unfold State.modLane; split <;> rfl
@[simp] theorem State.modLane_cmds (i : Nat) (f : Lane → Lane) : (s.modLane i f).cmds = s.cmds := by
  unfold State.modLane; split <;> rfl
@[simp] theorem State.modLane_fcp (i : Nat) (f : Lane → Lane) : (s.modLane i f).fcp = s.fcp := by
  unfold State.modLane; split <;> rfl
@[simp] theorem State.modLane_plan (i : Nat) (f : Lane → Lane) : (s.modLane i f).plan = s.plan := by
  unfold State.modLane; split <;> rfl
@[simp] theorem State.modLane_store (i : Nat) (f : Lane → Lane) : (s.modLane i f).store = s.store := by
  unfold State.modLane; split <;> rfl
@[simp] theorem State.modLane_jnl (i : Nat) (f : Lane → Lane) : (s.modLane i f).jnl = s.jnl := by
  unfold State.modLane; split <;> rfl
@[simp] theorem State.modLane_seqs (i : Nat) (f : Lane → Lane) : (s.modLane i f).seqs = s.seqs := by
  unfold State.modLane; split <;> rfl
@[simp] theorem State.modLane_sqs (i : Nat) (f : Lane → Lane) : (s.modLane i f).sqs = s.sqs := by
  unfold State.modLane; split <;> rfl
@[simp] theorem State.modLane_vs (i : Nat) (f : Lane → Lane) : (s.modLane i f).vs = s.vs := by
  unfold State.modLane; split <;> rfl
@[simp] theorem State.modLane_chans (i : Nat) (f : Lane → Lane) : (s.modLane i f).chans = s.chans := by
  unfold State.modLane; split <;> rfl
@[simp] theorem State.modLane_cbs (i : Nat) (f : Lane → Lane) : (s.modLane i f).cbs = s.cbs := by
  unfold State.modLane; split <;> rfl
@[simp] theorem State.modLane_capq (i : Nat) (f : Lane → Lane) : (s.modLane i f).capq = s.capq := by
  unfold State.modLane; split <;> rfl
@[simp] theorem State.modLane_arms (i : Nat) (f : Lane → Lane) : (s.modLane i f).arms = s.arms := by
  unfold State.modLane; split <;> rfl
@[simp] theorem State.modLane_shut (i : Nat) (f : Lane → Lane) : (s.modLane i f).shut = s.shut := by
  unfold State.modLane; split <;> rfl
@[simp] theorem State.modLane_cores (i : Nat) (f : Lane → Lane) : (s.modLane i f).cores = s.cores := by
  unfold State.modLane; split <;> rfl
@[simp] theorem State.modLane_ctxs (i : Nat) (f : Lane → Lane) : (s.modLane i f).ctxs = s.ctxs := by
  unfold State.modLane; split <;> rfl
@[simp] theorem State.modLane_disp (i : Nat) (f : Lane → Lane) : (s.modLane i f).disp = s.disp := by
  unfold State.modLane; split <;> rfl
@[simp] theorem State.modLane_drcs (i : Nat) (f : Lane → Lane) : (s.modLane i f).drcs = s.drcs := by
  unfold State.modLane; split <;> rfl
@[simp] theorem State.modLane_groups (i : Nat) (f : Lane → Lane) : (s.modLane i f).groups = s.groups := by
  unfold State.modLane; split <;> rfl
@[simp] theorem State.modLane_tb (i : Nat) (f : Lane → Lane) : (s.modLane i f).tb = s.tb := by
  unfold State.modLane; split <;> rfl
@[simp] theorem State.modLane_trigs (i : Nat) (f : Lane → Lane) : (s.modLane i f).trigs = s.trigs := by
  unfold State.modLane; split <;> rfl
@[simp] theorem State.modLane_tims (i : Nat) (f : Lane → Lane) : (s.modLane i f).tims = s.tims := by
  unfold State.modLane; split <;> rfl
@[simp] theorem State.modLane_conv (i : Nat) (f : Lane → Lane) : (s.modLane i f).conv = s.conv := by
  unfold State.modLane; split <;> rfl
@[simp] theorem State.modLane_thm (i : Nat) (f : Lane → Lane) : (s.modLane i f).thm = s.thm := by
  unfold State.modLane; split <;> rfl
@[simp] theorem State.modLane_cal (i : Nat) (f : Lane → Lane) : (s.modLane i f).cal = s.cal := by
  unfold State.modLane; split <;> rfl
@[simp] theorem State.modLane_flt (i : Nat) (f : Lane → Lane) : (s.modLane i f).flt = s.flt := by
  unfold State.modLane; split <;> rfl
@[simp] theorem State.modLane_ra (i : Nat) (f : Lane → Lane) : (s.modLane i f).ra = s.ra := by
  unfold State.modLane; split <;> rfl
@[simp] theorem State.modLane_raHeld (i : Nat) (f : Lane → Lane) : (s.modLane i f).raHeld = s.raHeld := by
  unfold State.modLane; split <;> rfl
@[simp] theorem State.modLane_twin (i : Nat) (f : Lane → Lane) : (s.modLane i f).twin = s.twin := by
  unfold State.modLane; split <;> rfl
@[simp] theorem State.modLane_units (i : Nat) (f : Lane → Lane) : (s.modLane i f).units = s.units := by
  unfold State.modLane; split <;> rfl
@[simp] theorem State.modLane_recs (i : Nat) (f : Lane → Lane) : (s.modLane i f).recs = s.recs := by
  unfold State.modLane; split <;> rfl
@[simp] theorem State.modLane_pwr (i : Nat) (f : Lane → Lane) : (s.modLane i f).pwr = s.pwr := by
  unfold State.modLane; split <;> rfl

/-! ### modGrp -/

@[simp] theorem State.modGrp_pending (i : Nat) (f : Group → Group) : (s.modGrp i f).pending = s.pending := by
  unfold State.modGrp; split <;> rfl
@[simp] theorem State.modGrp_outs (i : Nat) (f : Group → Group) : (s.modGrp i f).outs = s.outs := by
  unfold State.modGrp; split <;> rfl
@[simp] theorem State.modGrp_fresh (i : Nat) (f : Group → Group) : (s.modGrp i f).fresh = s.fresh := by
  unfold State.modGrp; split <;> rfl
@[simp] theorem State.modGrp_regs (i : Nat) (f : Group → Group) : (s.modGrp i f).regs = s.regs := by
  unfold State.modGrp; split <;> rfl
@[simp] theorem State.modGrp_mem (i : Nat) (f : Group → Group) : (s.modGrp i f).mem = s.mem := by
  unfold State.modGrp; split <;> rfl
@[simp] theorem State.modGrp_ecc (i : Nat) (f : Group → Group) : (s.modGrp i f).ecc = s.ecc := by
  unfold State.modGrp; split <;> rfl
@[simp] theorem State.modGrp_rangeArmed (i : Nat) (f : Group → Group) : (s.modGrp i f).rangeArmed = s.rangeArmed := by
  unfold State.modGrp; split <;> rfl
@[simp] theorem State.modGrp_nvm (i : Nat) (f : Group → Group) : (s.modGrp i f).nvm = s.nvm := by
  unfold State.modGrp; split <;> rfl
@[simp] theorem State.modGrp_nvmEcc (i : Nat) (f : Group → Group) : (s.modGrp i f).nvmEcc = s.nvmEcc := by
  unfold State.modGrp; split <;> rfl
@[simp] theorem State.modGrp_ports (i : Nat) (f : Group → Group) : (s.modGrp i f).ports = s.ports := by
  unfold State.modGrp; split <;> rfl
@[simp] theorem State.modGrp_wards (i : Nat) (f : Group → Group) : (s.modGrp i f).wards = s.wards := by
  unfold State.modGrp; split <;> rfl
@[simp] theorem State.modGrp_cmds (i : Nat) (f : Group → Group) : (s.modGrp i f).cmds = s.cmds := by
  unfold State.modGrp; split <;> rfl
@[simp] theorem State.modGrp_fcp (i : Nat) (f : Group → Group) : (s.modGrp i f).fcp = s.fcp := by
  unfold State.modGrp; split <;> rfl
@[simp] theorem State.modGrp_plan (i : Nat) (f : Group → Group) : (s.modGrp i f).plan = s.plan := by
  unfold State.modGrp; split <;> rfl
@[simp] theorem State.modGrp_store (i : Nat) (f : Group → Group) : (s.modGrp i f).store = s.store := by
  unfold State.modGrp; split <;> rfl
@[simp] theorem State.modGrp_jnl (i : Nat) (f : Group → Group) : (s.modGrp i f).jnl = s.jnl := by
  unfold State.modGrp; split <;> rfl
@[simp] theorem State.modGrp_seqs (i : Nat) (f : Group → Group) : (s.modGrp i f).seqs = s.seqs := by
  unfold State.modGrp; split <;> rfl
@[simp] theorem State.modGrp_sqs (i : Nat) (f : Group → Group) : (s.modGrp i f).sqs = s.sqs := by
  unfold State.modGrp; split <;> rfl
@[simp] theorem State.modGrp_vs (i : Nat) (f : Group → Group) : (s.modGrp i f).vs = s.vs := by
  unfold State.modGrp; split <;> rfl
@[simp] theorem State.modGrp_chans (i : Nat) (f : Group → Group) : (s.modGrp i f).chans = s.chans := by
  unfold State.modGrp; split <;> rfl
@[simp] theorem State.modGrp_cbs (i : Nat) (f : Group → Group) : (s.modGrp i f).cbs = s.cbs := by
  unfold State.modGrp; split <;> rfl
@[simp] theorem State.modGrp_capq (i : Nat) (f : Group → Group) : (s.modGrp i f).capq = s.capq := by
  unfold State.modGrp; split <;> rfl
@[simp] theorem State.modGrp_arms (i : Nat) (f : Group → Group) : (s.modGrp i f).arms = s.arms := by
  unfold State.modGrp; split <;> rfl
@[simp] theorem State.modGrp_shut (i : Nat) (f : Group → Group) : (s.modGrp i f).shut = s.shut := by
  unfold State.modGrp; split <;> rfl
@[simp] theorem State.modGrp_cores (i : Nat) (f : Group → Group) : (s.modGrp i f).cores = s.cores := by
  unfold State.modGrp; split <;> rfl
@[simp] theorem State.modGrp_ctxs (i : Nat) (f : Group → Group) : (s.modGrp i f).ctxs = s.ctxs := by
  unfold State.modGrp; split <;> rfl
@[simp] theorem State.modGrp_disp (i : Nat) (f : Group → Group) : (s.modGrp i f).disp = s.disp := by
  unfold State.modGrp; split <;> rfl
@[simp] theorem State.modGrp_drcs (i : Nat) (f : Group → Group) : (s.modGrp i f).drcs = s.drcs := by
  unfold State.modGrp; split <;> rfl
@[simp] theorem State.modGrp_lanes (i : Nat) (f : Group → Group) : (s.modGrp i f).lanes = s.lanes := by
  unfold State.modGrp; split <;> rfl
@[simp] theorem State.modGrp_tb (i : Nat) (f : Group → Group) : (s.modGrp i f).tb = s.tb := by
  unfold State.modGrp; split <;> rfl
@[simp] theorem State.modGrp_trigs (i : Nat) (f : Group → Group) : (s.modGrp i f).trigs = s.trigs := by
  unfold State.modGrp; split <;> rfl
@[simp] theorem State.modGrp_tims (i : Nat) (f : Group → Group) : (s.modGrp i f).tims = s.tims := by
  unfold State.modGrp; split <;> rfl
@[simp] theorem State.modGrp_conv (i : Nat) (f : Group → Group) : (s.modGrp i f).conv = s.conv := by
  unfold State.modGrp; split <;> rfl
@[simp] theorem State.modGrp_thm (i : Nat) (f : Group → Group) : (s.modGrp i f).thm = s.thm := by
  unfold State.modGrp; split <;> rfl
@[simp] theorem State.modGrp_cal (i : Nat) (f : Group → Group) : (s.modGrp i f).cal = s.cal := by
  unfold State.modGrp; split <;> rfl
@[simp] theorem State.modGrp_flt (i : Nat) (f : Group → Group) : (s.modGrp i f).flt = s.flt := by
  unfold State.modGrp; split <;> rfl
@[simp] theorem State.modGrp_ra (i : Nat) (f : Group → Group) : (s.modGrp i f).ra = s.ra := by
  unfold State.modGrp; split <;> rfl
@[simp] theorem State.modGrp_raHeld (i : Nat) (f : Group → Group) : (s.modGrp i f).raHeld = s.raHeld := by
  unfold State.modGrp; split <;> rfl
@[simp] theorem State.modGrp_twin (i : Nat) (f : Group → Group) : (s.modGrp i f).twin = s.twin := by
  unfold State.modGrp; split <;> rfl
@[simp] theorem State.modGrp_units (i : Nat) (f : Group → Group) : (s.modGrp i f).units = s.units := by
  unfold State.modGrp; split <;> rfl
@[simp] theorem State.modGrp_recs (i : Nat) (f : Group → Group) : (s.modGrp i f).recs = s.recs := by
  unfold State.modGrp; split <;> rfl
@[simp] theorem State.modGrp_pwr (i : Nat) (f : Group → Group) : (s.modGrp i f).pwr = s.pwr := by
  unfold State.modGrp; split <;> rfl

/-! ### modPort -/

@[simp] theorem State.modPort_pending (i : Nat) (f : Port → Port) : (s.modPort i f).pending = s.pending := by
  unfold State.modPort; split <;> rfl
@[simp] theorem State.modPort_outs (i : Nat) (f : Port → Port) : (s.modPort i f).outs = s.outs := by
  unfold State.modPort; split <;> rfl
@[simp] theorem State.modPort_fresh (i : Nat) (f : Port → Port) : (s.modPort i f).fresh = s.fresh := by
  unfold State.modPort; split <;> rfl
@[simp] theorem State.modPort_regs (i : Nat) (f : Port → Port) : (s.modPort i f).regs = s.regs := by
  unfold State.modPort; split <;> rfl
@[simp] theorem State.modPort_mem (i : Nat) (f : Port → Port) : (s.modPort i f).mem = s.mem := by
  unfold State.modPort; split <;> rfl
@[simp] theorem State.modPort_ecc (i : Nat) (f : Port → Port) : (s.modPort i f).ecc = s.ecc := by
  unfold State.modPort; split <;> rfl
@[simp] theorem State.modPort_rangeArmed (i : Nat) (f : Port → Port) : (s.modPort i f).rangeArmed = s.rangeArmed := by
  unfold State.modPort; split <;> rfl
@[simp] theorem State.modPort_nvm (i : Nat) (f : Port → Port) : (s.modPort i f).nvm = s.nvm := by
  unfold State.modPort; split <;> rfl
@[simp] theorem State.modPort_nvmEcc (i : Nat) (f : Port → Port) : (s.modPort i f).nvmEcc = s.nvmEcc := by
  unfold State.modPort; split <;> rfl
@[simp] theorem State.modPort_wards (i : Nat) (f : Port → Port) : (s.modPort i f).wards = s.wards := by
  unfold State.modPort; split <;> rfl
@[simp] theorem State.modPort_cmds (i : Nat) (f : Port → Port) : (s.modPort i f).cmds = s.cmds := by
  unfold State.modPort; split <;> rfl
@[simp] theorem State.modPort_fcp (i : Nat) (f : Port → Port) : (s.modPort i f).fcp = s.fcp := by
  unfold State.modPort; split <;> rfl
@[simp] theorem State.modPort_plan (i : Nat) (f : Port → Port) : (s.modPort i f).plan = s.plan := by
  unfold State.modPort; split <;> rfl
@[simp] theorem State.modPort_store (i : Nat) (f : Port → Port) : (s.modPort i f).store = s.store := by
  unfold State.modPort; split <;> rfl
@[simp] theorem State.modPort_jnl (i : Nat) (f : Port → Port) : (s.modPort i f).jnl = s.jnl := by
  unfold State.modPort; split <;> rfl
@[simp] theorem State.modPort_seqs (i : Nat) (f : Port → Port) : (s.modPort i f).seqs = s.seqs := by
  unfold State.modPort; split <;> rfl
@[simp] theorem State.modPort_sqs (i : Nat) (f : Port → Port) : (s.modPort i f).sqs = s.sqs := by
  unfold State.modPort; split <;> rfl
@[simp] theorem State.modPort_vs (i : Nat) (f : Port → Port) : (s.modPort i f).vs = s.vs := by
  unfold State.modPort; split <;> rfl
@[simp] theorem State.modPort_chans (i : Nat) (f : Port → Port) : (s.modPort i f).chans = s.chans := by
  unfold State.modPort; split <;> rfl
@[simp] theorem State.modPort_cbs (i : Nat) (f : Port → Port) : (s.modPort i f).cbs = s.cbs := by
  unfold State.modPort; split <;> rfl
@[simp] theorem State.modPort_capq (i : Nat) (f : Port → Port) : (s.modPort i f).capq = s.capq := by
  unfold State.modPort; split <;> rfl
@[simp] theorem State.modPort_arms (i : Nat) (f : Port → Port) : (s.modPort i f).arms = s.arms := by
  unfold State.modPort; split <;> rfl
@[simp] theorem State.modPort_shut (i : Nat) (f : Port → Port) : (s.modPort i f).shut = s.shut := by
  unfold State.modPort; split <;> rfl
@[simp] theorem State.modPort_cores (i : Nat) (f : Port → Port) : (s.modPort i f).cores = s.cores := by
  unfold State.modPort; split <;> rfl
@[simp] theorem State.modPort_ctxs (i : Nat) (f : Port → Port) : (s.modPort i f).ctxs = s.ctxs := by
  unfold State.modPort; split <;> rfl
@[simp] theorem State.modPort_disp (i : Nat) (f : Port → Port) : (s.modPort i f).disp = s.disp := by
  unfold State.modPort; split <;> rfl
@[simp] theorem State.modPort_drcs (i : Nat) (f : Port → Port) : (s.modPort i f).drcs = s.drcs := by
  unfold State.modPort; split <;> rfl
@[simp] theorem State.modPort_lanes (i : Nat) (f : Port → Port) : (s.modPort i f).lanes = s.lanes := by
  unfold State.modPort; split <;> rfl
@[simp] theorem State.modPort_groups (i : Nat) (f : Port → Port) : (s.modPort i f).groups = s.groups := by
  unfold State.modPort; split <;> rfl
@[simp] theorem State.modPort_tb (i : Nat) (f : Port → Port) : (s.modPort i f).tb = s.tb := by
  unfold State.modPort; split <;> rfl
@[simp] theorem State.modPort_trigs (i : Nat) (f : Port → Port) : (s.modPort i f).trigs = s.trigs := by
  unfold State.modPort; split <;> rfl
@[simp] theorem State.modPort_tims (i : Nat) (f : Port → Port) : (s.modPort i f).tims = s.tims := by
  unfold State.modPort; split <;> rfl
@[simp] theorem State.modPort_conv (i : Nat) (f : Port → Port) : (s.modPort i f).conv = s.conv := by
  unfold State.modPort; split <;> rfl
@[simp] theorem State.modPort_thm (i : Nat) (f : Port → Port) : (s.modPort i f).thm = s.thm := by
  unfold State.modPort; split <;> rfl
@[simp] theorem State.modPort_cal (i : Nat) (f : Port → Port) : (s.modPort i f).cal = s.cal := by
  unfold State.modPort; split <;> rfl
@[simp] theorem State.modPort_flt (i : Nat) (f : Port → Port) : (s.modPort i f).flt = s.flt := by
  unfold State.modPort; split <;> rfl
@[simp] theorem State.modPort_ra (i : Nat) (f : Port → Port) : (s.modPort i f).ra = s.ra := by
  unfold State.modPort; split <;> rfl
@[simp] theorem State.modPort_raHeld (i : Nat) (f : Port → Port) : (s.modPort i f).raHeld = s.raHeld := by
  unfold State.modPort; split <;> rfl
@[simp] theorem State.modPort_twin (i : Nat) (f : Port → Port) : (s.modPort i f).twin = s.twin := by
  unfold State.modPort; split <;> rfl
@[simp] theorem State.modPort_units (i : Nat) (f : Port → Port) : (s.modPort i f).units = s.units := by
  unfold State.modPort; split <;> rfl
@[simp] theorem State.modPort_recs (i : Nat) (f : Port → Port) : (s.modPort i f).recs = s.recs := by
  unfold State.modPort; split <;> rfl
@[simp] theorem State.modPort_pwr (i : Nat) (f : Port → Port) : (s.modPort i f).pwr = s.pwr := by
  unfold State.modPort; split <;> rfl

/-! ### modTrig -/

@[simp] theorem State.modTrig_pending (i : Nat) (f : Trig → Trig) : (s.modTrig i f).pending = s.pending := by
  unfold State.modTrig; split <;> rfl
@[simp] theorem State.modTrig_outs (i : Nat) (f : Trig → Trig) : (s.modTrig i f).outs = s.outs := by
  unfold State.modTrig; split <;> rfl
@[simp] theorem State.modTrig_fresh (i : Nat) (f : Trig → Trig) : (s.modTrig i f).fresh = s.fresh := by
  unfold State.modTrig; split <;> rfl
@[simp] theorem State.modTrig_regs (i : Nat) (f : Trig → Trig) : (s.modTrig i f).regs = s.regs := by
  unfold State.modTrig; split <;> rfl
@[simp] theorem State.modTrig_mem (i : Nat) (f : Trig → Trig) : (s.modTrig i f).mem = s.mem := by
  unfold State.modTrig; split <;> rfl
@[simp] theorem State.modTrig_ecc (i : Nat) (f : Trig → Trig) : (s.modTrig i f).ecc = s.ecc := by
  unfold State.modTrig; split <;> rfl
@[simp] theorem State.modTrig_rangeArmed (i : Nat) (f : Trig → Trig) : (s.modTrig i f).rangeArmed = s.rangeArmed := by
  unfold State.modTrig; split <;> rfl
@[simp] theorem State.modTrig_nvm (i : Nat) (f : Trig → Trig) : (s.modTrig i f).nvm = s.nvm := by
  unfold State.modTrig; split <;> rfl
@[simp] theorem State.modTrig_nvmEcc (i : Nat) (f : Trig → Trig) : (s.modTrig i f).nvmEcc = s.nvmEcc := by
  unfold State.modTrig; split <;> rfl
@[simp] theorem State.modTrig_ports (i : Nat) (f : Trig → Trig) : (s.modTrig i f).ports = s.ports := by
  unfold State.modTrig; split <;> rfl
@[simp] theorem State.modTrig_wards (i : Nat) (f : Trig → Trig) : (s.modTrig i f).wards = s.wards := by
  unfold State.modTrig; split <;> rfl
@[simp] theorem State.modTrig_cmds (i : Nat) (f : Trig → Trig) : (s.modTrig i f).cmds = s.cmds := by
  unfold State.modTrig; split <;> rfl
@[simp] theorem State.modTrig_fcp (i : Nat) (f : Trig → Trig) : (s.modTrig i f).fcp = s.fcp := by
  unfold State.modTrig; split <;> rfl
@[simp] theorem State.modTrig_plan (i : Nat) (f : Trig → Trig) : (s.modTrig i f).plan = s.plan := by
  unfold State.modTrig; split <;> rfl
@[simp] theorem State.modTrig_store (i : Nat) (f : Trig → Trig) : (s.modTrig i f).store = s.store := by
  unfold State.modTrig; split <;> rfl
@[simp] theorem State.modTrig_jnl (i : Nat) (f : Trig → Trig) : (s.modTrig i f).jnl = s.jnl := by
  unfold State.modTrig; split <;> rfl
@[simp] theorem State.modTrig_seqs (i : Nat) (f : Trig → Trig) : (s.modTrig i f).seqs = s.seqs := by
  unfold State.modTrig; split <;> rfl
@[simp] theorem State.modTrig_sqs (i : Nat) (f : Trig → Trig) : (s.modTrig i f).sqs = s.sqs := by
  unfold State.modTrig; split <;> rfl
@[simp] theorem State.modTrig_vs (i : Nat) (f : Trig → Trig) : (s.modTrig i f).vs = s.vs := by
  unfold State.modTrig; split <;> rfl
@[simp] theorem State.modTrig_chans (i : Nat) (f : Trig → Trig) : (s.modTrig i f).chans = s.chans := by
  unfold State.modTrig; split <;> rfl
@[simp] theorem State.modTrig_cbs (i : Nat) (f : Trig → Trig) : (s.modTrig i f).cbs = s.cbs := by
  unfold State.modTrig; split <;> rfl
@[simp] theorem State.modTrig_capq (i : Nat) (f : Trig → Trig) : (s.modTrig i f).capq = s.capq := by
  unfold State.modTrig; split <;> rfl
@[simp] theorem State.modTrig_arms (i : Nat) (f : Trig → Trig) : (s.modTrig i f).arms = s.arms := by
  unfold State.modTrig; split <;> rfl
@[simp] theorem State.modTrig_shut (i : Nat) (f : Trig → Trig) : (s.modTrig i f).shut = s.shut := by
  unfold State.modTrig; split <;> rfl
@[simp] theorem State.modTrig_cores (i : Nat) (f : Trig → Trig) : (s.modTrig i f).cores = s.cores := by
  unfold State.modTrig; split <;> rfl
@[simp] theorem State.modTrig_ctxs (i : Nat) (f : Trig → Trig) : (s.modTrig i f).ctxs = s.ctxs := by
  unfold State.modTrig; split <;> rfl
@[simp] theorem State.modTrig_disp (i : Nat) (f : Trig → Trig) : (s.modTrig i f).disp = s.disp := by
  unfold State.modTrig; split <;> rfl
@[simp] theorem State.modTrig_drcs (i : Nat) (f : Trig → Trig) : (s.modTrig i f).drcs = s.drcs := by
  unfold State.modTrig; split <;> rfl
@[simp] theorem State.modTrig_lanes (i : Nat) (f : Trig → Trig) : (s.modTrig i f).lanes = s.lanes := by
  unfold State.modTrig; split <;> rfl
@[simp] theorem State.modTrig_groups (i : Nat) (f : Trig → Trig) : (s.modTrig i f).groups = s.groups := by
  unfold State.modTrig; split <;> rfl
@[simp] theorem State.modTrig_tb (i : Nat) (f : Trig → Trig) : (s.modTrig i f).tb = s.tb := by
  unfold State.modTrig; split <;> rfl
@[simp] theorem State.modTrig_tims (i : Nat) (f : Trig → Trig) : (s.modTrig i f).tims = s.tims := by
  unfold State.modTrig; split <;> rfl
@[simp] theorem State.modTrig_conv (i : Nat) (f : Trig → Trig) : (s.modTrig i f).conv = s.conv := by
  unfold State.modTrig; split <;> rfl
@[simp] theorem State.modTrig_thm (i : Nat) (f : Trig → Trig) : (s.modTrig i f).thm = s.thm := by
  unfold State.modTrig; split <;> rfl
@[simp] theorem State.modTrig_cal (i : Nat) (f : Trig → Trig) : (s.modTrig i f).cal = s.cal := by
  unfold State.modTrig; split <;> rfl
@[simp] theorem State.modTrig_flt (i : Nat) (f : Trig → Trig) : (s.modTrig i f).flt = s.flt := by
  unfold State.modTrig; split <;> rfl
@[simp] theorem State.modTrig_ra (i : Nat) (f : Trig → Trig) : (s.modTrig i f).ra = s.ra := by
  unfold State.modTrig; split <;> rfl
@[simp] theorem State.modTrig_raHeld (i : Nat) (f : Trig → Trig) : (s.modTrig i f).raHeld = s.raHeld := by
  unfold State.modTrig; split <;> rfl
@[simp] theorem State.modTrig_twin (i : Nat) (f : Trig → Trig) : (s.modTrig i f).twin = s.twin := by
  unfold State.modTrig; split <;> rfl
@[simp] theorem State.modTrig_units (i : Nat) (f : Trig → Trig) : (s.modTrig i f).units = s.units := by
  unfold State.modTrig; split <;> rfl
@[simp] theorem State.modTrig_recs (i : Nat) (f : Trig → Trig) : (s.modTrig i f).recs = s.recs := by
  unfold State.modTrig; split <;> rfl
@[simp] theorem State.modTrig_pwr (i : Nat) (f : Trig → Trig) : (s.modTrig i f).pwr = s.pwr := by
  unfold State.modTrig; split <;> rfl

/-! ### modTim -/

@[simp] theorem State.modTim_pending (i : Nat) (f : TimU → TimU) : (s.modTim i f).pending = s.pending := by
  unfold State.modTim; split <;> rfl
@[simp] theorem State.modTim_outs (i : Nat) (f : TimU → TimU) : (s.modTim i f).outs = s.outs := by
  unfold State.modTim; split <;> rfl
@[simp] theorem State.modTim_fresh (i : Nat) (f : TimU → TimU) : (s.modTim i f).fresh = s.fresh := by
  unfold State.modTim; split <;> rfl
@[simp] theorem State.modTim_regs (i : Nat) (f : TimU → TimU) : (s.modTim i f).regs = s.regs := by
  unfold State.modTim; split <;> rfl
@[simp] theorem State.modTim_mem (i : Nat) (f : TimU → TimU) : (s.modTim i f).mem = s.mem := by
  unfold State.modTim; split <;> rfl
@[simp] theorem State.modTim_ecc (i : Nat) (f : TimU → TimU) : (s.modTim i f).ecc = s.ecc := by
  unfold State.modTim; split <;> rfl
@[simp] theorem State.modTim_rangeArmed (i : Nat) (f : TimU → TimU) : (s.modTim i f).rangeArmed = s.rangeArmed := by
  unfold State.modTim; split <;> rfl
@[simp] theorem State.modTim_nvm (i : Nat) (f : TimU → TimU) : (s.modTim i f).nvm = s.nvm := by
  unfold State.modTim; split <;> rfl
@[simp] theorem State.modTim_nvmEcc (i : Nat) (f : TimU → TimU) : (s.modTim i f).nvmEcc = s.nvmEcc := by
  unfold State.modTim; split <;> rfl
@[simp] theorem State.modTim_ports (i : Nat) (f : TimU → TimU) : (s.modTim i f).ports = s.ports := by
  unfold State.modTim; split <;> rfl
@[simp] theorem State.modTim_wards (i : Nat) (f : TimU → TimU) : (s.modTim i f).wards = s.wards := by
  unfold State.modTim; split <;> rfl
@[simp] theorem State.modTim_cmds (i : Nat) (f : TimU → TimU) : (s.modTim i f).cmds = s.cmds := by
  unfold State.modTim; split <;> rfl
@[simp] theorem State.modTim_fcp (i : Nat) (f : TimU → TimU) : (s.modTim i f).fcp = s.fcp := by
  unfold State.modTim; split <;> rfl
@[simp] theorem State.modTim_plan (i : Nat) (f : TimU → TimU) : (s.modTim i f).plan = s.plan := by
  unfold State.modTim; split <;> rfl
@[simp] theorem State.modTim_store (i : Nat) (f : TimU → TimU) : (s.modTim i f).store = s.store := by
  unfold State.modTim; split <;> rfl
@[simp] theorem State.modTim_jnl (i : Nat) (f : TimU → TimU) : (s.modTim i f).jnl = s.jnl := by
  unfold State.modTim; split <;> rfl
@[simp] theorem State.modTim_seqs (i : Nat) (f : TimU → TimU) : (s.modTim i f).seqs = s.seqs := by
  unfold State.modTim; split <;> rfl
@[simp] theorem State.modTim_sqs (i : Nat) (f : TimU → TimU) : (s.modTim i f).sqs = s.sqs := by
  unfold State.modTim; split <;> rfl
@[simp] theorem State.modTim_vs (i : Nat) (f : TimU → TimU) : (s.modTim i f).vs = s.vs := by
  unfold State.modTim; split <;> rfl
@[simp] theorem State.modTim_chans (i : Nat) (f : TimU → TimU) : (s.modTim i f).chans = s.chans := by
  unfold State.modTim; split <;> rfl
@[simp] theorem State.modTim_cbs (i : Nat) (f : TimU → TimU) : (s.modTim i f).cbs = s.cbs := by
  unfold State.modTim; split <;> rfl
@[simp] theorem State.modTim_capq (i : Nat) (f : TimU → TimU) : (s.modTim i f).capq = s.capq := by
  unfold State.modTim; split <;> rfl
@[simp] theorem State.modTim_arms (i : Nat) (f : TimU → TimU) : (s.modTim i f).arms = s.arms := by
  unfold State.modTim; split <;> rfl
@[simp] theorem State.modTim_shut (i : Nat) (f : TimU → TimU) : (s.modTim i f).shut = s.shut := by
  unfold State.modTim; split <;> rfl
@[simp] theorem State.modTim_cores (i : Nat) (f : TimU → TimU) : (s.modTim i f).cores = s.cores := by
  unfold State.modTim; split <;> rfl
@[simp] theorem State.modTim_ctxs (i : Nat) (f : TimU → TimU) : (s.modTim i f).ctxs = s.ctxs := by
  unfold State.modTim; split <;> rfl
@[simp] theorem State.modTim_disp (i : Nat) (f : TimU → TimU) : (s.modTim i f).disp = s.disp := by
  unfold State.modTim; split <;> rfl
@[simp] theorem State.modTim_drcs (i : Nat) (f : TimU → TimU) : (s.modTim i f).drcs = s.drcs := by
  unfold State.modTim; split <;> rfl
@[simp] theorem State.modTim_lanes (i : Nat) (f : TimU → TimU) : (s.modTim i f).lanes = s.lanes := by
  unfold State.modTim; split <;> rfl
@[simp] theorem State.modTim_groups (i : Nat) (f : TimU → TimU) : (s.modTim i f).groups = s.groups := by
  unfold State.modTim; split <;> rfl
@[simp] theorem State.modTim_tb (i : Nat) (f : TimU → TimU) : (s.modTim i f).tb = s.tb := by
  unfold State.modTim; split <;> rfl
@[simp] theorem State.modTim_trigs (i : Nat) (f : TimU → TimU) : (s.modTim i f).trigs = s.trigs := by
  unfold State.modTim; split <;> rfl
@[simp] theorem State.modTim_conv (i : Nat) (f : TimU → TimU) : (s.modTim i f).conv = s.conv := by
  unfold State.modTim; split <;> rfl
@[simp] theorem State.modTim_thm (i : Nat) (f : TimU → TimU) : (s.modTim i f).thm = s.thm := by
  unfold State.modTim; split <;> rfl
@[simp] theorem State.modTim_cal (i : Nat) (f : TimU → TimU) : (s.modTim i f).cal = s.cal := by
  unfold State.modTim; split <;> rfl
@[simp] theorem State.modTim_flt (i : Nat) (f : TimU → TimU) : (s.modTim i f).flt = s.flt := by
  unfold State.modTim; split <;> rfl
@[simp] theorem State.modTim_ra (i : Nat) (f : TimU → TimU) : (s.modTim i f).ra = s.ra := by
  unfold State.modTim; split <;> rfl
@[simp] theorem State.modTim_raHeld (i : Nat) (f : TimU → TimU) : (s.modTim i f).raHeld = s.raHeld := by
  unfold State.modTim; split <;> rfl
@[simp] theorem State.modTim_twin (i : Nat) (f : TimU → TimU) : (s.modTim i f).twin = s.twin := by
  unfold State.modTim; split <;> rfl
@[simp] theorem State.modTim_units (i : Nat) (f : TimU → TimU) : (s.modTim i f).units = s.units := by
  unfold State.modTim; split <;> rfl
@[simp] theorem State.modTim_recs (i : Nat) (f : TimU → TimU) : (s.modTim i f).recs = s.recs := by
  unfold State.modTim; split <;> rfl
@[simp] theorem State.modTim_pwr (i : Nat) (f : TimU → TimU) : (s.modTim i f).pwr = s.pwr := by
  unfold State.modTim; split <;> rfl

/-! ### assertFlt -/

@[simp] theorem State.assertFlt_pending (i : Nat) : (s.assertFlt i).pending = s.pending := by
  unfold State.assertFlt; split <;> rfl
@[simp] theorem State.assertFlt_outs (i : Nat) : (s.assertFlt i).outs = s.outs := by
  unfold State.assertFlt; split <;> rfl
@[simp] theorem State.assertFlt_fresh (i : Nat) : (s.assertFlt i).fresh = s.fresh := by
  unfold State.assertFlt; split <;> rfl
@[simp] theorem State.assertFlt_regs (i : Nat) : (s.assertFlt i).regs = s.regs := by
  unfold State.assertFlt; split <;> rfl
@[simp] theorem State.assertFlt_mem (i : Nat) : (s.assertFlt i).mem = s.mem := by
  unfold State.assertFlt; split <;> rfl
@[simp] theorem State.assertFlt_ecc (i : Nat) : (s.assertFlt i).ecc = s.ecc := by
  unfold State.assertFlt; split <;> rfl
@[simp] theorem State.assertFlt_rangeArmed (i : Nat) : (s.assertFlt i).rangeArmed = s.rangeArmed := by
  unfold State.assertFlt; split <;> rfl
@[simp] theorem State.assertFlt_nvm (i : Nat) : (s.assertFlt i).nvm = s.nvm := by
  unfold State.assertFlt; split <;> rfl
@[simp] theorem State.assertFlt_nvmEcc (i : Nat) : (s.assertFlt i).nvmEcc = s.nvmEcc := by
  unfold State.assertFlt; split <;> rfl
@[simp] theorem State.assertFlt_ports (i : Nat) : (s.assertFlt i).ports = s.ports := by
  unfold State.assertFlt; split <;> rfl
@[simp] theorem State.assertFlt_wards (i : Nat) : (s.assertFlt i).wards = s.wards := by
  unfold State.assertFlt; split <;> rfl
@[simp] theorem State.assertFlt_cmds (i : Nat) : (s.assertFlt i).cmds = s.cmds := by
  unfold State.assertFlt; split <;> rfl
@[simp] theorem State.assertFlt_fcp (i : Nat) : (s.assertFlt i).fcp = s.fcp := by
  unfold State.assertFlt; split <;> rfl
@[simp] theorem State.assertFlt_plan (i : Nat) : (s.assertFlt i).plan = s.plan := by
  unfold State.assertFlt; split <;> rfl
@[simp] theorem State.assertFlt_store (i : Nat) : (s.assertFlt i).store = s.store := by
  unfold State.assertFlt; split <;> rfl
@[simp] theorem State.assertFlt_jnl (i : Nat) : (s.assertFlt i).jnl = s.jnl := by
  unfold State.assertFlt; split <;> rfl
@[simp] theorem State.assertFlt_seqs (i : Nat) : (s.assertFlt i).seqs = s.seqs := by
  unfold State.assertFlt; split <;> rfl
@[simp] theorem State.assertFlt_sqs (i : Nat) : (s.assertFlt i).sqs = s.sqs := by
  unfold State.assertFlt; split <;> rfl
@[simp] theorem State.assertFlt_vs (i : Nat) : (s.assertFlt i).vs = s.vs := by
  unfold State.assertFlt; split <;> rfl
@[simp] theorem State.assertFlt_chans (i : Nat) : (s.assertFlt i).chans = s.chans := by
  unfold State.assertFlt; split <;> rfl
@[simp] theorem State.assertFlt_cbs (i : Nat) : (s.assertFlt i).cbs = s.cbs := by
  unfold State.assertFlt; split <;> rfl
@[simp] theorem State.assertFlt_capq (i : Nat) : (s.assertFlt i).capq = s.capq := by
  unfold State.assertFlt; split <;> rfl
@[simp] theorem State.assertFlt_arms (i : Nat) : (s.assertFlt i).arms = s.arms := by
  unfold State.assertFlt; split <;> rfl
@[simp] theorem State.assertFlt_shut (i : Nat) : (s.assertFlt i).shut = s.shut := by
  unfold State.assertFlt; split <;> rfl
@[simp] theorem State.assertFlt_cores (i : Nat) : (s.assertFlt i).cores = s.cores := by
  unfold State.assertFlt; split <;> rfl
@[simp] theorem State.assertFlt_ctxs (i : Nat) : (s.assertFlt i).ctxs = s.ctxs := by
  unfold State.assertFlt; split <;> rfl
@[simp] theorem State.assertFlt_disp (i : Nat) : (s.assertFlt i).disp = s.disp := by
  unfold State.assertFlt; split <;> rfl
@[simp] theorem State.assertFlt_drcs (i : Nat) : (s.assertFlt i).drcs = s.drcs := by
  unfold State.assertFlt; split <;> rfl
@[simp] theorem State.assertFlt_lanes (i : Nat) : (s.assertFlt i).lanes = s.lanes := by
  unfold State.assertFlt; split <;> rfl
@[simp] theorem State.assertFlt_groups (i : Nat) : (s.assertFlt i).groups = s.groups := by
  unfold State.assertFlt; split <;> rfl
@[simp] theorem State.assertFlt_tb (i : Nat) : (s.assertFlt i).tb = s.tb := by
  unfold State.assertFlt; split <;> rfl
@[simp] theorem State.assertFlt_trigs (i : Nat) : (s.assertFlt i).trigs = s.trigs := by
  unfold State.assertFlt; split <;> rfl
@[simp] theorem State.assertFlt_tims (i : Nat) : (s.assertFlt i).tims = s.tims := by
  unfold State.assertFlt; split <;> rfl
@[simp] theorem State.assertFlt_conv (i : Nat) : (s.assertFlt i).conv = s.conv := by
  unfold State.assertFlt; split <;> rfl
@[simp] theorem State.assertFlt_thm (i : Nat) : (s.assertFlt i).thm = s.thm := by
  unfold State.assertFlt; split <;> rfl
@[simp] theorem State.assertFlt_cal (i : Nat) : (s.assertFlt i).cal = s.cal := by
  unfold State.assertFlt; split <;> rfl
@[simp] theorem State.assertFlt_ra (i : Nat) : (s.assertFlt i).ra = s.ra := by
  unfold State.assertFlt; split <;> rfl
@[simp] theorem State.assertFlt_raHeld (i : Nat) : (s.assertFlt i).raHeld = s.raHeld := by
  unfold State.assertFlt; split <;> rfl
@[simp] theorem State.assertFlt_twin (i : Nat) : (s.assertFlt i).twin = s.twin := by
  unfold State.assertFlt; split <;> rfl
@[simp] theorem State.assertFlt_units (i : Nat) : (s.assertFlt i).units = s.units := by
  unfold State.assertFlt; split <;> rfl
@[simp] theorem State.assertFlt_recs (i : Nat) : (s.assertFlt i).recs = s.recs := by
  unfold State.assertFlt; split <;> rfl
@[simp] theorem State.assertFlt_pwr (i : Nat) : (s.assertFlt i).pwr = s.pwr := by
  unfold State.assertFlt; split <;> rfl

/-! ### post -/

@[simp] theorem State.post_pending (w : Nat) (e : Ev) : (s.post w e).pending = s.pending := by
  unfold State.post; split <;> simp
@[simp] theorem State.post_outs (w : Nat) (e : Ev) : (s.post w e).outs = s.outs := by
  unfold State.post; split <;> simp
@[simp] theorem State.post_fresh (w : Nat) (e : Ev) : (s.post w e).fresh = s.fresh := by
  unfold State.post; split <;> simp
@[simp] theorem State.post_regs (w : Nat) (e : Ev) : (s.post w e).regs = s.regs := by
  unfold State.post; split <;> simp
@[simp] theorem State.post_mem (w : Nat) (e : Ev) : (s.post w e).mem = s.mem := by
  unfold State.post; split <;> simp
@[simp] theorem State.post_ecc (w : Nat) (e : Ev) : (s.post w e).ecc = s.ecc := by
  unfold State.post; split <;> simp
@[simp] theorem State.post_rangeArmed (w : Nat) (e : Ev) : (s.post w e).rangeArmed = s.rangeArmed := by
  unfold State.post; split <;> simp
@[simp] theorem State.post_nvm (w : Nat) (e : Ev) : (s.post w e).nvm = s.nvm := by
  unfold State.post; split <;> simp
@[simp] theorem State.post_nvmEcc (w : Nat) (e : Ev) : (s.post w e).nvmEcc = s.nvmEcc := by
  unfold State.post; split <;> simp
@[simp] theorem State.post_ports (w : Nat) (e : Ev) : (s.post w e).ports = s.ports := by
  unfold State.post; split <;> simp
@[simp] theorem State.post_cmds (w : Nat) (e : Ev) : (s.post w e).cmds = s.cmds := by
  unfold State.post; split <;> simp
@[simp] theorem State.post_fcp (w : Nat) (e : Ev) : (s.post w e).fcp = s.fcp := by
  unfold State.post; split <;> simp
@[simp] theorem State.post_plan (w : Nat) (e : Ev) : (s.post w e).plan = s.plan := by
  unfold State.post; split <;> simp
@[simp] theorem State.post_store (w : Nat) (e : Ev) : (s.post w e).store = s.store := by
  unfold State.post; split <;> simp
@[simp] theorem State.post_jnl (w : Nat) (e : Ev) : (s.post w e).jnl = s.jnl := by
  unfold State.post; split <;> simp
@[simp] theorem State.post_seqs (w : Nat) (e : Ev) : (s.post w e).seqs = s.seqs := by
  unfold State.post; split <;> simp
@[simp] theorem State.post_sqs (w : Nat) (e : Ev) : (s.post w e).sqs = s.sqs := by
  unfold State.post; split <;> simp
@[simp] theorem State.post_vs (w : Nat) (e : Ev) : (s.post w e).vs = s.vs := by
  unfold State.post; split <;> simp
@[simp] theorem State.post_chans (w : Nat) (e : Ev) : (s.post w e).chans = s.chans := by
  unfold State.post; split <;> simp
@[simp] theorem State.post_cbs (w : Nat) (e : Ev) : (s.post w e).cbs = s.cbs := by
  unfold State.post; split <;> simp
@[simp] theorem State.post_capq (w : Nat) (e : Ev) : (s.post w e).capq = s.capq := by
  unfold State.post; split <;> simp
@[simp] theorem State.post_arms (w : Nat) (e : Ev) : (s.post w e).arms = s.arms := by
  unfold State.post; split <;> simp
@[simp] theorem State.post_shut (w : Nat) (e : Ev) : (s.post w e).shut = s.shut := by
  unfold State.post; split <;> simp
@[simp] theorem State.post_cores (w : Nat) (e : Ev) : (s.post w e).cores = s.cores := by
  unfold State.post; split <;> simp
@[simp] theorem State.post_ctxs (w : Nat) (e : Ev) : (s.post w e).ctxs = s.ctxs := by
  unfold State.post; split <;> simp
@[simp] theorem State.post_disp (w : Nat) (e : Ev) : (s.post w e).disp = s.disp := by
  unfold State.post; split <;> simp
@[simp] theorem State.post_drcs (w : Nat) (e : Ev) : (s.post w e).drcs = s.drcs := by
  unfold State.post; split <;> simp
@[simp] theorem State.post_lanes (w : Nat) (e : Ev) : (s.post w e).lanes = s.lanes := by
  unfold State.post; split <;> simp
@[simp] theorem State.post_groups (w : Nat) (e : Ev) : (s.post w e).groups = s.groups := by
  unfold State.post; split <;> simp
@[simp] theorem State.post_tb (w : Nat) (e : Ev) : (s.post w e).tb = s.tb := by
  unfold State.post; split <;> simp
@[simp] theorem State.post_trigs (w : Nat) (e : Ev) : (s.post w e).trigs = s.trigs := by
  unfold State.post; split <;> simp
@[simp] theorem State.post_tims (w : Nat) (e : Ev) : (s.post w e).tims = s.tims := by
  unfold State.post; split <;> simp
@[simp] theorem State.post_conv (w : Nat) (e : Ev) : (s.post w e).conv = s.conv := by
  unfold State.post; split <;> simp
@[simp] theorem State.post_thm (w : Nat) (e : Ev) : (s.post w e).thm = s.thm := by
  unfold State.post; split <;> simp
@[simp] theorem State.post_cal (w : Nat) (e : Ev) : (s.post w e).cal = s.cal := by
  unfold State.post; split <;> simp
@[simp] theorem State.post_flt (w : Nat) (e : Ev) : (s.post w e).flt = s.flt := by
  unfold State.post; split <;> simp
@[simp] theorem State.post_ra (w : Nat) (e : Ev) : (s.post w e).ra = s.ra := by
  unfold State.post; split <;> simp
@[simp] theorem State.post_raHeld (w : Nat) (e : Ev) : (s.post w e).raHeld = s.raHeld := by
  unfold State.post; split <;> simp
@[simp] theorem State.post_twin (w : Nat) (e : Ev) : (s.post w e).twin = s.twin := by
  unfold State.post; split <;> simp
@[simp] theorem State.post_units (w : Nat) (e : Ev) : (s.post w e).units = s.units := by
  unfold State.post; split <;> simp
@[simp] theorem State.post_recs (w : Nat) (e : Ev) : (s.post w e).recs = s.recs := by
  unfold State.post; split <;> simp
@[simp] theorem State.post_pwr (w : Nat) (e : Ev) : (s.post w e).pwr = s.pwr := by
  unfold State.post; split <;> simp

/-! ### event -/

@[simp] theorem State.event_pending (w c x : Nat) : (s.event w c x).pending = s.pending := by
  simp [State.event]
@[simp] theorem State.event_outs (w c x : Nat) : (s.event w c x).outs = s.outs := by
  simp [State.event]
@[simp] theorem State.event_fresh (w c x : Nat) : (s.event w c x).fresh = s.fresh := by
  simp [State.event]
@[simp] theorem State.event_regs (w c x : Nat) : (s.event w c x).regs = s.regs := by
  simp [State.event]
@[simp] theorem State.event_mem (w c x : Nat) : (s.event w c x).mem = s.mem := by
  simp [State.event]
@[simp] theorem State.event_ecc (w c x : Nat) : (s.event w c x).ecc = s.ecc := by
  simp [State.event]
@[simp] theorem State.event_rangeArmed (w c x : Nat) : (s.event w c x).rangeArmed = s.rangeArmed := by
  simp [State.event]
@[simp] theorem State.event_nvm (w c x : Nat) : (s.event w c x).nvm = s.nvm := by
  simp [State.event]
@[simp] theorem State.event_nvmEcc (w c x : Nat) : (s.event w c x).nvmEcc = s.nvmEcc := by
  simp [State.event]
@[simp] theorem State.event_ports (w c x : Nat) : (s.event w c x).ports = s.ports := by
  simp [State.event]
@[simp] theorem State.event_cmds (w c x : Nat) : (s.event w c x).cmds = s.cmds := by
  simp [State.event]
@[simp] theorem State.event_fcp (w c x : Nat) : (s.event w c x).fcp = s.fcp := by
  simp [State.event]
@[simp] theorem State.event_plan (w c x : Nat) : (s.event w c x).plan = s.plan := by
  simp [State.event]
@[simp] theorem State.event_store (w c x : Nat) : (s.event w c x).store = s.store := by
  simp [State.event]
@[simp] theorem State.event_jnl (w c x : Nat) : (s.event w c x).jnl = s.jnl := by
  simp [State.event]
@[simp] theorem State.event_seqs (w c x : Nat) : (s.event w c x).seqs = s.seqs := by
  simp [State.event]
@[simp] theorem State.event_sqs (w c x : Nat) : (s.event w c x).sqs = s.sqs := by
  simp [State.event]
@[simp] theorem State.event_vs (w c x : Nat) : (s.event w c x).vs = s.vs := by
  simp [State.event]
@[simp] theorem State.event_chans (w c x : Nat) : (s.event w c x).chans = s.chans := by
  simp [State.event]
@[simp] theorem State.event_cbs (w c x : Nat) : (s.event w c x).cbs = s.cbs := by
  simp [State.event]
@[simp] theorem State.event_capq (w c x : Nat) : (s.event w c x).capq = s.capq := by
  simp [State.event]
@[simp] theorem State.event_arms (w c x : Nat) : (s.event w c x).arms = s.arms := by
  simp [State.event]
@[simp] theorem State.event_shut (w c x : Nat) : (s.event w c x).shut = s.shut := by
  simp [State.event]
@[simp] theorem State.event_cores (w c x : Nat) : (s.event w c x).cores = s.cores := by
  simp [State.event]
@[simp] theorem State.event_ctxs (w c x : Nat) : (s.event w c x).ctxs = s.ctxs := by
  simp [State.event]
@[simp] theorem State.event_disp (w c x : Nat) : (s.event w c x).disp = s.disp := by
  simp [State.event]
@[simp] theorem State.event_drcs (w c x : Nat) : (s.event w c x).drcs = s.drcs := by
  simp [State.event]
@[simp] theorem State.event_lanes (w c x : Nat) : (s.event w c x).lanes = s.lanes := by
  simp [State.event]
@[simp] theorem State.event_groups (w c x : Nat) : (s.event w c x).groups = s.groups := by
  simp [State.event]
@[simp] theorem State.event_tb (w c x : Nat) : (s.event w c x).tb = s.tb := by
  simp [State.event]
@[simp] theorem State.event_trigs (w c x : Nat) : (s.event w c x).trigs = s.trigs := by
  simp [State.event]
@[simp] theorem State.event_tims (w c x : Nat) : (s.event w c x).tims = s.tims := by
  simp [State.event]
@[simp] theorem State.event_conv (w c x : Nat) : (s.event w c x).conv = s.conv := by
  simp [State.event]
@[simp] theorem State.event_thm (w c x : Nat) : (s.event w c x).thm = s.thm := by
  simp [State.event]
@[simp] theorem State.event_cal (w c x : Nat) : (s.event w c x).cal = s.cal := by
  simp [State.event]
@[simp] theorem State.event_flt (w c x : Nat) : (s.event w c x).flt = s.flt := by
  simp [State.event]
@[simp] theorem State.event_ra (w c x : Nat) : (s.event w c x).ra = s.ra := by
  simp [State.event]
@[simp] theorem State.event_raHeld (w c x : Nat) : (s.event w c x).raHeld = s.raHeld := by
  simp [State.event]
@[simp] theorem State.event_twin (w c x : Nat) : (s.event w c x).twin = s.twin := by
  simp [State.event]
@[simp] theorem State.event_units (w c x : Nat) : (s.event w c x).units = s.units := by
  simp [State.event]
@[simp] theorem State.event_recs (w c x : Nat) : (s.event w c x).recs = s.recs := by
  simp [State.event]
@[simp] theorem State.event_pwr (w c x : Nat) : (s.event w c x).pwr = s.pwr := by
  simp [State.event]

/-! ### eventTo -/

@[simp] theorem State.eventTo_pending (w : Option Nat) (c x : Nat) : (s.eventTo w c x).pending = s.pending := by
  cases w <;> simp [State.eventTo]
@[simp] theorem State.eventTo_outs (w : Option Nat) (c x : Nat) : (s.eventTo w c x).outs = s.outs := by
  cases w <;> simp [State.eventTo]
@[simp] theorem State.eventTo_fresh (w : Option Nat) (c x : Nat) : (s.eventTo w c x).fresh = s.fresh := by
  cases w <;> simp [State.eventTo]
@[simp] theorem State.eventTo_regs (w : Option Nat) (c x : Nat) : (s.eventTo w c x).regs = s.regs := by
  cases w <;> simp [State.eventTo]
@[simp] theorem State.eventTo_mem (w : Option Nat) (c x : Nat) : (s.eventTo w c x).mem = s.mem := by
  cases w <;> simp [State.eventTo]
@[simp] theorem State.eventTo_ecc (w : Option Nat) (c x : Nat) : (s.eventTo w c x).ecc = s.ecc := by
  cases w <;> simp [State.eventTo]
@[simp] theorem State.eventTo_rangeArmed (w : Option Nat) (c x : Nat) : (s.eventTo w c x).rangeArmed = s.rangeArmed := by
  cases w <;> simp [State.eventTo]
@[simp] theorem State.eventTo_nvm (w : Option Nat) (c x : Nat) : (s.eventTo w c x).nvm = s.nvm := by
  cases w <;> simp [State.eventTo]
@[simp] theorem State.eventTo_nvmEcc (w : Option Nat) (c x : Nat) : (s.eventTo w c x).nvmEcc = s.nvmEcc := by
  cases w <;> simp [State.eventTo]
@[simp] theorem State.eventTo_ports (w : Option Nat) (c x : Nat) : (s.eventTo w c x).ports = s.ports := by
  cases w <;> simp [State.eventTo]
@[simp] theorem State.eventTo_cmds (w : Option Nat) (c x : Nat) : (s.eventTo w c x).cmds = s.cmds := by
  cases w <;> simp [State.eventTo]
@[simp] theorem State.eventTo_fcp (w : Option Nat) (c x : Nat) : (s.eventTo w c x).fcp = s.fcp := by
  cases w <;> simp [State.eventTo]
@[simp] theorem State.eventTo_plan (w : Option Nat) (c x : Nat) : (s.eventTo w c x).plan = s.plan := by
  cases w <;> simp [State.eventTo]
@[simp] theorem State.eventTo_store (w : Option Nat) (c x : Nat) : (s.eventTo w c x).store = s.store := by
  cases w <;> simp [State.eventTo]
@[simp] theorem State.eventTo_jnl (w : Option Nat) (c x : Nat) : (s.eventTo w c x).jnl = s.jnl := by
  cases w <;> simp [State.eventTo]
@[simp] theorem State.eventTo_seqs (w : Option Nat) (c x : Nat) : (s.eventTo w c x).seqs = s.seqs := by
  cases w <;> simp [State.eventTo]
@[simp] theorem State.eventTo_sqs (w : Option Nat) (c x : Nat) : (s.eventTo w c x).sqs = s.sqs := by
  cases w <;> simp [State.eventTo]
@[simp] theorem State.eventTo_vs (w : Option Nat) (c x : Nat) : (s.eventTo w c x).vs = s.vs := by
  cases w <;> simp [State.eventTo]
@[simp] theorem State.eventTo_chans (w : Option Nat) (c x : Nat) : (s.eventTo w c x).chans = s.chans := by
  cases w <;> simp [State.eventTo]
@[simp] theorem State.eventTo_cbs (w : Option Nat) (c x : Nat) : (s.eventTo w c x).cbs = s.cbs := by
  cases w <;> simp [State.eventTo]
@[simp] theorem State.eventTo_capq (w : Option Nat) (c x : Nat) : (s.eventTo w c x).capq = s.capq := by
  cases w <;> simp [State.eventTo]
@[simp] theorem State.eventTo_arms (w : Option Nat) (c x : Nat) : (s.eventTo w c x).arms = s.arms := by
  cases w <;> simp [State.eventTo]
@[simp] theorem State.eventTo_shut (w : Option Nat) (c x : Nat) : (s.eventTo w c x).shut = s.shut := by
  cases w <;> simp [State.eventTo]
@[simp] theorem State.eventTo_cores (w : Option Nat) (c x : Nat) : (s.eventTo w c x).cores = s.cores := by
  cases w <;> simp [State.eventTo]
@[simp] theorem State.eventTo_ctxs (w : Option Nat) (c x : Nat) : (s.eventTo w c x).ctxs = s.ctxs := by
  cases w <;> simp [State.eventTo]
@[simp] theorem State.eventTo_disp (w : Option Nat) (c x : Nat) : (s.eventTo w c x).disp = s.disp := by
  cases w <;> simp [State.eventTo]
@[simp] theorem State.eventTo_drcs (w : Option Nat) (c x : Nat) : (s.eventTo w c x).drcs = s.drcs := by
  cases w <;> simp [State.eventTo]
@[simp] theorem State.eventTo_lanes (w : Option Nat) (c x : Nat) : (s.eventTo w c x).lanes = s.lanes := by
  cases w <;> simp [State.eventTo]
@[simp] theorem State.eventTo_groups (w : Option Nat) (c x : Nat) : (s.eventTo w c x).groups = s.groups := by
  cases w <;> simp [State.eventTo]
@[simp] theorem State.eventTo_tb (w : Option Nat) (c x : Nat) : (s.eventTo w c x).tb = s.tb := by
  cases w <;> simp [State.eventTo]
@[simp] theorem State.eventTo_trigs (w : Option Nat) (c x : Nat) : (s.eventTo w c x).trigs = s.trigs := by
  cases w <;> simp [State.eventTo]
@[simp] theorem State.eventTo_tims (w : Option Nat) (c x : Nat) : (s.eventTo w c x).tims = s.tims := by
  cases w <;> simp [State.eventTo]
@[simp] theorem State.eventTo_conv (w : Option Nat) (c x : Nat) : (s.eventTo w c x).conv = s.conv := by
  cases w <;> simp [State.eventTo]
@[simp] theorem State.eventTo_thm (w : Option Nat) (c x : Nat) : (s.eventTo w c x).thm = s.thm := by
  cases w <;> simp [State.eventTo]
@[simp] theorem State.eventTo_cal (w : Option Nat) (c x : Nat) : (s.eventTo w c x).cal = s.cal := by
  cases w <;> simp [State.eventTo]
@[simp] theorem State.eventTo_flt (w : Option Nat) (c x : Nat) : (s.eventTo w c x).flt = s.flt := by
  cases w <;> simp [State.eventTo]
@[simp] theorem State.eventTo_ra (w : Option Nat) (c x : Nat) : (s.eventTo w c x).ra = s.ra := by
  cases w <;> simp [State.eventTo]
@[simp] theorem State.eventTo_raHeld (w : Option Nat) (c x : Nat) : (s.eventTo w c x).raHeld = s.raHeld := by
  cases w <;> simp [State.eventTo]
@[simp] theorem State.eventTo_twin (w : Option Nat) (c x : Nat) : (s.eventTo w c x).twin = s.twin := by
  cases w <;> simp [State.eventTo]
@[simp] theorem State.eventTo_units (w : Option Nat) (c x : Nat) : (s.eventTo w c x).units = s.units := by
  cases w <;> simp [State.eventTo]
@[simp] theorem State.eventTo_recs (w : Option Nat) (c x : Nat) : (s.eventTo w c x).recs = s.recs := by
  cases w <;> simp [State.eventTo]
@[simp] theorem State.eventTo_pwr (w : Option Nat) (c x : Nat) : (s.eventTo w c x).pwr = s.pwr := by
  cases w <;> simp [State.eventTo]

/-! ### eventAt -/

@[simp] theorem State.eventAt_pending (w : Option Nat) (c : Nat) (t : Stamp) (x : Nat) : (s.eventAt w c t x).pending = s.pending := by
  cases w <;> simp [State.eventAt]
@[simp] theorem State.eventAt_outs (w : Option Nat) (c : Nat) (t : Stamp) (x : Nat) : (s.eventAt w c t x).outs = s.outs := by
  cases w <;> simp [State.eventAt]
@[simp] theorem State.eventAt_fresh (w : Option Nat) (c : Nat) (t : Stamp) (x : Nat) : (s.eventAt w c t x).fresh = s.fresh := by
  cases w <;> simp [State.eventAt]
@[simp] theorem State.eventAt_regs (w : Option Nat) (c : Nat) (t : Stamp) (x : Nat) : (s.eventAt w c t x).regs = s.regs := by
  cases w <;> simp [State.eventAt]
@[simp] theorem State.eventAt_mem (w : Option Nat) (c : Nat) (t : Stamp) (x : Nat) : (s.eventAt w c t x).mem = s.mem := by
  cases w <;> simp [State.eventAt]
@[simp] theorem State.eventAt_ecc (w : Option Nat) (c : Nat) (t : Stamp) (x : Nat) : (s.eventAt w c t x).ecc = s.ecc := by
  cases w <;> simp [State.eventAt]
@[simp] theorem State.eventAt_rangeArmed (w : Option Nat) (c : Nat) (t : Stamp) (x : Nat) : (s.eventAt w c t x).rangeArmed = s.rangeArmed := by
  cases w <;> simp [State.eventAt]
@[simp] theorem State.eventAt_nvm (w : Option Nat) (c : Nat) (t : Stamp) (x : Nat) : (s.eventAt w c t x).nvm = s.nvm := by
  cases w <;> simp [State.eventAt]
@[simp] theorem State.eventAt_nvmEcc (w : Option Nat) (c : Nat) (t : Stamp) (x : Nat) : (s.eventAt w c t x).nvmEcc = s.nvmEcc := by
  cases w <;> simp [State.eventAt]
@[simp] theorem State.eventAt_ports (w : Option Nat) (c : Nat) (t : Stamp) (x : Nat) : (s.eventAt w c t x).ports = s.ports := by
  cases w <;> simp [State.eventAt]
@[simp] theorem State.eventAt_cmds (w : Option Nat) (c : Nat) (t : Stamp) (x : Nat) : (s.eventAt w c t x).cmds = s.cmds := by
  cases w <;> simp [State.eventAt]
@[simp] theorem State.eventAt_fcp (w : Option Nat) (c : Nat) (t : Stamp) (x : Nat) : (s.eventAt w c t x).fcp = s.fcp := by
  cases w <;> simp [State.eventAt]
@[simp] theorem State.eventAt_plan (w : Option Nat) (c : Nat) (t : Stamp) (x : Nat) : (s.eventAt w c t x).plan = s.plan := by
  cases w <;> simp [State.eventAt]
@[simp] theorem State.eventAt_store (w : Option Nat) (c : Nat) (t : Stamp) (x : Nat) : (s.eventAt w c t x).store = s.store := by
  cases w <;> simp [State.eventAt]
@[simp] theorem State.eventAt_jnl (w : Option Nat) (c : Nat) (t : Stamp) (x : Nat) : (s.eventAt w c t x).jnl = s.jnl := by
  cases w <;> simp [State.eventAt]
@[simp] theorem State.eventAt_seqs (w : Option Nat) (c : Nat) (t : Stamp) (x : Nat) : (s.eventAt w c t x).seqs = s.seqs := by
  cases w <;> simp [State.eventAt]
@[simp] theorem State.eventAt_sqs (w : Option Nat) (c : Nat) (t : Stamp) (x : Nat) : (s.eventAt w c t x).sqs = s.sqs := by
  cases w <;> simp [State.eventAt]
@[simp] theorem State.eventAt_vs (w : Option Nat) (c : Nat) (t : Stamp) (x : Nat) : (s.eventAt w c t x).vs = s.vs := by
  cases w <;> simp [State.eventAt]
@[simp] theorem State.eventAt_chans (w : Option Nat) (c : Nat) (t : Stamp) (x : Nat) : (s.eventAt w c t x).chans = s.chans := by
  cases w <;> simp [State.eventAt]
@[simp] theorem State.eventAt_cbs (w : Option Nat) (c : Nat) (t : Stamp) (x : Nat) : (s.eventAt w c t x).cbs = s.cbs := by
  cases w <;> simp [State.eventAt]
@[simp] theorem State.eventAt_capq (w : Option Nat) (c : Nat) (t : Stamp) (x : Nat) : (s.eventAt w c t x).capq = s.capq := by
  cases w <;> simp [State.eventAt]
@[simp] theorem State.eventAt_arms (w : Option Nat) (c : Nat) (t : Stamp) (x : Nat) : (s.eventAt w c t x).arms = s.arms := by
  cases w <;> simp [State.eventAt]
@[simp] theorem State.eventAt_shut (w : Option Nat) (c : Nat) (t : Stamp) (x : Nat) : (s.eventAt w c t x).shut = s.shut := by
  cases w <;> simp [State.eventAt]
@[simp] theorem State.eventAt_cores (w : Option Nat) (c : Nat) (t : Stamp) (x : Nat) : (s.eventAt w c t x).cores = s.cores := by
  cases w <;> simp [State.eventAt]
@[simp] theorem State.eventAt_ctxs (w : Option Nat) (c : Nat) (t : Stamp) (x : Nat) : (s.eventAt w c t x).ctxs = s.ctxs := by
  cases w <;> simp [State.eventAt]
@[simp] theorem State.eventAt_disp (w : Option Nat) (c : Nat) (t : Stamp) (x : Nat) : (s.eventAt w c t x).disp = s.disp := by
  cases w <;> simp [State.eventAt]
@[simp] theorem State.eventAt_drcs (w : Option Nat) (c : Nat) (t : Stamp) (x : Nat) : (s.eventAt w c t x).drcs = s.drcs := by
  cases w <;> simp [State.eventAt]
@[simp] theorem State.eventAt_lanes (w : Option Nat) (c : Nat) (t : Stamp) (x : Nat) : (s.eventAt w c t x).lanes = s.lanes := by
  cases w <;> simp [State.eventAt]
@[simp] theorem State.eventAt_groups (w : Option Nat) (c : Nat) (t : Stamp) (x : Nat) : (s.eventAt w c t x).groups = s.groups := by
  cases w <;> simp [State.eventAt]
@[simp] theorem State.eventAt_tb (w : Option Nat) (c : Nat) (t : Stamp) (x : Nat) : (s.eventAt w c t x).tb = s.tb := by
  cases w <;> simp [State.eventAt]
@[simp] theorem State.eventAt_trigs (w : Option Nat) (c : Nat) (t : Stamp) (x : Nat) : (s.eventAt w c t x).trigs = s.trigs := by
  cases w <;> simp [State.eventAt]
@[simp] theorem State.eventAt_tims (w : Option Nat) (c : Nat) (t : Stamp) (x : Nat) : (s.eventAt w c t x).tims = s.tims := by
  cases w <;> simp [State.eventAt]
@[simp] theorem State.eventAt_conv (w : Option Nat) (c : Nat) (t : Stamp) (x : Nat) : (s.eventAt w c t x).conv = s.conv := by
  cases w <;> simp [State.eventAt]
@[simp] theorem State.eventAt_thm (w : Option Nat) (c : Nat) (t : Stamp) (x : Nat) : (s.eventAt w c t x).thm = s.thm := by
  cases w <;> simp [State.eventAt]
@[simp] theorem State.eventAt_cal (w : Option Nat) (c : Nat) (t : Stamp) (x : Nat) : (s.eventAt w c t x).cal = s.cal := by
  cases w <;> simp [State.eventAt]
@[simp] theorem State.eventAt_flt (w : Option Nat) (c : Nat) (t : Stamp) (x : Nat) : (s.eventAt w c t x).flt = s.flt := by
  cases w <;> simp [State.eventAt]
@[simp] theorem State.eventAt_ra (w : Option Nat) (c : Nat) (t : Stamp) (x : Nat) : (s.eventAt w c t x).ra = s.ra := by
  cases w <;> simp [State.eventAt]
@[simp] theorem State.eventAt_raHeld (w : Option Nat) (c : Nat) (t : Stamp) (x : Nat) : (s.eventAt w c t x).raHeld = s.raHeld := by
  cases w <;> simp [State.eventAt]
@[simp] theorem State.eventAt_twin (w : Option Nat) (c : Nat) (t : Stamp) (x : Nat) : (s.eventAt w c t x).twin = s.twin := by
  cases w <;> simp [State.eventAt]
@[simp] theorem State.eventAt_units (w : Option Nat) (c : Nat) (t : Stamp) (x : Nat) : (s.eventAt w c t x).units = s.units := by
  cases w <;> simp [State.eventAt]
@[simp] theorem State.eventAt_recs (w : Option Nat) (c : Nat) (t : Stamp) (x : Nat) : (s.eventAt w c t x).recs = s.recs := by
  cases w <;> simp [State.eventAt]
@[simp] theorem State.eventAt_pwr (w : Option Nat) (c : Nat) (t : Stamp) (x : Nat) : (s.eventAt w c t x).pwr = s.pwr := by
  cases w <;> simp [State.eventAt]

/-! ### Loops -/

/-- A loop keeps what each of its rounds keeps. -/
theorem forEach_keeps {α β γ : Type} (g : β → γ) (l : List α) (b : β) (f : α → β → β) (h : ∀ x c, g (f x c) = g c) :
    g (forEach l b f) = g b := by
  unfold forEach
  induction l generalizing b with
  | nil => rfl
  | cons x t ih => rw [List.foldl_cons, ih, h]

@[simp] theorem State.eventAll_pending (c x : Nat) : (s.eventAll c x).pending = s.pending :=
  forEach_keeps (·.pending) _ s _ (fun w t => by simp)
@[simp] theorem State.eventAll_outs (c x : Nat) : (s.eventAll c x).outs = s.outs :=
  forEach_keeps (·.outs) _ s _ (fun w t => by simp)
@[simp] theorem State.eventAll_fresh (c x : Nat) : (s.eventAll c x).fresh = s.fresh :=
  forEach_keeps (·.fresh) _ s _ (fun w t => by simp)
@[simp] theorem State.eventAll_regs (c x : Nat) : (s.eventAll c x).regs = s.regs :=
  forEach_keeps (·.regs) _ s _ (fun w t => by simp)
@[simp] theorem State.eventAll_mem (c x : Nat) : (s.eventAll c x).mem = s.mem :=
  forEach_keeps (·.mem) _ s _ (fun w t => by simp)
@[simp] theorem State.eventAll_ecc (c x : Nat) : (s.eventAll c x).ecc = s.ecc :=
  forEach_keeps (·.ecc) _ s _ (fun w t => by simp)
@[simp] theorem State.eventAll_rangeArmed (c x : Nat) : (s.eventAll c x).rangeArmed = s.rangeArmed :=
  forEach_keeps (·.rangeArmed) _ s _ (fun w t => by simp)
@[simp] theorem State.eventAll_nvm (c x : Nat) : (s.eventAll c x).nvm = s.nvm :=
  forEach_keeps (·.nvm) _ s _ (fun w t => by simp)
@[simp] theorem State.eventAll_nvmEcc (c x : Nat) : (s.eventAll c x).nvmEcc = s.nvmEcc :=
  forEach_keeps (·.nvmEcc) _ s _ (fun w t => by simp)
@[simp] theorem State.eventAll_ports (c x : Nat) : (s.eventAll c x).ports = s.ports :=
  forEach_keeps (·.ports) _ s _ (fun w t => by simp)
@[simp] theorem State.eventAll_cmds (c x : Nat) : (s.eventAll c x).cmds = s.cmds :=
  forEach_keeps (·.cmds) _ s _ (fun w t => by simp)
@[simp] theorem State.eventAll_fcp (c x : Nat) : (s.eventAll c x).fcp = s.fcp :=
  forEach_keeps (·.fcp) _ s _ (fun w t => by simp)
@[simp] theorem State.eventAll_plan (c x : Nat) : (s.eventAll c x).plan = s.plan :=
  forEach_keeps (·.plan) _ s _ (fun w t => by simp)
@[simp] theorem State.eventAll_store (c x : Nat) : (s.eventAll c x).store = s.store :=
  forEach_keeps (·.store) _ s _ (fun w t => by simp)
@[simp] theorem State.eventAll_jnl (c x : Nat) : (s.eventAll c x).jnl = s.jnl :=
  forEach_keeps (·.jnl) _ s _ (fun w t => by simp)
@[simp] theorem State.eventAll_seqs (c x : Nat) : (s.eventAll c x).seqs = s.seqs :=
  forEach_keeps (·.seqs) _ s _ (fun w t => by simp)
@[simp] theorem State.eventAll_sqs (c x : Nat) : (s.eventAll c x).sqs = s.sqs :=
  forEach_keeps (·.sqs) _ s _ (fun w t => by simp)
@[simp] theorem State.eventAll_vs (c x : Nat) : (s.eventAll c x).vs = s.vs :=
  forEach_keeps (·.vs) _ s _ (fun w t => by simp)
@[simp] theorem State.eventAll_chans (c x : Nat) : (s.eventAll c x).chans = s.chans :=
  forEach_keeps (·.chans) _ s _ (fun w t => by simp)
@[simp] theorem State.eventAll_cbs (c x : Nat) : (s.eventAll c x).cbs = s.cbs :=
  forEach_keeps (·.cbs) _ s _ (fun w t => by simp)
@[simp] theorem State.eventAll_capq (c x : Nat) : (s.eventAll c x).capq = s.capq :=
  forEach_keeps (·.capq) _ s _ (fun w t => by simp)
@[simp] theorem State.eventAll_arms (c x : Nat) : (s.eventAll c x).arms = s.arms :=
  forEach_keeps (·.arms) _ s _ (fun w t => by simp)
@[simp] theorem State.eventAll_shut (c x : Nat) : (s.eventAll c x).shut = s.shut :=
  forEach_keeps (·.shut) _ s _ (fun w t => by simp)
@[simp] theorem State.eventAll_cores (c x : Nat) : (s.eventAll c x).cores = s.cores :=
  forEach_keeps (·.cores) _ s _ (fun w t => by simp)
@[simp] theorem State.eventAll_ctxs (c x : Nat) : (s.eventAll c x).ctxs = s.ctxs :=
  forEach_keeps (·.ctxs) _ s _ (fun w t => by simp)
@[simp] theorem State.eventAll_disp (c x : Nat) : (s.eventAll c x).disp = s.disp :=
  forEach_keeps (·.disp) _ s _ (fun w t => by simp)
@[simp] theorem State.eventAll_drcs (c x : Nat) : (s.eventAll c x).drcs = s.drcs :=
  forEach_keeps (·.drcs) _ s _ (fun w t => by simp)
@[simp] theorem State.eventAll_lanes (c x : Nat) : (s.eventAll c x).lanes = s.lanes :=
  forEach_keeps (·.lanes) _ s _ (fun w t => by simp)
@[simp] theorem State.eventAll_groups (c x : Nat) : (s.eventAll c x).groups = s.groups :=
  forEach_keeps (·.groups) _ s _ (fun w t => by simp)
@[simp] theorem State.eventAll_tb (c x : Nat) : (s.eventAll c x).tb = s.tb :=
  forEach_keeps (·.tb) _ s _ (fun w t => by simp)
@[simp] theorem State.eventAll_trigs (c x : Nat) : (s.eventAll c x).trigs = s.trigs :=
  forEach_keeps (·.trigs) _ s _ (fun w t => by simp)
@[simp] theorem State.eventAll_tims (c x : Nat) : (s.eventAll c x).tims = s.tims :=
  forEach_keeps (·.tims) _ s _ (fun w t => by simp)
@[simp] theorem State.eventAll_conv (c x : Nat) : (s.eventAll c x).conv = s.conv :=
  forEach_keeps (·.conv) _ s _ (fun w t => by simp)
@[simp] theorem State.eventAll_thm (c x : Nat) : (s.eventAll c x).thm = s.thm :=
  forEach_keeps (·.thm) _ s _ (fun w t => by simp)
@[simp] theorem State.eventAll_cal (c x : Nat) : (s.eventAll c x).cal = s.cal :=
  forEach_keeps (·.cal) _ s _ (fun w t => by simp)
@[simp] theorem State.eventAll_flt (c x : Nat) : (s.eventAll c x).flt = s.flt :=
  forEach_keeps (·.flt) _ s _ (fun w t => by simp)
@[simp] theorem State.eventAll_ra (c x : Nat) : (s.eventAll c x).ra = s.ra :=
  forEach_keeps (·.ra) _ s _ (fun w t => by simp)
@[simp] theorem State.eventAll_raHeld (c x : Nat) : (s.eventAll c x).raHeld = s.raHeld :=
  forEach_keeps (·.raHeld) _ s _ (fun w t => by simp)
@[simp] theorem State.eventAll_twin (c x : Nat) : (s.eventAll c x).twin = s.twin :=
  forEach_keeps (·.twin) _ s _ (fun w t => by simp)
@[simp] theorem State.eventAll_units (c x : Nat) : (s.eventAll c x).units = s.units :=
  forEach_keeps (·.units) _ s _ (fun w t => by simp)
@[simp] theorem State.eventAll_recs (c x : Nat) : (s.eventAll c x).recs = s.recs :=
  forEach_keeps (·.recs) _ s _ (fun w t => by simp)
@[simp] theorem State.eventAll_pwr (c x : Nat) : (s.eventAll c x).pwr = s.pwr :=
  forEach_keeps (·.pwr) _ s _ (fun w t => by simp)

/-! ### Byte strings -/

@[simp] theorem State.st_pending (a : Nat) (l : List Byte) : (s.st a l).pending = s.pending := by
  induction l generalizing s a with
  | nil => rfl
  | cons b t ih => exact (ih (s.stB a b) (a + 1))
@[simp] theorem State.st_outs (a : Nat) (l : List Byte) : (s.st a l).outs = s.outs := by
  induction l generalizing s a with
  | nil => rfl
  | cons b t ih => exact (ih (s.stB a b) (a + 1))
@[simp] theorem State.st_fresh (a : Nat) (l : List Byte) : (s.st a l).fresh = s.fresh := by
  induction l generalizing s a with
  | nil => rfl
  | cons b t ih => exact (ih (s.stB a b) (a + 1))
@[simp] theorem State.st_regs (a : Nat) (l : List Byte) : (s.st a l).regs = s.regs := by
  induction l generalizing s a with
  | nil => rfl
  | cons b t ih => exact (ih (s.stB a b) (a + 1))
@[simp] theorem State.st_ecc (a : Nat) (l : List Byte) : (s.st a l).ecc = s.ecc := by
  induction l generalizing s a with
  | nil => rfl
  | cons b t ih => exact (ih (s.stB a b) (a + 1))
@[simp] theorem State.st_rangeArmed (a : Nat) (l : List Byte) : (s.st a l).rangeArmed = s.rangeArmed := by
  induction l generalizing s a with
  | nil => rfl
  | cons b t ih => exact (ih (s.stB a b) (a + 1))
@[simp] theorem State.st_nvm (a : Nat) (l : List Byte) : (s.st a l).nvm = s.nvm := by
  induction l generalizing s a with
  | nil => rfl
  | cons b t ih => exact (ih (s.stB a b) (a + 1))
@[simp] theorem State.st_nvmEcc (a : Nat) (l : List Byte) : (s.st a l).nvmEcc = s.nvmEcc := by
  induction l generalizing s a with
  | nil => rfl
  | cons b t ih => exact (ih (s.stB a b) (a + 1))
@[simp] theorem State.st_ports (a : Nat) (l : List Byte) : (s.st a l).ports = s.ports := by
  induction l generalizing s a with
  | nil => rfl
  | cons b t ih => exact (ih (s.stB a b) (a + 1))
@[simp] theorem State.st_wards (a : Nat) (l : List Byte) : (s.st a l).wards = s.wards := by
  induction l generalizing s a with
  | nil => rfl
  | cons b t ih => exact (ih (s.stB a b) (a + 1))
@[simp] theorem State.st_cmds (a : Nat) (l : List Byte) : (s.st a l).cmds = s.cmds := by
  induction l generalizing s a with
  | nil => rfl
  | cons b t ih => exact (ih (s.stB a b) (a + 1))
@[simp] theorem State.st_fcp (a : Nat) (l : List Byte) : (s.st a l).fcp = s.fcp := by
  induction l generalizing s a with
  | nil => rfl
  | cons b t ih => exact (ih (s.stB a b) (a + 1))
@[simp] theorem State.st_plan (a : Nat) (l : List Byte) : (s.st a l).plan = s.plan := by
  induction l generalizing s a with
  | nil => rfl
  | cons b t ih => exact (ih (s.stB a b) (a + 1))
@[simp] theorem State.st_store (a : Nat) (l : List Byte) : (s.st a l).store = s.store := by
  induction l generalizing s a with
  | nil => rfl
  | cons b t ih => exact (ih (s.stB a b) (a + 1))
@[simp] theorem State.st_jnl (a : Nat) (l : List Byte) : (s.st a l).jnl = s.jnl := by
  induction l generalizing s a with
  | nil => rfl
  | cons b t ih => exact (ih (s.stB a b) (a + 1))
@[simp] theorem State.st_seqs (a : Nat) (l : List Byte) : (s.st a l).seqs = s.seqs := by
  induction l generalizing s a with
  | nil => rfl
  | cons b t ih => exact (ih (s.stB a b) (a + 1))
@[simp] theorem State.st_sqs (a : Nat) (l : List Byte) : (s.st a l).sqs = s.sqs := by
  induction l generalizing s a with
  | nil => rfl
  | cons b t ih => exact (ih (s.stB a b) (a + 1))
@[simp] theorem State.st_vs (a : Nat) (l : List Byte) : (s.st a l).vs = s.vs := by
  induction l generalizing s a with
  | nil => rfl
  | cons b t ih => exact (ih (s.stB a b) (a + 1))
@[simp] theorem State.st_chans (a : Nat) (l : List Byte) : (s.st a l).chans = s.chans := by
  induction l generalizing s a with
  | nil => rfl
  | cons b t ih => exact (ih (s.stB a b) (a + 1))
@[simp] theorem State.st_cbs (a : Nat) (l : List Byte) : (s.st a l).cbs = s.cbs := by
  induction l generalizing s a with
  | nil => rfl
  | cons b t ih => exact (ih (s.stB a b) (a + 1))
@[simp] theorem State.st_capq (a : Nat) (l : List Byte) : (s.st a l).capq = s.capq := by
  induction l generalizing s a with
  | nil => rfl
  | cons b t ih => exact (ih (s.stB a b) (a + 1))
@[simp] theorem State.st_arms (a : Nat) (l : List Byte) : (s.st a l).arms = s.arms := by
  induction l generalizing s a with
  | nil => rfl
  | cons b t ih => exact (ih (s.stB a b) (a + 1))
@[simp] theorem State.st_shut (a : Nat) (l : List Byte) : (s.st a l).shut = s.shut := by
  induction l generalizing s a with
  | nil => rfl
  | cons b t ih => exact (ih (s.stB a b) (a + 1))
@[simp] theorem State.st_cores (a : Nat) (l : List Byte) : (s.st a l).cores = s.cores := by
  induction l generalizing s a with
  | nil => rfl
  | cons b t ih => exact (ih (s.stB a b) (a + 1))
@[simp] theorem State.st_ctxs (a : Nat) (l : List Byte) : (s.st a l).ctxs = s.ctxs := by
  induction l generalizing s a with
  | nil => rfl
  | cons b t ih => exact (ih (s.stB a b) (a + 1))
@[simp] theorem State.st_disp (a : Nat) (l : List Byte) : (s.st a l).disp = s.disp := by
  induction l generalizing s a with
  | nil => rfl
  | cons b t ih => exact (ih (s.stB a b) (a + 1))
@[simp] theorem State.st_drcs (a : Nat) (l : List Byte) : (s.st a l).drcs = s.drcs := by
  induction l generalizing s a with
  | nil => rfl
  | cons b t ih => exact (ih (s.stB a b) (a + 1))
@[simp] theorem State.st_lanes (a : Nat) (l : List Byte) : (s.st a l).lanes = s.lanes := by
  induction l generalizing s a with
  | nil => rfl
  | cons b t ih => exact (ih (s.stB a b) (a + 1))
@[simp] theorem State.st_groups (a : Nat) (l : List Byte) : (s.st a l).groups = s.groups := by
  induction l generalizing s a with
  | nil => rfl
  | cons b t ih => exact (ih (s.stB a b) (a + 1))
@[simp] theorem State.st_tb (a : Nat) (l : List Byte) : (s.st a l).tb = s.tb := by
  induction l generalizing s a with
  | nil => rfl
  | cons b t ih => exact (ih (s.stB a b) (a + 1))
@[simp] theorem State.st_trigs (a : Nat) (l : List Byte) : (s.st a l).trigs = s.trigs := by
  induction l generalizing s a with
  | nil => rfl
  | cons b t ih => exact (ih (s.stB a b) (a + 1))
@[simp] theorem State.st_tims (a : Nat) (l : List Byte) : (s.st a l).tims = s.tims := by
  induction l generalizing s a with
  | nil => rfl
  | cons b t ih => exact (ih (s.stB a b) (a + 1))
@[simp] theorem State.st_conv (a : Nat) (l : List Byte) : (s.st a l).conv = s.conv := by
  induction l generalizing s a with
  | nil => rfl
  | cons b t ih => exact (ih (s.stB a b) (a + 1))
@[simp] theorem State.st_thm (a : Nat) (l : List Byte) : (s.st a l).thm = s.thm := by
  induction l generalizing s a with
  | nil => rfl
  | cons b t ih => exact (ih (s.stB a b) (a + 1))
@[simp] theorem State.st_cal (a : Nat) (l : List Byte) : (s.st a l).cal = s.cal := by
  induction l generalizing s a with
  | nil => rfl
  | cons b t ih => exact (ih (s.stB a b) (a + 1))
@[simp] theorem State.st_flt (a : Nat) (l : List Byte) : (s.st a l).flt = s.flt := by
  induction l generalizing s a with
  | nil => rfl
  | cons b t ih => exact (ih (s.stB a b) (a + 1))
@[simp] theorem State.st_ra (a : Nat) (l : List Byte) : (s.st a l).ra = s.ra := by
  induction l generalizing s a with
  | nil => rfl
  | cons b t ih => exact (ih (s.stB a b) (a + 1))
@[simp] theorem State.st_raHeld (a : Nat) (l : List Byte) : (s.st a l).raHeld = s.raHeld := by
  induction l generalizing s a with
  | nil => rfl
  | cons b t ih => exact (ih (s.stB a b) (a + 1))
@[simp] theorem State.st_twin (a : Nat) (l : List Byte) : (s.st a l).twin = s.twin := by
  induction l generalizing s a with
  | nil => rfl
  | cons b t ih => exact (ih (s.stB a b) (a + 1))
@[simp] theorem State.st_units (a : Nat) (l : List Byte) : (s.st a l).units = s.units := by
  induction l generalizing s a with
  | nil => rfl
  | cons b t ih => exact (ih (s.stB a b) (a + 1))
@[simp] theorem State.st_recs (a : Nat) (l : List Byte) : (s.st a l).recs = s.recs := by
  induction l generalizing s a with
  | nil => rfl
  | cons b t ih => exact (ih (s.stB a b) (a + 1))
@[simp] theorem State.st_pwr (a : Nat) (l : List Byte) : (s.st a l).pwr = s.pwr := by
  induction l generalizing s a with
  | nil => rfl
  | cons b t ih => exact (ih (s.stB a b) (a + 1))
@[simp] theorem State.nvSt_pending (a : Nat) (l : List Byte) : (s.nvSt a l).pending = s.pending := rfl
@[simp] theorem State.nvSt_outs (a : Nat) (l : List Byte) : (s.nvSt a l).outs = s.outs := rfl
@[simp] theorem State.nvSt_fresh (a : Nat) (l : List Byte) : (s.nvSt a l).fresh = s.fresh := rfl
@[simp] theorem State.nvSt_regs (a : Nat) (l : List Byte) : (s.nvSt a l).regs = s.regs := rfl
@[simp] theorem State.nvSt_mem (a : Nat) (l : List Byte) : (s.nvSt a l).mem = s.mem := rfl
@[simp] theorem State.nvSt_ecc (a : Nat) (l : List Byte) : (s.nvSt a l).ecc = s.ecc := rfl
@[simp] theorem State.nvSt_rangeArmed (a : Nat) (l : List Byte) : (s.nvSt a l).rangeArmed = s.rangeArmed := rfl
@[simp] theorem State.nvSt_ports (a : Nat) (l : List Byte) : (s.nvSt a l).ports = s.ports := rfl
@[simp] theorem State.nvSt_wards (a : Nat) (l : List Byte) : (s.nvSt a l).wards = s.wards := rfl
@[simp] theorem State.nvSt_cmds (a : Nat) (l : List Byte) : (s.nvSt a l).cmds = s.cmds := rfl
@[simp] theorem State.nvSt_fcp (a : Nat) (l : List Byte) : (s.nvSt a l).fcp = s.fcp := rfl
@[simp] theorem State.nvSt_plan (a : Nat) (l : List Byte) : (s.nvSt a l).plan = s.plan := rfl
@[simp] theorem State.nvSt_store (a : Nat) (l : List Byte) : (s.nvSt a l).store = s.store := rfl
@[simp] theorem State.nvSt_jnl (a : Nat) (l : List Byte) : (s.nvSt a l).jnl = s.jnl := rfl
@[simp] theorem State.nvSt_seqs (a : Nat) (l : List Byte) : (s.nvSt a l).seqs = s.seqs := rfl
@[simp] theorem State.nvSt_sqs (a : Nat) (l : List Byte) : (s.nvSt a l).sqs = s.sqs := rfl
@[simp] theorem State.nvSt_vs (a : Nat) (l : List Byte) : (s.nvSt a l).vs = s.vs := rfl
@[simp] theorem State.nvSt_chans (a : Nat) (l : List Byte) : (s.nvSt a l).chans = s.chans := rfl
@[simp] theorem State.nvSt_cbs (a : Nat) (l : List Byte) : (s.nvSt a l).cbs = s.cbs := rfl
@[simp] theorem State.nvSt_capq (a : Nat) (l : List Byte) : (s.nvSt a l).capq = s.capq := rfl
@[simp] theorem State.nvSt_arms (a : Nat) (l : List Byte) : (s.nvSt a l).arms = s.arms := rfl
@[simp] theorem State.nvSt_shut (a : Nat) (l : List Byte) : (s.nvSt a l).shut = s.shut := rfl
@[simp] theorem State.nvSt_cores (a : Nat) (l : List Byte) : (s.nvSt a l).cores = s.cores := rfl
@[simp] theorem State.nvSt_ctxs (a : Nat) (l : List Byte) : (s.nvSt a l).ctxs = s.ctxs := rfl
@[simp] theorem State.nvSt_disp (a : Nat) (l : List Byte) : (s.nvSt a l).disp = s.disp := rfl
@[simp] theorem State.nvSt_drcs (a : Nat) (l : List Byte) : (s.nvSt a l).drcs = s.drcs := rfl
@[simp] theorem State.nvSt_lanes (a : Nat) (l : List Byte) : (s.nvSt a l).lanes = s.lanes := rfl
@[simp] theorem State.nvSt_groups (a : Nat) (l : List Byte) : (s.nvSt a l).groups = s.groups := rfl
@[simp] theorem State.nvSt_tb (a : Nat) (l : List Byte) : (s.nvSt a l).tb = s.tb := rfl
@[simp] theorem State.nvSt_trigs (a : Nat) (l : List Byte) : (s.nvSt a l).trigs = s.trigs := rfl
@[simp] theorem State.nvSt_tims (a : Nat) (l : List Byte) : (s.nvSt a l).tims = s.tims := rfl
@[simp] theorem State.nvSt_conv (a : Nat) (l : List Byte) : (s.nvSt a l).conv = s.conv := rfl
@[simp] theorem State.nvSt_thm (a : Nat) (l : List Byte) : (s.nvSt a l).thm = s.thm := rfl
@[simp] theorem State.nvSt_cal (a : Nat) (l : List Byte) : (s.nvSt a l).cal = s.cal := rfl
@[simp] theorem State.nvSt_flt (a : Nat) (l : List Byte) : (s.nvSt a l).flt = s.flt := rfl
@[simp] theorem State.nvSt_ra (a : Nat) (l : List Byte) : (s.nvSt a l).ra = s.ra := rfl
@[simp] theorem State.nvSt_raHeld (a : Nat) (l : List Byte) : (s.nvSt a l).raHeld = s.raHeld := rfl
@[simp] theorem State.nvSt_twin (a : Nat) (l : List Byte) : (s.nvSt a l).twin = s.twin := rfl
@[simp] theorem State.nvSt_units (a : Nat) (l : List Byte) : (s.nvSt a l).units = s.units := rfl
@[simp] theorem State.nvSt_recs (a : Nat) (l : List Byte) : (s.nvSt a l).recs = s.recs := rfl
@[simp] theorem State.nvSt_pwr (a : Nat) (l : List Byte) : (s.nvSt a l).pwr = s.pwr := rfl

end Sys2Proof.Machine
end

