-- ==== Sys2Proof/Laws/Tab.lean ====
section
/-! SUPPORT. What the sparse tables and the bit fields do: a read after a write, the other keys, and the canonical form. -/

namespace Sys2Proof.Machine

variable {α : Type}

/-! ### Sparse tables -/

@[simp] theorem tabGet_nil (d : α) (i : Nat) : tabGet d [] i = d := rfl

theorem tabGet_cons (d : α) (p : Nat × α) (t : Tab α) (i : Nat) :
    tabGet d (p :: t) i = if i = p.1 then p.2 else tabGet d t i := rfl

theorem tabGet_tabErase_self (d : α) (t : Tab α) (i : Nat) : tabGet d (tabErase i t) i = d := by
  induction t with
  | nil => rfl
  | cons p t ih =>
    by_cases h : p.1 = i
    · simpa [tabErase, h] using ih
    · have h' : ¬ i = p.1 := fun e => h e.symm
      simp only [tabErase, List.filter_cons] at ih ⊢
      simp [h, h', tabGet_cons, ih]

theorem tabGet_tabErase_ne (d : α) (t : Tab α) {i j : Nat} (h : j ≠ i) : tabGet d (tabErase i t) j = tabGet d t j := by
  induction t with
  | nil => rfl
  | cons p t ih =>
    simp only [tabErase, List.filter_cons] at ih ⊢
    by_cases hp : p.1 = i
    · have hj : ¬ j = p.1 := fun e => h (e.trans hp)
      simp [hp] at ih ⊢
      simp [tabGet_cons, hj, ih]
    · simp [hp, tabGet_cons, ih]

theorem tabGet_tabIns_self (d : α) (t : Tab α) (i : Nat) (x : α) (h : tabGet d t i = d) (h2 : ∀ p ∈ t, p.1 ≠ i) :
    tabGet d (tabIns i x t) i = x := by
  induction t with
  | nil => simp [tabIns, tabGet_cons]
  | cons p t ih =>
    have hp : ¬ i = p.1 := fun e => h2 p (by simp) e.symm
    simp only [tabIns]
    split
    · simp [tabGet_cons]
    · rw [tabGet_cons, if_neg hp] at h ⊢
      exact ih h (fun q hq => h2 q (by simp [hq]))

theorem tabGet_tabIns_ne (d : α) (t : Tab α) {i j : Nat} (x : α) (h : j ≠ i) :
    tabGet d (tabIns i x t) j = tabGet d t j := by
  induction t with
  | nil => simp [tabIns, tabGet_cons, h]
  | cons p t ih =>
    simp only [tabIns]
    split
    · simp [tabGet_cons, h]
    · simp [tabGet_cons, ih]

/-- A read gives the value last written at its key. -/
@[simp] theorem tabGet_tabSet_self [DecidableEq α] (d : α) (t : Tab α) (i : Nat) (x : α) :
    tabGet d (tabSet d t i x) i = x := by
  unfold tabSet
  split
  · rename_i h; rw [h, tabGet_tabErase_self]
  · exact tabGet_tabIns_self d _ i x (tabGet_tabErase_self d t i) (by simp [tabErase])

/-- A write leaves every other key alone. -/
theorem tabGet_tabSet_ne [DecidableEq α] (d d' : α) (t : Tab α) {i j : Nat} (x : α) (h : j ≠ i) :
    tabGet d' (tabSet d t i x) j = tabGet d' t j := by
  unfold tabSet
  split
  · exact tabGet_tabErase_ne d' t h
  · rw [tabGet_tabIns_ne d' _ x h, tabGet_tabErase_ne d' t h]

/-- The canonical form in words of keys and entries. -/
theorem tabOk_iff [DecidableEq α] (d : Nat → α) (lo : Nat) (t : Tab α) :
    tabOk d lo t = true ↔ (∀ p ∈ t, lo ≤ p.1 ∧ p.2 ≠ d p.1) ∧ t.Pairwise (fun p q => p.1 < q.1) := by
  induction t generalizing lo with
  | nil => simp [tabOk]
  | cons p t ih =>
    obtain ⟨k, v⟩ := p
    simp only [tabOk, Bool.and_eq_true, Bool.not_eq_true', decide_eq_false_iff_not, decide_eq_true_eq, ih, List.mem_cons,
      List.pairwise_cons]
    constructor
    · rintro ⟨⟨h1, h2⟩, h3, h4⟩
      refine ⟨?_, fun q hq => by have := (h3 q hq).1; omega, h4⟩
      rintro q (rfl | hq)
      · exact ⟨h1, h2⟩
      · exact ⟨by have := (h3 q hq).1; omega, (h3 q hq).2⟩
    · rintro ⟨h1, h2, h3⟩
      refine ⟨h1 (k, v) (Or.inl rfl), fun q hq => ⟨?_, (h1 q (Or.inr hq)).2⟩, h3⟩
      have := h2 q hq
      simpa using this

theorem mem_tabIns {i : Nat} {x : α} {t : Tab α} {q : Nat × α} : q ∈ tabIns i x t ↔ q = (i, x) ∨ q ∈ t := by
  induction t with
  | nil => simp [tabIns]
  | cons p t ih =>
    simp only [tabIns]
    split
    · simp
    · simp only [List.mem_cons, ih]
      tauto

theorem pairwise_tabIns {i : Nat} {x : α} {t : Tab α} (h : t.Pairwise (fun p q => p.1 < q.1)) (h2 : ∀ p ∈ t, p.1 ≠ i) :
    (tabIns i x t).Pairwise (fun p q => p.1 < q.1) := by
  induction t with
  | nil => simp [tabIns]
  | cons p t ih =>
    rw [List.pairwise_cons] at h
    simp only [tabIns]
    split
    · rename_i hlt
      refine List.pairwise_cons.2 ⟨?_, List.pairwise_cons.2 h⟩
      intro q hq
      rcases List.mem_cons.1 hq with rfl | hq
      · exact hlt
      · have := h.1 q hq
        simp only at hlt ⊢; omega
    · rename_i hlt
      refine List.pairwise_cons.2 ⟨?_, ih h.2 (fun q hq => h2 q (by simp [hq]))⟩
      intro q hq
      rcases mem_tabIns.1 hq with rfl | hq
      · have := h2 p (by simp)
        simp only; omega
      · exact h.1 q hq

/-- A write keeps the canonical form. -/
theorem tabOk_tabSet [DecidableEq α] (d : Nat → α) (lo : Nat) (t : Tab α) (i : Nat) (x : α) (hi : lo ≤ i)
    (h : tabOk d lo t = true) : tabOk d lo (tabSet (d i) t i x) = true := by
  rw [tabOk_iff] at h ⊢
  have he : (tabErase i t).Pairwise (fun p q => p.1 < q.1) := h.2.filter _
  unfold tabSet
  split
  · exact ⟨fun p hp => h.1 p (List.mem_filter.1 hp).1, he⟩
  · rename_i hx
    refine ⟨?_, pairwise_tabIns he (by simp [tabErase])⟩
    intro p hp
    rcases mem_tabIns.1 hp with rfl | hp
    · exact ⟨hi, hx⟩
    · exact h.1 p (List.mem_filter.1 hp).1

/-- Dropping a range of keys keeps the canonical form. -/
theorem tabOk_filter [DecidableEq α] (d : Nat → α) (lo : Nat) (t : Tab α) (f : Nat × α → Bool)
    (h : tabOk d lo t = true) : tabOk d lo (t.filter f) = true := by
  rw [tabOk_iff] at h ⊢
  exact ⟨fun p hp => h.1 p (List.mem_filter.1 hp).1, h.2.filter _⟩

theorem tabOk_tabDrop [DecidableEq α] (d : Nat → α) (lo a b : Nat) (t : Tab α)
    (h : tabOk d lo t = true) : tabOk d lo (tabDrop a b t) = true := tabOk_filter d lo t _ h

/-! ### Bit fields -/

/-- The stored word of a field write, bit by bit. -/
theorem setBits_testBit (w : Word) (hi lo v i : Nat) (_hh : hi < 64) (hl : lo ≤ hi) (hi' : i < 64) :
    (setBits w hi lo v).toNat.testBit i =
      if lo ≤ i ∧ i ≤ hi then v.testBit (i - lo) else w.toNat.testBit i := by
  unfold setBits
  simp only [BitVec.toNat_ofNat, Nat.testBit_mod_two_pow, Nat.testBit_or, Nat.testBit_and, Nat.testBit_xor,
    Nat.testBit_shiftLeft, Nat.testBit_two_pow_sub_one]
  by_cases h1 : lo ≤ i
  · by_cases h2 : i ≤ hi
    · have h3 : i - lo < hi + 1 - lo := by omega
      simp [h1, h2, h3, hi']
    · have h3 : ¬ i - lo < hi + 1 - lo := by omega
      simp [h1, h2, h3, hi']
  · simp [h1, hi']

theorem getBits_testBit (w : Word) (hi lo i : Nat) :
    (getBits w hi lo).testBit i = (decide (i < hi + 1 - lo) && w.toNat.testBit (lo + i)) := by
  unfold getBits nbits
  simp [Nat.testBit_mod_two_pow, Nat.testBit_shiftRight]

/-- A field reads as what was written, cut to its width. -/
theorem getBits_setBits (w : Word) (hi lo v : Nat) (hh : hi < 64) (hl : lo ≤ hi) :
    getBits (setBits w hi lo v) hi lo = v % 2 ^ (hi + 1 - lo) := by
  apply Nat.eq_of_testBit_eq
  intro i
  rw [getBits_testBit, Nat.testBit_mod_two_pow]
  by_cases h : i < hi + 1 - lo
  · rw [setBits_testBit w hi lo v (lo + i) hh hl (by omega)]
    have : lo ≤ lo + i ∧ lo + i ≤ hi := by omega
    simp [h, this]
  · simp [h]

/-- A field write leaves every field apart from it alone. -/
theorem getBits_setBits_ne (w : Word) (hi lo v hi' lo' : Nat) (hh : hi < 64) (hl : lo ≤ hi) (hh' : hi' < 64)
    (hd : hi < lo' ∨ hi' < lo) : getBits (setBits w hi lo v) hi' lo' = getBits w hi' lo' := by
  apply Nat.eq_of_testBit_eq
  intro i
  rw [getBits_testBit, getBits_testBit]
  by_cases h : i < hi' + 1 - lo'
  · rw [setBits_testBit w hi lo v (lo' + i) hh hl (by omega)]
    have : ¬ (lo ≤ lo' + i ∧ lo' + i ≤ hi) := by omega
    simp [this]
  · simp [h]

end Sys2Proof.Machine
end

