-- ==== Sys2Proof/Laws/Regs.lean ====
section
/-! SUPPORT. Reads after writes: register words and fields, memory bytes, units, and the canonical form of the arrays. -/

namespace Sys2Proof.Machine

variable (s : State)

/-! ### Register words and fields -/

@[simp] theorem State.rd_wr_self (a : Nat) (w : Word) : (s.wr a w).rd a = w := tabGet_tabSet_self _ _ _ _

theorem State.rd_wr_ne {a b : Nat} (w : Word) (h : b ≠ a) : (s.wr a w).rd b = s.rd b := tabGet_tabSet_ne _ _ _ _ h

/-- A field that lies in its 64-bit register. -/
theorem State.g_p_self (f : FRef) (v : Nat) (hh : f.hi < 64) (hl : f.lo ≤ f.hi) :
    (s.p f v).g f = v % 2 ^ (f.hi + 1 - f.lo) := by
  unfold State.g State.p
  rw [State.rd_wr_self, getBits_setBits _ _ _ _ hh hl]

/-- A field of another register. -/
theorem State.g_p_addr (f f' : FRef) (v : Nat) (h : f'.addr ≠ f.addr) : (s.p f v).g f' = s.g f' := by
  unfold State.g State.p
  rw [State.rd_wr_ne _ _ h]

/-- Another field of any register. -/
theorem State.g_p_ne (f f' : FRef) (v : Nat) (hh : f.hi < 64) (hl : f.lo ≤ f.hi) (hh' : f'.hi < 64)
    (h : f'.addr ≠ f.addr ∨ f.hi < f'.lo ∨ f'.hi < f.lo) : (s.p f v).g f' = s.g f' := by
  by_cases ha : f'.addr = f.addr
  · unfold State.g State.p
    rw [ha, State.rd_wr_self]
    exact getBits_setBits_ne _ _ _ _ _ _ hh hl hh' (by rcases h with h | h; exact absurd ha h; exact h)
  · exact State.g_p_addr s f f' v ha

theorem State.g_wr_addr (f : FRef) (a : Nat) (w : Word) (h : f.addr ≠ a) : (s.wr a w).g f = s.g f := by
  unfold State.g
  rw [State.rd_wr_ne _ _ h]

theorem State.rd_p_ne (f : FRef) (v : Nat) {a : Nat} (h : a ≠ f.addr) : (s.p f v).rd a = s.rd a := State.rd_wr_ne _ _ h

theorem State.gb_pb_self (f : FRef) (b : Bool) (hh : f.hi < 64) (hl : f.lo ≤ f.hi) : (s.pb f b).gb f = b := by
  unfold State.gb State.pb
  rw [State.g_p_self s f _ hh hl]
  have h : 2 ^ 1 ≤ 2 ^ (f.hi + 1 - f.lo) := Nat.pow_le_pow_right (by omega) (by omega)
  cases b
  · simp [b2n]
  · have : 1 % 2 ^ (f.hi + 1 - f.lo) = 1 := Nat.mod_eq_of_lt (by omega)
    simp [b2n, this]

/-- A register word is a function of the register table. -/
theorem State.rd_congr {s t : State} (h : t.regs = s.regs) (a : Nat) : t.rd a = s.rd a := by
  unfold State.rd; rw [h]

/-- A field is a function of the register table. -/
theorem State.g_congr {s t : State} (h : t.regs = s.regs) (f : FRef) : t.g f = s.g f := by
  unfold State.g; rw [State.rd_congr h]

theorem State.gb_congr {s t : State} (h : t.regs = s.regs) (f : FRef) : t.gb f = s.gb f := by
  unfold State.gb; rw [State.g_congr h]

@[simp] theorem State.rd_emit (x : Out) (a₀ : Nat) : (s.emit x).rd a₀ = s.rd a₀ := State.rd_congr (by simp) a₀
@[simp] theorem State.g_emit (x : Out) (f : FRef) : (s.emit x).g f = s.g f := State.g_congr (by simp) f
@[simp] theorem State.gb_emit (x : Out) (f : FRef) : (s.emit x).gb f = s.gb f := State.gb_congr (by simp) f
@[simp] theorem State.rd_useFree (a₀ : Nat) : (s.useFree).rd a₀ = s.rd a₀ := State.rd_congr (by simp) a₀
@[simp] theorem State.g_useFree (f : FRef) : (s.useFree).g f = s.g f := State.g_congr (by simp) f
@[simp] theorem State.gb_useFree (f : FRef) : (s.useFree).gb f = s.gb f := State.gb_congr (by simp) f
@[simp] theorem State.rd_stB (a : Nat) (b : Byte) (a₀ : Nat) : (s.stB a b).rd a₀ = s.rd a₀ := State.rd_congr (by simp) a₀
@[simp] theorem State.g_stB (a : Nat) (b : Byte) (f : FRef) : (s.stB a b).g f = s.g f := State.g_congr (by simp) f
@[simp] theorem State.gb_stB (a : Nat) (b : Byte) (f : FRef) : (s.stB a b).gb f = s.gb f := State.gb_congr (by simp) f
@[simp] theorem State.rd_modCtx (c : Nat) (h : Ctx → Ctx) (a₀ : Nat) : (s.modCtx c h).rd a₀ = s.rd a₀ := State.rd_congr (by simp) a₀
@[simp] theorem State.g_modCtx (c : Nat) (h : Ctx → Ctx) (f : FRef) : (s.modCtx c h).g f = s.g f := State.g_congr (by simp) f
@[simp] theorem State.gb_modCtx (c : Nat) (h : Ctx → Ctx) (f : FRef) : (s.modCtx c h).gb f = s.gb f := State.gb_congr (by simp) f
@[simp] theorem State.rd_assertFlt (i : Nat) (a₀ : Nat) : (s.assertFlt i).rd a₀ = s.rd a₀ := State.rd_congr (by simp) a₀
@[simp] theorem State.g_assertFlt (i : Nat) (f : FRef) : (s.assertFlt i).g f = s.g f := State.g_congr (by simp) f
@[simp] theorem State.gb_assertFlt (i : Nat) (f : FRef) : (s.assertFlt i).gb f = s.gb f := State.gb_congr (by simp) f
@[simp] theorem State.rd_post (w : Nat) (e : Ev) (a₀ : Nat) : (s.post w e).rd a₀ = s.rd a₀ := State.rd_congr (by simp) a₀
@[simp] theorem State.g_post (w : Nat) (e : Ev) (f : FRef) : (s.post w e).g f = s.g f := State.g_congr (by simp) f
@[simp] theorem State.gb_post (w : Nat) (e : Ev) (f : FRef) : (s.post w e).gb f = s.gb f := State.gb_congr (by simp) f
@[simp] theorem State.rd_event (w c x : Nat) (a₀ : Nat) : (s.event w c x).rd a₀ = s.rd a₀ := State.rd_congr (by simp) a₀
@[simp] theorem State.g_event (w c x : Nat) (f : FRef) : (s.event w c x).g f = s.g f := State.g_congr (by simp) f
@[simp] theorem State.gb_event (w c x : Nat) (f : FRef) : (s.event w c x).gb f = s.gb f := State.gb_congr (by simp) f
@[simp] theorem State.rd_eventTo (w : Option Nat) (c x : Nat) (a₀ : Nat) : (s.eventTo w c x).rd a₀ = s.rd a₀ := State.rd_congr (by simp) a₀
@[simp] theorem State.g_eventTo (w : Option Nat) (c x : Nat) (f : FRef) : (s.eventTo w c x).g f = s.g f := State.g_congr (by simp) f
@[simp] theorem State.gb_eventTo (w : Option Nat) (c x : Nat) (f : FRef) : (s.eventTo w c x).gb f = s.gb f := State.gb_congr (by simp) f
@[simp] theorem State.rd_eventAt (w : Option Nat) (c : Nat) (t : Stamp) (x : Nat) (a₀ : Nat) : (s.eventAt w c t x).rd a₀ = s.rd a₀ := State.rd_congr (by simp) a₀
@[simp] theorem State.g_eventAt (w : Option Nat) (c : Nat) (t : Stamp) (x : Nat) (f : FRef) : (s.eventAt w c t x).g f = s.g f := State.g_congr (by simp) f
@[simp] theorem State.gb_eventAt (w : Option Nat) (c : Nat) (t : Stamp) (x : Nat) (f : FRef) : (s.eventAt w c t x).gb f = s.gb f := State.gb_congr (by simp) f
@[simp] theorem State.rd_eventAll (c x : Nat) (a₀ : Nat) : (s.eventAll c x).rd a₀ = s.rd a₀ := State.rd_congr (by simp) a₀
@[simp] theorem State.g_eventAll (c x : Nat) (f : FRef) : (s.eventAll c x).g f = s.g f := State.g_congr (by simp) f
@[simp] theorem State.gb_eventAll (c x : Nat) (f : FRef) : (s.eventAll c x).gb f = s.gb f := State.gb_congr (by simp) f
@[simp] theorem State.rd_st (a : Nat) (l : List Byte) (a₀ : Nat) : (s.st a l).rd a₀ = s.rd a₀ := State.rd_congr (by simp) a₀
@[simp] theorem State.g_st (a : Nat) (l : List Byte) (f : FRef) : (s.st a l).g f = s.g f := State.g_congr (by simp) f
@[simp] theorem State.gb_st (a : Nat) (l : List Byte) (f : FRef) : (s.st a l).gb f = s.gb f := State.gb_congr (by simp) f
@[simp] theorem State.rd_nvSt (a : Nat) (l : List Byte) (a₀ : Nat) : (s.nvSt a l).rd a₀ = s.rd a₀ := State.rd_congr (by simp) a₀
@[simp] theorem State.g_nvSt (a : Nat) (l : List Byte) (f : FRef) : (s.nvSt a l).g f = s.g f := State.g_congr (by simp) f
@[simp] theorem State.gb_nvSt (a : Nat) (l : List Byte) (f : FRef) : (s.nvSt a l).gb f = s.gb f := State.gb_congr (by simp) f
@[simp] theorem State.rd_modWard (i : Nat) (h : WardSt → WardSt) (a₀ : Nat) : (s.modWard i h).rd a₀ = s.rd a₀ := State.rd_congr (by simp) a₀
@[simp] theorem State.g_modWard (i : Nat) (h : WardSt → WardSt) (f : FRef) : (s.modWard i h).g f = s.g f := State.g_congr (by simp) f
@[simp] theorem State.gb_modWard (i : Nat) (h : WardSt → WardSt) (f : FRef) : (s.modWard i h).gb f = s.gb f := State.gb_congr (by simp) f
@[simp] theorem State.rd_modSeq (i : Nat) (h : Seq → Seq) (a₀ : Nat) : (s.modSeq i h).rd a₀ = s.rd a₀ := State.rd_congr (by simp) a₀
@[simp] theorem State.g_modSeq (i : Nat) (h : Seq → Seq) (f : FRef) : (s.modSeq i h).g f = s.g f := State.g_congr (by simp) f
@[simp] theorem State.gb_modSeq (i : Nat) (h : Seq → Seq) (f : FRef) : (s.modSeq i h).gb f = s.gb f := State.gb_congr (by simp) f
@[simp] theorem State.rd_modSq (i : Nat) (h : Sq → Sq) (a₀ : Nat) : (s.modSq i h).rd a₀ = s.rd a₀ := State.rd_congr (by simp) a₀
@[simp] theorem State.g_modSq (i : Nat) (h : Sq → Sq) (f : FRef) : (s.modSq i h).g f = s.g f := State.g_congr (by simp) f
@[simp] theorem State.gb_modSq (i : Nat) (h : Sq → Sq) (f : FRef) : (s.modSq i h).gb f = s.gb f := State.gb_congr (by simp) f
@[simp] theorem State.rd_modVs (i : Nat) (h : VsEng → VsEng) (a₀ : Nat) : (s.modVs i h).rd a₀ = s.rd a₀ := State.rd_congr (by simp) a₀
@[simp] theorem State.g_modVs (i : Nat) (h : VsEng → VsEng) (f : FRef) : (s.modVs i h).g f = s.g f := State.g_congr (by simp) f
@[simp] theorem State.gb_modVs (i : Nat) (h : VsEng → VsEng) (f : FRef) : (s.modVs i h).gb f = s.gb f := State.gb_congr (by simp) f
@[simp] theorem State.rd_modCh (i : Nat) (h : Chan → Chan) (a₀ : Nat) : (s.modCh i h).rd a₀ = s.rd a₀ := State.rd_congr (by simp) a₀
@[simp] theorem State.g_modCh (i : Nat) (h : Chan → Chan) (f : FRef) : (s.modCh i h).g f = s.g f := State.g_congr (by simp) f
@[simp] theorem State.gb_modCh (i : Nat) (h : Chan → Chan) (f : FRef) : (s.modCh i h).gb f = s.gb f := State.gb_congr (by simp) f
@[simp] theorem State.rd_modCb (i : Nat) (h : Cblk → Cblk) (a₀ : Nat) : (s.modCb i h).rd a₀ = s.rd a₀ := State.rd_congr (by simp) a₀
@[simp] theorem State.g_modCb (i : Nat) (h : Cblk → Cblk) (f : FRef) : (s.modCb i h).g f = s.g f := State.g_congr (by simp) f
@[simp] theorem State.gb_modCb (i : Nat) (h : Cblk → Cblk) (f : FRef) : (s.modCb i h).gb f = s.gb f := State.gb_congr (by simp) f
@[simp] theorem State.rd_modArm (i : Nat) (h : CapArm → CapArm) (a₀ : Nat) : (s.modArm i h).rd a₀ = s.rd a₀ := State.rd_congr (by simp) a₀
@[simp] theorem State.g_modArm (i : Nat) (h : CapArm → CapArm) (f : FRef) : (s.modArm i h).g f = s.g f := State.g_congr (by simp) f
@[simp] theorem State.gb_modArm (i : Nat) (h : CapArm → CapArm) (f : FRef) : (s.modArm i h).gb f = s.gb f := State.gb_congr (by simp) f
@[simp] theorem State.rd_modCore (i : Nat) (h : Core → Core) (a₀ : Nat) : (s.modCore i h).rd a₀ = s.rd a₀ := State.rd_congr (by simp) a₀
@[simp] theorem State.g_modCore (i : Nat) (h : Core → Core) (f : FRef) : (s.modCore i h).g f = s.g f := State.g_congr (by simp) f
@[simp] theorem State.gb_modCore (i : Nat) (h : Core → Core) (f : FRef) : (s.modCore i h).gb f = s.gb f := State.gb_congr (by simp) f
@[simp] theorem State.rd_modDrc (i : Nat) (h : Drc → Drc) (a₀ : Nat) : (s.modDrc i h).rd a₀ = s.rd a₀ := State.rd_congr (by simp) a₀
@[simp] theorem State.g_modDrc (i : Nat) (h : Drc → Drc) (f : FRef) : (s.modDrc i h).g f = s.g f := State.g_congr (by simp) f
@[simp] theorem State.gb_modDrc (i : Nat) (h : Drc → Drc) (f : FRef) : (s.modDrc i h).gb f = s.gb f := State.gb_congr (by simp) f
@[simp] theorem State.rd_modLane (i : Nat) (h : Lane → Lane) (a₀ : Nat) : (s.modLane i h).rd a₀ = s.rd a₀ := State.rd_congr (by simp) a₀
@[simp] theorem State.g_modLane (i : Nat) (h : Lane → Lane) (f : FRef) : (s.modLane i h).g f = s.g f := State.g_congr (by simp) f
@[simp] theorem State.gb_modLane (i : Nat) (h : Lane → Lane) (f : FRef) : (s.modLane i h).gb f = s.gb f := State.gb_congr (by simp) f
@[simp] theorem State.rd_modGrp (i : Nat) (h : Group → Group) (a₀ : Nat) : (s.modGrp i h).rd a₀ = s.rd a₀ := State.rd_congr (by simp) a₀
@[simp] theorem State.g_modGrp (i : Nat) (h : Group → Group) (f : FRef) : (s.modGrp i h).g f = s.g f := State.g_congr (by simp) f
@[simp] theorem State.gb_modGrp (i : Nat) (h : Group → Group) (f : FRef) : (s.modGrp i h).gb f = s.gb f := State.gb_congr (by simp) f
@[simp] theorem State.rd_modPort (i : Nat) (h : Port → Port) (a₀ : Nat) : (s.modPort i h).rd a₀ = s.rd a₀ := State.rd_congr (by simp) a₀
@[simp] theorem State.g_modPort (i : Nat) (h : Port → Port) (f : FRef) : (s.modPort i h).g f = s.g f := State.g_congr (by simp) f
@[simp] theorem State.gb_modPort (i : Nat) (h : Port → Port) (f : FRef) : (s.modPort i h).gb f = s.gb f := State.gb_congr (by simp) f
@[simp] theorem State.rd_modTrig (i : Nat) (h : Trig → Trig) (a₀ : Nat) : (s.modTrig i h).rd a₀ = s.rd a₀ := State.rd_congr (by simp) a₀
@[simp] theorem State.g_modTrig (i : Nat) (h : Trig → Trig) (f : FRef) : (s.modTrig i h).g f = s.g f := State.g_congr (by simp) f
@[simp] theorem State.gb_modTrig (i : Nat) (h : Trig → Trig) (f : FRef) : (s.modTrig i h).gb f = s.gb f := State.gb_congr (by simp) f
@[simp] theorem State.rd_modTim (i : Nat) (h : TimU → TimU) (a₀ : Nat) : (s.modTim i h).rd a₀ = s.rd a₀ := State.rd_congr (by simp) a₀
@[simp] theorem State.g_modTim (i : Nat) (h : TimU → TimU) (f : FRef) : (s.modTim i h).g f = s.g f := State.g_congr (by simp) f
@[simp] theorem State.gb_modTim (i : Nat) (h : TimU → TimU) (f : FRef) : (s.modTim i h).gb f = s.gb f := State.gb_congr (by simp) f

/-! ### Units -/

@[simp] theorem State.wst_modWard_self (i : Nat) (f : WardSt → WardSt) (h : i < 4) : (s.modWard i f).wst i = f (s.wst i) := by
  unfold State.modWard State.wst
  simp [h, modv, List.getD_eq_getElem?_getD]

theorem State.wst_modWard_ne (f : WardSt → WardSt) {i j : Nat} (h : j ≠ i) : (s.modWard i f).wst j = s.wst j := by
  unfold State.modWard State.wst
  split
  · simp [modv, List.getD_eq_getElem?_getD, h.symm]
  · rfl

theorem State.wst_congr {s t : State} (h : t.wards = s.wards) (i : Nat) : t.wst i = s.wst i := by
  unfold State.wst; rw [h]

@[simp] theorem State.seq_modSeq_self (i : Nat) (f : Seq → Seq) (h : i < 32) : (s.modSeq i f).seq i = f (s.seq i) := by
  unfold State.modSeq State.seq
  simp [h, modv, List.getD_eq_getElem?_getD]

theorem State.seq_modSeq_ne (f : Seq → Seq) {i j : Nat} (h : j ≠ i) : (s.modSeq i f).seq j = s.seq j := by
  unfold State.modSeq State.seq
  split
  · simp [modv, List.getD_eq_getElem?_getD, h.symm]
  · rfl

theorem State.seq_congr {s t : State} (h : t.seqs = s.seqs) (i : Nat) : t.seq i = s.seq i := by
  unfold State.seq; rw [h]

@[simp] theorem State.sq_modSq_self (i : Nat) (f : Sq → Sq) (h : i < 64) : (s.modSq i f).sq i = f (s.sq i) := by
  unfold State.modSq State.sq
  simp [h, modv, List.getD_eq_getElem?_getD]

theorem State.sq_modSq_ne (f : Sq → Sq) {i j : Nat} (h : j ≠ i) : (s.modSq i f).sq j = s.sq j := by
  unfold State.modSq State.sq
  split
  · simp [modv, List.getD_eq_getElem?_getD, h.symm]
  · rfl

theorem State.sq_congr {s t : State} (h : t.sqs = s.sqs) (i : Nat) : t.sq i = s.sq i := by
  unfold State.sq; rw [h]

@[simp] theorem State.vse_modVs_self (i : Nat) (f : VsEng → VsEng) (h : i < 16) : (s.modVs i f).vse i = f (s.vse i) := by
  unfold State.modVs State.vse
  simp [h, modv, List.getD_eq_getElem?_getD]

theorem State.vse_modVs_ne (f : VsEng → VsEng) {i j : Nat} (h : j ≠ i) : (s.modVs i f).vse j = s.vse j := by
  unfold State.modVs State.vse
  split
  · simp [modv, List.getD_eq_getElem?_getD, h.symm]
  · rfl

theorem State.vse_congr {s t : State} (h : t.vs = s.vs) (i : Nat) : t.vse i = s.vse i := by
  unfold State.vse; rw [h]

@[simp] theorem State.ch_modCh_self (i : Nat) (f : Chan → Chan) (h : i < 128) : (s.modCh i f).ch i = f (s.ch i) := by
  unfold State.modCh State.ch
  simp [h, modv, List.getD_eq_getElem?_getD]

theorem State.ch_modCh_ne (f : Chan → Chan) {i j : Nat} (h : j ≠ i) : (s.modCh i f).ch j = s.ch j := by
  unfold State.modCh State.ch
  split
  · simp [modv, List.getD_eq_getElem?_getD, h.symm]
  · rfl

theorem State.ch_congr {s t : State} (h : t.chans = s.chans) (i : Nat) : t.ch i = s.ch i := by
  unfold State.ch; rw [h]

@[simp] theorem State.cb_modCb_self (i : Nat) (f : Cblk → Cblk) (h : i < 32) : (s.modCb i f).cb i = f (s.cb i) := by
  unfold State.modCb State.cb
  simp [h, modv, List.getD_eq_getElem?_getD]

theorem State.cb_modCb_ne (f : Cblk → Cblk) {i j : Nat} (h : j ≠ i) : (s.modCb i f).cb j = s.cb j := by
  unfold State.modCb State.cb
  split
  · simp [modv, List.getD_eq_getElem?_getD, h.symm]
  · rfl

theorem State.cb_congr {s t : State} (h : t.cbs = s.cbs) (i : Nat) : t.cb i = s.cb i := by
  unfold State.cb; rw [h]

@[simp] theorem State.arm_modArm_self (i : Nat) (f : CapArm → CapArm) (h : i < 32) : (s.modArm i f).arm i = f (s.arm i) := by
  unfold State.modArm State.arm
  simp [h, modv, List.getD_eq_getElem?_getD]

theorem State.arm_modArm_ne (f : CapArm → CapArm) {i j : Nat} (h : j ≠ i) : (s.modArm i f).arm j = s.arm j := by
  unfold State.modArm State.arm
  split
  · simp [modv, List.getD_eq_getElem?_getD, h.symm]
  · rfl

theorem State.arm_congr {s t : State} (h : t.arms = s.arms) (i : Nat) : t.arm i = s.arm i := by
  unfold State.arm; rw [h]

@[simp] theorem State.core_modCore_self (i : Nat) (f : Core → Core) (h : i < 48) : (s.modCore i f).core i = f (s.core i) := by
  unfold State.modCore State.core
  simp [h, modv, List.getD_eq_getElem?_getD]

theorem State.core_modCore_ne (f : Core → Core) {i j : Nat} (h : j ≠ i) : (s.modCore i f).core j = s.core j := by
  unfold State.modCore State.core
  split
  · simp [modv, List.getD_eq_getElem?_getD, h.symm]
  · rfl

theorem State.core_congr {s t : State} (h : t.cores = s.cores) (i : Nat) : t.core i = s.core i := by
  unfold State.core; rw [h]

@[simp] theorem State.drc_modDrc_self (i : Nat) (f : Drc → Drc) (h : i < 4) : (s.modDrc i f).drc i = f (s.drc i) := by
  unfold State.modDrc State.drc
  simp [h, modv, List.getD_eq_getElem?_getD]

theorem State.drc_modDrc_ne (f : Drc → Drc) {i j : Nat} (h : j ≠ i) : (s.modDrc i f).drc j = s.drc j := by
  unfold State.modDrc State.drc
  split
  · simp [modv, List.getD_eq_getElem?_getD, h.symm]
  · rfl

theorem State.drc_congr {s t : State} (h : t.drcs = s.drcs) (i : Nat) : t.drc i = s.drc i := by
  unfold State.drc; rw [h]

@[simp] theorem State.lane_modLane_self (i : Nat) (f : Lane → Lane) (h : i < 16) : (s.modLane i f).lane i = f (s.lane i) := by
  unfold State.modLane State.lane
  simp [h, modv, List.getD_eq_getElem?_getD]

theorem State.lane_modLane_ne (f : Lane → Lane) {i j : Nat} (h : j ≠ i) : (s.modLane i f).lane j = s.lane j := by
  unfold State.modLane State.lane
  split
  · simp [modv, List.getD_eq_getElem?_getD, h.symm]
  · rfl

theorem State.lane_congr {s t : State} (h : t.lanes = s.lanes) (i : Nat) : t.lane i = s.lane i := by
  unfold State.lane; rw [h]

@[simp] theorem State.grp_modGrp_self (i : Nat) (f : Group → Group) (h : i < 7) : (s.modGrp i f).grp i = f (s.grp i) := by
  unfold State.modGrp State.grp
  simp [h, modv, List.getD_eq_getElem?_getD]

theorem State.grp_modGrp_ne (f : Group → Group) {i j : Nat} (h : j ≠ i) : (s.modGrp i f).grp j = s.grp j := by
  unfold State.modGrp State.grp
  split
  · simp [modv, List.getD_eq_getElem?_getD, h.symm]
  · rfl

theorem State.grp_congr {s t : State} (h : t.groups = s.groups) (i : Nat) : t.grp i = s.grp i := by
  unfold State.grp; rw [h]

@[simp] theorem State.port_modPort_self (i : Nat) (f : Port → Port) (h : i < 7) : (s.modPort i f).port i = f (s.port i) := by
  unfold State.modPort State.port
  simp [h, modv, List.getD_eq_getElem?_getD]

theorem State.port_modPort_ne (f : Port → Port) {i j : Nat} (h : j ≠ i) : (s.modPort i f).port j = s.port j := by
  unfold State.modPort State.port
  split
  · simp [modv, List.getD_eq_getElem?_getD, h.symm]
  · rfl

theorem State.port_congr {s t : State} (h : t.ports = s.ports) (i : Nat) : t.port i = s.port i := by
  unfold State.port; rw [h]

@[simp] theorem State.trg_modTrig_self (i : Nat) (f : Trig → Trig) (h : i < 32) : (s.modTrig i f).trg i = f (s.trg i) := by
  unfold State.modTrig State.trg
  simp [h, modv, List.getD_eq_getElem?_getD]

theorem State.trg_modTrig_ne (f : Trig → Trig) {i j : Nat} (h : j ≠ i) : (s.modTrig i f).trg j = s.trg j := by
  unfold State.modTrig State.trg
  split
  · simp [modv, List.getD_eq_getElem?_getD, h.symm]
  · rfl

theorem State.trg_congr {s t : State} (h : t.trigs = s.trigs) (i : Nat) : t.trg i = s.trg i := by
  unfold State.trg; rw [h]

@[simp] theorem State.tim_modTim_self (i : Nat) (f : TimU → TimU) (h : i < 8) : (s.modTim i f).tim i = f (s.tim i) := by
  unfold State.modTim State.tim
  simp [h, modv, List.getD_eq_getElem?_getD]

theorem State.tim_modTim_ne (f : TimU → TimU) {i j : Nat} (h : j ≠ i) : (s.modTim i f).tim j = s.tim j := by
  unfold State.modTim State.tim
  split
  · simp [modv, List.getD_eq_getElem?_getD, h.symm]
  · rfl

theorem State.tim_congr {s t : State} (h : t.tims = s.tims) (i : Nat) : t.tim i = s.tim i := by
  unfold State.tim; rw [h]

/-! ### Memory bytes -/

@[simp] theorem State.ldB_stB_self (a : Nat) (b : Byte) : (s.stB a b).ldB a = b := tabGet_tabSet_self _ _ _ _

theorem State.ldB_stB_ne {a c : Nat} (b : Byte) (h : c ≠ a) : (s.stB a b).ldB c = s.ldB c := tabGet_tabSet_ne _ _ _ _ h

theorem State.ldB_congr {s t : State} (h : t.mem = s.mem) (a : Nat) : t.ldB a = s.ldB a := by
  unfold State.ldB; rw [h]

/-- A byte outside a stored string keeps its value. -/
theorem State.ldB_st_out (l : List Byte) (a c : Nat) (h : c < a ∨ a + l.length ≤ c) : (s.st a l).ldB c = s.ldB c := by
  induction l generalizing s a with
  | nil => rfl
  | cons b t ih =>
    simp only [List.length_cons] at h
    rw [State.st, ih _ _ (by omega), State.ldB_stB_ne _ _ (by omega)]

/-- A byte inside a stored string is the string's. -/
theorem State.ldB_st_in (l : List Byte) (a i : Nat) (h : i < l.length) : (s.st a l).ldB (a + i) = l[i] := by
  induction l generalizing s a i with
  | nil => exact absurd h (by simp)
  | cons b t ih =>
    rw [State.st]
    cases i with
    | zero => rw [State.ldB_st_out _ _ _ _ (by omega)]; simp
    | succ i =>
      have := ih (s.stB a b) (a + 1) i (by simpa using h)
      simpa [Nat.add_assoc, Nat.add_comm 1 i] using this

/-- A load of a stored string gives the string. -/
theorem State.ld_st (l : List Byte) (a : Nat) : (s.st a l).ld a l.length = l := by
  apply List.ext_getElem
  · simp [State.ld]
  · intro i h1 h2
    simp only [State.ld, List.getElem_map, List.getElem_range]
    exact State.ldB_st_in s l a i h2

theorem State.ldB_mod_congr {s t : State} (h : t.mem = s.mem) (a n : Nat) : t.ld a n = s.ld a n := by
  unfold State.ld; exact List.map_congr_left (fun i _ => State.ldB_congr h _)

/-! ### Canonical form -/

theorem Memory.wf_stB (a : Nat) (b : Byte) (h : Memory.wf s.mem = true) : Memory.wf (s.stB a b).mem = true :=
  tabOk_tabSet (fun _ => (0#8 : Byte)) 0 _ _ _ (Nat.zero_le _) h

theorem Memory.wf_st (l : List Byte) (a : Nat) (h : Memory.wf s.mem = true) : Memory.wf (s.st a l).mem = true := by
  induction l generalizing s a with
  | nil => exact h
  | cons b t ih => exact ih _ _ (Memory.wf_stB s a b h)

theorem Memory.wf_bytesPut (m : Tab Byte) (a : Nat) (l : List Byte) (h : Memory.wf m = true) : Memory.wf (bytesPut m a l) = true := by
  induction l generalizing m a with
  | nil => exact h
  | cons b t ih => exact ih _ _ (tabOk_tabSet (fun _ => (0#8 : Byte)) 0 _ _ _ (Nat.zero_le _) h)

theorem Memory.wf_nvSt (l : List Byte) (a : Nat) (h : Memory.wf s.nvm = true) : Memory.wf (s.nvSt a l).nvm = true :=
  Memory.wf_bytesPut _ _ _ h

theorem Memory.wf_tabDrop (lo hi : Nat) (m : Tab Byte) (h : Memory.wf m = true) : Memory.wf (tabDrop lo hi m) = true :=
  tabOk_tabDrop _ _ _ _ _ h

/-- A register write keeps the register table canonical. -/
theorem State.regsOk_wr (a : Nat) (w : Word) (h : tabOk resetAt 0 s.regs = true) : tabOk resetAt 0 (s.wr a w).regs = true :=
  tabOk_tabSet resetAt 0 _ _ _ (Nat.zero_le _) h

theorem Memory.wf_reset : Memory.wf State.reset.mem = true ∧ Memory.wf State.reset.nvm = true ∧ tabOk resetAt 0 State.reset.regs = true :=
  ⟨rfl, rfl, rfl⟩

end Sys2Proof.Machine
end

