-- ==== Sys2Proof/Laws/Journal.lean ====
section
/-! SUPPORT. What the Journal writer and the life of a command do: what they leave alone, and that a record once due stays due or
is the one in progress. -/

namespace Sys2Proof.Machine

/-! ### Only the Journal -/

theorem OnlyJournal.refl (s : State) : OnlyJournal s s := rfl

theorem OnlyJournal.trans {s t u : State} (h : OnlyJournal s t) (h' : OnlyJournal t u) : OnlyJournal s u := by
  unfold OnlyJournal at *
  rw [h'] ; rw [h]

theorem OnlyJournal.regs {s t : State} (h : OnlyJournal s t) : t.regs = s.regs := by rw [h]

theorem State.paired_congr {s t : State} (h : t.regs = s.regs) : t.paired = s.paired := by
  unfold State.paired State.role
  rw [State.g_congr h, State.gb_congr h]

theorem State.alone_congr {s t : State} (h : t.regs = s.regs) : t.alone ↔ s.alone := by
  unfold State.alone State.role
  rw [State.paired_congr h, State.g_congr h]

theorem OnlyJournal.paired {s t : State} (h : OnlyJournal s t) : t.paired = s.paired := State.paired_congr h.regs

theorem OnlyJournal.alone {s t : State} (h : OnlyJournal s t) (hs : s.alone) : t.alone := (State.alone_congr h.regs).2 hs

theorem OnlyJournal.addDue (s : State) (d : DueRec) : OnlyJournal s (s.addDue d) := rfl

theorem OnlyJournal.modCmd (s : State) (id : Nat) (f : Cmd → Cmd) : OnlyJournal s (s.modCmd id f) := rfl

theorem OnlyJournal.setJnl (s : State) (j : Jnl) : OnlyJournal s { s with jnl := j } := rfl

theorem OnlyJournal.useFree (s : State) : OnlyJournal s s.useFree := rfl

theorem OnlyJournal.nvSt (s : State) (a : Nat) (l : List Byte) : OnlyJournal s (s.nvSt a l) := rfl

theorem OnlyJournal.beginRecord (s : State) (d : Option DueRec) (c : Option Nat) (b : List Byte) (h : s.alone) :
    OnlyJournal s (s.beginRecord d c b) := by
  unfold State.beginRecord
  have h2 := (OnlyJournal.setJnl s { s.jnl with prog := some ⟨d, c, s.jnl.next, b⟩, next := s.jnl.next + 1 }).trans ((OnlyJournal.nvSt _ (jnlAddr (s.jnl.next % jnlSlots)) (b.take 0x0E)).trans
    (OnlyJournal.nvSt _ (jnlAddr (s.jnl.next % jnlSlots) + 0x10) (b.drop 0x10)))
  simp only [h2.paired, h.1]
  exact h2

/-- What `cmdOpen` looks at. -/
def openKeys (l : List Cmd) : List (Nat × CmdSt) := l.map (fun c => (c.id, c.st))

theorem openKeys_updFirst (p : Cmd → Bool) (f : Cmd → Cmd) (hf : ∀ c, (f c).id = c.id ∧ (f c).st = c.st) (l : List Cmd) :
    openKeys (updFirst p f l) = openKeys l := by
  induction l with
  | nil => rfl
  | cons c t ih =>
    unfold updFirst
    split
    · simp [openKeys, hf]
    · simp [openKeys] at ih ⊢; exact ih

/-- All that the Journal writer does when it is asked: nothing, a carried copy, or the oldest record due. -/
theorem State.pumpJournal_cases (s : State) (hr : s.alone) : s.pumpJournal = s ∨ (s.jnl.prog = none ∧ ∃ d, s.jnl.due.find? s.dueHere = some d ∧
    ((∃ c b, s.pumpJournal = s.beginRecord none c b) ∨ ∃ cs c b, openKeys cs = openKeys s.cmds ∧
      s.pumpJournal = ({ s with jnl := { s.jnl with due := dropFirst s.dueHere s.jnl.due }, cmds := cs } : State).beginRecord (some d) c b)) := by
  by_cases hc : (s.jnl.stop || s.jnl.prog.isSome || s.pwr.gatedAll) = true
  · left; unfold State.pumpJournal; rw [if_pos hc]
  · have hprog : s.jnl.prog = none := by
      cases h : s.jnl.prog <;> simp_all
    cases hdue : s.jnl.due.find? s.dueHere with
    | none => left; unfold State.pumpJournal; rw [if_neg hc, if_neg hr.2]; simp only [hdue]
    | some d =>
      refine Or.inr ⟨hprog, d, rfl, ?_⟩
      unfold State.pumpJournal
      rw [if_neg hc, if_neg hr.2]
      simp only [hdue]
      split
      · exact Or.inl ⟨_, _, rfl⟩
      · right
        split
        · exact ⟨_, _, _, openKeys_updFirst _ (fun c => { c with jseq := some s.jnl.next }) (fun c => ⟨rfl, rfl⟩) s.cmds, rfl⟩
        · exact ⟨s.cmds, _, _, rfl, rfl⟩

/-- An element is the first that `p` holds of, or stays when that one is dropped. -/
theorem mem_dropFirst {α : Type} {p : α → Bool} {l : List α} {d x : α} (h : l.find? p = some d) (hx : x ∈ l) :
    x = d ∨ x ∈ dropFirst p l := by
  induction l with
  | nil => cases hx
  | cons y t ih =>
    unfold dropFirst
    by_cases hy : p y = true
    · rw [List.find?_cons_of_pos hy] at h
      rw [if_pos hy]
      rcases List.mem_cons.1 hx with rfl | hm
      · exact Or.inl (Option.some.inj h)
      · exact Or.inr hm
    · rw [List.find?_cons_of_neg hy] at h
      rw [if_neg hy]
      rcases List.mem_cons.1 hx with rfl | hm
      · exact Or.inr (List.mem_cons_self ..)
      · exact (ih h hm).imp id (List.mem_cons_of_mem _)

theorem OnlyJournal.setBoth (s : State) (j : Jnl) (cs : List Cmd) : OnlyJournal s { s with jnl := j, cmds := cs } := rfl

theorem OnlyJournal.pumpJournal (s : State) (h : s.alone) : OnlyJournal s s.pumpJournal := by
  rcases s.pumpJournal_cases (by assumption) with e | ⟨-, d, -, ⟨c, b, e⟩ | ⟨cs, c, b, -, e⟩⟩ <;> rw [e]
  · rfl
  · exact OnlyJournal.beginRecord s none c b h
  · have h1 := OnlyJournal.setBoth s { s.jnl with due := dropFirst s.dueHere s.jnl.due } cs
    exact h1.trans (OnlyJournal.beginRecord _ _ _ _ (h1.alone h))

theorem OnlyJournal.record (s : State) (k : RecKind) (c : Option Nat) (b d : List Byte) (h : s.alone) :
    OnlyJournal s (s.record k c b d) := (OnlyJournal.addDue s _).trans (OnlyJournal.pumpJournal _ h)

theorem OnlyJournal.finishData (s : State) (id st arg : Nat) (d : List Byte) (h : s.alone) :
    OnlyJournal s (s.finishData id st arg d) := by
  unfold State.finishData
  split
  · exact (OnlyJournal.modCmd _ _ _).trans (OnlyJournal.record _ _ _ _ _ h)
  · rfl

theorem OnlyJournal.finish (s : State) (id st arg : Nat) (h : s.alone) : OnlyJournal s (s.finish id st arg) :=
  OnlyJournal.finishData _ _ _ _ _ h

theorem OnlyJournal.finishF (s : State) (id st : Nat) (h : s.alone) : OnlyJournal s (s.finishF id st) :=
  (OnlyJournal.useFree s).trans (OnlyJournal.finish _ _ _ _ h)

theorem OnlyJournal.refuse (s : State) (c : Cmd) (st : Nat) (h : s.alone) : OnlyJournal s (s.refuse c st) :=
  OnlyJournal.finishF _ _ _ h

theorem OnlyJournal.started (s : State) (c : Cmd) (h : s.alone) : OnlyJournal s (s.started c) :=
  (OnlyJournal.modCmd _ _ _).trans (OnlyJournal.record _ _ _ _ _ h)

theorem OnlyJournal.abandon (s : State) (id r : Nat) (h : s.alone) : OnlyJournal s (s.abandon id r) := by
  unfold State.abandon
  split
  · exact (OnlyJournal.modCmd _ _ _).trans (OnlyJournal.record _ _ _ _ _ h)
  · rfl

/-! ### A due record stays due or is in progress -/

theorem State.holdsDue_congr {s t : State} (h : t.jnl = s.jnl) {k : RecKind} {id : Nat} {f : List Byte → Prop}
    (hd : s.holdsDue k id f) : t.holdsDue k id f := by
  unfold State.holdsDue State.awaits at *; rwa [h]

theorem State.beginRecord_jnl (s : State) (d : Option DueRec) (c : Option Nat) (b : List Byte) (h : s.alone) :
    (s.beginRecord d c b).jnl = { s.jnl with prog := some ⟨d, c, s.jnl.next, b⟩, next := s.jnl.next + 1 } := by
  unfold State.beginRecord
  have h2 : (({ s with jnl := { s.jnl with prog := some ⟨d, c, s.jnl.next, b⟩, next := s.jnl.next + 1 } }.nvSt
      (jnlAddr (s.jnl.next % jnlSlots)) (b.take 0x0E)).nvSt (jnlAddr (s.jnl.next % jnlSlots) + 0x10) (b.drop 0x10)).paired = false := by
    rw [State.paired_congr (s := s) (by simp), h.1]
  simp [h2]

theorem State.awaits_pumpJournal {s : State} (hp : s.alone) {d : DueRec} (hd : s.awaits d) : s.pumpJournal.awaits d := by
  rcases s.pumpJournal_cases (by assumption) with e | ⟨hprog, d0, hdue, ⟨c, b, e⟩ | ⟨cs, c, b, -, e⟩⟩ <;> rw [e]
  · exact hd
  · unfold State.awaits
    rw [State.beginRecord_jnl _ _ _ _ hp]
    rcases hd with h | ⟨r, h, -⟩ | h
    · exact Or.inl h
    · rw [hprog] at h; cases h
    · exact Or.inr (Or.inr h)
  · have h1 := OnlyJournal.setBoth s { s.jnl with due := dropFirst s.dueHere s.jnl.due } cs
    unfold State.awaits
    rw [State.beginRecord_jnl _ _ _ _ (h1.alone hp)]
    rcases hd with h | ⟨r, h, -⟩ | h
    · rcases mem_dropFirst hdue h with rfl | hm
      · exact Or.inr (Or.inl ⟨_, rfl, rfl⟩)
      · exact Or.inl hm
    · rw [hprog] at h; cases h
    · exact Or.inr (Or.inr h)

theorem State.awaits_addDue {s : State} {d x : DueRec} (h : s.awaits d) : (s.addDue x).awaits d :=
  h.imp (List.mem_append_left _) id

theorem State.holdsDue_pumpJournal {s : State} (hp : s.alone) {k : RecKind} {id : Nat} {f : List Byte → Prop}
    (hd : s.holdsDue k id f) : s.pumpJournal.holdsDue k id f :=
  hd.imp (fun _ h => ⟨State.awaits_pumpJournal hp h.1, h.2⟩)

theorem State.holdsDue_record {s : State} (hp : s.alone) {k : RecKind} {id : Nat} {f : List Byte → Prop}
    (hd : s.holdsDue k id f) (k' : RecKind) (c : Option Nat) (b d : List Byte) : (s.record k' c b d).holdsDue k id f :=
  State.holdsDue_pumpJournal (s := s.addDue ⟨k', c, b, d⟩) ((OnlyJournal.addDue s _).alone hp)
    (hd.imp (fun _ h => ⟨State.awaits_addDue h.1, h.2⟩))

theorem State.holdsDue_record_self {s : State} (hp : s.alone) (k : RecKind) (id : Nat) (b d : List Byte)
    {f : List Byte → Prop} (hf : f b) : (s.record k (some id) b d).holdsDue k id f :=
  State.holdsDue_pumpJournal (s := s.addDue ⟨k, some id, b, d⟩) ((OnlyJournal.addDue s _).alone hp)
    ⟨⟨k, some id, b, d⟩, Or.inl (List.mem_append_right _ (List.mem_singleton.2 rfl)), rfl, rfl, hf⟩

/-- A command that has no final record ends with the record asked for. -/
theorem State.ends_finishData {s : State} (hp : s.alone) {id : Nat} (ho : s.cmdOpen id = true) (st arg : Nat)
    (d : List Byte) : (s.finishData id st arg d).ends id st arg := by
  unfold State.finishData
  rw [if_pos ho]
  exact State.holdsDue_record_self (s := s.modCmd id (fun c => { c with st := .ending })) ((OnlyJournal.modCmd s _ _).alone hp) _ _ _ _ rfl

theorem State.ends_finish {s : State} (hp : s.alone) {id : Nat} (ho : s.cmdOpen id = true) (st arg : Nat) :
    (s.finish id st arg).ends id st arg := State.ends_finishData hp ho st arg []

theorem State.ends_finishF {s : State} (hp : s.alone) {id : Nat} (ho : s.cmdOpen id = true) (st : Nat) :
    (s.finishF id st).ends id st (s.freeVal % 2 ^ 32) := State.ends_finish (s := s.useFree) hp ho st _

theorem State.abandons_abandon {s : State} (hp : s.alone) {id : Nat} (ho : s.cmdOpen id = true) (r : Nat) :
    (s.abandon id r).abandons id r := by
  unfold State.abandon
  rw [if_pos ho]
  exact State.holdsDue_record_self (s := s.modCmd id (fun c => { c with st := .ending })) ((OnlyJournal.modCmd s _ _).alone hp) _ _ _ _ rfl

theorem State.starts_started {s : State} (hp : s.alone) (c : Cmd) : (s.started c).starts c.id :=
  State.holdsDue_record_self (s := s.modCmd c.id (fun c => { c with st := .running, started := true }))
    ((OnlyJournal.modCmd s _ _).alone hp) _ _ _ _ trivial

/-- A start that is due stays due when the command ends. -/
theorem State.starts_finish {s : State} (hp : s.alone) {id : Nat} (h : s.starts id) (id' st arg : Nat) :
    (s.finish id' st arg).starts id := by
  unfold State.finish State.finishData
  split
  · refine State.holdsDue_record (s := s.modCmd id' (fun c => { c with st := .ending }))
      ((OnlyJournal.modCmd s _ _).alone hp) ?_ _ _ _ _
    exact State.holdsDue_congr (s := s) rfl h
  · exact h

theorem State.starts_finishF {s : State} (hp : s.alone) {id : Nat} (h : s.starts id) (id' st : Nat) :
    (s.finishF id' st).starts id := State.starts_finish (s := s.useFree) hp (State.holdsDue_congr (s := s) rfl h) _ _ _

/-! ### Commands that are open -/

theorem State.cmdOpen_eq (s : State) (id : Nat) :
    s.cmdOpen id = (openKeys s.cmds).any (fun p => decide (p.1 = id) && decide (p.2 ≠ .ending)) := by
  simp [State.cmdOpen, openKeys, List.any_map, Function.comp_def]

theorem State.cmdOpen_congr {s t : State} (h : openKeys t.cmds = openKeys s.cmds) (id : Nat) : t.cmdOpen id = s.cmdOpen id := by
  rw [State.cmdOpen_eq, State.cmdOpen_eq, h]

theorem State.beginRecord_cmds (s : State) (d : Option DueRec) (c : Option Nat) (b : List Byte) (h : s.alone) :
    (s.beginRecord d c b).cmds = s.cmds := by
  unfold State.beginRecord
  have h2 : (({ s with jnl := { s.jnl with prog := some ⟨d, c, s.jnl.next, b⟩, next := s.jnl.next + 1 } }.nvSt
      (jnlAddr (s.jnl.next % jnlSlots)) (b.take 0x0E)).nvSt (jnlAddr (s.jnl.next % jnlSlots) + 0x10) (b.drop 0x10)).paired = false := by
    rw [State.paired_congr (s := s) (by simp), h.1]
  simp [h2]

theorem State.openKeys_pumpJournal {s : State} (hp : s.alone) : openKeys s.pumpJournal.cmds = openKeys s.cmds := by
  rcases s.pumpJournal_cases (by assumption) with e | ⟨-, d, -, ⟨c, b, e⟩ | ⟨cs, c, b, hk, e⟩⟩ <;> rw [e]
  · rw [State.beginRecord_cmds _ _ _ _ hp]
  · have h1 := OnlyJournal.setBoth s { s.jnl with due := dropFirst s.dueHere s.jnl.due } cs
    rw [State.beginRecord_cmds _ _ _ _ (h1.alone hp)]
    exact hk

theorem State.openKeys_record {s : State} (hp : s.alone) (k : RecKind) (c : Option Nat) (b d : List Byte) :
    openKeys (s.record k c b d).cmds = openKeys s.cmds :=
  State.openKeys_pumpJournal (s := s.addDue ⟨k, c, b, d⟩) ((OnlyJournal.addDue s _).alone hp)

theorem any_updFirst_open (id : Nat) (f : Cmd → Cmd) (hf : ∀ c : Cmd, c.id = id → (f c).id = id ∧ (f c).st ≠ .ending) (l : List Cmd)
    (h : l.any (fun c => decide (c.id = id) && decide (c.st ≠ .ending)) = true) :
    (updFirst (fun c => decide (c.id = id)) f l).any (fun c => decide (c.id = id) && decide (c.st ≠ .ending)) = true := by
  induction l with
  | nil => simp at h
  | cons x t ih =>
    unfold updFirst
    by_cases hx : x.id = id
    · have := hf x hx
      simp [hx, this.1, this.2]
    · have h' : t.any (fun c => decide (c.id = id) && decide (c.st ≠ .ending)) = true := by
        simpa [hx] using h
      simp only [hx, decide_false, Bool.false_eq_true, if_false, List.any_cons, ih h', Bool.or_true]

/-- A command that starts has no final record yet. -/
theorem State.cmdOpen_started {s : State} (hp : s.alone) (c : Cmd) (ho : s.cmdOpen c.id = true) :
    (s.started c).cmdOpen c.id = true := by
  unfold State.started
  rw [State.cmdOpen_congr (State.openKeys_record (s := s.modCmd c.id (fun c => { c with st := .running, started := true }))
    ((OnlyJournal.modCmd s _ _).alone hp) _ _ _ _)]
  exact any_updFirst_open c.id (fun c => { c with st := .running, started := true }) (fun x hx => ⟨hx, by simp⟩) s.cmds ho

theorem State.cmdOpen_go {s : State} {w q op : Nat} {c : Cmd} (h : s.startable w q op = .go c) : s.cmdOpen c.id = true := by
  unfold State.startable at h
  split at h
  · exact absurd h (by simp)
  · rename_i x hx
    have hm := List.mem_of_find?_eq_some hx
    have hq := List.find?_some hx
    simp only at h
    split at h
    · split at h
      · exact absurd h (by simp)
      · injection h with h
        subst h
        unfold State.cmdOpen
        rw [List.any_eq_true]
        exact ⟨_, hm, by simp_all⟩
    · exact absurd h (by simp)

/-- A command at the front of its queue that may start is given to its meaning; this happens only to a member without a pair or
with the start mark acknowledged. -/
theorem State.runCmd_go {s : State} {w q op : Nat} {c : Cmd} (h : s.startable w q op = .go c) (f : Cmd → State → State) :
    s.runCmd w q op f = f { c with marked := true } (s.modCmd c.id (fun c => { c with marked := true })) := by
  unfold State.runCmd; rw [h]

end Sys2Proof.Machine
end

