-- ==== Sys2Proof/Laws/Port.lean ====
section
/-! SUPPORT. What sending and receiving a frame does: a reply that may leave is the last thing to leave, a frame in order is given to
its meaning, and the units are left alone. -/

namespace Sys2Proof.Machine

/-! ### Sending -/

theorem OnlyComm.refl (s : State) : OnlyComm s s := ⟨rfl, fun _ _ => rfl⟩

theorem OnlyComm.trans {s t u : State} (h : OnlyComm s t) (h' : OnlyComm t u) : OnlyComm s u := by
  refine ⟨?_, fun a ha => (h'.2 a ha).trans (h.2 a ha)⟩
  rw [h'.1]; rw [h.1]

theorem OnlyComm.of {s t : State} (h : t = { s with ports := t.ports, wards := t.wards, outs := t.outs }) : OnlyComm s t := by
  have hr : t.regs = s.regs := by rw [h]
  refine ⟨?_, fun a _ => State.rd_congr hr a⟩
  rw [h]

theorem State.modPort_eq (s : State) (p : Nat) (f : Port → Port) : s.modPort p f = { s with ports := (s.modPort p f).ports } := by
  unfold State.modPort
  split <;> rfl

theorem State.modWard_eq (s : State) (w : Nat) (f : WardSt → WardSt) : s.modWard w f = { s with wards := (s.modWard w f).wards } := by
  unfold State.modWard
  split <;> rfl

theorem OnlyComm.modPort (s : State) (p : Nat) (f : Port → Port) : OnlyComm s (s.modPort p f) :=
  OnlyComm.of (by rw [State.modPort_eq])

theorem OnlyComm.modWard (s : State) (w : Nat) (f : WardSt → WardSt) : OnlyComm s (s.modWard w f) :=
  OnlyComm.of (by rw [State.modWard_eq])

theorem OnlyComm.emit (s : State) (o : Out) : OnlyComm s (s.emit o) := OnlyComm.of rfl

theorem OnlyComm.sendOut (s : State) (p : Nat) (f : TxFrame) : OnlyComm s (s.sendOut p f) :=
  (OnlyComm.emit s _).trans (OnlyComm.modPort _ _ _)

theorem OnlyComm.sendLink (s : State) (p ty : Nat) (b : List Byte) : OnlyComm s (s.sendLink p ty b) := by
  unfold State.sendLink
  split
  · exact OnlyComm.sendOut _ _ _
  · exact OnlyComm.refl s

theorem OnlyComm.forEach {α : Type} (l : List α) (s : State) (f : α → State → State) (h : ∀ x t, OnlyComm t (f x t)) :
    OnlyComm s (forEach l s f) := by
  induction l generalizing s with
  | nil => exact OnlyComm.refl s
  | cons x t ih => exact (h x s).trans (ih (f x s))

theorem OnlyComm.liveInj (s : State) (p : Nat) : OnlyComm s (s.liveInj p) := by
  refine OnlyComm.forEach _ _ _ (fun l t => ?_)
  split
  · refine OnlyComm.trans (t := t.pb (LN_TEST_LIVE_INJ l) false) ⟨rfl, fun a ha => ?_⟩ (OnlyComm.emit _ _)
    exact State.rd_p_ne t _ _ (ha l)
  · exact OnlyComm.refl t

/-- The ports stand as they were, and what left before has left. -/
theorem State.liveInj_ports (s : State) (p : Nat) : (s.liveInj p).ports = s.ports ∧ ∃ l, (s.liveInj p).outs = s.outs ++ l := by
  unfold State.liveInj forEach
  generalize grpLanes p = ls
  induction ls generalizing s with
  | nil => exact ⟨rfl, [], by simp⟩
  | cons x t ih =>
    rw [List.foldl_cons]
    beta_reduce
    split
    · obtain ⟨h1, l, h2⟩ := ih ((s.pb (LN_TEST_LIVE_INJ x) false).laneSet x 5 [])
      refine ⟨h1, Out.set x 5 [] ((s.pb (LN_TEST_LIVE_INJ x) false).gb (LN_CFG_TX_INV x)) :: l, ?_⟩
      rw [h2]
      simp [State.laneSet, State.emit]
    · exact ih s

theorem OnlyComm.sendData (s : State) (p : Nat) (f : TxFrame) : OnlyComm s (s.sendData p f) :=
  ((OnlyComm.modPort s p _).trans (OnlyComm.liveInj _ _)).trans (OnlyComm.sendOut _ _ _)

theorem OnlyComm.pumpOne (s : State) (p : Nat) (hp : p ≠ 4) : OnlyComm s (s.pumpOne p) := by
  unfold State.pumpOne
  split
  · split
    · exact (OnlyComm.modPort s p _).trans (OnlyComm.sendData _ _ _)
    · exact OnlyComm.refl s
  · rw [if_neg hp]; exact OnlyComm.refl s

theorem OnlyComm.pump (s : State) (p : Nat) (hp : p ≠ 4) : OnlyComm s (s.pump p) :=
  OnlyComm.forEach _ s (fun _ t => t.pumpOne p) (fun _ t => OnlyComm.pumpOne t p hp)

theorem OnlyComm.reply (s : State) (p ty st : Nat) (tag : BitVec 16) (q : Nat) (b : List Byte) (hp : p ≠ 4) :
    OnlyComm s (s.reply p ty st tag q b) := (OnlyComm.modPort s p _).trans (OnlyComm.pump _ p hp)

theorem State.sendOut_outs (s : State) (p : Nat) (f : TxFrame) :
    ∃ a h d c n, (s.sendOut p f).outs = s.outs ++ [Out.frame p f a h d c n] := by
  unfold State.sendOut
  exact ⟨_, _, _, _, _, by rw [State.modPort_outs]; rfl⟩

/-- A data frame leaves as the last thing. -/
theorem State.sendData_outs (s : State) (p : Nat) (f : TxFrame) :
    ∃ l x a h d c n, (s.sendData p f).outs = s.outs ++ l ++ [Out.frame p { f with seq := x } a h d c n] := by
  unfold State.sendData
  obtain ⟨a, h, d, c, n, e⟩ := State.sendOut_outs ((s.modPort p (fun q => { q with
    txNext := q.txNext + 1#16, replay := q.replay ++ [{ f with seq := (s.port p).txNext }], peerHdr := q.peerHdr - 1,
    peerData := q.peerData - dataUnits f.payload.length })).liveInj p) p { f with seq := (s.port p).txNext }
  obtain ⟨-, l, hl⟩ := State.liveInj_ports (s.modPort p (fun q => { q with
    txNext := q.txNext + 1#16, replay := q.replay ++ [{ f with seq := (s.port p).txNext }], peerHdr := q.peerHdr - 1,
    peerData := q.peerData - dataUnits f.payload.length })) p
  refine ⟨l, (s.port p).txNext, a, h, d, c, n, ?_⟩
  rw [hl, State.modPort_outs] at e
  exact e

/-- A reply that may leave is the last thing to leave. -/
theorem State.reply_sent (s : State) (p ty st : Nat) (tag : BitVec 16) (q : Nat) (b : List Byte) (hp : p < 4)
    (h : s.maySend p b.length = true) : Sent s (s.reply p ty st tag q b) p ty st tag q b := by
  have hp4 : p ≠ 4 := by omega
  simp only [State.maySend, Bool.and_eq_true, decide_eq_true_eq] at h
  obtain ⟨⟨⟨⟨⟨⟨-, hup⟩, hin⟩, htx⟩, hr⟩, h1⟩, hd⟩ := h
  let f : TxFrame := ⟨0#16, BitVec.ofNat 8 ty, BitVec.ofNat 8 st, tag, BitVec.ofNat 8 q, b, none, 0⟩
  let u := s.modPort p (fun q => { q with txq := q.txq ++ [f] })
  have hu : u.port p = { s.port p with txq := [f] } := by
    rw [State.port_modPort_self _ _ _ (by omega)]; simp [htx]
  have hup' : u.portUp p = s.portUp p := by
    unfold State.portUp; simp [u]
  have hc : u.canSend p f = true := by
    have hi : u.pwr.inReset = none := by
      rw [show u.pwr = s.pwr by simp [u]]; exact hin
    simp [State.canSend, State.carries, hi, hu, hup', hup, hr, h1, hd, f]
  have e : s.reply p ty st tag q b = (u.modPort p (fun q => { q with txq := [] })).sendData p f := by
    show u.pump p = _
    unfold State.pump
    rw [hu]
    simp only [List.length_singleton, if_neg hp4, Nat.add_zero, List.range_one, List.foldl_cons, List.foldl_nil]
    unfold State.pumpOne
    rw [hu]
    simp only [hc, if_true]
  obtain ⟨l, x, a, h', d, c, n, ho⟩ := State.sendData_outs (u.modPort p (fun q => { q with txq := [] })) p f
  refine ⟨l, { f with seq := x }, a, h', d, c, n, ?_, rfl, rfl, rfl, rfl, rfl⟩
  rw [e, ho]
  simp [u]

/-- Nothing owed but one frame that waits for nothing: it leaves. -/
theorem State.respond_eq (s : State) (p : Nat) (f : TxFrame) (hp : p < 7) (h : (s.port p).resps = []) :
    s.respond p ⟨none, f⟩ = ((s.modPort p (fun q => { q with resps := q.resps ++ [⟨none, f⟩] })).modPort p
      (fun q => { q with resps := q.resps.drop 1 })).sendFrame p f := by
  unfold State.respond State.flushResps
  simp [State.port_modPort_self _ _ _ hp, h, forEach]

/-- The same of a CMD_ACK. -/
theorem State.acknowledge_eq (s : State) (p : Nat) (f : TxFrame) (hp : p < 7) (h : (s.port p).acks = []) :
    s.acknowledge p ⟨none, f⟩ = ((s.modPort p (fun q => { q with acks := q.acks ++ [⟨none, f⟩] })).modPort p
      (fun q => { q with acks := q.acks.drop 1 })).sendFrame p f := by
  unfold State.acknowledge State.flushAcks
  simp [State.port_modPort_self _ _ _ hp, h, forEach]

theorem Sent.of_outs {s s' t : State} {p ty st : Nat} {tag : BitVec 16} {q : Nat} {b : List Byte} (h : Sent s t p ty st tag q b)
    (e : s.outs = s'.outs) : Sent s' t p ty st tag q b := by
  obtain ⟨l, f, a, x, d, c, n, h⟩ := h
  exact ⟨l, f, a, x, d, c, n, by rwa [e] at h⟩

/-- A response that nothing is owed before changes the communication only, and is the last thing to leave. -/
theorem State.respond_sent (s : State) (p ty st : Nat) (tag : BitVec 16) (q : Nat) (b : List Byte) (hp : p < 4)
    (h : s.maySend p b.length = true) :
    OnlyComm s (s.respond p ⟨none, dataFrame ty st tag q b⟩) ∧ Sent s (s.respond p ⟨none, dataFrame ty st tag q b⟩) p ty st tag q b := by
  have hr : (s.port p).resps = [] := by simp [State.maySend] at h; exact h.1.1.1.1.1.1.1
  rw [State.respond_eq s p _ (by omega) hr]
  refine ⟨((OnlyComm.modPort s p _).trans (OnlyComm.modPort _ p _)).trans (OnlyComm.reply _ p ty st tag q b (by omega)), ?_⟩
  refine Sent.of_outs (State.reply_sent _ p ty st tag q b hp ?_) (by simp)
  simpa [State.maySend, State.portUp, State.port_modPort_self _ _ _ (show p < 7 by omega), hr] using h

/-! ### Receiving -/

/-- A loop over an update of one field. -/
theorem forEach_wards {α : Type} (l : List α) (s : State) (f : α → State → State)
    (h : ∀ x t, f x t = { t with wards := (f x t).wards }) : forEach l s f = { s with wards := (forEach l s f).wards } := by
  induction l generalizing s with
  | nil => rfl
  | cons x t ih =>
    have e : forEach (x :: t) s f = forEach t (f x s) f := rfl
    rw [e, ih (f x s), h x s]

theorem State.dropEvents_eq (s : State) (l : List TxFrame) : s.dropEvents l = { s with wards := (s.dropEvents l).wards } := by
  refine forEach_wards l s _ (fun f t => ?_)
  split
  · exact State.modWard_eq _ _ _
  · rfl

/-- A data frame in order with nothing waiting behind it is given to its meaning, on a state that differs only in the port and in
acknowledged event records; what might leave may still leave. -/
theorem State.onData_deliver (s : State) (p : Nat) (f : Frame) (act : State → State) (hp : p < 4) (h : s.inOrder p f = true)
    (hq : (s.port p).txq = []) :
    ∃ u, s.onData p f act = act u ∧ u = { s with ports := u.ports, wards := u.wards } ∧ OnlyComm s u ∧
      (∀ n, s.maySend p n = true → u.maySend p n = true) ∧ (u.port p).rxNext = (s.port p).rxNext + 1#16 := by
  have hp4 : p ≠ 4 := by omega
  simp only [State.inOrder, Bool.and_eq_true, decide_eq_true_eq, Bool.not_eq_true'] at h
  obtain ⟨⟨⟨⟨hup, hcor⟩, hseq⟩, hh⟩, hd⟩ := h
  let q := s.port p
  let gone := q.replay.takeWhile (fun x => covers f.ack x.seq)
  let s1 := s.modPort p (fun q => { q with
    replay := q.replay.drop gone.length, replays := if gone.isEmpty then q.replays else 0,
    peerHdr := q.peerHdr + f.crdHdr.toNat, peerData := q.peerData + f.crdData.toNat })
  let s2 := s1.dropEvents gone
  have hs2e : s2 = { s1 with wards := s2.wards } := State.dropEvents_eq s1 gone
  have hports : s2.ports = s1.ports := by rw [hs2e]
  have hs1 : s1.port p = { q with
    replay := q.replay.drop gone.length, replays := if gone.isEmpty then q.replays else 0,
    peerHdr := q.peerHdr + f.crdHdr.toNat, peerData := q.peerData + f.crdData.toNat } := State.port_modPort_self _ _ _ (by omega)
  have hs2 : s2.port p = s1.port p := State.port_congr hports p
  have e : s.rxHeader p f = s2 := by
    unfold State.rxHeader
    simp only [hp4, false_and, if_false]
    show s2.pump p = s2
    unfold State.pump
    rw [hs2, hs1]
    simp [q, hq, hp4]
  let u := s2.deliver p f
  have hu : u.port p = { (s1.port p) with
      rxNext := (s1.port p).rxNext + 1#16, nakSent := false, owedHdr := (s1.port p).owedHdr + 1,
      owedData := (s1.port p).owedData + dataUnits f.payload.length } := by
    show (s2.modPort p _).port p = _
    rw [State.port_modPort_self _ _ _ (by omega), hs2]
  have hueq : u = { s with ports := u.ports, wards := u.wards } := by
    have h1 : u = { s2 with ports := u.ports } := State.modPort_eq s2 p _
    have h3 : s1 = { s with ports := s1.ports } := State.modPort_eq s p _
    have hw : u.wards = s2.wards := by rw [h1]
    rw [hw, h1, hs2e, h3]
  refine ⟨u, ?_, hueq, OnlyComm.of (by rw [hueq]), ?_, ?_⟩
  · unfold State.onData State.rxData
    simp only [hup, hcor, Bool.not_true, Bool.false_eq_true, if_false, e, hseq, if_true]
    rw [if_neg]
    omega
  · intro n hn
    simp only [State.maySend, Bool.and_eq_true, decide_eq_true_eq] at hn ⊢
    obtain ⟨⟨⟨⟨⟨⟨⟨b1, b2⟩, a1⟩, a0⟩, a2⟩, a3⟩, a4⟩, a5⟩ := hn
    have hup2 : u.portUp p = s.portUp p := by
      rw [hueq]; rfl
    have hin2 : u.pwr = s.pwr := by
      rw [hueq]
    rw [hu, hs1, hup2, hin2]
    refine ⟨⟨⟨⟨⟨⟨⟨b1, b2⟩, a1⟩, a0⟩, a2⟩, ?_⟩, ?_⟩, ?_⟩
    · simp only [List.length_drop]
      have : q.replay.length < 128 := a3
      omega
    · show 1 ≤ q.peerHdr + _
      have : 1 ≤ q.peerHdr := a4
      omega
    · show dataUnits n ≤ q.peerData + _
      have : dataUnits n ≤ q.peerData := a5
      omega
  · rw [hu, hs1]

end Sys2Proof.Machine
end

