-- ==== Sys2Proof/Tests/Slice0.lean ====
section
/-! SUPPORT. The author's own tests: for each statement a state and operands that meet its hypotheses, clause by clause at the ends of their
ranges, with a look at what one command does there; each check of WellFormed refuses a command that breaks it. Expected values are those of
the manual's tables and rules, worked by hand. -/

open Sys2Proof Sys2Proof.Machine

namespace Sys2Proof.Tests

set_option Elab.async false

/-- The state after a command; the state itself where the command does not answer one. -/
def run (i : Instr) (s : State) : State :=
  match exec i s with
  | .next t => t
  | _ => s

/-- A check of one state. -/
def chk (s : State) (f : State → Bool) : Bool := f s

/-- A device in RUN with every clock domain on, its host ports UP and credits in both directions, unsealed: W0 is on port 0 and owns every unit. -/
def up : State :=
  let s : State := { State.reset with
    ports := .replicate 7 { Port.zero with crdHdr := 64, crdData := 512, peerHdr := 64, peerData := 512 },
    jnl := { Jnl.zero with stop := false },
    pwr := { PwrSt.zero with gatedAll := false, resetN := true, waitRise := false } }
  let s := ((s.p RST_STATUS_PHASE 5).p (CLK_ON_ON 0) (2 ^ 64 - 1)).p (CLK_ON_ON 1) (2 ^ 64 - 1) |>.p (CLK_ON_ON 2) 0x7FFF
  (List.range 7).foldl (fun s g => s.p (LN_GRP_STATUS_STATE g) 2) s

/-- The same device sealed: Ward 0 on port 0 owns what an unsealed device gives it, sequencer 0 owns Channel Block 0. -/
def sealed : State :=
  { up with plan := { Plan.unsealed with sealed := true, cbOwner := (Vector.replicate 32 none).set 0 (some 0) } }

/-- A frame with the CRC its bytes call for. -/
def resum (f : Frame) : Frame :=
  { f with crc := BitVec.ofNat 32 (crc32c (frameBytes f.type f.status f.seq f.ack f.crdHdr f.crdData f.tag f.queue f.rsvd f.payload)) }

/-- A frame with its CRC. -/
def mkFrame (n ty queue : Nat) (payload : List Byte) : Frame :=
  resum ⟨BitVec.ofNat 16 n, 0xFFFF#16, 0#8, 0#8, BitVec.ofNat 8 ty, 0#8, 7#16, BitVec.ofNat 8 queue, payload, 0#24, false, 0#32, 0#4⟩

/-- A frame of this type in order. -/
def fr (ty : Nat) (payload : List Byte) : Frame := mkFrame 0 ty 0 payload

/-- The same with another SEQ. -/
def frAt (n ty : Nat) (payload : List Byte) : Frame := mkFrame n ty 0 payload

/-- What left last on port `p`: type, STATUS, TAG, payload. -/
def sent (s : State) : Option (Nat × Nat × Nat × Nat × List Byte) :=
  match s.outs.getLast? with
  | some (.frame p f _ _ _ _ _) => some (p, f.type.toNat, f.status.toNat, f.tag.toNat, f.payload)
  | _ => none

/-- Every check holds. -/
def ok (l : List Bool) : Bool := l.all id

/-- A member of no pair. -/
def aloneB (s : State) : Bool := !s.paired && decide (s.role ≠ 2)

/-- A queue's front may start with this opcode, outside a pair. -/
def takesB (s : State) (w q op : Nat) (c : Cmd) : Bool := decide (s.startable w q op = .go c) && aloneB s

/-- The records due, in progress or with the ACTIVE member. -/
def recsOf (t : State) : List DueRec := t.jnl.due ++ (t.jnl.prog.bind (·.due)).toList ++ (t.jnl.fwd.map (·.1)).toList

/-- STARTED of a command is due. -/
def begunB (t : State) (id : Nat) : Bool := (recsOf t).any (fun d => decide (d.kind = .started) && decide (d.cmd = some id))

/-- DONE with this STATUS and ARG is due. -/
def endedB (t : State) (id st arg : Nat) : Bool :=
  (recsOf t).any (fun d => decide (d.kind = .done) && decide (d.cmd = some id) && decide (d.body = doneBody st arg))

/-- DONE with this STATUS is due. -/
def endsB (t : State) (id st : Nat) : Bool :=
  (recsOf t).any (fun d => decide (d.kind = .done) && decide (d.cmd = some id) && decide (d.body.take 4 = toLe 4 st))

/-- A command has started and completed with this STATUS. -/
def doneB (t : State) (id st : Nat) : Bool := begunB t id && endsB t id st

/-- The sealed device whose Ward 0 owns all memory and every resource. -/
def own : State :=
  { sealed with plan := { sealed.plan with regions := (List.range 4).map (fun m => ⟨m, 0, 0, 2 ^ 36⟩), resources := (List.range 112).map (fun i => ⟨i / 16, i % 16, 0, none⟩) } }

/-- That device with one command waiting. -/
def ownCmd (op : Nat) (args : List Byte) : State := { own with cmds := [⟨5, 0, 0, 0, 9#16, op, BitVec.ofNat 64 op, args, false, false, some 40, some 40, true, false, false, .queued, false, false, true⟩] }


/-! ### Host ports, frames and the Journal -/

theorem test_reg_rd : up.inOrder 0 (fr 1 (toLe 8 (CH_CB_PMIN 3) ++ toLe 8 1)) = true ∧ up.maySend 0 8 = true ∧
    up.portWard 0 = some 0 ∧ up.cbWard 3 = some 0 ∧
    sent (run (.regRd 0 (fr 1 (toLe 8 (CH_CB_PMIN 3) ++ toLe 8 1))) (up.p (CH_CB_PMIN_COUNT 3) 0x1234)) =
      some (0, 0x81, 0, 7, toLe 8 0x1234) := by decide +kernel

/-- Ward 1 on port 1 owns nothing. -/
def two : State :=
  { up with plan := { Plan.unsealed with sealed := true, wards := #v[.all, { WardRec.off with enable := true, port := 1 }, .off, .off] } }

theorem test_reg_rd_fenced : two.inOrder 1 (fr 1 (toLe 8 (CH_CB_PMIN 3) ++ toLe 8 1)) = true ∧ two.portWard 1 = some 1 ∧
    two.regCheck (.ward 1) false (CH_CB_PMIN 3) = 3 ∧
    sent (run (.regRd 1 (fr 1 (toLe 8 (CH_CB_PMIN 3) ++ toLe 8 1))) two) = some (1, 0x81, 3, 7, []) := by decide +kernel

/-- The status of a register read of `n` words from `a` on by port 0. -/
def rdStatus (a n : Nat) : Option Nat := (sent (run (.regRd 0 (fr 1 (toLe 8 a ++ toLe 8 n))) up)).map (fun x => x.2.2.1)

theorem test_reg_rd_checks : up.maySend 0 0 = true ∧ up.nvmEcc = [] ∧ ok [rdStatus 0 0 = some 5, rdStatus 0 257 = some 5, rdStatus (2 ^ 40) 1 = some 2,
    rdStatus (2 ^ 40 - 4) 1 = some 1, rdStatus (0x10000000 - 8) 2 = some 2, rdStatus RST_IDENT 3 = some 0] = true := by
  decide +kernel

/-- Ward 0 owns no Channel Block. -/
def part : State := { two with plan := { two.plan with wards := two.plan.wards.set 0 { WardRec.all with cbMask := 0 } } }

/-- Whose registers a Ward reads and writes: a unit's, an unowned unit's, a Ward's own block, the device's. -/
theorem test_reg_access : ok [part.regCheck (.ward 0) false (CH_CB_PMIN 3) = 0, part.regCheck (.ward 0) true (CH_CB_PMIN 3) = 3,
    part.cbWard 3 = none, two.regCheck (.ward 0) false (WRD_QSTATUS 1 0) = 0, two.regCheck (.ward 0) true (WRD_QCTL 1 0) = 3,
    two.regCheck (.ward 1) true (WRD_QCTL 1 0) = 0, two.regCheck (.ward 1) false (DSP_WARD 0) = 3, two.regCheck (.ward 0) false (DSP_WARD 1) = 3,
    two.regCheck (.ward 1) false RST_STATUS = 0, two.regCheck (.ward 1) true PWR_CFG = 3, two.regCheck (.ward 0) true PWR_CFG = 0] = true := by
  decide +kernel

theorem test_register_write : (up.ward 0).enable = true ∧ up.paired = false ∧ up.cbWard 31 = some 0 ∧
    (run (.registerWrite (.ward 0) (BitVec.ofNat 32 (CH_CB_PMIN 31)) 0xFFFFFFFF00000005#64) up).regs = (up.wr (CH_CB_PMIN 31) 5#64).regs := by
  decide +kernel

/-- CH_CB_PMIN as the register table gives it. -/
def pminReg : RegDesc := ⟨.CH_CB_PMIN, 0x05004020, [(32, 0x40000)], .cb, [fld 31 0 .rw 0]⟩

theorem test_register_write_plain : regAt (CH_CB_PMIN 31) = some (pminReg, [31]) ∧ plainReg pminReg [31] ∧ up.writeBusy pminReg [31] 5#64 = false ∧
    writeVoid pminReg 5#64 = false ∧ csWindow (CH_CB_PMIN 31) = none ∧ up.regCheck (.ward 0) true (CH_CB_PMIN 31) = 0 :=
  ⟨by decide +kernel, ⟨rfl, rfl, fun _ _ _ _ _ => rfl⟩, by decide +kernel, rfl, by decide +kernel, by decide +kernel⟩

theorem test_register_write_busy : chk (up.p (VS_STATUS_STATE 2) 1) (fun s => ok [s.regCheck (.ward 0) true (VS_CFG 2) = 0,
    (regAt (VS_CFG 2)).any (fun x => s.writeBusy x.1 x.2 3#64), (run (.registerWrite (.ward 0) (BitVec.ofNat 32 (VS_CFG 2)) 3#64) s).regs = s.regs,
    sent (run (.regWr 0 (fr 2 (toLe 8 (VS_CFG 2) ++ toLe 8 3))) s) = some (0, 0x82, 6, 7, [])]) = true := by decide +kernel

theorem test_register_write_fenced : two.regCheck (.ward 1) true (CH_CB_PMIN 31) = 3 ∧
    (run (.registerWrite (.ward 1) (BitVec.ofNat 32 (CH_CB_PMIN 31)) 5#64) two).regs = two.regs := by decide +kernel

theorem test_reg_wr : up.role ≠ 2 ∧
    chk (run (.regWr 0 (fr 2 (toLe 8 (CH_CB_PMIN 0) ++ toLe 8 0x100000009))) up) (fun t => decide (
    t.rd (CH_CB_PMIN 0) = 9#64) && decide (sent t = some (0, 0x82, 0, 7, []))) := by decide +kernel

theorem test_reg_wr_standby : (up.p TWN_STATUS_ROLE 2).role = 2 ∧
    chk (run (.regWr 0 (fr 2 (toLe 8 (CH_CB_PMIN 0) ++ toLe 8 9))) (up.p TWN_STATUS_ROLE 2)) (fun t => decide (
    t.rd (CH_CB_PMIN 0) = 0#64) && decide (sent t = some (0, 0x82, 0xE, 7, []))) := by decide +kernel

/-- The device with every DRAM channel READY. -/
def dram : State := (List.range 4).foldl (fun s d => s.p (DRC_STATUS_STATE d) 2) own

/-- A write of 8 bytes by port 0, and a read of `n`. -/
def memW (a v : Nat) : Instr := .memWr 0 (fr 4 (toLe 8 a ++ toLe 8 v))
def memR (a n : Nat) : Instr := .memRd 0 (fr 3 (toLe 8 a ++ toLe 8 n))

theorem test_mem_wr : dram.ownsRange 0 1 0xEFFFF8 8 = true ∧ dram.waitingReqs = [] ∧ dram.inOrder 0 (fr 4 (toLe 8 (0x0100000000 + 0xEFFFF8) ++ toLe 8 0)) = true ∧
    chk (run (memW (0x0100000000 + 0xEFFFF8) 0x1122334455667788) dram) (fun t => decide (
    t.mem.length = 8) && decide (t.ldB (0x0100000000 + 0xEFFFF8) = 0x88#8) && decide (sent t = some (0, 0x84, 0, 7, []))) := by decide +kernel

theorem test_mem_wr_dram : memOf 0x1000000040 = some (0, 0x40) ∧ dram.memOwned 0 0 0x40 8 = true ∧ dram.rangeBad 0x40 = false ∧
    chk (run (memW 0x1000000040 77) dram) (fun t => decide (t.ld 0x1000000040 8 = toLe 8 77) && decide (sent t = some (0, 0x84, 0, 7, []))) := by
  decide +kernel

/-- The queue of a DRAM channel is full: the write and its response wait. -/
theorem test_mem_wr_waits : chk (dram.modDrc (dram.dramCh 0) (fun x => { x with be := List.replicate 32 ⟨0x40, 64, true, false, false, 0, [], 0⟩ })) (fun s =>
    chk (run (memW 0x1000000000 77) s) (fun t => ok [t.mem = s.mem, t.outs = s.outs, (t.port 0).resps.map (·.wait.isSome) = [true],
      s.waitingReqs = [], t.waitingReqs ≠ []])) = true := by decide +kernel

/-- The status of a command's response. -/
def memStatus (s : State) (i : Instr) : Option Nat := (sent (run i s)).map (fun x => x.2.2.1)

theorem test_mem_checks : ok [memStatus dram (memW 0x0100000004 1) = some 1, memStatus dram (memR 0x0100000000 12) = some 1,
    memOf 0x0100F00000 = none, memStatus dram (memW 0x0100F00000 1) = some 2, memStatus dram (memR (0x0100F00000 - 8) 16) = some 2,
    two.memOwned 1 1 0 8 = false, memStatus dram (memR 0x0100000000 2048) = some 0,
    own.rangeBad 0x40 = true, memStatus own (memW 0x1000000040 1) = some 2, memStatus own (memR 0x1000000040 8) = some 2,
    (run (memW 0x1000000040 1) own).flt.pend = [260], (run (memW 0x1000000040 1) own).g MEM_RANGE_ERR_COUNT = 1] = true := by decide +kernel

theorem test_mem_fenced : chk (run (.memWr 1 (fr 4 (toLe 8 0x0100000000 ++ toLe 8 1))) two) (fun t => decide (
    t.mem = []) && decide (sent t = some (1, 0x84, 3, 7, []))) ∧
    sent (run (.memRd 1 (fr 3 (toLe 8 0x0100000000 ++ toLe 8 8))) two) = some (1, 0x83, 3, 7, []) := by decide +kernel

theorem test_mem_rd : sent (run (memR 0x0100000000 8) (up.st 0x0100000000 (toLe 8 77))) = some (0, 0x83, 0, 7, toLe 8 77) := by decide +kernel

theorem test_mem_rd_dram : sent (run (memR 0x1000000040 8) (dram.st 0x1000000040 (toLe 8 77))) = some (0, 0x83, 0, 7, toLe 8 77) := by decide +kernel

theorem test_fcp : up.mayArm 0 1 3 = true ∧ up.fcp[3] = none ∧
    chk (run (.fcpXfer 0 (fr 6 (toLe 8 (3 + 64) ++ toLe 8 9))) up) (fun t => decide (
    t.outs = [.fcp 3 (toLe 8 9)]) && decide (t.fcp[3] = some ⟨0, some (0, 7#16), none, toLe 8 9⟩) &&
    decide (sent (run (.fcpTransferDone 3 (toLe 8 5)) t) = some (0, 0x86, 0, 7, toLe 8 5)) &&
    decide (sent (run (.fcpXfer 0 (fr 6 (toLe 8 (3 + 64) ++ toLe 8 9))) { up with fcp := t.fcp }) = some (0, 0x86, 6, 7, []))) := by
  decide +kernel

/-- Responses leave in the order of their transactions: one that waits for a transfer holds the next back (R51). -/
theorem test_fcp_order :
    chk (run (.fcpXfer 0 (fr 6 (toLe 8 (3 + 64) ++ toLe 8 9))) up) (fun t =>
      decide ((t.port 0).resps = [⟨some 3, dataFrame 0x86 0 7#16 0 []⟩]) && t.inOrder 0 (frAt 1 6 (toLe 8 (3 + 64) ++ toLe 8 9)) &&
      chk (run (.fcpXfer 0 (frAt 1 6 (toLe 8 (3 + 64) ++ toLe 8 9))) t) (fun v => decide (v.outs = t.outs) &&
        decide ((v.port 0).resps.map (·.wait) = [some 3, none]) &&
        decide (((run (.fcpTransferDone 3 (toLe 8 5)) v).outs.drop 1).map (fun o => match o with
          | .frame _ f _ _ _ _ _ => f.status.toNat
          | _ => 99) = [0, 6]))) = true := by decide +kernel

theorem test_cmd : 1 ∈ opcodes ∧ up.out = false ∧ up.queueDepth 0 0 < 512 ∧
    chk (run (.cmd 0 (fr 5 (toLe 8 (1 + 2 ^ 32)))) up) (fun t => decide (
    t.cmds.map (·.opcode) = [1]) && decide (t.cmds.map (·.fence) = [true]) && decide (t.cmds.map (·.jseq) = [some 0]) &&
    decide (sent (run (.journalCommit) t) = some (0, 0x85, 0, 7, toLe 8 0)) &&
    ok [u (fr 5 (toLe 8 (1 + 2 ^ 32))).payload 0 8 = 1 + 2 ^ 16 * 0 + 2 ^ 32 * b2n true + 2 ^ 33 * b2n false, 5 ≤ up.g RST_STATUS_PHASE, (up.port 0).acks = [],
      t.g (WRD_QSTATUS_LAST_TAG 0 0) = 7]) := by decide +kernel

/-- A member of a pair and a STANDBY take commands too, and a device before RUN keeps them (R56, R371). -/
theorem test_cmd_members : ok [(run (.cmd 0 (fr 5 (toLe 8 1))) ((up.p TWN_STATUS_ROLE 1).pb TWN_STATUS_PAIRED true)).cmds.length = 1,
    (run (.cmd 0 (fr 5 (toLe 8 (0xA1 + 2 ^ 19) ++ toLe 8 1))) (up.p TWN_STATUS_ROLE 2)).cmds.map (·.opcode) = [0xA1],
    ((run (.cmd 0 (fr 5 (toLe 8 1))) (up.p RST_STATUS_PHASE 4)).port 0).early.length = 1,
    (run (.cmd 0 (fr 5 (toLe 8 1))) (up.p RST_STATUS_PHASE 4)).cmds = []] = true := by decide +kernel

/-- The acceptance checks in their order. -/
theorem test_cmd_checks : ok [memStatus up (.cmd 0 (fr 5 [])) = some 5, memStatus up (.cmd 0 (fr 5 (toLe 8 (1 + 2 ^ 16)))) = some 5,
    memStatus up (.cmd 0 (fr 5 (toLe 8 0x99))) = some 0xC, memStatus up (.cmd 0 (fr 5 (toLe 8 (1 + 2 ^ 27)))) = some 0xC,
    memStatus up (.cmd 0 (fr 5 (toLe 8 (1 + 2 ^ 63)))) = some 0xC, memStatus two (.cmd 1 (fr 5 (toLe 8 0x10))) = some 9,
    memStatus (up.p TWN_STATUS_ROLE 2) (.cmd 0 (fr 5 (toLe 8 1))) = some 0xE, (run (.cmd 0 (fr 5 [])) up).g (WRD_REFUSED_LAST_STATUS 0) = 5] = true := by
  decide +kernel

theorem test_cmd_refused : (up.pb FLT_STATUS_OUT true).out = true ∧
    chk (run (.cmd 0 (fr 5 (toLe 8 1))) (up.pb FLT_STATUS_OUT true)) (fun t => decide (
    t.cmds = []) && decide (t.g (WRD_REFUSED_COUNT 0) = 1) && decide (sent t = some (0, 0x85, 0xF, 7, []))) := by decide +kernel

theorem test_queue_full :
    let c : Cmd := ⟨0, 0, 0, 0, 0#16, 1, 1#64, [], false, false, none, none, true, false, false, .queued, false, false, true⟩
    chk ({ up with cmds := List.replicate 512 c }) (fun s => decide (
    s.queueDepth 0 0 = 512) && decide (sent (run (.cmd 0 (fr 5 (toLe 8 1))) s) = some (0, 0x85, 0xB, 7, []))) := by decide +kernel

theorem test_unknown_frame :
    chk (run (.unknownFrame 2 (fr 0x7F [])) up) (fun t => decide (
    t.g (LNK_PORT_ERR_SEQ_ERR 2) = 1) && decide ((t.port 2).rxNext = 1#16) && decide (t.outs = [])) := by decide +kernel

theorem test_credit : ((run (.credit 1 (resum { fr 0xC1 [] with crdHdr := 3#8, crdData := 9#8 })) up).port 1).peerData = 521 := by decide +kernel

/-- A port with one frame that is not acknowledged. -/
def unacked : State := up.modPort 0 (fun q => { q with replay := [⟨0#16, 0x81#8, 0#8, 7#16, 0#8, [], none, 0⟩], txNext := 1#16 })

theorem test_corrupt_frame : up.corrupted 1 { fr 0xC1 [] with crdHdr := 3#8 } = true ∧ up.portHears 1 0xC1#8 = true ∧
    chk (up.modPort 1 (fun q => { q with nakSent := true })) (fun s => chk (run (.credit 1 { fr 0xC1 [] with crdHdr := 3#8 }) s) (fun t =>
      decide (t.ports = s.ports) && decide (t.g (LNK_PORT_ERR_CRC_ERR 1) = 1) && decide (t.outs = []))) = true := by decide +kernel

theorem test_nak : (unacked.port 0).replays < 8 ∧ framesOf (run (.nak 0 (fr 0xC0 [])) (unacked.p (LNK_PORT_CFG_REPLAY_LIMIT 0) 8)).outs =
    (unacked.port 0).replay := by decide +kernel

theorem test_ack_timeout : framesOf (run (.ackTimeout 0) (unacked.p (LNK_PORT_CFG_REPLAY_LIMIT 0) 8)).outs = (unacked.port 0).replay := by
  decide +kernel

theorem test_link_hold :
    chk (((up.p (LN_GRP_STATUS_STATE 3) 1).modPort 3 (fun q => { q with holding := true })).event 0 2 5) (fun s => decide (
    chk (run (.linkHold 3) s) (fun t => decide (
    t.g (LN_GRP_STATUS_STATE 3) = 0) && decide (t.port 3 = .zero) && decide ((t.wst 0).evq.map (·.code) = [2, 0x0803])))) := by decide +kernel

theorem test_event_frame : (sent (run (.eventFrameSend 0) (up.event 0 0x0907 5))).map (fun x => (x.1, x.2.1, x.2.2.2.2.length)) =
    some (0, 0x87, 32) := by decide +kernel

/-! ### The Journal and sequencers -/

/-- A command of queue 0 of Ward 0. -/
def cmdOf (op : Nat) (args : List Byte) : Cmd :=
  ⟨5, 0, 0, 0, 9#16, op, BitVec.ofNat 64 op, args, false, false, some 40, some 40, true, false, false, .queued, false, false, true⟩

/-- A record of that command in progress. -/
def committing (k : RecKind) : State :=
  { up.modPort 0 (fun q => { q with acks := [⟨some 5, dataFrame 0x85 0 9#16 0 []⟩] }) with
    cmds := [cmdOf 1 []], jnl := { up.jnl with next := 42, prog := some ⟨some ⟨k, some 5, [6#8, 0#8, 0#8, 0#8, 1#8], []⟩, some 5, 41, []⟩ } }

theorem test_commit_accepted : (committing .accepted).progPaired = false ∧
    chk (run .journalCommit (committing .accepted)) (fun t => decide (t.g JNL_HEAD_SEQNO = 41) && decide (sent t =
      some (0, 0x85, 0, 9, toLe 8 40)) && decide (t.nvLd (jnlAddr 41 + 14) 2 = [0x3C#8, 0xC3#8]) && decide (t.jnl.prog = none)) := by
  decide +kernel

theorem test_commit_done : chk (run .journalCommit (committing .done)) (fun t => decide (t.cmds = []) &&
    decide ((t.wst 0).evq.map (·.code) = [2]) && decide ((t.wst 0).evq.map (·.status) = [6]) && decide ((t.wst 0).evq.map (·.arg) = [1])) := by
  decide +kernel

theorem test_commit_fails : chk (run .journalCommit ((committing .done).nvAge [⟨(jnlAddr 41 + 56) / 8, .worn⟩])) (fun t => t.jnl.stop &&
    decide (t.flt.pend = [355]) && decide (t.nvm = []) && decide (t.cmds = [cmdOf 1 []])) := by decide +kernel

theorem test_flush : chk (run (.wrdQctlFlush (.ward 0) 0 0) { up with cmds := [cmdOf 1 []] }) (fun t =>
    decide (t.cmds.map (·.st) = [.ending]) && decide ((t.jnl.prog.bind (·.due)).map (·.kind) = some .abandoned) &&
    decide ((t.jnl.prog.bind (·.due)).map (·.body) = some [3#8]) && decide (t.regs = up.regs)) := by decide +kernel

theorem test_cs_write : (up.seq 4).st = .idle ∧ up.seqWard 4 = some 0 ∧
    chk (run (.csWordWrite (.ward 0) 4 0x1FFF 0xAAAAAAAA11111111#64) (run (.csLatchWrite (.ward 0) 4 0x800 true 2#64)
      (run (.csLatchWrite (.ward 0) 4 0x800 false 3#64) up)) ) (fun t =>
      decide (t.csWord 4 0x1FFF = csEncode (BitVec.ofNat 160 (0x11111111 * 2 ^ 128 + 2 * 2 ^ 64 + 3))) &&
      decide (t.csWord 4 0x1FFE = up.csWord 4 0x1FFE)) := by decide +kernel

theorem test_cs_write_busy : chk (up.modSeq 4 (fun x => { x with st := .beat })) (fun s =>
    decide ((run (.csWordWrite (.ward 0) 4 0x1FFF 1#64) s).seq 4 = s.seq 4) &&
    decide (((run (.csLatchWrite (.ward 0) 4 0x800 true 2#64) s).seq 4).latch1 = 2#64)) := by decide +kernel

/-- Sequencer 3 in this state, with a burst. -/
def seqIn (st : SeqState) : State :=
  sealed.modSeq 3 (fun x => { x with st := st, arch := { x.arch with pc := 0x900, beatMode := st != .setup }, burst := some ⟨none, 0, [], false, false, false, none, none⟩ })

theorem test_stop : (seqIn .beat).seqWard 3 = some 0 ∧ ((run (.psCtrlStop (.ward 0) 3) (seqIn .beat)).seq 3).pendStop = true ∧
    (run (.psCtrlStop (.ward 0) 3) (seqIn .beat)).regs = (seqIn .beat).regs := by decide +kernel

theorem test_pause : ((run (.psCtrlPause (.ward 0) 3) (seqIn .beat)).seq 3).pendPause = true := by decide +kernel

theorem test_kill : chk (run (.psCtrlKill (.ward 0) 3) (seqIn .beat)) (fun t => decide ((t.seq 3).st = .idle) &&
    decide ((t.seq 3).burst.map (·.ended) = some (some 3)) && decide (t.g (PS_BURST_END_CAUSE 3) = 3)) := by decide +kernel

theorem test_kill_stops : chk (({ seqIn .beat with cmds := [cmdOf 0x41 []] } : State).modSeq 3 (fun x =>
      { x with burst := x.burst.map (fun b => { b with stops := [5] }) })) (fun s => s.cmdOpen 5 &&
    chk (run (.psCtrlKill (.ward 0) 3) s) (fun t => endedB t 5 0 3)) = true := by decide +kernel

theorem test_resume : ((run (.psCtrlResume (.ward 0) 3) (seqIn .paused)).seq 3).st = .beat := by decide +kernel

theorem test_step : ((run (.psCtrlStep (.ward 0) 3) (seqIn .paused)).seq 3).step = true := by decide +kernel

/-- Sequencer 3 in SETUP at word 0x900, which holds this word. -/
def atWord (w : Micro) (f : Arch → Arch) : State :=
  ((seqIn .setup).p (APG_CFG_DWIDTH 3) 64).modSeq 3 (fun x => { x with cs := [(0x900, csEncode w)], arch := f x.arch })

/-- The PC after one microword. -/
def pcAfter (i : Instr) (w : Micro) (f : Arch → Arch) : Nat := ((run i (atWord w f)).seq 3).arch.pc

theorem test_setup_plain : (atWord (ctlWord 0 0 0 0 0) id).setupPlain 3 = true ∧
    (atWord (ctlWord 0 0 0 0 0) id).csWord 3 0x900 = csEncode (ctlWord 0 0 0 0 0) := by decide +kernel

theorem test_next : (run (.uNext 3) (atWord (ctlWord 0 0 0 0 0) id)).seq 3 = (atWord (ctlWord 0 0 0 0 0) (fun a => { a with pc := 0x901 })).seq 3 := by
  decide +kernel

theorem test_jump : pcAfter (.uJump 3) (ctlWord 1 0 0x1234 0 0) id = 0x1234 ∧ pcAfter (.uJump 3) (ctlWord 1 32 0x1234 0 0) id = 0x901 := by
  decide +kernel

theorem test_call : (run (.uCall 3) (atWord (ctlWord 2 0 0x1234 0 0) id)).seq 3 = (atWord (ctlWord 2 0 0x1234 0 0) (fun a => { a with pc := 0x1234, sp := 1, stack := a.stack.set 0 0x901 })).seq 3 := by decide +kernel

theorem test_ret : pcAfter (.uRet 3) (ctlWord 3 0 0 0 0) (fun a => { a with sp := 1, stack := a.stack.set 0 0xABC }) = 0xABC := by
  decide +kernel

theorem test_loop : (run (.uLoop 3) (atWord (ctlWord 4 0 0x800 5 0) (fun a => a.setLc 5 2))).seq 3 = (atWord (ctlWord 4 0 0x800 5 0) (fun a => { a.setLc 5 1 with pc := 0x800 })).seq 3 ∧
    (run (.uLoop 3) (atWord (ctlWord 4 0 0x800 5 0) (fun a => a.setRl 5 7))).seq 3 = (atWord (ctlWord 4 0 0x800 5 0) (fun a => { (a.setRl 5 7).setLc 5 7 with pc := 0x901 })).seq 3 := by decide +kernel

theorem test_ldlc : (run (.uLdlc 3) (atWord (ctlWord 5 0 0 2 0x12345678) id)).seq 3 = (atWord (ctlWord 5 0 0 2 0x12345678) (fun a => { (a.setLc 2 0x345678).setRl 2 0x345678 with pc := 0x901 })).seq 3 := by decide +kernel

theorem test_repeat : (run (.uRepeat 3) (atWord (ctlWord 6 0 0 0 4) id)).seq 3 = (atWord (ctlWord 6 0 0 0 4) (fun a => { a with rep := some 4 })).seq 3 := by
  decide +kernel

theorem test_fsync : pcAfter (.uFsync 3) (ctlWord 9 0 0 0 0) id = 0x901 := by decide +kernel

theorem test_break : pcAfter (.uBreak 3) (ctlWord 10 0 0 0 0) id = 0x901 := by decide +kernel

theorem test_jumpi : pcAfter (.uJumpi 3) (ctlWord 11 0 6 0 0) (fun a => a.setGr 6 0x1FFF#64) = 0x1FFF := by decide +kernel

theorem test_begin : chk (run (.uBegin 3) (atWord (ctlWord 7 0 0 0 0) id)) (fun t => decide ((t.seq 3).st = .beat) &&
    decide ((t.seq 3).inFlight.map (·.beat) = [0]) && decide ((t.seq 3).inFlight.map (·.len) = [1250]) && decide (t.g (PS_BEATS_BEATS 3) = 1) &&
    decide ((t.seq 3).arch.pc = 0x901)) := by decide +kernel

theorem test_end : chk (run (.uEnd 3) (atWord (ctlWord 8 0 0 0 0) id)) (fun t => decide ((t.seq 3).st = .idle) &&
    decide ((t.seq 3).burst.map (·.ended) = some (some 1)) && decide (t.g (PS_BURST_END_CAUSE 3) = 1)) := by decide +kernel

theorem test_hold_beat : chk (run .journalCommit ((run (.uBegin 3) (atWord (ctlWord 7 0 0 0 0) id)).modSeq 3 (fun x => { x with st := .paused })))
    (fun s => decide (((run (.holdBeat 3) s).seq 3).inFlight.map (·.hold) = [false, true]) &&
      decide (((run (.holdBeat 3) s).seq 3).tEnd = (s.seq 3).tEnd.map (· + 1250))) := by decide +kernel

theorem test_square_release :
    chk (((seqIn .setup).modSeq 3 (fun x => { x with st := .wait, wait := some ⟨6, 0, 1250, 0, none, none, 0⟩ })).modSq 6
      (fun x => { x with trel := some 0, arr := [(3, 5)] })) (fun s => decide (s.running = true) &&
      chk (run (.squareRelease 6) s) (fun t => decide ((t.seq 3).st = .setup) && decide ((t.seq 3).wait = none) &&
        decide ((t.seq 3).ckpt.map (·.sq) = some (some 6)) && decide (t.g (PS_SQ_COUNT_RELEASES 6) = 1) && decide (t.sq 6 = .zero))) := by
  decide +kernel

theorem test_code : csDecode (csEncode 0x123456789ABCDEF0#160 ^^^ 1#169) = some (0x123456789ABCDEF0#160, true) ∧
    csDecode (csEncode 0x123456789ABCDEF0#160 ^^^ 3#169) = none := by decide +kernel

theorem test_code_qword3 : chk (up.modSeq 31 (fun x => { x with cs := [(0x1FFF, csEncode 1#160)] })) (fun s =>
    decide (s.readReg 0 (0x02080000 + 31 * 0x100000 + 32 * 0x1FFF + 24) = 0x103#64)) := by decide +kernel

/-! ### The Townplan -/

/-- A small image of 1,536 bytes, its nonzero bytes: Ward 0 on port 0 with every device source, no Channel Block owned, CLK_KEEP(0) = 1, one region
of 4 KiB of the Acquisition Buffer, no twin. The CRCs are those of R23 and R24, computed apart from the model. -/
def image : Tab Byte :=
  [
    (0x0, 0x54#8), (0x1, 0x57#8), (0x2, 0x4E#8), (0x3, 0x50#8), (0x4, 0x01#8), (0x6, 0x80#8), (0x8, 0x28#8), (0x9, 0x01#8), (0xA, 0xA0#8), (0xD, 0x06#8),
    (0x10, 0x77#8), (0x24, 0x05#8), (0x28, 0x80#8), (0x7C, 0xCB#8), (0x7D, 0x8F#8), (0x7E, 0xD9#8), (0x7F, 0x9D#8), (0x80, 0x10#8), (0x82, 0x01#8), (0x85, 0x01#8),
    (0x89, 0x04#8), (0x8C, 0x11#8), (0x8D, 0xA3#8), (0x8E, 0x1D#8), (0x8F, 0x67#8), (0x90, 0x11#8), (0x92, 0x01#8), (0x95, 0x05#8), (0x98, 0x20#8), (0x9C, 0x43#8),
    (0x9D, 0xAB#8), (0x9E, 0xA8#8), (0x9F, 0x62#8), (0xA0, 0x20#8), (0xA2, 0x01#8), (0xA4, 0x40#8), (0xA5, 0x05#8), (0xA8, 0x18#8), (0xAC, 0xA7#8), (0xAD, 0xA7#8),
    (0xAE, 0x37#8), (0xAF, 0xF3#8), (0xB0, 0x21#8), (0xB2, 0x01#8), (0xB4, 0x80#8), (0xB5, 0x05#8), (0xB8, 0x20#8), (0xBC, 0xC1#8), (0xBD, 0xA1#8), (0xBE, 0xFC#8),
    (0xBF, 0xA8#8), (0xC0, 0x60#8), (0xC2, 0x01#8), (0xC4, 0xC0#8), (0xC5, 0x05#8), (0xC8, 0x40#8), (0xCC, 0x67#8), (0xCD, 0xEB#8), (0xCE, 0xC8#8), (0xCF, 0x03#8),
    (0x100, 0x01#8), (0x160, 0x1F#8), (0x161, 0xFF#8), (0x162, 0x0F#8), (0x164, 0xFF#8), (0x165, 0xFF#8), (0x166, 0x7F#8), (0x168, 0x3F#8), (0x169, 0xFF#8), (0x16C, 0xFF#8),
    (0x16D, 0x0F#8), (0x170, 0xFF#8), (0x171, 0x0F#8), (0x500, 0xFF#8), (0x501, 0xFF#8), (0x502, 0xFF#8), (0x503, 0xFF#8), (0x504, 0xFF#8), (0x505, 0xFF#8), (0x506, 0xFF#8),
    (0x507, 0xFF#8), (0x508, 0xFF#8), (0x509, 0xFF#8), (0x50A, 0xFF#8), (0x50B, 0xFF#8), (0x50C, 0xFF#8), (0x50D, 0xFF#8), (0x50E, 0xFF#8), (0x50F, 0xFF#8), (0x510, 0xFF#8),
    (0x511, 0xFF#8), (0x512, 0xFF#8), (0x513, 0xFF#8), (0x514, 0xFF#8), (0x515, 0xFF#8), (0x516, 0xFF#8), (0x517, 0xFF#8), (0x518, 0xFF#8), (0x519, 0xFF#8), (0x51A, 0xFF#8),
    (0x51B, 0xFF#8), (0x51C, 0xFF#8), (0x51D, 0xFF#8), (0x51E, 0xFF#8), (0x51F, 0xFF#8), (0x540, 0x18#8), (0x541, 0x20#8), (0x548, 0x01#8), (0x550, 0x01#8), (0x580, 0x03#8),
    (0x591, 0x10#8)]

/-- A device that stages the image in slot B, in this stage, with this command. -/
def staging (stage op : Nat) (args : List Byte) : State :=
  { up.p JNL_PLAN_STATUS_STAGE stage with nvm := image.map (fun p => (p.1 + 2097152, p.2)), cmds := [cmdOf op args], store := { PlanStore.zero with stageLen := 1536 } }

theorem nvLd_split (s : State) (a m n : Nat) : s.nvLd a (m + n) = s.nvLd a m ++ s.nvLd (a + m) n := by
  unfold State.nvLd
  rw [List.range_add, List.map_append, List.map_map]
  congr 1
  apply List.map_congr_left
  intro i _
  simp [Nat.add_assoc]

theorem nvLd_zeros (s : State) (a n : Nat) (h : ∀ p ∈ s.nvm, p.1 < a ∨ a + n ≤ p.1) : s.nvLd a n = List.replicate n 0#8 := by
  have hg : ∀ (t : Tab Byte) (i : Nat), (∀ p ∈ t, p.1 ≠ i) → tabGet 0#8 t i = 0#8 := by
    intro t i ht
    induction t with
    | nil => rfl
    | cons p t ih =>
      rw [tabGet, if_neg (fun e => ht p (by simp) e.symm)]
      exact ih (fun q hq => ht q (by simp [hq]))
  unfold State.nvLd
  rw [List.eq_replicate_iff]
  refine ⟨by simp, ?_⟩
  intro b hb
  obtain ⟨i, hi, rfl⟩ := List.mem_map.mp hb
  refine hg _ _ (fun p hp e => ?_)
  have := h p hp
  have := List.mem_range.mp hi
  omega

/-- The device of `staging` whose PLAN_VERIFY runs. -/
def verifying : State := { staging 2 0x12 [] with cmds := [{ cmdOf 0x12 [] with st := .running, started := true }], store := { PlanStore.zero with stageLen := 1536, verify := some 5 } }

theorem image_sects : verifying.sects 2097152 =
    [⟨0, 0x10, 256, 1024, 1729995537⟩, ⟨1, 0x11, 1280, 32, 1655221059⟩, ⟨2, 0x20, 1344, 24, 4080510887⟩, ⟨3, 0x21, 1408, 32, 2835128769⟩,
      ⟨4, 0x60, 1472, 64, 63499111⟩] := by decide +kernel

theorem image_wards : verifying.nvLd (2097152 + 256) 1024 = verifying.nvLd (2097152 + 256) 0x80 ++ List.replicate 0x380 0#8 := by
  rw [show (1024 : Nat) = 0x80 + 0x380 from rfl, nvLd_split, nvLd_zeros verifying (2097152 + 256 + 0x80) 0x380 (by decide +kernel)]

set_option maxRecDepth 1000000 in
theorem image_ward_crc : crc32c (verifying.nvLd (2097152 + 256) 0x80 ++ List.replicate 0x380 0#8) = 1729995537 := by decide +kernel

theorem image_crcs : crc32c (verifying.nvLd (2097152 + 1280) 32) = 1655221059 ∧ crc32c (verifying.nvLd (2097152 + 1344) 24) = 4080510887 ∧
    crc32c (verifying.nvLd (2097152 + 1408) 32) = 2835128769 ∧ crc32c (verifying.nvLd (2097152 + 1472) 64) = 63499111 := by decide +kernel

set_option maxRecDepth 100000 in
theorem image_checks : verifying.iu 2097152 0xC 4 = 1536 ∧ verifying.iu 2097152 0 4 = 0x504E5754 ∧ verifying.chkFormat 2097152 = none ∧
    verifying.iu 2097152 8 4 = 0x00A00128 ∧ verifying.badHdrCrc 2097152 = false ∧ verifying.chkSig 2097152 = none ∧
    verifying.chkClock 2097152 = none ∧ verifying.chkMemory 2097152 = none ∧ verifying.chkTwin 2097152 = none := by decide +kernel

theorem image_layout : verifying.chkLayout 2097152 = none := by decide +kernel

theorem image_fields : verifying.chkField 2097152 = none := by decide +kernel

theorem image_ward : verifying.chkWard 2097152 = none := by decide +kernel

theorem image_owners : firstDiag ((verifying.sects 2097152).map (verifying.chkOwnerSect 2097152 (verifying.sects 2097152))) = none := by
  decide +kernel

/-- The image passes every check of Table 2.10. -/
theorem test_image_valid : verifying.validate 2097152 1536 = none := by
  obtain ⟨a, b, c, d⟩ := image_crcs
  have hc : verifying.chkSectCrc 2097152 = none := by
    unfold State.chkSectCrc
    rw [image_sects]
    simp only [List.map_cons, List.map_nil, image_wards, image_ward_crc, a, b, c, d]
    decide
  have hm : chkMissing (verifying.sects 2097152) = none := by rw [image_sects]; decide
  obtain ⟨h1, h2, h3, h4, h5, h6, h7, h8, h9⟩ := image_checks
  simp only [State.validate, hc, hm, h1, h2, h3, h4, h5, h6, h7, h8, h9, image_layout, image_fields, image_ward, image_owners]
  decide

theorem test_plan_begin : ok [takesB (staging 1 0x10 (toLe 4 128 ++ toLe 4 0)) 0 0 0x10 (cmdOf 0x10 (toLe 4 128 ++ toLe 4 0)),
    (staging 1 0x10 []).stage ≠ 2, !(staging 1 0x10 []).store.desc.pending,
    chk (run (.planBegin 0 0) (staging 1 0x10 (toLe 4 128 ++ toLe 4 0))) (fun t => ok [doneB t 5 0, t.stage = 1, t.store.stageLen = 128,
      tabGet 0#8 t.nvm 2097152 = 0#8, tabGet 0#8 t.nvm (2097152 + 0x160) = 0x1F#8])] = true := by decide +kernel

/-- PLAN_LOAD's arguments: OFFSET, reserved, DATA. -/
def loadArgs : List Byte := toLe 4 1472 ++ toLe 4 0 ++ List.replicate 64 9#8

theorem test_plan_load : ok [takesB (staging 1 0x11 loadArgs) 0 0 0x11 (cmdOf 0x11 loadArgs), (staging 1 0 []).stage = 1,
    chk (run (.planLoad 0 0) (staging 1 0x11 loadArgs)) (fun t => ok [doneB t 5 0, t.nvLd (2097152 + 1472) 64 = List.replicate 64 9#8,
      tabGet 0#8 t.nvm 2097152 = 0x54#8])] = true := by decide +kernel

theorem test_plan_verify : ok [takesB (staging 1 0x12 []) 0 0 0x12 (cmdOf 0x12 []),
    chk (run (.planVerify 0 0) (staging 1 0x12 [])) (fun t => ok [begunB t 5, t.stage = 2, t.store.verify = some 5])] = true := by decide +kernel

theorem test_validation_valid : ok [verifying.ticks, !verifying.paired, verifying.store.verify = some 5, verifying.cmdOpen 5] = true ∧
    verifying.validate (slotBase verifying.stageSlot) verifying.store.stageLen = none :=
  ⟨by decide +kernel, test_image_valid⟩

theorem test_validation_rejects : chk { verifying with nvm := [] } (fun s => ok [s.cmdOpen 5,
    s.validate (slotBase s.stageSlot) s.store.stageLen = some (1, 0xFF, 0xC),
    chk (run .validationComplete s) (fun t => ok [t.stage = 4, endsB t 5 0x81, t.g JNL_PLAN_DIAG_CODE = 1, t.g JNL_PLAN_DIAG_OFFSET = 0xC,
      t.store.verify = none])]) = true := by decide +kernel

theorem test_plan_seal_unsealed : ok [takesB (staging 3 0x13 (toLe 8 0x77)) 0 0 0x13 (cmdOf 0x13 (toLe 8 0x77)),
    (staging 3 0x13 []).iu (slotBase (staging 3 0x13 []).stageSlot) 0x10 8 = 0x77, !(staging 3 0x13 []).plan.sealed,
    chk (run (.planSeal 0 0) (staging 3 0x13 (toLe 8 0x77))) (fun t => ok [t.stage = 0, t.plan.sealed, t.plan.planId = 0x77,
      t.store.desc = ⟨true, true, false, false⟩])] = true := by decide +kernel

theorem test_plan_seal_sealed : chk { staging 3 0x13 (toLe 8 0x77) with plan := sealed.plan } (fun s => ok [takesB s 0 0 0x13 (cmdOf 0x13 (toLe 8 0x77)),
    s.iu (slotBase s.stageSlot) 0x10 8 = 0x77,
    chk (run (.planSeal 0 0) s) (fun t => ok [doneB t 5 0, t.plan = s.plan, t.store.desc.pending, t.store.seals = 1])]) = true := by decide +kernel

theorem test_plan_retire : ok [takesB (ownCmd 0x14 []) 0 0 0x14 (cmdOf 0x14 []),
    chk (run (.planRetire 0 0) (ownCmd 0x14 [])) (fun t => ok [doneB t 5 0, t.store.desc.retired, t.gb JNL_PLAN_STATUS_RETIRED, t.plan = own.plan])] = true := by
  decide +kernel

/-- PLAN_READ of the last 8 bytes of slot B. -/
def readArgs : List Byte := toLe 1 1 ++ toLe 3 0 ++ toLe 4 2097144 ++ toLe 2 8 ++ toLe 6 0

theorem test_plan_read : ok [takesB (ownCmd 0x15 readArgs) 0 0 0x15 (cmdOf 0x15 readArgs),
    chk (run (.planRead 0 0) { ownCmd 0x15 readArgs with nvm := [(4194303, 7#8)] }) (fun t => ok [begunB t 5, endedB t 5 0 8,
      (recsOf t).any (fun d => decide (d.data = List.replicate 7 0#8 ++ [7#8]))])] = true := by decide +kernel

/-- The base point of P-256, big-endian: a point of the curve. -/
def keyG : List Byte :=
  (toLe 32 0x6B17D1F2E12C4247F8BCE6E563A440F277037D812DEB33A0F4A13945D898C296).reverse ++
    (toLe 32 0x4FE342E2FE1A7F9B8EE7EB4A7C0F9E162BCE33576B315ECECBB6406837BF51F5).reverse

theorem test_plan_key : chk (ownCmd 0x16 (toLe 1 1 ++ toLe 1 0 ++ toLe 6 0 ++ keyG ++ toLe 64 0)) (fun s => ok [
    takesB s 0 0 0x16 (cmdOf 0x16 (toLe 1 1 ++ toLe 1 0 ++ toLe 6 0 ++ keyG ++ toLe 64 0)), !s.store.requireSig, keyG.length = 64,
    onCurve (keyPoint keyG).1 (keyPoint keyG).2, chk (run (.planKey 0 0) s) (fun t => ok [doneB t 5 0, t.store.key1 = some keyG, t.store.key0 = none])]) =
    true := by decide +kernel

theorem test_plan_key_clear : chk { ownCmd 0x16 (toLe 1 0 ++ toLe 1 1 ++ toLe 6 0 ++ toLe 64 0 ++ toLe 64 0) with store := { PlanStore.zero with key0 := some keyG, key1 := some keyG } } (fun s => ok [
    takesB s 0 0 0x16 (cmdOf 0x16 (toLe 1 0 ++ toLe 1 1 ++ toLe 6 0 ++ toLe 64 0 ++ toLe 64 0)),
    chk (run (.planKey 0 0) s) (fun t => ok [doneB t 5 0, t.store.key0 = none, t.store.key1 = some keyG])]) = true := by decide +kernel

/-! ### Commands of the host -/

theorem test_nop : ok [takesB (ownCmd 1 []) 0 0 1 (cmdOf 1 []), chk (run (.nop 0 0) (ownCmd 1 [])) (fun t => ok [doneB t 5 0, t.regs = own.regs])] = true := by
  decide +kernel

theorem test_reg_set : chk (ownCmd 2 (toLe 8 (CH_CB_PMIN 31) ++ toLe 8 0xFFFFFFFF00000006)) (fun s => ok [
    takesB s 0 0 2 (cmdOf 2 (toLe 8 (CH_CB_PMIN 31) ++ toLe 8 0xFFFFFFFF00000006)), (s.ward 0).enable, s.cbWard 31 = some 0, !s.twin.copying,
    chk (run (.regSet 0 0) s) (fun t => ok [doneB t 5 0, t.g (CH_CB_PMIN_COUNT 31) = 6])]) = true := by decide +kernel

theorem test_fcp_write : chk (ownCmd 3 (toLe 8 (7 + 8 * 1) ++ [9#8])) (fun s => ok [takesB s 0 0 3 (cmdOf 3 (toLe 8 (7 + 8 * 1) ++ [9#8])), s.mayArm 0 1 7,
    s.fcp[7] = none, chk (run (.fcpWrite 0 0) s) (fun t => ok [begunB t 5, t.outs = [.fcp 7 [9#8]], t.fcp[7] = some ⟨0, none, some 5, [9#8]⟩])]) = true := by
  decide +kernel

/-- A command that runs. -/
def runningCmd (id op : Nat) : Cmd := { cmdOf op [] with id := id, st := .running, started := true }

theorem test_fcp_done : chk { own with cmds := [runningCmd 5 3], fcp := own.fcp.set 7 (some ⟨0, none, some 5, [9#8]⟩) } (fun s => ok [s.ticks, aloneB s,
    s.cmdOpen 5, chk (run (.fcpTransferDone 7 [1#8]) s) (fun t => ok [endsB t 5 0, t.fcp[7] = none])]) = true := by decide +kernel

/-- BURST_START of sequencer 31 at 0x1FFF, RESTARTABLE. -/
def startArgs : List Byte := toLe 1 31 ++ toLe 1 1 ++ toLe 2 0x1FFF ++ toLe 4 0

theorem test_burst_start : chk (ownCmd 0x20 startArgs) (fun s => ok [takesB s 0 0 0x20 (cmdOf 0x20 startArgs), s.plan.sealed, s.seqWard 31 = some 0,
    (s.seq 31).st = .idle, !s.calHolds 31,
    chk (run (.burstStart 0 0) s) (fun t => ok [begunB t 5, (t.seq 31).st = .setup, (t.seq 31).arch.pc = 0x1FFF,
      (t.seq 31).burst.map (·.restartable) = some true, t.gb (PS_STATUS_RESTARTABLE 31)])]) = true := by decide +kernel

/-- BURST_STOP of sequencer 3. -/
def stopArgs (kill : Nat) : List Byte := toLe 1 3 ++ toLe 1 kill ++ toLe 6 0

theorem test_burst_stop_idle : chk (ownCmd 0x21 (stopArgs 0)) (fun s => ok [takesB s 0 0 0x21 (cmdOf 0x21 (stopArgs 0)), s.seqWard 3 = some 0,
    (s.seq 3).st = .idle, chk (run (.burstStop 0 0) s) (fun t => ok [begunB t 5, endedB t 5 0 0])]) = true := by decide +kernel

theorem test_burst_stop_beat : chk { seqIn .beat with cmds := [cmdOf 0x21 (stopArgs 0)] } (fun s => ok [takesB s 0 0 0x21 (cmdOf 0x21 (stopArgs 0)),
    (s.seq 3).st = .beat, chk (run (.burstStop 0 0) s) (fun t => ok [begunB t 5, (t.seq 3).pendStop, (t.seq 3).burst.map (·.stops) = some [5],
      (t.seq 3).st = .beat])]) = true := by decide +kernel

theorem test_burst_stop_kill : chk { seqIn .beat with cmds := [cmdOf 0x21 (stopArgs 1)] } (fun s => ok [takesB s 0 0 0x21 (cmdOf 0x21 (stopArgs 1)),
    chk (run (.burstStop 0 0) s) (fun t => ok [begunB t 5, endedB t 5 0 3, (t.seq 3).st = .idle, (t.seq 3).burst.map (·.ended) = some (some 3),
      t.g (PS_BURST_END_CAUSE 3) = 3])]) = true := by decide +kernel

/-- Sequencer 3 with an ended burst of command 5, which is the last one or has a later one of command 6 behind it. -/
def endedBurst (later : Bool) : State :=
  let b : Burst := ⟨some 5, 0, [], false, false, false, some 2, none⟩
  { (sealed.modSeq 3 (fun x =>
      if later then { x with st := .setup, burst := some ⟨some 6, 0, [], false, false, false, none, none⟩, olds := [b] } else { x with burst := some b })) with
    cmds := [runningCmd 5 0x20, runningCmd 6 0x20] }

theorem test_burst_done : chk (endedBurst false) (fun s => ok [
    aloneB s, s.cmdOpen 5, s.drained 3, s.capIdle 3, (s.arm 3).cur.isNone, (s.arm 3).closed = [],
    chk (run (.burstDone 3) s) (fun t => ok [endedB t 5 0 2, (t.seq 3).burst.isNone])]) = true := by decide +kernel

theorem test_burst_done_later : chk (endedBurst true) (fun s => ok [
    aloneB s, s.cmdOpen 5, s.drained 3, s.capIdle 3, (s.arm 3).cur.isNone, (s.arm 3).closed = [],
    chk (run (.burstDone 3) s) (fun t => ok [endedB t 5 0 2, (t.seq 3).olds = [], (t.seq 3).burst.map (·.cmd) = some (some 6)])]) = true := by
  decide +kernel

/-- STREAM_ARM of engine 15 for sequencer 0. -/
def armArgs (vb : Nat) (n off len roff rsize : Nat) : List Byte :=
  toLe 1 15 ++ toLe 1 0 ++ toLe 1 vb ++ toLe 1 n ++ toLe 4 0 ++ toLe 8 off ++ toLe 8 len ++ toLe 8 roff ++ toLe 4 rsize ++ toLe 4 0 ++ toLe 8 0

theorem test_stream_arm : chk (ownCmd 0x30 (armArgs 0 1 64 64 4096 16384)) (fun s => ok [takesB s 0 0 0x30 (cmdOf 0x30 (armArgs 0 1 64 64 4096 16384)),
    s.vsWard 15 = some 0, s.seqWard 0 = some 0, (s.seqCbs 0).length = 1, s.ownsRange 0 0 64 64, s.ownsRange 0 1 4096 16384, s.g (VS_STATUS_STATE 15) = 0,
    (s.seqVs 0).isNone, (s.seq 0).st = .idle, chk (run (.streamArm 0 0) s) (fun t => ok [begunB t 5, t.g (VS_STATUS_STATE 15) = 1,
      t.gb (VS_STATUS_BOUND 15), t.g (VS_ARM_RING_RING_OFF 15) = 4096, (t.vse 15).cur.length = 4])]) = true := by decide +kernel

theorem test_stream_arm_vb : chk (ownCmd 0x30 (armArgs 1 1 64 64 0 0)) (fun s => ok [takesB s 0 0 0x30 (cmdOf 0x30 (armArgs 1 1 64 64 0 0)),
    s.ownsRange 0 1 64 64, chk (run (.streamArm 0 0) s) (fun t => ok [begunB t 5, t.gb (VS_STATUS_SRC_VB 15), t.g (VS_STATUS_STATE 15) = 1])]) = true := by
  decide +kernel

/-- STREAM_ARM with DISARM of engine 15. -/
def disArgs : List Byte := toLe 1 15 ++ toLe 1 0 ++ toLe 1 2 ++ toLe 45 0

theorem test_stream_disarm_idle : chk (ownCmd 0x30 disArgs) (fun s => ok [takesB s 0 0 0x30 (cmdOf 0x30 disArgs), s.g (VS_STATUS_STATE 15) = 0,
    chk (run (.streamArm 0 0) s) (fun t => ok [doneB t 5 0, t.regs = s.regs])]) = true := by decide +kernel

/-- Engine 15 bound to sequencer 0, in this state, with a stream in the Vector Buffer. -/
def bound (st : Nat) : State := (((own.p (VS_STATUS_STATE 15) st).pb (VS_STATUS_BOUND 15) true).pb (VS_STATUS_SRC_VB 15) true).p (VS_ARM_LEN_STREAM_LEN 15) 64

theorem test_stream_disarm : chk { (bound 1).modVs 15 (fun x => { x with arm := some 6 }) with cmds := [cmdOf 0x30 disArgs, runningCmd 6 0x30] } (fun s => ok [
    takesB s 0 0 0x30 (cmdOf 0x30 disArgs), s.g (VS_STATUS_STATE 15) ≠ 0, !s.bursting (s.g (VS_STATUS_SEQ 15)), (s.vse 15).arm = some 6, s.cmdOpen 6,
    chk (run (.streamArm 0 0) s) (fun t => ok [doneB t 5 0, endsB t 6 0, t.g (VS_STATUS_STATE 15) = 0, !t.gb (VS_STATUS_BOUND 15)])]) = true := by decide +kernel

theorem test_stream_primed : chk { (bound 1).modVs 15 (fun x => { x with arm := some 6, queue := List.replicate 32 [0#11, 0#11, 0#11, 0#11] }) with cmds := [runningCmd 6 0x30] } (fun s => ok [
    s.ticksOf (vsDom 15), aloneB s, !s.gb (VS_STATUS_PRIMED 15), s.vsVb 15, (s.vse 15).queue.length = 32, s.cmdOpen 6,
    chk (run (.streamPrimed 15) s) (fun t => ok [endedB t 6 0 0, t.g (VS_STATUS_STATE 15) = 2, t.gb (VS_STATUS_PRIMED 15), (t.vse 15).arm.isNone])]) = true := by
  decide +kernel

/-- CAP_ARM of sequencer 3 with an FCM area of `n` units of 64 KiB from unit `o` on, without context. -/
def capAt (o n : Nat) : List Byte := toLe 1 3 ++ toLe 1 0 ++ toLe 2 0xFFFF ++ toLe 4 1000000 ++ toLe 4 (o * 65536) ++ toLe 4 (n * 65536) ++ toLe 8 0 ++ toLe 8 0

/-- The last unit. -/
def capArgs : List Byte := capAt 127 1

/-- The whole FCM: SIZE holds 0 for 128 units (Table 8.11). -/
theorem test_cap_arm_whole : chk (ownCmd 0x40 (capAt 0 128)) (fun s => ok [takesB s 0 0 0x40 (cmdOf 0x40 (capAt 0 128)), s.ownsRange 0 2 0 (128 * 65536),
    chk (run (.capArm 0 0) s) (fun t => ok [doneB t 5 0, t.gb (CAP_ARM_STATUS_ARMED 3), t.g (CAP_FCM_AREA_OFF 3) = 0, t.g (CAP_FCM_AREA_SIZE 3) = 0,
      t.fcmCap 3 = 131072])]) = true := by decide +kernel

theorem test_cap_arm : chk (ownCmd 0x40 capArgs) (fun s => ok [takesB s 0 0 0x40 (cmdOf 0x40 capArgs), s.seqWard 3 = some 0, (s.seq 3).st = .idle,
    s.ownsRange 0 2 (127 * 65536) 65536, s.seqSites 3 = [], (List.range 32).all (fun j => !s.gb (CAP_ARM_STATUS_ARMED j)),
    chk (run (.capArm 0 0) s) (fun t => ok [doneB t 5 0, t.gb (CAP_ARM_STATUS_ARMED 3), !t.gb (CAP_ARM_STATUS_HAS_CTX 3), t.g (CAP_FCM_AREA_OFF 3) = 127,
      t.g (CAP_FCM_AREA_SIZE 3) = 1, (t.arm 3).timeout = 1000000])]) = true := by decide +kernel

/-- Disarming it. -/
def capOff : List Byte := toLe 1 3 ++ toLe 1 1 ++ toLe 30 0

theorem test_cap_disarm : chk ((ownCmd 0x40 capOff).pb (CAP_ARM_STATUS_ARMED 3) true) (fun s => ok [takesB s 0 0 0x40 (cmdOf 0x40 capOff),
    s.gb (CAP_ARM_STATUS_ARMED 3), s.drained 3, s.capIdle 3, (s.arm 3).cur.isNone, (s.arm 3).closed = [],
    chk (run (.capArm 0 0) s) (fun t => ok [doneB t 5 0, !t.gb (CAP_ARM_STATUS_ARMED 3)])]) = true := by decide +kernel

/-- Channel 2 in entry 0 of the Shutter. -/
def shutOwn (args : List Byte) : State := (((ownCmd 0x41 args).wr CAP_SHUT_CH0 0x82#64).p CAP_SHUT_CFG_STEP 1).p (CAP_SHUT_HIST_COUNT 15 63) 7

theorem test_shutter_arm : chk (shutOwn (toLe 1 0 ++ toLe 1 0 ++ toLe 2 0 ++ toLe 4 9)) (fun s => ok [
    takesB s 0 0 0x41 (cmdOf 0x41 (toLe 1 0 ++ toLe 1 0 ++ toLe 2 0 ++ toLe 4 9)), s.mayArm 0 6 0, s.g CAP_SHUT_STATUS_STATE ≠ 1, s.shutValid 0,
    s.shutEntries.all (fun e => decide (s.cbWard (e.2 / 4) = some 0)),
    chk (run (.shutterArm 0 0) s) (fun t => ok [doneB t 5 0, t.g CAP_SHUT_STATUS_STATE = 1, t.shut.count = 9, t.g (CAP_SHUT_HIST_COUNT 15 63) = 0])]) = true := by
  decide +kernel

theorem test_shutter_disarm : chk ((shutOwn (toLe 1 0 ++ toLe 1 1 ++ toLe 6 0)).p CAP_SHUT_STATUS_STATE 1) (fun s => ok [
    takesB s 0 0 0x41 (cmdOf 0x41 (toLe 1 0 ++ toLe 1 1 ++ toLe 6 0)),
    chk (run (.shutterArm 0 0) s) (fun t => ok [doneB t 5 0, t.g CAP_SHUT_STATUS_STATE = 2, t.g (CAP_SHUT_HIST_COUNT 15 63) = 7])]) = true := by decide +kernel

/-- An operation descriptor: entry 0x80, this dependence count, any core, these successors. -/
def opDesc (dep : Nat) (succ : List Nat) : List Byte :=
  toLe 4 0x80 ++ toLe 2 dep ++ toLe 2 0 ++ toLe 1 0xFF ++ toLe 1 0 ++ toLe 2 succ.length ++ toLe 4 0 ++ succ.flatMap (toLe 2) ++ List.replicate (48 - 2 * succ.length) 0#8

/-- GRAPH_SUBMIT of two operations at offset 64 into context 1023. -/
def graphArgs : List Byte := toLe 2 1023 ++ toLe 2 0 ++ toLe 2 2 ++ toLe 2 0 ++ toLe 8 64

/-- The device that holds that graph in DRAM. -/
def graphDev : State := { dram.st 0x1000000040 (opDesc 0 [1] ++ opDesc 1 []) with cmds := [cmdOf 0x50 graphArgs] }

theorem test_graph_submit : chk graphDev (fun s => ok [takesB s 0 0 0x50 (cmdOf 0x50 graphArgs), s.ctxWard 1023 = some 0, s.ownsRange 0 0 64 128,
    (s.firstBad 64 128).isNone, s.ecc = [], !s.memWaits 0x80, (List.range 2).map (fun i => s.ld (memBase 0 + 64 + 64 * i) 64) = [opDesc 0 [1], opDesc 1 []],
    [(opDesc 0 [1], 0), (opDesc 1 [], 1)].all (fun p => !descBad 2 p.1 && decide (u p.1 4 2 = namedBy [opDesc 0 [1], opDesc 1 []] p.2) && decide (u p.1 6 1 = 0) && decide (u p.1 8 1 = 0xFF)),
    prune 2 [(0, [1]), (1, [])] = [], (s.ctx 1023).st = .empty, s.wardSlots 0 + 2 ≤ 8 * (s.ward 0).ctxCount, s.slotsUsed = [],
    chk (run (.graphSubmit 0 0) s) (fun t => ok [begunB t 5, (t.ctx 1023).st = .loading, (t.ctx 1023).ops.map (·.desc) = [opDesc 0 [1], opDesc 1 []],
      (t.ctx 1023).ops.map (·.slot) = [0, 1]])]) = true := by decide +kernel

/-- Context 7 with two operations. -/
def loaded (st : CtxState) (os : OpState) : State :=
  own.modCtx 7 (fun x => { x with st := st, cmd := some 5, ops := [⟨0, opDesc 0 [1], 0, os, 0, 0, false⟩, ⟨1, opDesc 1 [], 1, .waiting, 0, 0, false⟩] })

theorem test_graph_active : chk (loaded .loading .waiting) (fun s => ok [s.ticksOf dspDom, (s.ctx 7).st = .loading,
    chk (run (.graphActive 7) s) (fun t => ok [(t.ctx 7).st = .active, (t.ctx 7).ops.map (·.st) = [.waiting, .waiting], t.disp.items = []])]) = true := by
  decide +kernel

theorem test_ready_at_cycle : chk (loaded .active .waiting) (fun s => ok [s.ticksOf dspDom, s.ecc = [], !s.pwr.stopped.contains 130,
    chk (run .dispatcherCycle s) (fun t => ok [(t.ctx 7).ops.map (·.st) = [.running, .waiting],
      (List.range 48).any (fun k => decide ((t.core k).run.map (·.op) = some 0))]),
    chk (s.modCtx 7 (fun x => { x with ops := [⟨1, opDesc 1 [], 1, .waiting, 0, 0, false⟩] })) (fun s => chk (run .dispatcherCycle s) (fun t => ok [
      t.ctxs = s.ctxs, t.disp = s.disp, (s.ctx 7).ops.all (fun o => !o.isInbox && decide (o.dep ≠ 0))]))]) = true := by decide +kernel

theorem test_ctx_reset : chk { loaded .active .ready with cmds := [cmdOf 0x51 (toLe 2 7 ++ toLe 6 0), { runningCmd 6 0x50 with queue := 1 }] } (fun s =>
    chk (s.modCtx 7 (fun x => { x with cmd := some 6 })) (fun s => ok [takesB s 0 0 0x51 (cmdOf 0x51 (toLe 2 7 ++ toLe 6 0)), s.ctxWard 7 = some 0, s.cmdOpen 6,
      chk (run (.ctxReset 0 0) s) (fun t => ok [begunB t 5, endedB t 6 0 2, (t.ctx 7).st = .resetting, (t.ctx 7).ops = [], (t.ctx 7).resetCmds = [5]])])) = true := by
  decide +kernel

theorem test_ctx_reset_complete : chk { own.modCtx 7 (fun x => { x with st := .resetting, resetCmds := [5] }) with cmds := [runningCmd 5 0x51] } (fun s => ok [
    s.ticksOf dspDom, aloneB s, s.cmdOpen 5, chk (run (.ctxResetComplete 7) s) (fun t => ok [endsB t 5 0, (t.ctx 7).st = .empty])]) = true := by decide +kernel

/-- TB_ADJUST's arguments: flags, offset, rate. -/
def adjArgs (fl : Nat) (v : Word) : List Byte := toLe 1 fl ++ toLe 7 0 ++ toLe 8 v.toNat ++ toLe 8 0

theorem test_adjust_step : chk (((ownCmd 0x60 (adjArgs 1 0x10000#64)).pb TB_STATUS_EPOCH false).p (TB_TRIG_STATUS_STATE 31) 1) (fun s => ok [
    takesB s 0 0 0x60 (cmdOf 0x60 (adjArgs 1 0x10000#64)), s.g TB_CFG_ROLE ≠ 2, !s.gb TB_STATUS_EPOCH,
    chk (run (.tbAdjust 0 0) s) (fun t => ok [doneB t 5 0, t.tb.fine = s.tb.fine + 2 ^ 64, t.gb TB_STATUS_EPOCH, t.g TB_STATUS_STEPS = 1,
      t.trigState 31 ≠ 1])]) = true := by decide +kernel

theorem test_adjust_slew : chk (((ownCmd 0x60 (adjArgs 1 (-0x10000#64))).pb TB_STATUS_EPOCH true).p TB_LIMITS_JUMP_LIMIT 1) (fun s => ok [
    takesB s 0 0 0x60 (cmdOf 0x60 (adjArgs 1 (-0x10000#64))), s.gb TB_STATUS_EPOCH, s.g TB_LIMITS_JUMP_LIMIT ≠ 0,
    ((-0x10000#64).toInt * 2 ^ 48 + s.tb.slew).natAbs ≤ s.g TB_LIMITS_JUMP_LIMIT * 2 ^ 64,
    chk (run (.tbAdjust 0 0) s) (fun t => ok [doneB t 5 0, t.tb.slew = -(2 ^ 64), t.tb.fine = s.tb.fine, t.gb TB_STATUS_SLEWING])]) = true := by decide +kernel

theorem test_adjust_rate : chk (ownCmd 0x60 (adjArgs 2 (BitVec.ofInt 64 (-ppm100)))) (fun s => ok [
    takesB s 0 0 0x60 (cmdOf 0x60 (adjArgs 2 (BitVec.ofInt 64 (-ppm100)))), s.tb.slew = 0,
    chk (run (.tbAdjust 0 0) s) (fun t => ok [doneB t 5 0, t.tb.base = -ppm100, t.gi TB_RATE_RATE = -ppm100])]) = true := by decide +kernel

/-- TRIG_ARM of trigger 9 at 1 s, every 0.1 µs without end. -/
def trigArgs : List Byte := toLe 1 9 ++ toLe 1 2 ++ toLe 2 0 ++ toLe 4 0 ++ toLe 12 (2 ^ 48) ++ toLe 8 200000 ++ toLe 4 0

theorem test_trig_arm : chk (ownCmd 0x61 trigArgs) (fun s => ok [takesB s 0 0 0x61 (cmdOf 0x61 trigArgs), s.mayArm 0 4 9, s.trigState 9 ≠ 1,
    nbits 47 18 (2 ^ 48) ≤ 999999999, s.tb.fine + 2000 * 2 ^ 64 ≤ stampFrac (BitVec.ofNat 96 (2 ^ 48)) * 2 ^ 48,
    chk (run (.trigArm 0 0) s) (fun t => ok [doneB t 5 0, t.trigState 9 = 1, t.trg 9 = ⟨10 ^ 9 * 2 ^ 64, 200000, 0, 0, true⟩])]) = true := by decide +kernel

theorem test_trig_disarm : chk ((ownCmd 0x61 (toLe 1 9 ++ toLe 1 1 ++ toLe 30 0)).p (TB_TRIG_STATUS_STATE 9) 1) (fun s => ok [
    takesB s 0 0 0x61 (cmdOf 0x61 (toLe 1 9 ++ toLe 1 1 ++ toLe 30 0)), s.trigState 9 = 1,
    chk (run (.trigArm 0 0) s) (fun t => ok [doneB t 5 0, t.trigState 9 = 2, t.g (TB_TRIG_STATUS_END 9) = 2])]) = true := by decide +kernel

/-- TIM_ARM of unit 7. -/
def timArgs : List Byte := toLe 1 7 ++ toLe 1 0 ++ toLe 2 0 ++ toLe 4 16777216 ++ toLe 4 0 ++ toLe 4 0

theorem test_tim_arm : chk ((((ownCmd 0x62 timArgs).p (TIM_CFG_START_CLASS 7) 3).p (TIM_CFG_START_INDEX 7) 15).p (TIM_CFG_STOP_CLASS 7) 1) (fun s => ok [
    takesB s 0 0 0x62 (cmdOf 0x62 timArgs), s.mayArm 0 2 7, s.timState 7 ≠ 1, s.timSrcOk 0 7, 15 < timClassSize 3,
    chk (run (.timArm 0 0) s) (fun t => ok [begunB t 5, t.timState 7 = 1, t.tim 7 = ⟨16777216, none, [], false, none, none, some 5, false, none⟩]),
    chk ({ s with cmds := [cmdOf 0x62 (toLe 1 7 ++ toLe 1 0 ++ toLe 2 0 ++ toLe 4 1 ++ toLe 4 3 ++ toLe 4 0)] } : State) (fun s => chk (run (.timArm 0 0) s) (fun t =>
      (t.tim 7).deadline = some (s.tb.tm + 6000000)))]) = true := by
  decide +kernel

theorem test_tim_disarm : chk { (own.modTim 7 (fun x => { x with cmd := some 6 })).p (TIM_STATUS_STATE 7) 1 with cmds := [cmdOf 0x62 (toLe 1 7 ++ toLe 1 1 ++ toLe 14 0), runningCmd 6 0x62] } (fun s => ok [
    takesB s 0 0 0x62 (cmdOf 0x62 (toLe 1 7 ++ toLe 1 1 ++ toLe 14 0)), s.timState 7 = 1, !(s.tim 7).bound, s.cmdOpen 6,
    chk (run (.timArm 0 0) s) (fun t => ok [doneB t 5 0, endedB t 6 0 2, t.timState 7 = 2, t.g (TIM_STATUS_END 7) = 2])]) = true := by decide +kernel

/-- ADC_INJECT of input 15, 65,536 samples. -/
def injArgs : List Byte := toLe 1 15 ++ toLe 1 0 ++ toLe 2 65535 ++ toLe 4 0

theorem test_adc_inject : chk ((ownCmd 0x71 injArgs).pb TB_STATUS_AON_CLOCK false) (fun s => ok [takesB s 0 0 0x71 (cmdOf 0x71 injArgs), s.mayArm 0 5 15, s.conv.inj = [],
    s.conv.cls = 0, s.conv.urgent = 0, s.adcRuns,
    chk (run (.adcInject 0 0) s) (fun t => ok [begunB t 5, t.conv.cls = 2, t.conv.inj = [⟨5, 15, 65536, false⟩], t.g ADC_STATUS_INPUT = 15]),
    chk (run (.adcInject 0 0) { s with conv := { s.conv with cls := 1 } }) (fun t => ok [begunB t 5, t.conv.cls = 1, t.conv.inj = [⟨5, 15, 65536, false⟩]])]) = true := by
  decide +kernel

/-- ACQ_ARM in waveform mode: 16 samples after the trigger, slots of the acquisition buffer. -/
def acqArgsB : List Byte :=
  toLe 1 0 ++ toLe 1 0 ++ toLe 1 3 ++ toLe 1 0 ++ toLe 4 0 ++ toLe 2 0 ++ toLe 2 0 ++ toLe 4 0 ++ toLe 4 16 ++ toLe 4 0 ++ toLe 4 0 ++ toLe 4 0 ++ toLe 8 64 ++ toLe 8 1024

theorem test_acq_arm : chk (ownCmd 0x70 acqArgsB) (fun s => ok [takesB s 0 0 0x70 (cmdOf 0x70 acqArgsB), !nbit (u acqArgsB 1 1) 0,
    !acqBad (cmdOf 0x70 acqArgsB) (acqArgs (cmdOf 0x70 acqArgsB)), (acqArgs (cmdOf 0x70 acqArgsB)).slot ≤ (acqArgs (cmdOf 0x70 acqArgsB)).size,
    s.ownsRange 0 3 64 1024, (acqArgs (cmdOf 0x70 acqArgsB)).src = 0, s.conv.arm.isNone, s.conv.cls ≠ 4, (List.range 16).all (fun i => s.mayArm 0 5 i),
    chk (run (.acqArm 0 0) s) (fun t => ok [doneB t 5 0, t.conv.arm = some (acqArgs (cmdOf 0x70 acqArgsB)), t.g ACQ_STATUS_STATE = 1, t.rd ACQ_PTR = 0#64])]) = true := by
  decide +kernel

/-- The arm of that command. -/
def anArm : AcqArm := acqArgs (cmdOf 0x70 acqArgsB)

theorem test_acq_disarm : chk (ownCmd 0x70 (toLe 1 0 ++ toLe 1 1 ++ toLe 46 0)) (fun s => chk { s with conv := { s.conv with arm := some anArm } } (fun s => ok [
    takesB s 0 0 0x70 (cmdOf 0x70 (toLe 1 0 ++ toLe 1 1 ++ toLe 46 0)), s.conv.arm.isSome, s.conv.rec_.isNone, s.conv.cls ≠ 4,
    chk (run (.acqArm 0 0) s) (fun t => ok [doneB t 5 0, t.conv.arm.isNone, t.g ACQ_STATUS_STATE = 4, t.g ACQ_STATUS_END = 2])])) = true := by decide +kernel

theorem test_cal_run : chk (ownCmd 0x80 (toLe 8 0 ++ toLe 4 1 ++ toLe 4 0)) (fun s => ok [takesB s 0 0 0x80 (cmdOf 0x80 (toLe 8 0 ++ toLe 4 1 ++ toLe 4 0)),
    bitsOf 32 1 = [0], s.cbWard 0 = some 0, s.cbSeq 0 = some 0, (s.seq 0).st = .idle, s.cal.run.isNone,
    chk (run (.calRun 0 0) s) (fun t => ok [begunB t 5, t.g CAL_STATUS_RUN = 1, t.cal.run.map (·.items) = some [0], t.outs = [.calEdges 0]])]) = true := by decide +kernel

theorem test_flt_inject : chk (ownCmd 0x90 (toLe 2 1023 ++ toLe 1 1 ++ toLe 5 0)) (fun s => ok [takesB s 0 0 0x90 (cmdOf 0x90 (toLe 2 1023 ++ toLe 1 1 ++ toLe 5 0)),
    srcImplemented 1023, s.fltWard 1023 = some 0, chk (run (.fltInject 0 0) s) (fun t => ok [begunB t 5, endedB t 5 0 1023, t.flt.inj = [(1023, true)]])]) = true := by
  decide +kernel

/-- A device whose Ward 0 has one unit to replay. -/
def pendingUnit (args : List Byte) : State :=
  { (ownCmd 0xA0 args).p JNL_STATUS_PENDING 1 with cmds := [{ cmdOf 0x20 [] with id := 6, queue := 1 }, cmdOf 0xA0 args], units := [⟨6, 0⟩] }

theorem test_replay_discard : chk (pendingUnit (toLe 1 1 ++ toLe 7 0)) (fun s => ok [takesB s 0 0 0xA0 (cmdOf 0xA0 (toLe 1 1 ++ toLe 7 0)),
    nbit (s.g JNL_STATUS_PENDING) 0, s.units.all (fun x => decide (x.cmd ≠ 5)), s.cmdOpen 6,
    chk (run (.replay 0 0) s) (fun t => ok [begunB t 5, endedB t 5 0 1, t.unitsOf 0 = [], !nbit (t.g JNL_STATUS_PENDING) 0,
      (recsOf t).any (fun d => decide (d.kind = .abandoned) && decide (d.cmd = some 6) && decide (d.body = [3#8]))])]) = true := by decide +kernel

theorem test_replay_run : chk ((pendingUnit (toLe 8 0)).modWard 0 (fun x => { x with haltedByPorter := 1 })) (fun s => ok [
    takesB s 0 0 0xA0 (cmdOf 0xA0 (toLe 8 0)), (s.wst 0).haltedByPorter ≠ 0, s.recs = [],
    chk (run (.replay 0 0) s) (fun t => ok [begunB t 5, t.recs = [⟨0, some 5, 1, false⟩], t.units = s.units, !nbit (t.g JNL_STATUS_PENDING) 0])]) = true := by
  decide +kernel

/-- A member of a pair in this role, with these commands. -/
def member (role : Nat) (pair : Bool) (l : List Cmd) : State :=
  { (own.p TWN_STATUS_ROLE role).pb TWN_STATUS_PAIRED pair with cmds := l, plan := { own.plan with twinMode := 1, pairId := 7 } }

/-- A command with its start mark. -/
def markedCmd (op : Nat) (args : List Byte) : Cmd := { cmdOf op args with marked := true }

theorem test_leave_handoff : chk (member 1 true [markedCmd 0xA1 (toLe 1 0 ++ toLe 1 63 ++ toLe 6 0)]) (fun s => ok [
    s.startable 0 0 0xA1 = .go (markedCmd 0xA1 (toLe 1 0 ++ toLe 1 63 ++ toLe 6 0)), s.paired, s.twin.detach.isNone, s.twin.handoff.isNone,
    (List.range 32).all (fun k => !s.bursting k || s.burstUnit k),
    chk (run (.leave 0 0) s) (fun t => ok [begunB t 5, t.twin.handoff = some (63, 5), t.paired])]) = true := by decide +kernel

theorem test_leave_alone : chk (member 1 false [cmdOf 0xA1 (toLe 1 1 ++ toLe 7 0)]) (fun s => ok [takesB s 0 0 0xA1 (cmdOf 0xA1 (toLe 1 1 ++ toLe 7 0)), s.role ≠ 2,
    s.plan.twinMode ≠ 0, chk (run (.leave 0 0) s) (fun t => ok [doneB t 5 0, t.regs = s.regs])]) = true := by decide +kernel

theorem test_join_not_active : chk (member 3 false [cmdOf 0xA2 (toLe 8 0)]) (fun s => ok [takesB s 0 0 0xA2 (cmdOf 0xA2 (toLe 8 0)), s.role ≠ 1,
    chk (run (.join 0 0) s) (fun t => ok [begunB t 5, endedB t 5 0 0])]) = true := by decide +kernel

/-- On a STANDBY the ACTIVE writes the records of its commands. -/
theorem test_standby_own : chk (member 2 false [cmdOf 0xA2 (toLe 8 0)]) (fun s => ok [s.role = 2, s.startable 0 0 0xA2 = .go (cmdOf 0xA2 (toLe 8 0)),
    chk (run (.join 0 0) s) (fun t => ok [begunB t 5, endedB t 5 0 0, t.jnl.prog.isNone, t.role = 2]),
    chk { s with cmds := [cmdOf 0xA1 (toLe 1 1 ++ toLe 7 0)] } (fun s => ok [s.startable 0 0 0xA1 = .go (cmdOf 0xA1 (toLe 1 1 ++ toLe 7 0)),
      chk (run (.leave 0 0) s) (fun t => ok [begunB t 5, t.role = 3, t.twin.detach = some (4, some 5)])])]) = true := by decide +kernel

theorem test_join_active : chk (member 1 false [cmdOf 0xA2 (toLe 8 0)]) (fun s => ok [takesB s 0 0 0xA2 (cmdOf 0xA2 (toLe 8 0)), s.role = 1, s.twin.join.isNone,
    (List.range 32).all (fun k => decide ((s.seq k).st = .idle)), s.ctxs = [], s.twin.backlog = [], s.maySend 4 32,
    chk (run (.join 0 0) s) (fun t => ok [begunB t 5, t.twin.join = some 5, sent t = some (4, 0x50, 0, 0, s.helloBytes)])]) = true := by decide +kernel

theorem test_join_complete : chk { member 1 false [runningCmd 5 0xA2] with twin := { TwinSt.zero with join := some 5, copying := true } } (fun s => ok [
    s.role = 1, (s.port 4).txq = [], s.twin.backlog = [], s.jnl.prog = none, s.cmdOpen 5,
    chk (run .joinCopyComplete s) (fun t => ok [t.paired, t.twin.join.isNone, endsB t 5 0, t.g TWN_COUNTS_JOINS = 1])]) = true := by decide +kernel

theorem test_join_standby_formed : chk { member 3 false [] with twin := { TwinSt.zero with hello := true, peerHead := 99 } } (fun s => ok [s.role = 3, s.twin.hello, !s.twin.actDead, s.jnl.prog = none,
    chk (run .joinCopyComplete s) (fun t => ok [t.role = 2, t.jnl.stop = s.jnl.stop, t.jnl.next = 100])]) = true := by decide +kernel

/-- What holds of every entry and of the default holds of every lookup. -/
theorem getD_all {α : Type} (P : α → Prop) (l : List α) (d : α) (h : ∀ x ∈ l, P x) (hd : P d) (i : Nat) : P (l.getD i d) := by
  rw [List.getD_eq_getElem?_getD]
  cases e : l[i]? with
  | none => exact hd
  | some x => exact h x (List.mem_of_getElem? e)

/-- A beat of 625 ps. -/
def aBeat (n : Nat) (ev : Option Nat) : BeatRec :=
  ⟨1250, 255, [0#11, 0#11, 0#11, 0#11], 0, n, ev, ⟨0, 0, 0, 0, 0⟩, false, 5000, 1250, 9000, 0#96, false⟩

/-- A burst of sequencer 0 whose end has this cause. -/
def burst0 (c : Option Nat) (s : State) : State := s.modSeq 0 (fun x => { x with st := if c = none then .beat else .idle, burst := some ⟨none, 0, [], false, false, false, c, none⟩ })

theorem test_beat_take : chk ((burst0 none own).modSeq 0 (fun x => { x with fifo := [aBeat 0 none] })) (fun s => ok [s.ticksOf (cbDom 0), s.cbSeq 0 = some 0,
    (aBeat 0 none).beat = (s.cb 0).nextTake, s.g (CH_CB_STATUS_STATE 0) ≠ 3,
    chk (run (.beatTake 0) s) (fun t => ok [(t.cb 0).taken = [aBeat 0 none], (t.cb 0).nextTake = 1, (t.seq 0).fifo = []])]) = true := by decide +kernel

theorem test_beat_start : chk (((burst0 none own).modCb 0 (fun x => { x with taken := [aBeat 0 none], nextTake := 1 })).pb (CH_CFG_DISABLE 3) true) (fun s => ok [
    (cbChans 0).all (fun n => decide ((s.ch n).placed = [])), s.ch 0 = Chan.zero, !s.gb (CH_CFG_DISABLE 0), (s.seqChans 0).idxOf 0 = 0,
    (waveEvents (s.wtEntry 0 255) 1250 0 0#11).map (fun e => (e.off, e.kind)) = [(0, .den false)],
    chk (run (.beatStart 0) s) (fun t => ok [t.g (CH_CB_STATUS_STATE 0) = 1, t.g (CH_CB_STATUS_TSET 0) = 255, t.g (CH_CB_BEATS_BEATS 0) = 1,
      (t.cb 0).cur = some (aBeat 0 none), (t.ch 0).placed.map (fun p => (p.t, p.kind)) = [(5000, .den false)], (t.ch 3).placed = []])]) = true := by
  decide +kernel

theorem test_cb_drain : chk (((burst0 (some 1) own).p (CH_CB_STATUS_STATE 0) 1).pb (CH_CFG_DRV_REST 1) true) (fun s => ok [s.g (CH_CB_STATUS_STATE 0) = 1,
    (s.cb 0).taken = [], (s.seq 0).fifo = [], (cbChans 0).all (fun n => decide ((s.ch n).placed = []) && (s.ch n).window.isNone),
    chk (run (.cbDrainDone 0) s) (fun t => ok [t.g (CH_CB_STATUS_STATE 0) = 0, !t.gb (CH_STATUS_DEN 1), t.g (CH_STATUS_DRV 1) = 1])]) = true := by decide +kernel

/-- Channel 127 with one placed event, an open window, and results. -/
def placed (k : EvKind) (w : Option Window) : State := own.modCh 127 (fun x => { x with placed := [⟨6, 0, 7, 5000, k, true, false, false, false⟩], window := w })

theorem test_edge_drv : ok [(placed (.drv true) none).nextEvent 127 = some ⟨6, 0, 7, 5000, .drv true, true, false, false, false⟩, (placed (.drv true) none).ticksOf (cbDom 31), own.active,
    chk (run (.edgeEvent 127 ⟨true, false⟩) (placed (.drv true) none)) (fun t => ok [t.gb (CH_STATUS_DRV 127), (t.ch 127).placed = []]),
    chk (run (.edgeEvent 127 ⟨true, false⟩) (placed (.den true) none)) (fun t => ok [t.gb (CH_STATUS_DEN 127), !t.gb (CH_STATUS_DRV 127)])] = true := by decide +kernel

theorem test_edge_strobe : ok [(placed .strobe none).nextEvent 127 = some ⟨6, 0, 7, 5000, .strobe, true, false, false, false⟩, ((placed .strobe none).ch 127).results = [],
    ((run (.edgeEvent 127 ⟨true, false⟩) (placed .strobe none)).ch 127).results = [⟨6, 7, false, false⟩],
    ((run (.edgeEvent 127 ⟨false, true⟩) (placed .strobe none)).ch 127).results = [⟨6, 7, true, false⟩]] = true := by decide +kernel

theorem test_edge_window : ok [(placed .winOpen none).nextEvent 127 = some ⟨6, 0, 7, 5000, .winOpen, true, false, false, false⟩,
    ((run (.edgeEvent 127 ⟨false, true⟩) (placed .winOpen none)).ch 127).window = some ⟨6, 7, true, false⟩,
    ((run (.edgeEvent 127 ⟨true, false⟩) (placed .winClose (some ⟨6, 7, true, false⟩))).ch 127).results = [⟨6, 7, true, false⟩],
    ((run (.edgeEvent 127 ⟨true, false⟩) (placed .winClose (some ⟨6, 7, false, false⟩))).ch 127).results = [⟨6, 7, false, false⟩],
    chk (run (.edgeEvent 127 ⟨true, false⟩) (placed .winClose none)) (fun t => ok [t.g (CAP_CH_FAILS_WIN_ERR 127) = 1,
      (t.ch 127).results = [⟨6, 7, false, true⟩]])] = true := by decide +kernel

theorem test_delivery : chk ((((burst0 none own).modSeq 0 (fun x => { x with inFlight := [aBeat 0 none] })).modCb 0 (fun x => { x with nextTake := 1, started := true })).modCh 1
      (fun x => { x with results := [⟨0, 0, true, false⟩, ⟨0, 5, true, false⟩, ⟨1, 0, true, false⟩] })) (fun s => ok [s.ticksOf capDom, s.liveCbs 0 = [0], 0 < (s.cb 0).notStarted,
    !s.gb (CAP_ARM_STATUS_ARMED 0), (s.arm 0).disarm = [], s.failUis 1 0 = 33,
    chk (run (.beatDelivery 0) s) (fun t => ok [(t.seq 0).inFlight = [], t.g (CAP_DELIV_BEAT 0) = 0, t.gb (CAP_DELIV_VALID 0), t.g (CAP_CH_FAILS_FAILS 1) = 2,
      (t.seq 0).bfail, (t.seq 0).arch.sfail, (t.ch 1).results = [⟨1, 0, true, false⟩]])]) = true := by decide +kernel

/-- A record of site 63 of sequencer 0 in the capture queue. -/
def capRec : QRec := ⟨0, 63, List.replicate 64 0x5A#8, false⟩

/-- The device that holds it, with an FCM ring of 1,024 × 128 slots at its last slot. -/
def capDev : State := { (burst0 none own) with capq := [capRec] }.p (CAP_FCM_PTR_WR 0) 131071

theorem test_capture_write : ok [capDev.ticksOf capDom, !capDev.memWaits 0x90, !capDev.paired, !capDev.twin.copying, !capDev.gb (CAP_SITE_STATUS_FLOODED 63), !capDev.gb (CAP_ARM_STATUS_HAS_CTX 0),
    capDev.fcmCap 0 = 131072, capDev.g (CAP_FCM_AREA_OFF 0) * 65536 + 64 * capDev.fcmCap 0 ≤ 2 ^ 23, !capDev.drained 0, (capDev.arm 0).disarm = [],
    chk (run .captureQueueWrite capDev) (fun t => ok [t.capq = [], t.ld (0x0101000000 + 131071 * 64) 64 = capRec.bytes, t.mem.length = 64,
      t.g (CAP_FCM_PTR_WR 0) = 131072, t.g (CAP_SITE_STATUS_RECORDS 63) = 1])] = true := by decide +kernel

theorem test_capture_markers : ∀ j, (capDev.arm j).markers = [] :=
  getD_all (fun x : CapArm => x.markers = []) capDev.arms.toList .zero (by decide +kernel) rfl

theorem test_batch_timeout : chk ((own.pb (CAP_ARM_STATUS_ARMED 0) true).modArm 0 (fun x => { x with timeout := 1, cur := some ⟨false, 0, 1, 0, false, true, false⟩ })) (fun s => ok [
    s.ticksOf capDom, (s.arm 0).timeout ≠ 0, (s.arm 0).cur.isSome,
    chk (run (.batchTimeout 0) s) (fun t => ok [(t.arm 0).cur.isNone, (t.arm 0).closed = [⟨false, 0, 1, 0, false, false, false⟩]])]) = true := by decide +kernel

/-- Sequencer 0 armed with context 7. -/
def capCtx : State := ((own.pb (CAP_ARM_STATUS_ARMED 0) true).pb (CAP_ARM_STATUS_HAS_CTX 0) true).p (CAP_ARM_STATUS_CTX 0) 7

theorem test_batch_post : chk (capCtx.modArm 0 (fun x => { x with closed := [⟨false, 0, 1, 0, false, true, false⟩] })) (fun s => ok [!s.twin.copying,
    (s.arm 0).disarm = [], s.gb (CAP_ARM_STATUS_HAS_CTX 0), (s.ctx 7).st ≠ .resetting, s.inboxUsed 7 < 64,
    chk (run (.batchPost 0) s) (fun t => ok [(t.arm 0).closed = [], (t.arm 0).posted.length = 1, t.disp.posts.map (·.1) = [7], (t.ctx 7).posted = 1])]) = true := by
  decide +kernel

theorem test_cap_rd : chk (own.p (CAP_FCM_PTR_WR 5) 9) (fun s => ok [s.seqWard 5 = some 0, !s.gb (CAP_ARM_STATUS_HAS_CTX 5), (s.ward 0).enable,
    (run (.capRdWrite (.ward 0) 5 false 0x900000000#64) s).g (CAP_FCM_PTR_RD 5) = 9, (run (.capRdWrite (.ward 0) 5 false 0xA00000000#64) s).g (CAP_FCM_PTR_RD 5) = 0,
    (two.ward 1).enable, two.seqWard 5 ≠ some 1, (run (.capRdWrite (.ward 1) 5 false 0x100000000#64) (two.p (CAP_FCM_PTR_WR 5) 9)).g (CAP_FCM_PTR_RD 5) = 0]) = true := by
  decide +kernel

/-- The Shutter armed, one UI due now and one later; its first change is 1 at sub-sample 5. -/
def shutDev (raw : Bool) : State :=
  { (((own.wr CAP_SHUT_CH0 0x82#64).p CAP_SHUT_CFG_STEP 1).p CAP_SHUT_STATUS_STATE 1).pb CAP_SHUT_CFG_RAW raw with shut := { Shut.zero with due := [(3, 0, 0), (4, 0, 0)] } }

theorem test_shutter_sample : ok [(shutDev false).ticksOf capDom, (shutDev false).shutEntries = [(0, 2)], !(shutDev false).gb CAP_SHUT_CFG_CMP, !(shutDev false).gb (CAP_CMP_CFG_POL_H 2),
    (shutDev false).shut.count = 0,
    chk (run (.shutterSample 0xFFFFFFE0#32 0#32) (shutDev false)) (fun t => ok [shutBin 0xFFFFFFE0#32 = 5, t.g (CAP_SHUT_HIST_COUNT 0 5) = 1, t.shut.due = [(4, 0, 0)]]),
    chk (run (.shutterSample 0xFFFFFFE0#32 0#32) (shutDev true)) (fun t => ok [t.shut.fifo = [0x3FFFFFFE0#64], t.g (CAP_SHUT_HIST_COUNT 0 5) = 0])] = true := by
  decide +kernel

theorem test_shutter_raw : chk { ((((dram.p CAP_SHUT_RAW_BASE_OFF 4096).p CAP_SHUT_RAW_SIZE_SIZE 4096).p CAP_SHUT_RAW_PTR_WR 0xFFFFFFFF).p CAP_SHUT_RAW_PTR_RD 0xFFFFFFFF) with shut := { Shut.zero with fifo := [0x1234#64] } } (fun s => ok [
    s.ticksOf capDom, !s.memWaits 0x90, s.dramRoom 0x90 (4096 + 511 * 8), (s.firstBad (4096 + 511 * 8) 8).isNone, s.resWard 6 0 = some 0, s.ownsRange 0 0 (4096 + 511 * 8) 8,
    chk (run .shutterRawWrite s) (fun t => ok [t.shut.fifo = [], t.ld (0x1000000000 + 4096 + 511 * 8) 8 = toLe 8 0x1234, t.mem.length = 2, t.g CAP_SHUT_RAW_PTR_WR = 0]),
    chk ({ s with plan := { s.plan with regions := [] }, shut := { s.shut with dropSent := true } } : State) (fun s => ok [!s.ownsRange 0 0 (4096 + 511 * 8) 8,
      chk (run .shutterRawWrite s) (fun t => ok [t.shut.fifo = [], t.mem = s.mem, t.g CAP_SHUT_RAW_DROP_DROPS = 1])])]) = true := by
  decide +kernel

theorem test_shut_rd : chk (own.p CAP_SHUT_RAW_PTR_WR 9) (fun s => ok [s.resWard 6 0 = some 0,
    (run (.shutRawRdWrite (.ward 0) 0x900000000#64) s).g CAP_SHUT_RAW_PTR_RD = 9, (run (.shutRawRdWrite (.ward 0) 0xA00000000#64) s).g CAP_SHUT_RAW_PTR_RD = 0]) = true := by
  decide +kernel

/-! ### Vector streams -/

/-- Engine 15 at the start of a stream of 64 bytes that begins with these, with two dictionary entries, the second valid and holding ones. -/
def str (b : List Byte) : State :=
  ((((((bound 2).p (VS_ARM_DICT_DICT_ENTRIES 15) 2).p (VS_ARM_DICT_DICT_OFF 15) 4096).st 0x0100000000 b).st 0x0100001008 (List.replicate 6 0xFF#8)).modVs 15
    (fun x => { x with cur := [1#11, 2#11, 3#11, 4#11], dictValid := 2 }))

/-- The engine after a record. -/
def after (i : Instr) (b : List Byte) : VsEng := (run i (str b)).vse 15

theorem test_stream_lit : ok [(str (0x10#8 :: toLe 2 1 ++ toLe 6 1 ++ toLe 6 (7 + 5 * 2 ^ 11))).streamAt 15 (0x10#8 :: toLe 2 1 ++ toLe 6 1 ++ toLe 6 (7 + 5 * 2 ^ 11)),
    (after (.sLit 15) (0x10#8 :: toLe 2 1 ++ toLe 6 1 ++ toLe 6 (7 + 5 * 2 ^ 11))).queue = [[1#11, 0#11, 0#11, 0#11], [7#11, 5#11, 0#11, 0#11]]] = true := by decide +kernel

theorem test_stream_run : ok [(str (0x20#8 :: toLe 3 31)).streamAt 15 (0x20#8 :: toLe 3 31), (after (.sRun 15) (0x20#8 :: toLe 3 31)).queue.length = 32,
    (after (.sRun 15) (0x20#8 :: toLe 3 31)).cur = [1#11, 2#11, 3#11, 4#11]] = true := by decide +kernel

theorem test_stream_patch : ok [(str ([0x30#8, 0#8] ++ toLe 1 3 ++ toLe 2 0x7FF)).streamAt 15 ([0x30#8, 0#8] ++ toLe 1 3 ++ toLe 2 0x7FF),
    (after (.sPatch 15) ([0x30#8, 0#8] ++ toLe 1 3 ++ toLe 2 0x7FF)).queue = [[1#11, 2#11, 3#11, 0x7FF#11]]] = true := by decide +kernel

theorem test_stream_dict : ok [(str (0x50#8 :: toLe 2 1 ++ toLe 2 0)).streamAt 15 (0x50#8 :: toLe 2 1 ++ toLe 2 0), nbit ((str []).vse 15).dictValid 1,
    4096 + 2 * dictE ((str []).vsW 15) ≤ 0xF00000, (after (.sDictUse 15) (0x50#8 :: toLe 2 1 ++ toLe 2 0)).queue = [[0x7FF#11, 0x7FF#11, 0x7FF#11, 0x7FF#11]],
    (after (.sDictUse 15) (0x51#8 :: toLe 2 1 ++ toLe 2 0)).cur = [0x7FF#11, 0x7FF#11, 0x7FF#11, 0x7FF#11], (after (.sDictUse 15) (0x51#8 :: toLe 2 1 ++ toLe 2 0)).queue = []] = true := by
  decide +kernel

theorem test_stream_scan : chk ((str (0x61#8 :: toLe 3 0 ++ toLe 1 0x2B)).modVs 15 (fun x => { x with scan := some (2, 10) })) (fun s => ok [
    s.streamAt 15 (0x61#8 :: toLe 3 0 ++ toLe 1 0x2B), bitsOf 4 10 = [1, 3], (s.vse 15).cur.length = 4,
    ((run (.sScan 15) s).vse 15).queue = [[1#11, 3#11, 3#11, 0x405#11]]]) = true := by decide +kernel

theorem test_stream_pad : ok [(str [0#8]).streamAt 15 [0#8], (run (.sPad 15) (str [0#8])).vsPos 15 = 1] = true := by decide +kernel

theorem test_stream_dict_def : chk (str (0x40#8 :: toLe 2 0 ++ toLe 6 5)) (fun s => ok [s.streamAt 15 (0x40#8 :: toLe 2 0 ++ toLe 6 5), !s.paired, !s.twin.copying,
    chk (run (.sDictDef 15) s) (fun t => ok [t.ld 0x0100001000 6 = toLe 6 5, (t.vse 15).dictValid = 3, !t.gb (VS_STATUS_DICT_REDEF 15), t.vsPos 15 = 9])]) = true := by
  decide +kernel

theorem test_stream_scan_cfg : ok [(str (0x77#8 :: toLe 16 (2 ^ 127))).streamAt 15 (0x77#8 :: toLe 16 (2 ^ 127)),
    (after (.sScanCfg 15) (0x77#8 :: toLe 16 (2 ^ 127))).scan = some (8, 2 ^ 127)] = true := by decide +kernel

theorem test_stream_loop : ok [(str (0x80#8 :: toLe 3 (2 ^ 24 - 1))).streamAt 15 (0x80#8 :: toLe 3 (2 ^ 24 - 1)),
    (after (.sLoop 15) (0x80#8 :: toLe 3 (2 ^ 24 - 1))).loops = [(4, 2 ^ 24)]] = true := by decide +kernel

theorem test_stream_endloop : chk ((str (toLe 10 0 ++ [0x90#8])).p (VS_POS_OFFSET 15) 10) (fun s => ok [s.streamAt 15 [0x90#8],
    chk (run (.sEndloop 15) (s.modVs 15 (fun x => { x with loops := [(4, 2)] }))) (fun t => ok [(t.vse 15).loops = [(4, 1)], t.vsPos 15 = 4]),
    chk (run (.sEndloop 15) (s.modVs 15 (fun x => { x with loops := [(4, 1)] }))) (fun t => ok [(t.vse 15).loops = [], t.vsPos 15 = 11])]) = true := by decide +kernel

theorem test_stream_square : chk (((str [0xA0#8, 63#8]).p (PS_SQ_ENROL_VS 63) 0x8000).p (PS_SQ_ENROL_SEQ 63) 1) (fun s => ok [s.streamAt 15 [0xA0#8, 63#8],
    nbit (s.g (PS_SQ_ENROL_VS 63)) 15, (s.sq 63).trel.isNone, !(s.sq 63).has 47, nbit (s.g (PS_SQ_ENROL_SEQ 63)) 0, !(s.sq 63).has 0,
    chk (run (.sSquare 15) s) (fun t => ok [t.g (VS_STATUS_STATE 15) = 4, t.g (VS_STATUS_SQ 15) = 63, (t.sq 63).arr.map (·.1) = [47], t.vsPos 15 = 2])]) = true := by
  decide +kernel

theorem test_stream_end : ok [(str [0xB0#8]).streamAt 15 [0xB0#8], (after (.sEnd 15) [0xB0#8]).ended, (run (.sEnd 15) (str [0xB0#8])).g (VS_STATUS_STATE 15) = 5] = true := by
  decide +kernel

theorem test_stream_fetch : chk ((((dram.p (VS_STATUS_STATE 15) 2).p (VS_ARM_LEN_STREAM_LEN 15) 65536).p (VS_ARM_RING_RING_SIZE 15) 16384).st 0x1000000040 [7#8, 8#8]) (fun s =>
    chk (s.modVs 15 (fun x => { x with fetched := 64 })) (fun s => ok [s.ticksOf (vsDom 15), s.ecc = [], !s.vsVb 15, !s.vsFull 15, !s.memWaits 0x3F, s.outstanding 0x3F < 32, (s.firstBad 64 64).isNone,
      chk (run (.streamFetch 15) s) (fun t => ok [t.ld 0x0100000040 64 = [7#8, 8#8] ++ List.replicate 62 0#8, (t.vse 15).fetched = 128])])) = true := by decide +kernel

theorem test_stream_bad : chk { str [0xC0#8] with plan := { own.plan with wards := .replicate 4 .off } } (fun s => ok [s.streamAt 15 [0xC0#8], (s.vse 15).arm.isNone,
    (s.vsWard 15).isNone, chk (run (.sPad 15) s) (fun t => ok [t.g (VS_STATUS_STATE 15) = 6, t.g (VS_ERR_CODE 15) = 1, t.flt.pend = [159]])]) = true := by decide +kernel

theorem test_ur_timeout : chk ((burst0 none (bound 2)).modSeq 0 (fun x => { x with urWait := true, arch := { x.arch with pc := 0x900 } })) (fun s => ok [s.ticksOf (vsDom 15), s.gb (VS_STATUS_BOUND 15), (s.seq 0).urWait,
    s.bursting 0, s.drawMeets 0 = 2, chk (run (.urTimeout 15) s) (fun t => ok [t.g (VS_ERR_CODE 15) = 0x0C, t.flt.pend.contains 159, t.g (PS_FAULT_CAUSE 0) = 7,
      ((t.seq 0).burst.bind (·.ended)).isSome])]) = true := by decide +kernel

/-! ### Analysis Cores -/

/-- Core 47 runs operation 0 of context 7 at local offset 0x80, where these bytes stand; x6 is the address of local offset 0x1000. -/
def coreAt (n w : Nat) (x5 x7 x10 : Word) : State :=
  ((loaded .active .running).st (coreMem 47 + 0x80) (toLe n w)).modCore 47 (fun c => { c with st := .running, pc := 0xFFFFFFFFFFFC0080#64, run := some ⟨7, 0, 0, 0, none⟩, cycles := 12, x := (((c.x.set 5 x5).set 6 0xFFFFFFFFFFFC1000#64).set 7 x7).set 10 x10 })

/-- One instruction, which is `i`, gives this register this value and leaves pc here. -/
def runs (n w : Nat) (i : Rv) (rd : Nat) (v pc : Word) : Bool :=
  chk (coreAt n w 9#64 2#64 0#64) (fun s => ok [s.atInstr 47 0x80 n w (some i),
    chk (run (.coreInstruction 47) s) (fun t => ok [t.xr 47 rd = v, (t.core 47).pc = pc, t.mem.length = s.mem.length])])

theorem test_core_lui : runs 4 0x812342B7 (.lui 5 0xFFFFFFFF81234000#64) 5 0xFFFFFFFF81234000#64 0xFFFFFFFFFFFC0084#64 = true := by decide +kernel

theorem test_core_auipc : runs 4 0x00001297 (.auipc 5 0x1000#64) 5 0xFFFFFFFFFFFC1080#64 0xFFFFFFFFFFFC0084#64 = true := by decide +kernel

theorem test_core_jal : runs 4 0x008000EF (.jal 1 8#64) 1 0xFFFFFFFFFFFC0084#64 0xFFFFFFFFFFFC0088#64 = true := by decide +kernel

theorem test_core_jalr : runs 4 0x003302E7 (.jalr 5 6 3#64) 5 0xFFFFFFFFFFFC0084#64 0xFFFFFFFFFFFC1002#64 = true := by decide +kernel

theorem test_core_branch : ok [runs 4 0x00731463 (.br .ne 6 7 8#64) 0 0#64 0xFFFFFFFFFFFC0088#64, runs 4 0x00730463 (.br .eq 6 7 8#64) 0 0#64 0xFFFFFFFFFFFC0084#64] = true := by
  decide +kernel

theorem test_core_alu : ok [runs 4 0xFFF38293 (.opi .add 5 7 (-1)) 5 1#64 0xFFFFFFFFFFFC0084#64, runs 4 0x407282B3 (.op .sub 5 5 7) 5 7#64 0xFFFFFFFFFFFC0084#64,
    runs 4 0xFFD3829B (.opiw .add 5 7 (-3)) 5 (-1) 0xFFFFFFFFFFFC0084#64, runs 4 0x027282BB (.opw .mul 5 5 7) 5 18#64 0xFFFFFFFFFFFC0084#64,
    runs 4 0x60039293 (.un .clz 5 7) 5 62#64 0xFFFFFFFFFFFC0084#64, runs 2 0x12FD (.opi .add 5 5 (-1)) 5 8#64 0xFFFFFFFFFFFC0082#64] = true := by decide +kernel

theorem test_core_load : chk ((coreAt 4 0x00230283 0#64 0#64 0#64).st (coreMem 47 + 0x1002) [0x80#8]) (fun s => ok [s.atInstr 47 0x80 4 0x00230283 (some (.load 1 true 5 6 2#64)),
    (run (.coreInstruction 47) s).xr 47 5 = 0xFFFFFFFFFFFFFF80#64]) = true := by decide +kernel

theorem test_core_store : chk (coreAt 4 0x00733423 0#64 0x1122334455667788#64 0#64) (fun s => ok [s.atInstr 47 0x80 4 0x00733423 (some (.store 8 6 7 8#64)),
    (run (.coreInstruction 47) s).ld (coreMem 47 + 0x1008) 8 = toLe 8 0x1122334455667788]) = true := by decide +kernel

/-- The run of core 47 can end without waiting. -/
theorem core_plain : (coreAt 4 0 9#64 2#64 5#64).plainRun 47 ⟨7, 0, 0, 0, none⟩ :=
  ⟨by decide +kernel, by decide, by decide +kernel, by decide +kernel, rfl, ⟨0, opDesc 0 [1], 0, .running, 0, 0, false⟩, by decide +kernel, by decide +kernel⟩

theorem test_core_illegal : ok [(coreAt 4 0xFFFFFFFF 0#64 0#64 0#64).atInstr 47 0x80 4 0xFFFFFFFF none, (coreAt 2 0 0#64 0#64 0#64).atInstr 47 0x80 2 0 none,
    chk (run (.coreInstruction 47) (coreAt 4 0xFFFFFFFF 0#64 0#64 0#64)) (fun t => ok [t.disp.offers = [(47, .failure 7 0 0x82)], (t.core 47).st = .idle,
      t.g (AC_TRAP_STATUS 47) = 0x82, t.rd (AC_TRAP_VAL 47) = 0xFFFFFFFF#64])] = true := by decide +kernel

theorem test_core_fence : ok [(coreAt 4 0xF 0#64 0#64 0#64).atInstr 47 0x80 4 0xF (some .fence), ((coreAt 4 0xF 0#64 0#64 0#64).core 47).stores = [],
    ((run (.fence 47) (coreAt 4 0xF 0#64 0#64 0#64)).core 47).pc = 0xFFFFFFFFFFFC0084#64] = true := by decide +kernel

theorem test_core_ecall : ok [(coreAt 4 0x73 0#64 0#64 0x80#64).atInstr 47 0x80 4 0x73 (some .ecall),
    (run (.ecall 47) (coreAt 4 0x73 0#64 0#64 0x80#64)).disp.offers = [(47, .completion 7 0)],
    (run (.ecall 47) (coreAt 4 0x73 0#64 0#64 0x7F#64)).disp.offers = [(47, .failure 7 0 0x7F)]] = true := by decide +kernel

theorem test_core_ebreak : ok [(coreAt 4 0x100073 0#64 0#64 0#64).atInstr 47 0x80 4 0x100073 (some .ebreak), (coreAt 2 0x9002 0#64 0#64 0#64).atInstr 47 0x80 2 0x9002 (some .ebreak),
    (run (.ebreak 47) (coreAt 4 0x100073 0#64 0#64 0#64)).disp.offers = [(47, .failure 7 0 0x83)]] = true := by decide +kernel

theorem test_op_timeout : chk ((coreAt 4 0x6F 0#64 0#64 0#64).p DSP_CFG_OP_TIMEOUT 1) (fun s => ok [s.ticks, (s.core 47).st = .running, s.g DSP_CFG_OP_TIMEOUT ≠ 0,
    (run (.opTimeout 47) s).disp.offers = [(47, .failure 7 0 0x91)]]) = true := by decide +kernel

/-- A repair instruction with rd 5, rs1 6 and this rs2. -/
def rxW (f7 f3 rs1 rs2 : Nat) : Nat := f7 * 2 ^ 25 + rs2 * 2 ^ 20 + rs1 * 2 ^ 15 + f3 * 2 ^ 12 + 5 * 2 ^ 7 + 0x0B

theorem test_rx_cycle : chk (coreAt 4 (rxW 1 2 0 0) 0#64 0#64 0#64) (fun s => ok [s.atInstr 47 0x80 4 (rxW 1 2 0 0) (some (.rx .cycle 5 0 0)),
    ((run (.rxCycle 47) s).core 47).pc = 0xFFFFFFFFFFFC0084#64]) = true := by decide +kernel

/-- The tile at local offset 0x1000 has ones at (0,0), (0,5) and (63,5); the one at 0x1200 at (1,63). -/
def tiles (f7 f3 rs2 : Nat) (x7 : Word) : State :=
  (((coreAt 4 (rxW f7 f3 6 rs2) 0#64 x7 0#64).st (coreMem 47 + 0x1000) [0x21#8]).st (coreMem 47 + 0x11F8) [0x20#8]).st (coreMem 47 + 0x120F) [0x80#8]

/-- That instruction stands at pc and gives x5 this value. -/
def gives5 (x : Rx) (i : Instr) (f7 f3 rs2 : Nat) (x7 v : Word) : Bool :=
  ok [(tiles f7 f3 rs2 x7).atInstr 47 0x80 4 (rxW f7 f3 6 rs2) (some (.rx x 5 6 rs2)), (run i (tiles f7 f3 rs2 x7)).xr 47 5 = v]

theorem test_rx_tset : ok [gives5 .tset (.rxTset 47) 0 0 7 4095#64 0#64, gives5 .tset (.rxTset 47) 0 0 7 5#64 1#64,
    (run (.rxTset 47) (tiles 0 0 7 4095#64)).tileBit 47 0x1000 63 63] = true := by decide +kernel

theorem test_rx_tclrr : ok [gives5 .tclrr (.rxTclrr 47) 0 1 7 0x8000000000000000#64 1#64, !(run (.rxTclrr 47) (tiles 0 1 7 0x8000000000000000#64)).tileBit 47 0x1000 63 5] = true := by
  decide +kernel

theorem test_rx_tclrc : ok [gives5 .tclrc (.rxTclrc 47) 0 2 7 0x20#64 2#64, (run (.rxTclrc 47) (tiles 0 2 7 0x20#64)).tileBit 47 0x1000 0 0] = true := by decide +kernel

theorem test_rx_trowv : gives5 .trowv (.rxTrowv 47) 0 3 7 1#64 1#64 = true := by decide +kernel

theorem test_rx_tcolv : gives5 .tcolv (.rxTcolv 47) 0 4 7 1#64 0x20#64 = true := by decide +kernel

theorem test_rx_tcolocc : gives5 .tcolocc (.rxTcolocc 47) 0 5 0 0#64 0x21#64 = true := by decide +kernel

theorem test_rx_trowocc : gives5 .trowocc (.rxTrowocc 47) 0 6 0 0#64 0x8000000000000001#64 = true := by decide +kernel

theorem test_rx_tpop : gives5 .tpop (.rxTpop 47) 0 7 0 0#64 3#64 = true := by decide +kernel

theorem test_rx_tmerge : ok [gives5 .tmerge (.rxTmerge 47) 1 1 7 0xFFFFFFFFFFFC1200#64 4#64, (run (.rxTmerge 47) (tiles 1 1 7 0xFFFFFFFFFFFC1200#64)).tileBit 47 0x1000 1 63] = true := by
  decide +kernel

theorem test_rx_cover : ok [gives5 .cover (.rxCover 47) 1 0 7 17#64 1#64, gives5 .cover (.rxCover 47) 1 0 7 0#64 0xFFFFFFFFFFFFFFFF#64] = true := by decide +kernel

/-- The Dispatcher with a completion in its FIFO and every core busy. -/
def dispDone : State :=
  { loaded .active .running with cores := .replicate 48 { Core.zero with st := .running }, disp := ⟨[.completion 7 0], [], [], 0, [], []⟩ }

theorem test_dispatch_done : ok [dispDone.ticks, dispDone.pwr.stopped = [], (dispDone.ctx 7).st = .active, (dispDone.ctx 7).inbox = [],
    (dispDone.ctx 7).doneOps + 1 < (dispDone.ctx 7).ops.length,
    chk (run .dispatcherCycle dispDone) (fun t => ok [t.disp.fifo = [], (t.ctx 7).doneOps = 1, (t.ctx 7).ops.map (·.dep) = [0, 0]])] = true ∧
    ∀ k, (dispDone.core k).stores = [] ∧ (dispDone.core k).stall = none :=
  ⟨by decide +kernel, getD_all (fun x : Core => x.stores = [] ∧ x.stall = none) dispDone.cores.toList .zero (by decide +kernel) ⟨rfl, rfl⟩⟩

/-- The Dispatcher with a ready item for core 47. -/
def dispReady : State :=
  { own.modCtx 7 (fun x => { x with st := .active, ops := [⟨0, toLe 4 0x80 ++ toLe 4 0 ++ [47#8] ++ List.replicate 55 0#8, 0, .ready, 0, 0, false⟩] }) with disp := ⟨[], [], [⟨7, 0, 0, none, 0⟩], 1, [], []⟩ }

theorem test_dispatch_grant : ok [dispReady.ticks, dispReady.coreWard 47 = some 0, dispReady.ctxWard 7 = some 0, (dispReady.core 47).st = .idle, !dispReady.out,
    chk (run .dispatcherCycle dispReady) (fun t => ok [t.disp.items = [], (t.core 47).st = .running, (t.core 47).pc = 0xFFFFFFFFFFFC0080#64, t.xr 47 10 = 7#64,
      (t.ctx 7).running = 1])] = true ∧
    (∀ k, (dispReady.core k).stores = [] ∧ (dispReady.core k).stall = none) ∧
    ∀ y, ∀ p ∈ (dispReady.ctx y).ops, p.isInbox = false ∧ (p.st ≠ .waiting ∨ p.dep ≠ 0) := by
  refine ⟨by decide +kernel, getD_all (fun x : Core => x.stores = [] ∧ x.stall = none) dispReady.cores.toList .zero (by decide +kernel) ⟨rfl, rfl⟩, fun y => ?_⟩
  have h : (dispReady.ctx y).ops = [] ∨ (dispReady.ctx y).ops = (dispReady.ctx 7).ops := by
    by_cases e : y = 7
    · exact .inr (by rw [e])
    · refine .inl ?_
      have : dispReady.ctxs = [(7, dispReady.ctx 7)] := by decide +kernel
      unfold State.ctx
      rw [this]
      simp [tabGet, e]
      rfl
  have g : ∀ p ∈ (dispReady.ctx 7).ops, p.isInbox = false ∧ (p.st ≠ .waiting ∨ p.dep ≠ 0) := by decide +kernel
  rcases h with h | h <;> rw [h]
  · simp
  · exact g

/-! ### DRAM -/

/-- Channel 3 READY with this many refreshes outstanding and these requests. -/
def chan3 (due : Nat) (rt be : List DramReq) (wrr : Nat) : State :=
  (dram.p (DRC_STATUS_POSTPONED 3) due).modDrc 3 (fun x => { x with rt := rt, be := be, wrr := wrr })

theorem test_slot_refresh : ok [(chan3 4 [⟨1, 0, false, true, false, 0, [], 0⟩] [] 0).chReady 3, (run (.drcCommandSlot 3) (chan3 4 [⟨1, 0, false, true, false, 0, [], 0⟩] [] 0)).g (DRC_STATUS_POSTPONED 3) = 3,
    (run (.drcCommandSlot 3) (chan3 1 [⟨1, 0, false, false, false, 0, [], 0⟩] [] 0)).g (DRC_STATUS_POSTPONED 3) = 0] = true := by decide +kernel

theorem test_slot_panic : ((run (.drcCommandSlot 3) (chan3 3 [⟨1, 0, false, false, false, 0, [], 0⟩, ⟨1, 2 ^ 30, false, true, false, 1, [], 0⟩] [] 0)).drc 3).rt = [⟨1, 0, false, false, false, 0, [], 0⟩] := by
  decide +kernel

theorem test_slot_weight : ok [(chan3 0 [] [] 0).g MEM_CFG_RT_WEIGHT = 4, (chan3 0 [] [] 0).dramRow 0 ≠ (chan3 0 [] [] 0).dramRow (2 ^ 30),
    chk (run (.drcCommandSlot 3) (chan3 0 [⟨1, 0, false, false, false, 0, [], 0⟩] [⟨2, 2 ^ 30, true, false, false, 1, [], 0⟩] 3)) (fun t => ok [(t.drc 3).rt = [], (t.drc 3).be.length = 1, (t.drc 3).wrr = 4]),
    chk (run (.drcCommandSlot 3) (chan3 0 [⟨1, 0, false, false, false, 0, [], 0⟩] [⟨2, 2 ^ 30, true, false, false, 1, [], 0⟩] 4)) (fun t => ok [(t.drc 3).rt.length = 1, (t.drc 3).be = [], (t.drc 3).wrr = 0])] = true := by
  decide +kernel

theorem test_refresh_due : (run (.refreshDue 3) (chan3 3 [] [] 0)).g (DRC_STATUS_POSTPONED 3) = 4 := by decide +kernel

theorem test_drc_init : chk (((own.p MEM_CFG_CH_MASK 15).p (DRC_STATUS_STATE 3) 4).p (DRC_STATUS_FAIL_STEP 3) 7) (fun s => ok [(s.ward 0).enable, s.initActs 3,
    chk (run (.drcInit (.ward 0) 3) s) (fun t => ok [t.g (DRC_STATUS_STATE 3) = 1, t.g (DRC_STATUS_FAIL_STEP 3) = 0, t.gb (DRC_CTRL_INIT 3)]),
    !(chan3 0 [] [] 0).initActs 3, (run (.drcInit (.ward 0) 3) (chan3 0 [] [] 0)).g (DRC_STATUS_STATE 3) = 2]) = true := by decide +kernel

theorem test_drc_trained : chk ((own.p (DRC_STATUS_STATE 3) 1).pb (DRC_CTRL_INIT 3) true) (fun s => ok [s.ticks, s.cal.run.isNone,
    chk (run (.drcTrainingDone 3 7 0#64 []) s) (fun t => ok [t.g (DRC_STATUS_STATE 3) = 4, t.g (DRC_STATUS_FAIL_STEP 3) = 7, t.flt.pend = [275], !t.gb (DRC_CTRL_INIT 3)]),
    chk (run (.drcTrainingDone 3 0 0x1234#64 [7#64]) (s.modDrc 3 (fun x => { x with short := true }))) (fun t => ok [t.g (DRC_STATUS_STATE 3) = 2, t.flt.pend = []])]) = true := by
  decide +kernel

theorem test_slot_rmw : chk ((chan3 0 [⟨1, 0, true, true, true, 0, [], 0⟩] [] 0).p MEM_CFG_ROW_CHAIN 1) (fun s => ok [((run (.drcCommandSlot 3) s).drc 3).rt = [⟨1, 0, true, true, false, 0, [], 0⟩],
    (run (.drcCommandSlot 3) s).g (DRC_STAT_PANIC 3) = 0]) = true := by decide +kernel

theorem test_slot_panic_time : chk ((chan3 0 [⟨1, 0, true, true, false, 0, [], 0⟩] [] 0).modDrc 3 (fun x => { x with panicN := 10000 })) (fun s => ok [
    s.slotsPerUs 3 ≤ 10001, (run (.drcCommandSlot 3) s).g (DRC_STAT_PANIC 3) = 1]) = true := by decide +kernel

/-- All the refreshes that are outstanding are issued back to back, ahead of panic requests (R224). -/
theorem test_slot_flush : chk (run (.drcCommandSlot 3) (chan3 4 [⟨1, 0, false, true, false, 0, [], 0⟩] [] 0)) (fun s => ok [(s.drc 3).flush,
    chk (run (.drcCommandSlot 3) s) (fun t => ok [t.g (DRC_STATUS_POSTPONED 3) = 2, (t.drc 3).rt.length = 1])]) = true := by decide +kernel

/-- A full BE queue and one write that waits behind it. -/
def chanFull : State :=
  { chan3 0 [] ((List.range 32).map (fun j => ⟨0x80, 2 ^ 30 * (j + 1), true, false, false, j, [], 0⟩)) 0 with
    drcs := (chan3 0 [] ((List.range 32).map (fun j => ⟨0x80, 2 ^ 30 * (j + 1), true, false, false, j, [], 0⟩)) 0).drcs.set 3
      { (chan3 0 [] ((List.range 32).map (fun j => ⟨0x80, 2 ^ 30 * (j + 1), true, false, false, j, [], 0⟩)) 0).drc 3 with
        beWait := [⟨0x80, 0x100, true, false, false, 40, (toLe 8 0x1122334455667788).zipIdx.map (fun p => (0x100 + p.2, p.1)), 0⟩] } }

/-- A request that leaves the queue lets one that waits in, and what it writes is then performed. -/
theorem test_slot_refill : ok [(chanFull.drc 3).be.length = 32, (chanFull.drc 3).beWait.length = 1, chanFull.firstBad 0x100 8 = none, chanFull.ld (memBase 0 + 0x100) 8 ≠ toLe 8 0x1122334455667788,
    chk (run (.drcCommandSlot 3) chanFull) (fun t => ok [(t.drc 3).be.length = 32, (t.drc 3).beWait = [], t.ld (memBase 0 + 0x100) 8 = toLe 8 0x1122334455667788,
      t.ld (memBase 0 + 0x108) 8 = chanFull.ld (memBase 0 + 0x108) 8])] = true := by decide +kernel

/-- With ROW_CHAIN of 2 and more a read-modify-write takes its one slot. -/
theorem test_slot_rmw_chain : chk (chan3 0 [⟨1, 0, true, true, true, 0, [], 0⟩] [] 0) (fun s => ok [s.chReady 3, 2 ≤ s.g MEM_CFG_ROW_CHAIN, ((run (.drcCommandSlot 3) s).drc 3).rt = []]) = true := by decide +kernel

/-! ### Lanes -/

/-- A capability set: logical lane and role, rates, step, GROUP_ID 9. -/
def capB (role rates step : Nat) : List Byte :=
  [BitVec.ofNat 8 role, BitVec.ofNat 8 rates, BitVec.ofNat 8 step, 64#8, 0#8, 2#8, 9#8, 0#8, 0#8, 0#8, 0#8, 0#8, 0#8,
    BitVec.ofNat 8 role ^^^ BitVec.ofNat 8 rates ^^^ BitVec.ofNat 8 step ^^^ 64#8 ^^^ 2#8 ^^^ 9#8]

/-- Group 6 in bring-up. -/
def bring6 : State := (own.p (LN_GRP_STATUS_STATE 6) 1).modGrp 6 (fun x => { x with started := true, id := 5 })

theorem test_step_pass : ok [bring6.ticks, bring6.stepping 15, !(bring6.lane 15).passed, !(bring6.lane 15).retrain, !(bring6.lane 15).peerLock,
    chk (run (.laneStepPass 15) bring6) (fun t => ok [(t.lane 15).passed, t.gb (LN_STATUS_LOCK 15), t.g (LN_STATUS_STATE 15) = 2, t.outs.length = 2])] = true := by
  decide +kernel

theorem test_cap : ok [capOk (capB 9 3 8), !capOk (capB 9 3 8).tail, (run (.cap 15 ⟨capB 9 3 8, false⟩) bring6).lane 15 = { Lane.zero with logicalRx := 1, peerLock := true },
    ((run (.cap 15 ⟨capB 9 3 8, false⟩) bring6).grp 6).peerRates = 3, (run (.cap 15 ⟨capB 9 3 8, false⟩) bring6).gb (LN_STATUS_LOCK 15),
    (run (.cap 15 ⟨(capB 9 3 8).tail, false⟩) bring6).lanes = bring6.lanes, (run (.cap 15 ⟨capB 9 3 8, true⟩) bring6).lanes = bring6.lanes,
    !(bring6.gb (LN_CFG_RX_INV 15)), (run (.cap 15 ⟨capB 9 3 8, true⟩) (bring6.pb (LN_CFG_RX_INV 15) true)).gb (LN_STATUS_LOCK 15),
    chk (run (.cap 15 ⟨capB 1 3 8, false⟩) (bring6.modLane 15 (fun x => { x with passed := true, peerLock := true }))) (fun t => ok [(t.lane 15).passed = false, !(t.lane 15).peerLock])] = true := by
  decide +kernel

theorem test_cap_ready : chk (((bring6.pb (LN_CFG_DISABLE 14) true).modLane 15 (fun x => { x with passed := true, peerLock := true, peerOk := true, sent := 15, sentFor := 16, readyN := 15, logicalRx := 1 })).modGrp 6
      (fun x => { x with peerRates := 1, peerId := some (9, 14) })) (fun s => ok [s.bringLanes 6 = [15], (s.nextRate 15).isNone, s.stepping 15,
    chk (run (.cap 15 ⟨capB 9 1 0x68, false⟩) s) (fun t => ok [t.g (LN_GRP_STATUS_STATE 6) = 2, t.g (LN_GRP_STATUS_WIDTH 6) = 1, t.g (LN_STATUS_STATE 15) = 3])]) = true := by
  decide +kernel

theorem test_bringup_retry : chk (((own.p (LN_GRP_STATUS_STATE 6) 0).modGrp 6 (fun x => { x with started := true })).modLane 14 (fun x => { x with lost := true, passed := true })) (fun s => ok [
    s.g (LN_GRP_STATUS_STATE 6) = 0, (s.grp 6).started,
    chk (run (.bringupRetry 6) s) (fun t => ok [t.g (LN_GRP_STATUS_STATE 6) = 1, t.g (LN_GRP_STATUS_BRINGUPS 6) = 1, !(t.lane 14).lost, !(t.lane 14).passed])]) = true := by
  decide +kernel

theorem test_step_timeout : chk ((((bring6.p (LN_GRP_STATUS_RATE 6) 2).p (LN_STATUS_RATE 14) 2).p (LN_STATUS_RATE 15) 2).modGrp 6 (fun x => { x with low := 1 })) (fun s => ok [
    0 < s.g (LN_GRP_STATUS_RATE 6), s.bringLanes 6 = [14, 15], !(s.lane 15).passed,
    chk (run (.stepTimeout ⟨6, 0⟩) s) (fun t => ok [t.g (LN_GRP_STATUS_RATE 6) = 1, t.g (LN_STATUS_RATE 15) = 1, (t.lane 15).passed, (t.grp 6).fallback])]) = true := by decide +kernel

theorem test_lock_timeout : ok [bring6.g (LN_GRP_STATUS_RATE 6) = 0, ((bring6.bringLanes 6).filter (fun k => (bring6.lane k).passed)).length < grpMin 6,
    (run (.lockTimeout ⟨6, 0⟩) bring6).g (LN_GRP_STATUS_STATE 6) = 1,
    chk (bring6.modLane 14 (fun x => { x with passed := true })) (fun s => ok [(s.bringLanes 6).all (fun k => !(s.lane k).peerOk), grpMin 6 = 1,
      chk (run (.lockTimeout ⟨6, 0⟩) s) (fun t => ok [(t.lane 15).lost, t.g (LN_STATUS_CAUSE 15) = 6, t.lane 14 = s.lane 14])])] = true := by decide +kernel

/-- Group 6 UP at two lanes. -/
def up6 : State :=
  let s := ((own.p (LN_STATUS_STATE 14) 3).p (LN_STATUS_STATE 15) 3).modGrp 6 (fun x => { x with started := true, txMask := 3, rxMask := 3 })
  ((s.modLane 15 (fun x => { x with passed := true, logicalRx := 1 })).p (LN_GRP_STATUS_LANES 6) 3).p (LN_GRP_STATUS_WIDTH 6) 2

theorem test_retrain_retry : chk (up6.modLane 15 (fun x => { x with lost := true })) (fun s => ok [s.laneUsable 15, s.g (LN_GRP_STATUS_STATE 6) = 2,
    chk (run (.retrainRetry 15) s) (fun t => ok [(t.lane 15).retrain, !(t.lane 15).passed, t.g (LN_STATUS_STATE 15) = 4, t.outs.length = 1])]) = true := by decide +kernel

theorem test_lane_loss : ok [up6.g (LN_STATUS_STATE 15) = 3, (up6.grp 6).narrowing.isNone, (up6.lane 14).logicalRx = 1 - (up6.lane 15).logicalRx, !(up6.lane 14).retrain,
    chk (run (.laneLossOfLock ⟨15, 0⟩ 2 70000) up6) (fun t => ok [(t.grp 6).txMask = 1, (t.grp 6).narrowing = some 2, t.g (LN_GRP_STATUS_WIDTH 6) = 1, t.g (LN_STATUS_CAUSE 15) = 3,
      t.g (LN_ERR_CODE_ERR 15) = 65535, t.flt.pend = [303], (t.lane 15).retrain, t.outs.length = 7])] = true := by decide +kernel

theorem test_narrow : chk ((up6.p (LN_STATUS_STATE 15) 4).modGrp 6 (fun x => { x with narrowing := some 2, txMask := 1, txBase := 3 })) (fun s => ok [
    s.rxOf 6 2 = 2, grpMin 6 ≤ s.widthLeft 6 2, !(s.lane 14).ready, !(s.lane 15).ready, !s.gb (LN_CFG_RX_INV 14), s.g (LN_GRP_STATUS_STATE 6) = 2,
    chk (run (.narrow 6 ⟨maskSet 2, false⟩) s) (fun t => ok [(t.grp 6).narrowing.isNone, (t.grp 6).rxMask = 1, t.g (LN_GRP_STATUS_LANES 6) = 1]),
    chk (run (.narrowTimeout 6) s) (fun t => ok [t.g (LN_GRP_STATUS_STATE 6) = 1, t.flt.pend = [310], t.port 6 = Port.zero]),
    chk (run (.narrowTimeout 3) (s.modGrp 3 (fun x => { x with narrowing := some 2 }))) (fun t => ok [(t.port 3).holding, (t.port 3).crdHdr = 64])]) = true := by decide +kernel

theorem test_widen : chk ((up6.modGrp 6 (fun x => { x with txMask := 1, rxMask := 1 })).modLane 15 (fun x => { x with retrain := true })) (fun s => ok [3 &&& (s.grp 6).rxMask = (s.grp 6).rxMask,
    s.rxLanes 6 2 = [15], (s.lane 15).retrain, s.g (LN_STATUS_RATE 15) = s.g (LN_GRP_STATUS_RATE 6), !(s.lane 14).retrain, !nbit (s.grp 6).txMask 1,
    ((run (.widen 15 ⟨maskSet 3, false⟩) s).grp 6).rxMask = 3]) = true := by decide +kernel

theorem test_skp : (run (.skpSend 15) up6).outs = [.set 14 3 [] false, .set 15 3 [] false] := by decide +kernel

theorem test_lane_tests : chk (own.p (LN_STATUS_STATE 15) 0) (fun s => ok [(s.ward 0).enable, s.g (LN_TEST_MODE 15) = 0, s.g (LN_STATUS_STATE 15) ≠ 3, !s.gb (LN_CFG_DISABLE 15),
    chk (run (.lnTestMode (.ward 0) 15 3) s) (fun t => ok [t.g (LN_TEST_MODE 15) = 3, t.g (LN_STATUS_STATE 15) = 5, t.g (LN_STATUS_CAUSE 15) = 4]),
    !((run (.injOne (.ward 0) 15) s).lane 15).injOne, ((run (.injOne (.ward 0) 15) (s.p (LN_TEST_MODE 15) 1)).lane 15).injOne,
    (run (.injOne (.ward 0) 15) (s.p (LN_TEST_MODE 15) 1)).outs = [],
    (run (.liveInj (.ward 0) 15) s).gb (LN_TEST_LIVE_INJ 15)]) = true := by decide +kernel

theorem test_eye_start : chk (own.pb (LN_STATUS_LOCK 15) true) (fun s => ok [!(s.lane 15).eye, s.gb (LN_STATUS_LOCK 15), s.cal.run.isNone,
    chk (run (.eyeScanStart (.ward 0) 15) s) (fun t => ok [(t.lane 15).eye, t.gb (LN_EYE_CTRL_START 15), !t.gb (LN_EYE_RESULT_DONE 15)])]) = true := by decide +kernel

theorem test_eye_done : chk (((own.pb (LN_EYE_CTRL_START 15) true).p (LN_EYE_CTRL_PHASE 15) 0x7F).modLane 15 (fun x => { x with eye := true })) (fun s => ok [
    chk (run (.eyeScanDone 15 (List.replicate 31 5 ++ [2 ^ 40])) s) (fun t => ok [t.gb (LN_EYE_RESULT_DONE 15), !t.gb (LN_EYE_CTRL_START 15), t.g (LN_EYE_RESULT_ERRORS 15) = 2 ^ 32 - 1]),
    chk (run (.eyeScanDone 15 ([1] ++ List.replicate 62 0 ++ [1])) (s.pb (LN_EYE_CTRL_SWEEP 15) true)) (fun t => ok [t.gi (LN_EYE_RESULT_LEFT 15) = -31, t.gi (LN_EYE_RESULT_RIGHT 15) = 30,
      t.g (LN_EYE_RESULT_WIDTH 15) = 62])]) = true := by decide +kernel

/-- Lane 15 in PRBS mode: its generator holds a seed, and its checker has taken as many bits. -/
def prbs15 : State :=
  (own.p (LN_TEST_MODE 15) 1).modLane 15 (fun x => { x with gen := 1, seed := List.replicate 31 false, chk := 1, agree := 63 })

theorem test_prbs : chk prbs15 (fun s => ok [!s.gb (LN_CFG_DISABLE 15), !prbsNext (s.g (LN_TEST_PATTERN 15)) 1, (s.lane 15).seed.length = 31, s.g (LN_TEST_INJ_RATE 15) = 0,
    chk (run (.prbsSync ⟨15, [false]⟩) s) (fun t => ok [t.gb (LN_PRBS_SYNC 15), t.gb (LN_STATUS_LOCK 15), t.g (LN_PRBS_BITS_BITS 15) = 0, t.outs = [.prbs 15 [false]]]),
    (run (.prbsSync ⟨15, [false]⟩) (s.modLane 15 (fun x => { x with injOne := true }))).outs = [.prbs 15 [true]],
    chk (run (.prbsSync ⟨15, [true]⟩) (s.pb (LN_PRBS_SYNC 15) true)) (fun t => ok [t.gb (LN_PRBS_SYNC 15), t.g (LN_PRBS_ERRORS 15) = 1, t.g (LN_PRBS_BITS_BITS 15) = 1]),
    chk (run (.prbsSyncLost 15 [true] []) ((s.pb (LN_PRBS_SYNC 15) true).modLane 15 (fun x => { x with diffs := List.replicate 32 true }))) (fun t =>
      ok [!t.gb (LN_PRBS_SYNC 15), t.g (LN_PRBS_ERRORS 15) = 1])]) = true := by decide +kernel

theorem test_far_loop : (run (.prbsSync ⟨15, [true, false]⟩) ((own.p (LN_TEST_MODE 15) 3).pb (LN_CFG_RX_INV 15) true)).outs = [.prbs 15 [false, true]] := by
  decide +kernel

theorem test_code_errors : chk (run (.laneLossOfLock ⟨15, 0⟩ 1 7) up6) (fun t => ok [t.g (LN_ERR_CODE_ERR 15) = 7, t.g (LN_STATUS_STATE 15) = 3, t.flt.pend = []]) = true := by
  decide +kernel

theorem test_retrain_fails : chk (up6.modLane 15 (fun x => { x with retrain := true, lost := true })) (fun s => ok [s.g (LN_STATUS_RATE 15) = 0,
    chk (run (.lockTimeout ⟨6, 2⟩) s) (fun t => ok [!(t.lane 15).retrain, t.g (LN_ERR_RETRAIN_FAIL 15) = 1]),
    (run (.lockTimeout ⟨6, 1⟩) s).lanes = s.lanes, (run (.stepTimeout ⟨6, 2⟩) s).lanes = s.lanes]) = true := by decide +kernel

/-- A CAP of another role unlocks the lane; of another GROUP_ID, unless its own lane brought the one accepted (R237). -/
theorem test_foreign_cap : chk (bring6.modGrp 6 (fun x => { x with peerId := some (8, 14) })) (fun s => ok [s.stepping 15, !(s.lane 15).eye,
    !(run (.cap 15 ⟨capB 9 3 8, false⟩) (s.pb (LN_STATUS_LOCK 15) true)).gb (LN_STATUS_LOCK 15), !(run (.cap 15 ⟨capB 1 3 8, false⟩) (s.pb (LN_STATUS_LOCK 15) true)).gb (LN_STATUS_LOCK 15),
    (run (.cap 14 ⟨capB 8 3 8, false⟩) s).gb (LN_STATUS_LOCK 14)]) = true := by decide +kernel

/-! ### Time -/

theorem test_tb_increment : chk { own.pb TB_STATUS_AON_CLOCK false with tb := { TbSt.zero with base := 5, slew := -(2 ^ 62) } } (fun s => ok [s.ticks, !s.gb TB_STATUS_AON_CLOCK, s.pwr.stopped = [],
    chk (run .tbIncrement s) (fun t => ok [t.tb.tm = 625, t.tb.slew = -(2 ^ 62) + 20480 * ppm100, (t.tb.fine : Int) = 20480 * (2 ^ 48 + 5) - 20480 * ppm100])]) = true := by decide +kernel

/-- Base and slew together keep to 200 ppm (R262). -/
theorem test_tb_limit : chk { own.pb TB_STATUS_AON_CLOCK false with tb := { TbSt.zero with base := rmax, slew := 2 ^ 62 } } (fun s =>
    chk (run .tbIncrement s) (fun t => ok [t.tb.slew = 2 ^ 62, (t.tb.fine : Int) = 20480 * (2 ^ 48 + rmax)])) = true := by decide +kernel

theorem test_tb_read : chk { own with tb := { TbSt.zero with fine := 5 * 10 ^ 9 * 2 ^ 64 + 7 * 2 ^ 64 } } (fun s => ok [(s.portWard 0).isSome,
    chk (run (.tbTimeLoRead 0) s) (fun t => ok [(t.rd TB_TIME_LO).toNat + 2 ^ 64 * t.g TB_TIME_HI_STAMP = s.now.toNat, t.tb.latched = s.now.toNat])]) = true := by decide +kernel

theorem test_refclk_window : chk { (own.pb TB_STATUS_REFCLK false).pb TB_STATUS_AON_CLOCK false with tb := { TbSt.zero with goodWin := 1 } } (fun s => ok [
    chk (run (.refclkWindow 9000) s) (fun t => ok [t.gb TB_STATUS_REFCLK, t.flt.pend = [393]]), (run (.refclkWindow 9523) s).flt.pend = [393], (run (.refclkWindow 10527) s).flt.pend = [393],
    chk (run (.refclkWindow 11000) { s with tb := { s.tb with goodWin := 0 } }) (fun t => ok [!t.gb TB_STATUS_REFCLK, t.flt.pend = []]),
    (run (.refclkWindow 9524) s).gb TB_STATUS_REFCLK, (run (.refclkWindow 9524) s).flt.pend = [], (run (.refclkWindow 10526) s).g TB_REFCLK_COUNT = 10526]) = true := by decide +kernel

theorem test_refclk_lost : chk (own.pb TB_STATUS_REFCLK true) (fun s => ok [s.gb TB_STATUS_REFCLK,
    chk (run .refclkMissingEdge s) (fun t => ok [!t.gb TB_STATUS_REFCLK, t.gb TB_STATUS_AON_CLOCK, t.flt.pend.contains 320, t.g TB_REFCLK_LOSSES = 1]),
    !(run (.refclkWindow 8999) s).gb TB_STATUS_REFCLK, !(run (.refclkWindow 11001) s).gb TB_STATUS_REFCLK]) = true := by decide +kernel

/-- A slave in this state. -/
def slave (st : Nat) : State := { ((own.p TB_CFG_ROLE 2).p TB_STATUS_STATE st).pb TB_STATUS_AON_CLOCK false with tb := { TbSt.zero with fine := 10 ^ 9 * 2 ^ 64 } }

theorem test_holdover : chk ({ slave 3 with tb := { TbSt.zero with missed := 255 } }) (fun s => ok [s.ticks, s.g TB_CFG_ROLE = 2, s.g TB_STATUS_STATE = 3, s.g TB_LIMITS_HOLD_SYNCS ≤ 255,
    chk (run .holdover s) (fun t => ok [t.g TB_STATUS_STATE = 4, t.g TB_STATUS_SCALE = 1, t.flt.pend = [321]])]) = true := by decide +kernel

theorem test_reseed : ok [(run (.tbCtrlReseed (.ward 0)) (slave 3)).g TB_STATUS_STATE = 1, (run (.tbCtrlReseed (.ward 0)) (slave 3)).tb.perm,
    (run (.tbCtrlReseed (.ward 0)) own).g TB_STATUS_STATE = own.g TB_STATUS_STATE] = true := by decide +kernel

theorem test_trig_fire : chk ((own.p (TB_TRIG_STATUS_STATE 31) 1).modTrig 31 (fun _ => ⟨0, 200000, 2, 0, false⟩)) (fun s => ok [s.ticks, s.trigState 31 = 1,
    (List.range 8).all (fun u => decide (s.timState u ≠ 1)), s.conv.arm.isNone, (List.range 64).all (fun q => !nbit (s.g (PS_SQ_TRIG_TRIG q)) 31),
    chk (run (.trigFire 31) s) (fun t => ok [(t.trg 31).n = 1, t.g (TB_TRIG_STATUS_FIRINGS 31) = 1, t.gb (TB_TRIG_STATUS_FIRED 31), t.trigState 31 = 1,
      (run (.trigFire 31) t).trigs = t.trigs, (run (.trigFire 31) { t with tb := { t.tb with fine := 100 * 2 ^ 64 } }).trigState 31 = 2])]) = true := by decide +kernel

/-- Unit 7 armed: it starts at a rising edge of TMI input 0 and stops at a falling one of trigger 1. -/
def tim7 (x : TimU) : State :=
  ((((own.p (TIM_STATUS_STATE 7) 1).p (TIM_CFG_STOP_CLASS 7) 1).p (TIM_CFG_STOP_INDEX 7) 1).p (TIM_CFG_STOP_EDGE 7) 1).modTim 7 (fun _ => x)

theorem test_tim_start : ok [(tim7 TimU.zero).ticksOf tbDom, (tim7 TimU.zero).timState 7 = 1, (List.range 7).all (fun j => decide ((tim7 TimU.zero).timState j ≠ 1)),
    chk (run (.timEdge ⟨0, 0⟩ true 1000) (tim7 TimU.zero)) (fun t => ok [(t.tim 7).start = some 1000, t.g (TIM_STATUS_WAIT_STOP 7) = 1]),
    (run (.timEdge ⟨0, 0⟩ false 1000) (tim7 TimU.zero)).tims = (tim7 TimU.zero).tims,
    ((run (.timEdge ⟨0, 0⟩ false 1000) ((tim7 TimU.zero).pb (TIM_IN_CFG_INV 0) true)).tim 7).start = some 1000] = true := by decide +kernel

theorem test_tim_stop : chk (tim7 { TimU.zero with count := 9, start := some 1000 }) (fun s => ok [!(s.tim 7).order, s.g (TIM_STATUS_DONE_N 7) = 0,
    !s.gb (TIM_CFG_CHAIN 7), (s.tim 7).lastStop.isNone, (1000 + 2 ^ 37 - 9) / 32 = 1000 / 32 + 2 ^ 32 - 1,
    chk (run (.timEdge ⟨1, 1⟩ false 1001) s) (fun t => ok [t.g (TIM_LAST_RESULT 7) = 1, t.g (TIM_STATUS_DONE_N 7) = 1, t.g (TIM_SUM_SUM 7) = 1, t.g (TIM_MIN_VALUE 7) = 1, t.g (TIM_MAX_VALUE 7) = 1]),
    (run (.timEdge ⟨1, 1⟩ false (1000 + 2 ^ 37 - 9)) s).g (TIM_MAX_VALUE 7) = 2 ^ 37 - 9,
    (run (.timEdge ⟨1, 1⟩ false (1000 + 2 ^ 37 - 8)) s).gb (TIM_LAST_OVF 7)]) = true := by decide +kernel

theorem test_tim_overflow : chk (tim7 { TimU.zero with count := 9, start := some 1000 }) (fun s => chk { s with tb := { s.tb with tm := 2 ^ 50 } } (fun s => ok [
    1000 / 32 + 2 ^ 32 - 1 < quantQ s.tb.tm / 32,
    chk (run (.timOverflow 7) s) (fun t => ok [t.g (TIM_LAST_RESULT 7) = 0x1FFFFFFFFF, t.gb (TIM_LAST_OVF 7),
      t.g (TIM_COUNTS_OVF 7) = 1, t.g (TIM_STATUS_NSTAT 7) = 0, (t.tim 7).start.isNone])])) = true := by decide +kernel

theorem test_tim_timeout : chk { tim7 { TimU.zero with count := 9, cmd := some 5, deadline := some 0 } with cmds := [runningCmd 5 0x62] } (fun s => ok [s.cmdOpen 5, !(s.tim 7).bound,
    chk (run (.timTimeout 7) s) (fun t => ok [endedB t 5 0 3, t.timState 7 = 2, t.g (TIM_STATUS_END 7) = 3]),
    chk (s.modTim 7 (fun x => { x with deadline := none })) (fun s => (run (.timTimeout 7) s).timState 7 = 1)]) = true := by decide +kernel

theorem test_interval_statistics :
    chk (([(5, false), (0x1FFFFFFFFF, true), (8, false)] : List (Nat × Bool)).foldl (fun t x => t.timResult 3 x.1 (x.1 = 0) false x.2)
      (up.timArmUnit 3 10 none false 0)) (fun t => decide (t.g (TIM_STATUS_NSTAT 3) = 2) && decide (t.g (TIM_SUM_SUM 3) = 13) &&
      decide (t.g (TIM_SUMSQ_LO_SUMSQ 3) = 89) && decide (t.g (TIM_MIN_VALUE 3) = 5) && decide (t.g (TIM_MAX_VALUE 3) = 8) &&
      chk (t.timEnd 3 2) (fun e => decide (e.g (TIM_MEAN_MEAN 3) = 1664) && decide (e.g (TIM_SD_SD 3) = 384))) := by decide +kernel

/-! ### The sync ring -/

/-- Big-endian bytes. -/
def be (n v : Nat) : List Byte := (toLe n v).reverse

/-- A PTP message of this type and sequenceId with this time (IEEE 1588: header of 34 bytes, then the timestamp). -/
def ptp (ty seq sec ns : Nat) : List Byte :=
  [BitVec.ofNat 8 ty, 2#8] ++ be 2 44 ++ List.replicate 26 0#8 ++ be 2 seq ++ [0#8, 0#8] ++ be 6 sec ++ be 4 ns ++ List.replicate 4 0#8

theorem test_sync_interval : ok [(slave 3).ticks, (slave 3).portUp 5, (slave 3).portUp 6, (slave 3).frac16 0 = 10 ^ 9 * 2 ^ 16,
    chk (run (.syncInterval 0) (slave 3)) (fun t => ok [(framesOf t.outs).map (·.type) = [0x40#8, 0x40#8], t.tb.seqSync = 1,
      (framesOf t.outs).map (fun f => u f.payload 0 1 % 16) = [0, 8], (framesOf t.outs).map (fun f => ptpSeq f.payload) = [0, 0]])] = true := by decide +kernel

theorem test_delay_req_send : chk { slave 3 with tb := { (slave 3).tb with reqDue := some 4 } } (fun s => ok [s.tb.seqReq < 2 ^ 16,
    chk (run (.delayReqSend 0) s) (fun t => ok [t.tb.reqDue.isNone, t.tb.req = some ⟨0, 10 ^ 9 * 2 ^ 16, 4, false⟩, (framesOf t.outs).map (fun f => u f.payload 0 1 % 16) = [1]])]) = true := by
  decide +kernel

theorem test_sync : ok [(slave 3).ptpOk 0 (ptp 0 77 0 0), (slave 3).g TB_STATUS_STATE ≠ 0, (run (.sync false (fr 0x40 (ptp 0 77 0 0)) 0) (slave 3)).tb.sync = some (77, 10 ^ 9 * 2 ^ 16),
    (run (.sync false (fr 0x40 (ptp 0 77 0 0)) 0) (slave 3)).tb.reqDue = some 77, (run (.sync false (fr 0x40 (ptp 0 77 0 0)) 0) own).g TB_COUNTS_IGNORED = 1,
    !(slave 3).ptpOk 0 (ptp 1 77 0 0), (run (.sync false (fr 0x40 (ptp 1 77 0 0)) 0) (slave 3)).g TB_COUNTS_IGNORED = 1] = true := by decide +kernel

/-- A slave that has Sync 77 and a path of 1 ns. -/
def synced (st : Nat) : State := { slave st with tb := { (slave st).tb with sync := some (77, 10 ^ 9 * 2 ^ 16), path := some 65536 } }

theorem test_follow_up_step : ok [(synced 1).ptpOk 8 (ptp 8 77 2 0), ptpReading (ptp 8 77 2 0) = 2 * 10 ^ 9 * 2 ^ 16, ptpSeq (ptp 8 77 2 0) = 77, (synced 1).tb.perm, !(synced 1).gb TB_STATUS_AON_CLOCK,
    (synced 1).gi TB_ASYM_ASYM = 0,
    chk (run (.followUp false (fr 0x40 (ptp 8 77 2 0))) (synced 1)) (fun t => ok [t.tb.fine = (2 * 10 ^ 9 + 1) * 2 ^ 64, t.g TB_STATUS_STATE = 2, t.gi TB_OFFSET_OFFSET = -(10 ^ 9 + 1) * 65536])] = true := by
  decide +kernel

theorem test_follow_up_servo : chk { synced 3 with tb := { (synced 3).tb with path := some 2 } } (fun s => ok [s.tb.slew = 0, s.g TB_LIMITS_LOCK_THRESH = 10, 2 * 1000 ≤ 4 * (10 * 65536),
    chk (run (.followUp false (fr 0x40 (ptp 8 77 1 0))) s) (fun t => ok [t.g TB_STATUS_STATE = 3, t.gi TB_OFFSET_OFFSET = -2, t.tb.integ = 256, t.tb.base = 4096 + 256,
      t.gi TB_RATE_RATE = 4352])]) = true := by decide +kernel

theorem test_delay_req : ok [(slave 3).ptpOk 1 (ptp 1 5 0 0), (framesOf (run (.delayReq true (fr 0x40 (ptp 1 5 0 0)) 0) (slave 3)).outs).map (fun f => u f.payload 0 1 % 16) = [9],
    (framesOf (run (.delayReq true (fr 0x40 (ptp 1 5 0 0)) 0) (slave 3)).outs).map (fun f => ptpReading f.payload) = [10 ^ 9 * 2 ^ 16]] = true := by decide +kernel

theorem test_delay_resp : chk { slave 3 with tb := { (slave 3).tb with req := some ⟨5, 1000, 3, false⟩, last := some (3, 500, 700) } } (fun s => ok [s.ptpOk 9 (ptp 9 5 0 1), !s.tb.waiting,
    chk (run (.delayResp false (fr 0x40 (ptp 9 5 0 1))) s) (fun t => ok [t.tb.path = some ((200 + (65536 - 1000)) / 2), t.gi TB_PATH_PATH = 32368, t.tb.req.isNone]),
    chk { s with tb := { s.tb with last := none } } (fun s => (run (.delayResp false (fr 0x40 (ptp 9 5 0 1))) s).tb.resp = some (3, 1000, 65536))]) = true := by decide +kernel

theorem test_sq_join : chk (own.p TB_CFG_ROLE 1) (fun s => ok [s.inOrder 5 (fr 0x41 (toLe 2 9 ++ toLe 6 0 ++ toLe 8 (2 ^ 63))),
    (run (.sqJoin false (fr 0x41 (toLe 2 9 ++ toLe 6 0 ++ toLe 8 (2 ^ 63)))) s).tb.joins = [(9, 2 ^ 63)],
    -- node 10 leaves Square 63, where node 9 has arrived: the last missing member
    chk { s with tb := { s.tb with joins := [(9, 2 ^ 63), (10, 2 ^ 63)], arr := [(63, 3, 9)] } } (fun s => ok [!s.gb (PS_SQ_ENROL_GLOBAL 63), s.maySend 6 24,
      chk (run (.sqJoin false (fr 0x41 (toLe 2 10 ++ toLe 6 0 ++ toLe 8 0))) s) (fun t => ok [t.tb.arr = [], (sent t).map (fun x => (x.1, x.2.1)) = some (6, 0x43)])])]) = true := by decide +kernel

theorem test_sq_arrive : chk { own.p TB_CFG_ROLE 1 with tb := { TbSt.zero with joins := [(9, 2 ^ 63), (10, 2 ^ 63)] } } (fun s => ok [
    s.inOrder 5 (fr 0x42 (toLe 2 9 ++ toLe 2 63 ++ toLe 4 3)), nbit (2 ^ 63) 63, (run (.sqArrive false (fr 0x42 (toLe 2 9 ++ toLe 2 63 ++ toLe 4 3))) s).tb.arr = [(63, 3, 9)]]) = true := by
  decide +kernel

/-- SQ_RELEASE of Square 63 in round 0 at 2 s. -/
def relB : List Byte := toLe 1 63 ++ toLe 3 0 ++ toLe 4 0 ++ toLe 12 (2 * 2 ^ 48) ++ toLe 4 0

theorem test_sq_release : chk ((slave 3).pb (PS_SQ_ENROL_GLOBAL 63) true) (fun s => ok [s.inOrder 5 (fr 0x43 relB), u relB 0 1 = 63, u relB 4 4 = s.sqRound 63, s.gb (PS_SQ_ENROL_GLOBAL 63),
    (s.sq 63).trel.isNone, s.maySend 6 relB.length,
    chk (run (.sqRelease false (fr 0x43 relB)) s) (fun t => ok [(t.sq 63).trel = some (2 * 10 ^ 9 * 2 ^ 64), (t.sq 63).arr.map (·.1) = [49], sent t = some (6, 0x43, 0, 0, relB)])]) = true ∧
    ∀ k, ((((slave 3).pb (PS_SQ_ENROL_GLOBAL 63) true).seq k).wait) = none :=
  ⟨by decide +kernel, getD_all (fun x : Seq => x.wait = none) ((slave 3).pb (PS_SQ_ENROL_GLOBAL 63) true).seqs.toList .zero (by decide +kernel) rfl⟩

/-! ### Converter, thermal, calibration -/

/-- The converter runs. -/
def adc : State := own.pb TB_STATUS_AON_CLOCK false

theorem test_conversion : chk { adc with conv := { Conv.zero with cls := 2, inj := [⟨5, 15, 2, false⟩] }, cmds := [runningCmd 5 0x71] } (fun s => ok [s.adcRuns, codesOk [2047, -2048] 2, s.cmdOpen 5,
    chk (run (.adcConversionDone ⟨7, [2047, -2048], 0, 0, [], [], [], false⟩) s) (fun t => ok [t.conv.cls = 0, t.conv.inj = [], endedB t 5 0 (65528 + 2 ^ 19)])]) = true := by decide +kernel

theorem test_thm_period : chk { adc.p (THM_TS_CFG_TYPE 7) 2 with conv := { Conv.zero with cls := 1 } } (fun s => ok [s.adcRuns, !s.gb THM_CFG_MODEL, (run .thmPeriod s).conv.urgent = 129]) = true := by
  decide +kernel

theorem test_band_change : chk { ((own.pb THM_STATUS_BAND_VALID true).pb CAL_CFG_JUMP_IDLE false).p (CAL_CH_TAB_DRV 127 0) 8 with thm := { Thm.zero with since := some 0, cand := 0 } } (fun s => ok [
    s.gb THM_STATUS_BAND_VALID, s.thm.cand ≠ s.g THM_STATUS_BAND, !s.gb CAL_CFG_JUMP_IDLE,
    chk (run .bandChange s) (fun t => ok [t.g THM_STATUS_BAND = 0, t.thm.since.isNone, t.gb (CAL_CH_NOW_SLEWING 127), t.gi (CAL_CH_NOW_DRV 127) = 0])]) = true := by decide +kernel

/-- The acquisition engine with its arm of 16 samples, in this state. -/
def acq (st : Nat) (r : Option AcqRec) : State := { adc.p ACQ_STATUS_STATE st with conv := { Conv.zero with cls := 4, arm := some anArm, rec_ := r } }

/-- A record with this many samples. -/
def aRec (n : Nat) : AcqRec := ⟨0, 0#96, 0, [], List.replicate n 16, []⟩

theorem test_acq_pre : ok [!anArm.scan, anArm.decim = 1, anArm.src = 0, codesOk [-2048] 1, (acq 1 none).conv.pendTrig.isNone,
    (run (.acqSample 7 (-2048) false) (acq 1 none)).conv.preMem = [[(7, -2048)]],
    ((run (.acqSample 3 5 false) (run (.acqSample 7 (-2048) false) (acq 1 none))).conv.preMem) = [[(0, 5)], [(7, -2048)]]] = true := by decide +kernel

theorem test_acq_begin : chk { acq 1 none with conv := { (acq 1 none).conv with pendTrig := some 0#96 } } (fun s => ok [s.domOn adcDom, s.ticks, aloneB s, s.acqRoom anArm, anArm.pre = 0,
    stampKey 0#96 ≤ stampKey s.now, s.conv.dec = [], !s.conv.ready,
    chk (run (.acqSample 7 2047 false) s) (fun t => ok [t.g ACQ_STATUS_STATE = 2, t.g ADC_STATUS_CORR_BAND = 3, t.conv.pendTrig.isNone,
      (t.conv.rec_.map (fun r => (r.post.length, r.flags, r.band))) = some (1, 16, 3)])]) = true := by decide +kernel

theorem test_acq_post : ok [anArm.post = 16, anArm.records = 0, !anArm.notify, anArm.slot ≤ anArm.size, 0x0102000000 ≤ anArm.base, anArm.base + anArm.size ≤ 0x0102100000,
    ((run (.acqSample 7 2047 false) (acq 2 (some (aRec 14)))).conv.rec_.map (fun r => (r.post.length, r.flags))) = some (15, 16),
    chk (run (.acqSample 7 1 false) (acq 2 (some (aRec 15)))) (fun t => ok [t.conv.rec_.isNone, t.g ACQ_PTR_WR = 1, t.g ACQ_STATUS_STATE = 3, t.g ACQ_STATUS_RECORDS = 1,
      t.ld anArm.base 1 = [0x10#8], t.ld (anArm.base + 64) 4 = [16#8, 0#8, 16#8, 0#8]])] = true := by decide +kernel

theorem test_acq_defer : chk { acq 2 (some (aRec 14)) with conv := { (acq 2 (some (aRec 14))).conv with urgent := 255 } } (fun s => ok [s.adcRuns, (acqBytes anArm (aRec 14) 0).length ≤ anArm.slot,
    chk (run .acqDeferExpiry s) (fun t => ok [t.g ACQ_COUNTS_ABORTS = 1, t.g ACQ_STATUS_STATE = 3, nbit (leNat (t.ld (anArm.base + 1) 1)) 2, t.conv.cls = 1])]) = true := by decide +kernel

theorem test_acq_rearm : ok [(acq 3 none).conv.cls = 4, (acq 3 none).g ACQ_STATUS_STATE = 3, (run .acqRearm (acq 3 none)).g ACQ_STATUS_STATE = 1,
    (run .acqRearm (acq 3 none)).conv.band = 3] = true := by decide +kernel

theorem test_acq_triggers : chk { acq 1 none with conv := { (acq 1 none).conv with arm := some { anArm with auto := true } } } (fun s => ok [s.conv.pendTrig.isNone,
    chk (run .acqAutoTrigger s) (fun t => ok [t.conv.pendTrig = some s.now, t.conv.auto]), (s.ward 0).enable, s.g ACQ_STATUS_WARD = 0,
    chk (run (.acqCtrlForce (.ward 0)) s) (fun t => ok [t.conv.pendTrig = some s.now, !t.conv.auto, t.gb ACQ_CTRL_FORCE])]) = true := by decide +kernel

theorem test_acq_rd : chk ((acq 1 none).p ACQ_PTR_WR 9) (fun s => ok [s.g ACQ_STATUS_STATE ≠ 0, (run (.acqRdWrite (.ward 0) 0x900000000#64) s).g ACQ_PTR_RD = 9,
    (run (.acqRdWrite (.ward 0) 0xA00000000#64) s).g ACQ_PTR_RD = 0]) = true := by decide +kernel

theorem test_cal_slew : chk { ((own.p (CAL_CH_TAB_DRV 127 3) 100).pb (CAL_CH_NOW_SLEWING 127) true).pb CAL_CFG_JUMP_IDLE false with cal := ⟨[(381, 120)], none⟩ } (fun s => ok [
    (List.range 128).all (fun m => decide (s.gb (CAL_CH_NOW_SLEWING m) = decide (m = 127))), !s.calJumps 127, s.calTarget 127 0 = 100, s.g CAL_CFG_SLEW = 8,
    chk (run .calSlewTick s) (fun t => ok [t.gi (CAL_CH_NOW_DRV 127) = 1, t.gi (CAL_CH_NOW_DEN 127) = 0, t.gb (CAL_CH_NOW_SLEWING 127)])]) = true := by decide +kernel

/-- The errors of a sweep that is free of errors over `n` phases. -/
def sweepOf (n : Nat) : List Int := (List.range 64).map (fun i => if 32 - n / 2 ≤ i ∧ i < 32 - n / 2 + n then 0 else 1)

/-- The last Channel Block measured: the DRV edges of channel 127 come 2.875 ps and 3.125 ps late, the others at their nominal instants. -/
theorem test_cal_block : chk { own.p CAL_STATUS_RUN 1 with cal := ⟨[], some ⟨5, 0, 2 ^ 31, [31], 3, 0, []⟩⟩, cmds := [runningCmd 5 0x80] } (fun s => ok [s.cmdOpen 5,
    calCorr [46, 50] = -6, calResid [46, 50] = 2, s.g CAL_CFG_RESID_LIMIT = 32,
    chk (run (.calItemDone ⟨false, List.replicate 9 [0] ++ [[46, 50], [0], [0]]⟩) s) (fun t => ok [t.g (CAL_CH_TAB_RESID 127 3) = 2, t.gb (CAL_CH_TAB_VALID 127 3),
      t.gi (CAL_CH_TAB_DRV 127 3) = -6, t.cal.run.isNone, endsB t 5 0])]) = true := by decide +kernel

theorem test_cal_lane : chk { own.p CAL_STATUS_RUN 2 with cal := ⟨[], some ⟨5, 1, 2 ^ 15, [15], 3, 0, []⟩⟩, cmds := [runningCmd 5 0x80] } (fun s => ok [s.cmdOpen 5,
    chk (run (.calItemDone ⟨false, [1, 2, 64, 64, 0, 0, 0, 0, 0, 0, 0, 0, 0, 0, 0, 63].map sweepOf⟩) s) (fun t => ok [t.g (LN_EQ_RX_CTLE 15) = 2, t.g (CAL_LN_Q_WIDTH 15) = 64, t.gb (CAL_LN_Q_VALID 15),
      t.cal.run.isNone, endedB t 5 0 48])]) = true := by decide +kernel

/-! ### Faults -/

/-- Source `i` asserts; its reaction is `a`. -/
def asserting (i a : Nat) : State :=
  { ((own.p (FLT_REACT_ACTION i) a).pb (FLT_REACT_ERRN i) false).pb TB_STATUS_AON_CLOCK false with flt := { FltSt.zero with pend := [i] } }

theorem test_fault_tick : ok [srcImplemented 1023, (List.range 4).all (fun c => decide ((asserting 1023 0).g (rstUnitField c) = 0)), (asserting 1023 0).thm.finalDue.isNone, (asserting 1023 0).srcSev 1023 < 3, !nbit ((asserting 1023 0).g (FLT_GRP_REAL_REAL 31)) 31, (asserting 1023 0).g (FLT_REACT_ACTION 1023) = 0,
    chk (run .faultTick (asserting 1023 0)) (fun t => ok [t.flt.pend = [], t.flt.tick = 1, nbit (t.g (FLT_GRP_REAL_REAL 31)) 31, t.g (FLT_LOG_INFO_SOURCE 0) = 1023, t.gb FLT_FE_VALID,
      t.g FLT_FE_SOURCE = 1023, t.g FLT_LOG_PTR_NEXT = 1])] = true := by decide +kernel

theorem test_fault_repeat : chk ((asserting 1023 0).p (FLT_GRP_REAL_REAL 31) (2 ^ 31)) (fun s => ok [nbit (s.g (FLT_GRP_REAL_REAL 31)) 31,
    chk (run .faultTick s) (fun t => ok [t.g (FLT_GRP_CNT_REPEATS 31) = 1, t.flt.pend = [], t.g FLT_LOG_PTR_NEXT = 0])]) = true := by decide +kernel

theorem test_fault_stops : chk ((asserting 67 1).modSeq 3 (fun x => { x with st := .beat, burst := some ⟨none, 0, [], false, false, false, none, none⟩ })) (fun s => ok [srcImplemented 67, s.srcSev 67 < 3,
    s.bursting 3, s.g (FLT_REACT_ACTION 67) = 1, !nbit (s.g (FLT_GRP_REAL_REAL 2)) 3,
    chk (run .faultTick s) (fun t => ok [!t.bursting 3, t.g (PS_BURST_END_CAUSE 3) = 4, t.g (PS_FAULT_CAUSE 3) = 7])]) = true := by decide +kernel

theorem test_fault_window : chk { own.pb FLT_FE_VALID true with flt := { FltSt.zero with tick := 30, win := [⟨1023, false, 1, 0#96, 0, false, 1023, none, false, true, false, false⟩], feTick := 1, feWin := true } } (fun s => ok [
    chk (run .faultWindowEnd s) (fun t => ok [(t.wst 0).evq.map (·.code) = [0x0C01], t.flt.win.map (·.reported) = [true], t.gb FLT_FE_FROZEN])]) = true := by decide +kernel

theorem test_errn_pulse : chk { (own.pb FLT_STATUS_PULSE true).pb FLT_STATUS_ERR_N_LOW true with flt := { FltSt.zero with tick := 7, pulse := some 7 } } (fun s => ok [
    chk (run .errNPulseEnd s) (fun t => ok [t.flt.pulse.isNone, !t.gb FLT_STATUS_PULSE, !t.gb FLT_STATUS_ERR_N_LOW])]) = true := by decide +kernel

theorem test_reset_action : chk { (seqIn .beat).pb (CH_STATUS_DEN 127) true with flt := { FltSt.zero with resetPend := true } } (fun s => ok [s.pwr.inReset.isNone,
    chk (run .resetAction s) (fun t => ok [t.pwr.inReset = some 2, t.jnl.stop, !t.gb (CH_STATUS_DEN 127), !t.bursting 3, !t.flt.resetPend, t.ld (memBase 0 + s.raBase + 24) 8 = s.ld (memBase 0 + s.raBase + 24) 8])]) = true := by decide +kernel

theorem test_reset_action_stopped : chk { own with flt := { FltSt.zero with resetPend := true }, thm := { own.thm with shutdown := true } } (fun s =>
    chk (run .resetAction s) (fun t => ok [t.pwr.inReset.isNone, t.flt.resetPend])) = true := by decide +kernel

theorem test_flt_raise : ok [own.fltWard (32 * (13 + 18) + 31) = some 0, (run (.fltRaise (.ward 0) 18 (BitVec.ofNat 64 (2 ^ 31))) own).flt.pend = [1023]] = true := by decide +kernel

theorem test_fe_rearm : chk { own.pb FLT_FE_VALID true with flt := { FltSt.zero with feWin := true } } (fun s => ok [chk (run (.feRearm (.ward 0)) s) (fun t => ok [!t.gb FLT_FE_VALID, !t.flt.feWin])]) = true := by
  decide +kernel

/-! ### The twin -/

/-- A member with nothing else to do. -/
def tw (role : Nat) (pair : Bool) : State := member role pair []

/-- TW_HELLO of a member of pair `p` in this role with this head. -/
def helloB (p role head : Nat) : List Byte := toLe 4 p ++ toLe 1 role ++ toLe 3 0 ++ toLe 8 0 ++ toLe 4 0 ++ toLe 4 0 ++ toLe 8 head

theorem test_tw_hello : ok [(tw 3 false).inOrder 4 (fr 0x50 (helloB 7 1 99)), ((tw 3 false).port 4).txq = [], (tw 3 false).twin.backlog = [], (tw 3 false).twin.detach.isNone,
    (tw 3 false).maySend 4 32, (tw 3 false).twin.join.isNone,
    chk (run (.twHello (fr 0x50 (helloB 7 1 99))) (tw 3 false)) (fun t => ok [t.twin.hello, t.twin.peerHead = 99, sent t = some (4, 0x50, 0, 0, helloB 7 3 0)]),
    !(run (.twHello (fr 0x50 (helloB 8 1 99))) (tw 3 false)).twin.hello] = true := by decide +kernel

theorem test_tw_hello_mismatch : chk { member 1 false [runningCmd 5 0xA2] with twin := { TwinSt.zero with join := some 5 } } (fun s => ok [u (helloB 8 1 9) 0 4 ≠ s.plan.pairId, !s.twin.copying, s.cmdOpen 5,
    chk (run (.twHello (fr 0x50 (helloB 8 1 9))) s) (fun t => ok [endedB t 5 0x0D 1, t.twin.join.isNone])]) = true := by decide +kernel

/-- A Journal record of SEQNO 50: this kind, of the command of Ward 0 with JSEQ 40. -/
def jrec (kind op : Nat) : List Byte := toLe 8 50 ++ toLe 1 kind ++ toLe 1 0 ++ toLe 2 op ++ toLe 2 9 ++ toLe 2 0 ++ toLe 8 40 ++ List.replicate 40 0#8

theorem test_tw_jnl : ok [(tw 2 true).role = 2, (tw 2 true).maySend 4 8, (jrec 0 0x12).length = 64, u (jrec 0 0x12) 8 1 % 8 = 0, u (jrec 0 0x12) 9 1 % 2 = 0, 50 % jnlSlots ≠ jnlSlots - 1,
    chk (run (.twJnl (fr 0x51 (jrec 0 0x12)) []) (tw 2 true)) (fun t => ok [t.nvLd (jnlAddr 50) 64 = jrec 0 0x12, t.g JNL_HEAD_SEQNO = 50, t.jnl.next = 51,
      t.cmds.map (fun c => (c.jseq, c.opcode)) = [(some 50, 0x12)], sent t = some (4, 0x52, 0, 0, toLe 8 50)])] = true := by decide +kernel

/-- A record of the STANDBY's own comes back with its SEQNO, and takes effect when both members hold it. -/
theorem test_tw_jnl_own : chk { member 2 true [cmdOf 1 []] with jnl := { up.jnl with fwd := some (⟨.done, some 5, doneBody 0 0, []⟩, none) } } (fun s => ok [nbit (mkFrame 0 0x51 1 (jrec 2 1)).queue.toNat 0,
    chk (run (.twJnl (mkFrame 0 0x51 1 (jrec 2 1)) []) s) (fun t => ok [t.jnl.fwd.map (·.2) = some (some 50), t.g JNL_HEAD_SEQNO = 50, sent t = some (4, 0x52, 0, 0, toLe 8 50), t.cmds.length = 1]),
    chk { s with jnl := { s.jnl with fwd := some (⟨.done, some 5, doneBody 0 0, []⟩, some 50) } } (fun s => chk (run (.twJnlAck (fr 0x52 (toLe 8 50))) s) (fun t => ok [
      t.cmds = [], t.jnl.fwd.isNone, (s.cmd? 5).isSome]))]) = true := by decide +kernel

/-- The ACTIVE of a pair, with a record in progress, takes the record that its STANDBY asks it to number. -/
theorem test_tw_jnl_request : chk { tw 1 true with jnl := { (tw 1 true).jnl with next := 42, prog := some ⟨none, none, 41, List.replicate 64 0#8⟩ } } (fun s => ok [s.paired, s.jnl.prog.isSome,
    chk (run (.twJnl (mkFrame 0 0x51 1 (jrec 0 0x12)) []) s) (fun t => ok [t.cmds.map (fun c => (c.opcode, c.own, c.jseq)) = [(0x12, false, none)], t.jnl.due.map (·.kind) = [.accepted]])]) = true := by decide +kernel

/-- The peer's command. -/
def peerCmd (op : Nat) : Cmd := { cmdOf op [] with own := false }

theorem test_tw_jnl_done : chk (member 2 true [peerCmd 1]) (fun s => ok [u (jrec 2 1) 8 1 % 8 = 2, (s.byJseq false (u (jrec 2 1) 0x10 8)).isSome,
    chk (run (.twJnl (fr 0x51 (jrec 2 1)) []) s) (fun t => ok [t.cmds = [], t.g JNL_HEAD_SEQNO = 50])]) = true := by decide +kernel

/-- The ACTIVE of a pair writes record 41 with PAIR. -/
def pairedRec : State :=
  { tw 1 true with jnl := { (tw 1 true).jnl with next := 42, prog := some ⟨none, none, 41, toLe 8 41 ++ [0#8, 2#8] ++ List.replicate 54 0#8⟩ } }

theorem test_paired_commit : ok [pairedRec.progPaired, !pairedRec.progWorn, (run .journalCommit pairedRec).jnl = pairedRec.jnl, pairedRec.jnl.due = [], pairedRec.thm.finalDue.isNone,
    chk (run (.twJnlAck (fr 0x52 (toLe 8 41))) pairedRec) (fun t => ok [t.jnl.prog.isNone, t.g JNL_HEAD_SEQNO = 41, t.nvLd (jnlAddr 41 + 14) 2 = [0x3C#8, 0xC3#8]]),
    (run (.twJnlAck (fr 0x52 (toLe 8 40))) pairedRec).jnl = pairedRec.jnl] = true := by decide +kernel

theorem test_tw_start : chk (member 2 true [peerCmd 1]) (fun s => ok [(s.byJseq false 40).map (·.marked) = some false, (s.cmds.map (·.id)).Nodup, s.maySend 4 8,
    chk (run (.twStart (fr 0x53 (toLe 8 40))) s) (fun t => ok [(t.byJseq false 40).map (·.marked) = some true, sent t = some (4, 0x54, 0, 0, toLe 8 40)]),
    ((run (.twStartAck (fr 0x54 (toLe 8 40))) (member 1 true [cmdOf 1 []])).byJseq true 40).map (·.marked) = some true]) = true := by decide +kernel

theorem test_tw_write : ok [!(tw 1 true).takesMirror, (run (.twWrite (fr 0x55 (toLe 8 (CH_CB_PMIN 31) ++ toLe 8 5))) (tw 1 true)).regs = (tw 1 true).regs, (tw 2 true).takesMirror,
    (run (.twWrite (fr 0x55 (toLe 8 (CH_CB_PMIN 31) ++ toLe 8 5))) (tw 2 true)).g (CH_CB_PMIN_COUNT 31) = 5,
    (run (.twWrite (fr 0x55 (toLe 8 (0x0100000000 + 0xEFFFF8) ++ toLe 8 5))) (tw 2 true)).ld (0x0100000000 + 0xEFFFF8) 8 = toLe 8 5] = true := by decide +kernel

/-- A fail record: type 1, site 63, RSEQ 7. -/
def failB : List Byte := [1#8, 63#8, 0#8, 0#8] ++ toLe 4 7 ++ List.replicate 56 0x11#8

theorem test_tw_write_record : chk (((tw 2 true).pb (CAP_ARM_STATUS_ARMED 31) true).p (CAP_FCM_PTR_WR 31) 131071) (fun s => ok [
    (List.range 32).all (fun j => decide (s.gb (CAP_ARM_STATUS_ARMED j) = decide (j = 31))), s.fcmCap 31 = 131072, u failB 0 1 ≠ 3, u failB 1 1 < 128, failB.length = 64,
    chk (run (.twWrite (fr 0x55 (toLe 8 (0x0101000000 + 131071 * 64) ++ failB))) s) (fun t => ok [t.ld (0x0101000000 + 131071 * 64) 64 = failB, t.g (CAP_FCM_PTR_WR 31) = 131072,
      t.g (CAP_RSEQ_NEXT 31) = 8, t.g (CAP_SITE_STATUS_RECORDS 63) = 1])]) = true := by decide +kernel

/-- TW_POST of a batch of sequencer 31: 2 records from RSEQ 9. -/
def postB : List Byte := [0#8, 0#8, 31#8, 0#8] ++ toLe 2 2 ++ toLe 2 0 ++ toLe 4 9 ++ toLe 4 0 ++ toLe 8 0 ++ List.replicate 8 0#8

theorem test_tw_post : chk ((((tw 2 false).pb (CAP_ARM_STATUS_ARMED 31) true).pb (CAP_ARM_STATUS_HAS_CTX 31) true).p (CAP_FCM_PTR_WR 31) 2) (fun s => ok [s.takesMirror, u postB 2 1 = 31, !nbit (u postB 3 1) 0,
    (s.arm 31).closed = [], (s.arm 31).disarm = [], !s.paired, (s.ctx 0).st ≠ .resetting, s.inboxUsed 0 < 64,
    chk (run (.twPost (fr 0x56 postB)) s) (fun t => ok [(t.arm 31).posted.map (fun b => (b.count, b.rseq, b.spill)) = [(2, 9, false)], t.disp.posts.map (·.1) = [0], t.g (CAP_RSEQ_BATCHES 31) = 1])]) = true := by
  decide +kernel

/-- TW_CKPT of Square 63 in round 4; member 32 (engine 0). -/
def ckB (last : Nat) : List Byte := [63#8, BitVec.ofNat 8 last, 32#8, 0#8] ++ toLe 4 0 ++ toLe 4 4 ++ toLe 4 0 ++ List.replicate 8 0x77#8

theorem test_tw_ckpt : ok [u (ckB 1) 2 1 = 32, (run (.twCkpt (fr 0x57 (ckB 0))) (tw 2 true)).twin.rx = [ckB 0],
    chk (run (.twCkpt (fr 0x57 (ckB 1))) (tw 2 true)) (fun t => ok [t.g TWN_CKPT_SQ = 63, t.gb TWN_CKPT_VALID, t.g TWN_CKPT_ROUND = 4, t.twin.adopted = [(32, List.replicate 8 0x77#8)]])] = true := by
  decide +kernel

theorem test_tw_write_demand : chk (run (.twWrite (fr 0x55 (toLe 8 (CH_CB_PMIN 31) ++ toLe 8 5))) { tw 2 true with regs := ((tw 2 true).p (CLK_ON_ON 1) 0).regs }) (fun t => ok [
    t.g (CH_CB_PMIN_COUNT 31) = 5, t.pwr.demand = [64]]) = true := by decide +kernel

theorem test_tw_hb : (run (.twHb (fr 0x5F (toLe 8 99))) (tw 2 true)).twin.peerHead = 99 := by decide +kernel

theorem test_takeover : ok [(tw 2 false).cmds = [], (tw 2 false).recs = [], (tw 2 false).jnl.due = [], (List.range 32).all (fun k => !(tw 2 false).gb (CAP_ARM_STATUS_HAS_CTX k)),
    (tw 2 false).role = 2, !(tw 2 false).paired, (tw 2 false).inOrder 4 (fr 0x5E []), ((tw 2 false).port 4).txq = [], (tw 2 false).twin.backlog = [], (tw 2 false).twin.detach.isNone, (tw 2 false).jnl.fwd.isNone, (tw 2 false).running] = true := by decide +kernel

theorem test_detached : ok [chk (run (.twDetach (fr 0x59 [])) (tw 2 false)) (fun t => ok [t.role = 3, t.g TWN_STATUS_CAUSE = 4, t.flt.pend = [362]])] = true := by decide +kernel

theorem test_link_timeout : chk (tw 2 false) (fun s => ok [(run .linkTimeout s).role = 2,
    chk (run .linkTimeout { s with twin := { s.twin with peerToggles := true } }) (fun t => ok [t.role = 3, t.g TWN_STATUS_CAUSE = 7])]) = true := by decide +kernel

theorem test_takeover_abandons : chk (member 2 false [runningCmd 5 0x60]) (fun s => ok [s.cmds.map (fun c => (c.jseq.isSome, c.started, c.opcode, c.st)) = [(true, true, 0x60, .running)], s.role = 2, s.jnl.fwd.isNone, s.running,
    !s.paired, (List.range 32).all (fun k => !s.gb (CAP_ARM_STATUS_HAS_CTX k))]) = true := by decide +kernel

theorem test_active_alone : ok [(tw 1 true).paired, (tw 1 true).cmds = [], (tw 1 true).twin.detach.isNone, (tw 1 true).jnl.prog.isNone, (tw 1 true).jnl.due = [],
    chk (run .linkTimeout (tw 1 true)) (fun t => ok [t.role = 1, !t.paired, t.g TWN_STATUS_CAUSE = 7])] = true := by decide +kernel

theorem test_heartbeat : ok [(tw 1 false).beats, (tw 1 false).running, (tw 1 false).portUp 4,
    chk (run .twinHeartbeat (tw 1 false)) (fun t => ok [t.twin.act, t.outs.length = 2, sent t = some (4, 0x5F, 0, 0, toLe 8 0)])] = true := by decide +kernel

theorem test_side_release : chk { (tw 1 false).pb (CH_STATUS_DEN 127) true with twin := { TwinSt.zero with wdog := false, act := true } } (fun s => ok [!s.beats,
    chk (run .sideRelease s) (fun t => ok [t.role = 3, !t.gb TWN_STATUS_SIDE, t.twin.actDead, !t.twin.act, !t.gb (CH_STATUS_DEN 127)])]) = true := by decide +kernel

theorem test_side_release_paired : chk { tw 1 true with twin := { TwinSt.zero with wdog := false } } (fun s => ok [s.paired, !s.beats,
    chk (run .sideRelease s) (fun t => ok [t.role = 3, !t.gb TWN_STATUS_SIDE, !t.paired, t.jnl.stop])]) = true := by decide +kernel

theorem test_peer_toggle : ok [(run .twinPeerToggle (tw 1 false)).flt.pend = [363], (run .twinPeerToggle (tw 2 false)).flt.pend = [], (run .twinPeerToggle (tw 2 false)).gb TWN_STATUS_PEER_HB] = true := by
  decide +kernel

/-- What the Recovery Area holds: one word of sequencer 31. -/
def aRecov : Recov :=
  ⟨true, 0, 0, 0, [], [], [], (Vector.replicate 32 []).set 31 [(0, 5#169)], .replicate 32 none, .replicate 32 (false, false, none), .replicate 16 .zero, .replicate 32 .zero, [], ⟨[], [], [], 0, [], []⟩, [], [], [], .replicate 32 none⟩

/-- A device whose Ward 0 is to be recovered, with nothing to replay. -/
def recovering : State :=
  { ((dram.pb MEM_STATUS_READY true).pb THM_STATUS_BAND_VALID true).st (memBase 0 + dram.raBase) aRecov.seal with cmds := [runningCmd 5 0xA0], recs := [⟨0, some 5, 0, false⟩], ra := some aRecov }

theorem test_recovery : ok [recovering.ticks, recovering.running, recovering.gb MEM_STATUS_READY, recovering.gb THM_STATUS_BAND_VALID, recovering.cmdOpen 5, recovering.units = [], recovering.ctxs = [],
    regsOf shadowName recovering.regs = [], !recovering.out, recovering.ecc = [], recovering.firstBad recovering.raBase 24 = none,
    (recovering.busRead 0x08 (memBase 0 + recovering.raBase) 24).2.1 = aRecov.seal, aRecov.sealOk, regsOf armName recovering.regs = [],
    chk (run .recoveryRestore recovering) (fun t => ok [(t.seq 31).cs = [(0, 5#169)], t.recs = [], endedB t 5 0 0])] = true ∧ ∀ k, (recovering.seq k).wait = none :=
  ⟨by decide +kernel, getD_all (fun x : Seq => x.wait = none) recovering.seqs.toList .zero (by decide +kernel) rfl⟩

/-- Sequencer 3 waits for the release instant of its replay. -/
def replaying : State := (seqIn .beat).modSeq 3 (fun x => { x with st := .wait, wait := some ⟨replaySq, 0, 1250, 0, some 9000, none, 0⟩ })

theorem test_replay_release : ok [replaying.ticks, replaying.recs = [], !(replaying.seq 3).pendStop, !(replaying.seq 3).pendPause,
    chk (run .replayRelease replaying) (fun t => ok [(t.seq 3).wait.isNone, (t.seq 3).st = .beat, (t.seq 3).tEnd = some 9000])] = true ∧
    ∀ j, ((replaying.seq j).wait.map (·.sq) = some replaySq ↔ j = 3) := by
  refine ⟨by decide +kernel, fun j => ?_⟩
  by_cases h : j < 32
  · revert h
    revert j
    decide +kernel
  · have : replaying.seqs.toList.length ≤ j := by simpa using Nat.le_of_not_lt h
    have e : replaying.seq j = Seq.zero := by
      unfold State.seq
      rw [List.getD_eq_default _ _ this]
    rw [e]
    constructor
    · intro x; cases x
    · omega

/-! ### Power, resets, start-up -/

theorem test_power_on : chk { (seqIn .beat) with nvm := [(9, 9#8)], mem := [(5, 5#8)] } (fun s => ok [chk (run .powerOn s) (fun t => ok [t.nvm = [(9, 9#8)], t.mem = [], t.regs = [], (t.seq 3).st = .idle]),
    chk (run .lossOfPower s) (fun t => ok [t.nvm = [(9, 9#8)], t.regs = [], t.cmds = []])]) = true := by decide +kernel

theorem test_reset_low : chk ((seqIn .beat).pb (CH_STATUS_DEN 127) true) (fun s => ok [s.pwr.resetN, s.pwr.inReset.isNone, !(s.fabricRuns && s.gb MEM_STATUS_READY),
    chk (run .resetNLow s) (fun t => ok [t.pwr.inReset = some 1, !t.pwr.resetN, t.jnl.stop, !t.gb (CH_STATUS_DEN 127), !t.bursting 3, t.ra.isNone, !t.twin.act])]) = true := by decide +kernel

theorem test_reset_low_again : chk { own with pwr := { own.pwr with inReset := some 2 } } (fun s => ok [chk (run .resetNLow s) (fun t => ok [t.pwr.inReset = some 1, !t.pwr.resetN]),
    (run .resetNLow { s with pwr := { s.pwr with t0 := 9 } }).pwr.inReset = some 2, chk { s with pwr := { s.pwr with resetN := false } } (fun s => (run .resetNLow s).pwr = s.pwr)]) = true := by
  decide +kernel

theorem test_rst_ctrl_chip : ok [(sealed.ward 0).enable, sealed.pwr.inReset.isNone, sealed.canonical, (run (.rstCtrlChip (.ward 0)) sealed).pwr.inReset = some 3,
    !sealed.pwr.gatedAll, !sealed.thm.shutdown, (run (.rstCtrlChip (.ward 0)) { sealed with thm := { sealed.thm with shutdown := true } }).pwr = sealed.pwr,
    (run (.rstCtrlChip (.ward 1)) two).pwr.inReset.isNone] = true := by decide +kernel

theorem test_reset_seals : chk (dram.pb MEM_STATUS_READY true) (fun s => ok [s.fabricRuns, (run .resetNLow s).ra.isSome, (run .resetNLow s).ld (memBase 0 + s.raBase) 24 = s.recovSnap.seal, (run .resetNLow s).ld (memBase 0 + s.raBase + 24) 8 = List.replicate 8 0#8]) = true := by decide +kernel

/-- A chip reset of cause 3 in progress. -/
def inReset : State := { (own.p RST_STATUS_PHASE 5).st 0x0100000000 [7#8] with pwr := { own.pwr with inReset := some 3 } }

theorem test_reset_internal : ok [inReset.jnl.prog.isNone, chk (run .chipResetInternal inReset) (fun t => ok [t.pwr.inReset.isNone, t.g RST_STATUS_CAUSE = 3, t.g RST_STATUS_PHASE = 0, t.g RST_STATUS_CHIP_RESETS = 1,
    t.ldB 0x0100000000 = 7#8, t.plan.sealed, t.g (DRC_STATUS_STATE 0) = 0]),
    chk { dram.st 0x1000000000 [7#8] with pwr := { own.pwr with inReset := some 3, selfRef := true } } (fun s => ok [s.keptCh 3,
      chk (run .chipResetInternal s) (fun t => ok [t.ldB 0x1000000000 = 7#8, t.g (DRC_STATUS_STATE 3) = 3])]),
    chk (inReset.p JNL_PLAN_STATUS_STAGE 3) (fun s => (run .chipResetInternal s).store.stage = 1),
    chk { committing .done with pwr := { own.pwr with inReset := some 3 } } (fun s => ok [s.jnl.prog.isSome, !s.progPaired, (run .chipResetInternal s).pwr.inReset = some 3])] = true := by decide +kernel

theorem test_reset_rise : chk { own with pwr := { own.pwr with resetN := false, waitRise := true } } (fun s => ok [chk (run (.resetNRise ⟨true, true⟩) s) (fun t => ok [t.pwr.romBad, t.pwr.tA = s.flt.tick, t.gb RST_STATUS_BOOT_SEL, t.pwr.resetN, !t.pwr.waitRise]),
    !(run (.resetNRise ⟨true, false⟩) own).gb RST_STATUS_BOOT_SEL]) = true := by decide +kernel

theorem test_unit_ps : chk ((own.modSeq 31 (fun x => { x with st := .fault, cs := [(0, 5#169)], arch := { x.arch with pc := 9 } })).p (PS_BURST_END_CAUSE 31) 4) (fun s => ok [s.seqWard 31 = some 0, s.psQuiet 31,
    chk (run (.rstUnitPs (.ward 0) (BitVec.ofNat 64 (2 ^ 31))) s) (fun t => ok [(t.seq 31).st = .idle, (t.seq 31).cs = [(0, 5#169)], (t.seq 31).arch.pc = 0, t.g (PS_BURST_END_CAUSE 31) = 0, nbit (t.g RST_UNIT_PS_PS) 31]),
    !(seqIn .beat).psQuiet 3, ((run (.rstUnitPs (.ward 0) 8#64) (seqIn .beat)).seq 3).st = .beat]) = true := by decide +kernel

theorem test_unit_cb : chk ((own.modCh 127 (fun x => { x with lastDrive := some 9 })).p (CH_CB_STATUS_STATE 31) 3) (fun s => ok [s.cbWard 31 = some 0, s.cbQuiet 31,
    chk (run (.rstUnitCb (.ward 0) (BitVec.ofNat 64 (2 ^ 31))) s) (fun t => ok [t.ch 127 = Chan.zero, t.g (CH_CB_STATUS_STATE 31) = 0])]) = true := by decide +kernel

theorem test_unit_vs : ok [(bound 6).vsWard 15 = some 0, (bound 6).vsQuiet 15,
    chk (run (.rstUnitVs (.ward 0) 0x8000#64) (bound 6)) (fun t => ok [t.g (VS_STATUS_STATE 15) = 0, !t.gb (VS_STATUS_BOUND 15)])] = true := by decide +kernel

theorem test_unit_ac : chk (own.modCore 47 (fun c => { c with cycles := 9 })) (fun s => ok [s.coreWard 47 = some 0, s.acQuiet 47,
    ((run (.rstUnitAc (.ward 0) (BitVec.ofNat 64 (2 ^ 47))) s).core 47).cycles = 0, ((run (.rstUnitTimeout 3 47) (s.p (rstUnitField 3) (2 ^ 47)))).flt.pend = [394], ((run (.rstUnitTimeout 3 46) (s.p (rstUnitField 3) (2 ^ 47)))).flt.pend = [], ((run .porterWatchdogExpired s)).flt.pend = [360]]) = true := by decide +kernel

/-- A device in this phase of start-up. -/
def phase (n : Nat) : State := { up.p RST_STATUS_PHASE n with jnl := Jnl.zero }

theorem test_startup_pll : chk { (phase 0).pb TB_STATUS_REFCLK true with pwr := { up.pwr with gatedAll := true } } (fun s => ok [s.inPhase 0, s.gb TB_STATUS_REFCLK,
    chk (run .startupPll s) (fun t => ok [t.g RST_STATUS_PHASE = 1, !t.pwr.gatedAll, t.g CLK_PLL_STATUS_SLEEP = 0x4C]),
    (run .startupPll (s.pb TB_STATUS_REFCLK false)).g RST_STATUS_PHASE = 0, (run .startupPll (phase 2)).g RST_STATUS_PHASE = 2]) = true := by decide +kernel

theorem test_startup_boot : chk (((phase 1).p CLK_PLL_STATUS_LOCK 0xB3).modSeq 31 (fun x => { x with cs := [(0x900, 5#169)] })) (fun s => ok [s.inPhase 1, [0, 1, 4, 5, 7].all (fun p => s.locked p),
    chk (run .startupBoot s) (fun t => ok [t.g RST_STATUS_PHASE = 2, (t.seq 31).cs = [], t.domOn 129]),
    chk (run .startupBoot { s with pwr := { s.pwr with romBad := true } }) (fun t => ok [t.g RST_STATUS_PHASE = 2, t.gb FLT_STATUS_OUT, t.flt.pend = [395], !t.inPhase 2])]) = true := by decide +kernel

theorem test_startup_restore : ok [(phase 2).inPhase 2, (List.range 4).all (fun d => decide ((phase 2).g (DRC_STATUS_STATE d) ≠ 3)), (phase 2).jnl.stop, (phase 2).nvm = [],
    chk (run (.startupRestore []) ((phase 2).pb RST_STATUS_BOOT_SEL true)) (fun t => ok [t.g RST_STATUS_PHASE = 3, !t.plan.sealed, t.jnl.next = 0]),
    chk (run (.startupRestore [⟨3, .single⟩, ⟨(jnlAddr 0 + 8) / 8, .multi⟩, ⟨7, .worn⟩]) (phase 2)) (fun t => ok [t.g RST_STATUS_PHASE = 3, !t.plan.sealed,
      t.nvmEcc = [(3, .single), ((jnlAddr 0 + 8) / 8, .multi)], t.store.worn = [7], t.flt.pend = [354]])] = true := by decide +kernel

/-- A header of zeros with its HDR_CRC in slot A, sealed. -/
def crcOnly : State :=
  { phase 2 with nvm := [(0x7C, BitVec.ofNat 8 (crc32c (List.replicate 124 0#8))), (0x7D, BitVec.ofNat 8 (crc32c (List.replicate 124 0#8) / 256)),
      (0x7E, BitVec.ofNat 8 (crc32c (List.replicate 124 0#8) / 65536)), (0x7F, BitVec.ofNat 8 (crc32c (List.replicate 124 0#8) / 16777216))], store := { PlanStore.zero with desc := ⟨false, true, false, false⟩ } }

set_option maxRecDepth 100000 in
theorem test_restore_check : ok [crcOnly.inPhase 2, !crcOnly.gb RST_STATUS_BOOT_SEL, crcOnly.store.desc = ⟨false, true, false, false⟩, (crcOnly.restoreCheck (slotBase false)).isNone, !(crcOnly.nvAge []).rowsBad,
    (crcOnly.nvAge [⟨descRow 0 / 8, .multi⟩]).rowsBad] = true := by
  decide +kernel

theorem test_restore_fails : chk { crcOnly with nvm := [] } (fun s => ok [(s.restoreCheck (slotBase false)).isSome,
    chk (run (.startupRestore []) s) (fun t => ok [!t.plan.sealed, t.gb JNL_PLAN_STATUS_RESTORE_FAIL, t.g JNL_PLAN_STATUS_CODE = 0x20, t.flt.pend = [352]])]) = true := by
  decide +kernel

theorem test_twin_role : chk { phase 3 with plan := { own.plan with twinMode := 1 } } (fun s => ok [s.inPhase 3, !s.twin.decided,
    chk (run (.twinRoleDecision true) s) (fun t => ok [t.role = 3, t.twin.decided, t.g TWN_STATUS_CAUSE = 1]),
    chk (run (.twinRoleDecision false) s) (fun t => ok [t.role = 1, t.gb TWN_STATUS_SIDE])]) = true := by decide +kernel

theorem test_startup_ports : chk { (phase 3) with jnl := { Jnl.zero with stop := false }, thm := { Thm.zero with seen := 255 } } (fun s => ok [s.inPhase 3, s.sensorsRead, s.cal.run.isNone,
    !(phase 3).sensorsRead, (run .startupPorts (phase 3)).g RST_STATUS_PHASE = 3, s.plan.twinMode = 0, s.pwr.scanOpen = [], s.ra.isNone, s.ticks,
    (List.range 4).all (fun d => decide (s.g (DRC_STATUS_STATE d) ≠ 1)),
    chk (run .startupPorts s) (fun t => ok [t.g RST_STATUS_PHASE = 4, t.g (LN_GRP_STATUS_STATE 0) = 1, (recsOf t).any (fun d => decide (d.kind = .boot))])]) = true := by decide +kernel

theorem test_startup_run : ok [(phase 4).inPhase 4, (phase 4).jnl.prog.isNone, (phase 4).g JNL_STATUS_DECISION ≠ 1, ((phase 4).wst 0).evq.length < 4090, ((phase 4).wst 0).lost = 0, (List.range 4).all (fun p => decide (((phase 4).port p).early = [])),
    chk (run .startupRun { phase 4 with flt := { FltSt.zero with tick := 3000 }, pwr := { (phase 4).pwr with tA := 29 } }) (fun t => ok [t.g RST_STATUS_PHASE = 5, t.g RST_STATUS_BOOT_TIME = 99])] = true := by
  decide +kernel

theorem test_pll : chk (own.p CLK_PLL_STATUS_LOCK 1) (fun s => ok [s.clocked, !s.asleep 7, !s.locked 7, s.locked 0, (run (.pllLock 7) s).locked 7, (run (.pllLock 7) s).domOn 142,
    chk (run (.pllLossOfLock 0) (s.pb TB_STATUS_REFCLK true)) (fun t => ok [!t.locked 0, t.pwr.stopped.contains 131, !t.domOn 131, t.flt.pend.contains 384])]) = true := by decide +kernel

/-- Domain 3 is off and something waits for it. -/
def waiting3 : State := { ((own.p (CLK_ON_ON 0) 6).p (CLK_EN_EN 0) 4).p CLK_PLL_STATUS_LOCK 2 with pwr := { own.pwr with demand := [3] } }

theorem test_gate : chk waiting3 (fun s => ok [s.mayGate 1, !(run (.clkIdleGate 1) s).domOn 1, (run (.clkIdleGate 1) s).domOn 2,
    !s.mayGate 3, (run (.clkIdleGate 3) s).domOn 2, s.wanted 3, !s.domOn 3, s.clocked, !s.asleep (domPll 3), s.locked (domPll 3), s.pwr.stopped = [],
    chk (run (.domainWake 3) s) (fun t => ok [t.domOn 3, t.pwr.demand = []]), !s.wanted 4, !(run (.domainWake 4) s).domOn 4, (run (.clkWake 4) s).flt.pend = []]) = true := by decide +kernel

theorem test_clk_wake : chk waiting3 (fun s => ok [!s.bursting 2, nbit (s.g (FLT_GRP_REAL_REAL 12)) 8 = false, s.domWard 3 = some 0,
    chk (run (.clkWake 3) s) (fun t => ok [t.flt.pend = [392], t.pwr.demand = [], (t.wst 0).evq.map (·.code) = [0x0E02],
      chk { t with pwr := s.pwr } (fun s => (run (.clkWake 3) s).wards = t.wards),
      (run (.clkWake 3) (s.p (FLT_GRP_REAL_REAL 12) 256)).wards = s.wards])]) = true := by decide +kernel

/-- The clock of sequencer 3 is off with a burst in it. -/
theorem test_clk_wake_burst : chk { ((seqIn .beat).modSeq 3 (fun x => { x with burst := x.burst.map (fun b => { b with cmd := some 5 }) })).p (CLK_ON_ON 0) 0 with cmds := [runningCmd 5 0x10], pwr := { own.pwr with demand := [4] } } (fun s => ok [s.wanted 4, !s.domOn 4, s.clocked, s.bursting 3,
    (s.seq 3).burst.bind (·.cmd) = some 5, s.cmdOpen 5, chk (run (.clkWake 4) s) (fun t => ok [t.flt.pend.contains 392, endedB t 5 6 0, !t.bursting 3])]) = true := by decide +kernel

/-- PLL2 sleeps, and a core's domain is wanted. -/
theorem test_wake_pll2 : chk { (own.p (CLK_ON_ON 1) 0).p CLK_PLL_STATUS_SLEEP 4 with pwr := { own.pwr with demand := [81] } } (fun s => ok [s.wanted 81, !s.domOn 81, s.clocked, s.asleep 2, domPll 81 = 2,
    chk (run (.domainWake 81) s) (fun t => ok [!t.asleep 2, !t.domOn 81])]) = true := by decide +kernel

/-! ### The step, reset, the canonical form -/

theorem test_queue : ok [(run .journalCommit State.reset).pending = [], State.reset.canonical, State.reset.rd RST_IDENT ≠ 0#64] = true ∧
    step { State.reset with pending := [.tapReset, .powerOn] } = exec .tapReset { State.reset with pending := [.powerOn] } ∧ step State.reset = .next State.reset :=
  ⟨by decide +kernel, rfl, rfl⟩

theorem test_canonical : ok [(own.st 0x0100000000 [7#8, 0#8, 9#8]).canonical, ((own.st 0x0100000000 [7#8, 0#8, 9#8]).st 0x0100000000 [0#8]).mem = [(0x0100000002, 9#8)],
    !{ own with mem := [(5, 0#8)] }.canonical, !{ own with mem := [(5, 1#8), (4, 1#8)] }.canonical] = true := by decide +kernel

/-- Every check of WellFormed refuses a command that breaks it alone. -/
theorem test_well_formed : ok ([(.regRd 0 (fr 2 [])), .regRd 0 (fr 1 [0#8]), .regRd 0 (fr 1 (List.replicate 2056 0#8)), .regWr 0 (fr 1 []), .registerWrite (.ward 0) 4#32 0#64, .memRd 0 (fr 1 []), .memWr 0 (fr 1 []),
      .fcpXfer 0 (fr 1 []), .fcpTransferDone 0 (List.replicate 257 0#8), .cmd 0 (fr 1 []), .unknownFrame 0 (fr 1 []), .unknownFrame 4 (fr 0x50 []), .unknownFrame 5 (fr 0x43 []), .unknownFrame 6 (fr 0xC1 []),
      .unknownFrame 0 (fr 0x7F [0#8]), .nak 0 (fr 0xC1 []), .nak 0 (fr 0xC0 (toLe 8 0)), .credit 0 (fr 0xC0 []), .credit 0 (fr 0xC1 (toLe 8 0)), .drcTrainingDone 0 8 0#64 (List.replicate 40 0#64), .drcTrainingDone 0 7 0#64 [],
      .cap 0 ⟨[], false⟩, .narrow 0 ⟨[], false⟩, .widen 0 ⟨[], false⟩, .lnTestMode (.ward 0) 0 4, .eyeScanDone 0 [], .sync false (fr 0x41 []) 0, .followUp false (fr 0x41 []), .delayReq false (fr 0x41 []) 0, .delayResp false (fr 0x41 []),
      .sqJoin false (fr 0x40 []), .sqArrive false (fr 0x40 []), .sqRelease false (fr 0x40 []), .adcConversionDone ⟨0, [2048], 0, 0, [], [], [], false⟩, .acqSample 0 (-2049) false, .twHello (fr 1 []), .twJnl (fr 1 (List.replicate 64 0#8)) [],
      .twJnl (fr 0x51 []) [], .twJnlAck (fr 1 []), .twStart (fr 1 []), .twStartAck (fr 1 []), .twWrite (fr 1 []), .twPost (fr 1 []), .twCkpt (fr 1 []), .twHandoff (fr 1 []), .twDetach (fr 1 []), .twRelease (fr 1 []), .twHb (fr 1 []),
      .rstUnitTimeout 0 32, .rstUnitTimeout 2 16, .rstUnitTimeout 3 48, .clkIdleGate 143, .domainWake 143, .clkWake 143, .timEdge ⟨0, 4⟩ true 0, .prbsSyncLost 0 [] []].map (fun i => !Instr.wf i)) = true := by
  decide +kernel

theorem test_well_formed_accepts : ok ([(.regRd 0 (fr 1 (toLe 8 0 ++ toLe 8 1))), .twJnl (fr 0x51 (List.replicate 64 0#8)) [], .unknownFrame 0 (fr 0x7F []), .clkWake 142, .rstUnitTimeout 3 47, .acqSample 0 2047 false].map Instr.wf) = true := by
  decide +kernel

end Sys2Proof.Tests
end

section
/-! SUPPORT. What a host's register write does (R9, R49, R52, R62, R71): the fields of a register lie apart, so each keeps or takes its
own value; a write of a plain register stores that word and nothing else; REG_WR answers with the status of the store. -/

namespace Sys2Proof.Machine

/-! ### Masks and byte strings -/

theorem maskOf_testBit (n : Nat) (f : Nat → Bool) (i : Nat) : (maskOf n f).testBit i = (decide (i < n) && f i) := by
  induction n with
  | zero => simp [maskOf]
  | succ n ih =>
    have step : maskOf (n + 1) f = if f n then maskOf n f ||| (1 <<< n) else maskOf n f := by
      simp [maskOf, List.range_succ]
    rw [step]
    by_cases hi : i = n
    · subst hi
      cases hf : f i <;> simp [ih, hf, Nat.one_shiftLeft]
    · have hlt : i < n + 1 ↔ i < n := by omega
      have hne : ¬ n = i := fun e => hi e.symm
      have hbit : (2 ^ n).testBit i = false := by simp [hne]
      split <;> simp [ih, hlt, Nat.one_shiftLeft, hbit]

/-- The bits of a field, one by one, are the field. -/
theorem maskOf_nbit (v : Word) (hi lo : Nat) : maskOf (hi + 1 - lo) (fun b => nbit v.toNat (lo + b)) = getBits v hi lo :=
  Nat.eq_of_testBit_eq fun i => by rw [maskOf_testBit, getBits_testBit]; rfl

theorem getBits_lt (w : Word) (hi lo : Nat) : getBits w hi lo < 2 ^ (hi + 1 - lo) := Nat.mod_lt _ (Nat.two_pow_pos _)

@[simp] theorem toLe_length (n v : Nat) : (toLe n v).length = n := by
  induction n generalizing v with
  | zero => rfl
  | succ n ih => simp [toLe, ih]

theorem leNat_toLe (n v : Nat) : leNat (toLe n v) = v % 256 ^ n := by
  induction n generalizing v with
  | zero => simp [toLe, leNat, Nat.mod_one]
  | succ n ih =>
    have hsplit : v % 256 ^ (n + 1) = v % 256 + 256 * (v / 256 % 256 ^ n) := by rw [Nat.pow_succ', Nat.mod_mul]
    rw [toLe, leNat, ih, BitVec.toNat_ofNat, hsplit]

/-- The bytes in the middle of a string. -/
theorem sub_middle (l m r : List Byte) : sub (l ++ m ++ r) l.length m.length = m := by
  simp [sub]

/-- A number of `n` bytes in the middle of a string. -/
theorem u_toLe (l r : List Byte) (n v : Nat) : u (l ++ toLe n v ++ r) l.length n = v % 256 ^ n := by
  have h := sub_middle l (toLe n v) r
  rw [toLe_length] at h
  rw [u, h, leNat_toLe]

/-! ### The fields of a register lie apart -/

/-- Every field lies in the 64 bits of its register, and no two share a bit. -/
abbrev fieldsApart (l : List Fld) : Prop :=
  (∀ f ∈ l, f.lo ≤ f.hi ∧ f.hi < 64) ∧ l.Pairwise (fun f g => f.hi < g.lo ∨ g.hi < f.lo)

theorem blockRegs_fieldsApart (b : Nat) : ∀ d ∈ blockRegs b, fieldsApart d.flds := by
  unfold blockRegs
  split <;> decide

theorem mem_of_findReg {l : List RegDesc} {a : Nat} {d : RegDesc} {ix : List Nat} (h : findReg l a = some (d, ix)) : d ∈ l := by
  induction l with
  | nil => simp [findReg] at h
  | cons e t ih =>
    simp only [findReg] at h
    split at h
    · split at h
      · cases h; exact List.mem_cons_self
      · exact List.mem_cons_of_mem _ (ih h)
    · exact List.mem_cons_of_mem _ (ih h)

theorem fieldsApart_of_regAt {a : Nat} {d : RegDesc} {ix : List Nat} (h : regAt a = some (d, ix)) : fieldsApart d.flds :=
  blockRegs_fieldsApart _ d (mem_of_findReg h)

/-! ### Fields put into a word -/

/-- The fields of `l` put into a word one after the other, with their values and plan-lock marks `r`. -/
def putFields (r : Fld → Nat × Bool) (l : List Fld) (p : Word × Bool) : Word × Bool :=
  l.foldl (fun p f => (setBits p.1 f.hi f.lo (r f).1, p.2 || (r f).2)) p

theorem State.fieldsWrite_eq (s : State) (d : RegDesc) (ix : List Nat) (own : Nat → Bool) (old v : Word) :
    s.fieldsWrite d ix own old v = putFields (s.fieldWrite d ix own old v) d.flds (old, false) := rfl

theorem getBits_putFields_of_apart (r : Fld → Nat × Bool) {l : List Fld} (p : Word × Bool) {g : Fld} (hg : g.hi < 64)
    (hl : ∀ f ∈ l, f.lo ≤ f.hi ∧ f.hi < 64) (h : ∀ f ∈ l, f.hi < g.lo ∨ g.hi < f.lo) :
    getBits (putFields r l p).1 g.hi g.lo = getBits p.1 g.hi g.lo := by
  induction l generalizing p with
  | nil => rfl
  | cons f t ih =>
    rw [List.forall_mem_cons] at hl h
    obtain ⟨⟨hf, hf'⟩, ht⟩ := hl
    exact (ih _ ht h.2).trans (getBits_setBits_ne _ _ _ _ _ _ hf' hf hg h.1)

/-- A field reads as the value put into it: what comes after lies apart. -/
theorem getBits_putFields_of_mem (r : Fld → Nat × Bool) {l : List Fld} (p : Word × Bool) {g : Fld} (hl : fieldsApart l) (hg : g ∈ l) :
    getBits (putFields r l p).1 g.hi g.lo = (r g).1 % 2 ^ (g.hi + 1 - g.lo) := by
  obtain ⟨hw, hp⟩ := hl
  induction l generalizing p with
  | nil => cases hg
  | cons f t ih =>
    rw [List.forall_mem_cons] at hw
    rw [List.pairwise_cons] at hp
    rcases List.mem_cons.1 hg with rfl | hg
    · have hput := getBits_putFields_of_apart r (setBits p.1 g.hi g.lo (r g).1, p.2 || (r g).2) hw.1.2 hw.2
        (fun f hf => (hp.1 f hf).symm)
      exact hput.trans (getBits_setBits _ _ _ _ hw.1.2 hw.1.1)
    · exact ih _ hg hw.2 hp.2

theorem putFields_unlocked (r : Fld → Nat × Bool) {l : List Fld} (w : Word) (h : ∀ f ∈ l, (r f).2 = false) :
    (putFields r l (w, false)).2 = false := by
  induction l generalizing w with
  | nil => rfl
  | cons f t ih =>
    rw [List.forall_mem_cons] at h
    simp only [putFields, List.foldl_cons, h.1, Bool.or_self]
    exact ih _ h.2

/-! ### One field under a write by the owner of all its bits -/

section
variable (s : State) (d : RegDesc) (ix : List Nat) (old v : Word) (f : Fld)

theorem State.fieldWrite_rw (h : f.acc = .rw) : (s.fieldWrite d ix (fun _ => true) old v f).1 =
    if s.fieldFits d f (getBits v f.hi f.lo) = true then getBits v f.hi f.lo else getBits old f.hi f.lo := by
  simp only [State.fieldWrite, h, if_true, maskOf_nbit]

theorem State.fieldWrite_ro (own : Nat → Bool) (h : f.acc = .ro) :
    (s.fieldWrite d ix own old v f).1 = getBits old f.hi f.lo := by
  simp only [State.fieldWrite, h]

theorem State.fieldWrite_rwp_sealed (own : Nat → Bool) (h : f.acc = .rwp) (hs : s.plan.sealed = true) :
    (s.fieldWrite d ix own old v f).1 = getBits old f.hi f.lo := by
  simp only [State.fieldWrite, h, hs, if_true]
  split <;> rfl

theorem State.fieldWrite_unlocked (own : Nat → Bool) (h : f.acc ≠ .rwp) : (s.fieldWrite d ix own old v f).2 = false := by
  unfold State.fieldWrite
  cases hacc : f.acc with
  | rwp => exact absurd hacc h
  | _ => rfl

end

/-! ### The demand for the clock -/

theorem State.touch_eq (s : State) (a : Nat) : ∃ l, s.touch a = { s with pwr := { s.pwr with demand := l } } := by
  unfold State.touch State.demand
  split
  · split
    · exact ⟨_, rfl⟩
    · exact ⟨_, rfl⟩
  · exact ⟨_, rfl⟩

@[simp] theorem State.touch_regs (s : State) (a : Nat) : (s.touch a).regs = s.regs := by
  obtain ⟨l, h⟩ := s.touch_eq a
  rw [h]

@[simp] theorem State.touch_outs (s : State) (a : Nat) : (s.touch a).outs = s.outs := by
  obtain ⟨l, h⟩ := s.touch_eq a
  rw [h]

@[simp] theorem State.touch_twin (s : State) (a : Nat) : (s.touch a).twin = s.twin := by
  obtain ⟨l, h⟩ := s.touch_eq a
  rw [h]

@[simp] theorem State.rd_touch (s : State) (a b : Nat) : (s.touch a).rd b = s.rd b := State.rd_congr (s.touch_regs a) b

@[simp] theorem State.g_touch (s : State) (a : Nat) (f : FRef) : (s.touch a).g f = s.g f := State.g_congr (s.touch_regs a) f

theorem State.writeBusy_touch (s : State) (a : Nat) (d : RegDesc) (ix : List Nat) (v : Word) :
    (s.touch a).writeBusy d ix v = s.writeBusy d ix v := by
  obtain ⟨l, h⟩ := s.touch_eq a
  rw [h]; rfl

theorem State.fieldsWrite_touch (s : State) (a : Nat) (d : RegDesc) (ix : List Nat) (own : Nat → Bool) (old v : Word) :
    (s.touch a).fieldsWrite d ix own old v = s.fieldsWrite d ix own old v := by
  obtain ⟨l, h⟩ := s.touch_eq a
  rw [h]; rfl

/-- A demand for a clock keeps no frame from leaving. -/
theorem State.maySend_touch (s : State) (a p n : Nat) : (s.touch a).maySend p n = s.maySend p n := by
  obtain ⟨l, h⟩ := s.touch_eq a
  rw [h]; rfl

/-! ### The word that a plain write stores -/

/-- The word that a write of `v` leaves in the register at `a`, by a writer that owns all its bits. -/
def State.storedWord (s : State) (d : RegDesc) (ix : List Nat) (a : Nat) (v : Word) : Word :=
  (s.fieldsWrite d ix (fun _ => true) (s.rd a) v).1

/-- The state after a write that stores the word and does nothing else. -/
def State.storeWord (s : State) (d : RegDesc) (ix : List Nat) (a : Nat) (v : Word) : State :=
  (s.touch a).wr a (s.storedWord d ix a v)

section
variable (s : State) {d : RegDesc} {ix : List Nat} {a : Nat} (v : Word)

@[simp] theorem State.rd_storeWord_self : (s.storeWord d ix a v).rd a = s.storedWord d ix a v := State.rd_wr_self _ _ _

theorem State.rd_storeWord_ne {b : Nat} (h : b ≠ a) : (s.storeWord d ix a v).rd b = s.rd b :=
  (State.rd_wr_ne _ _ h).trans (s.rd_touch a b)

theorem State.getBits_storedWord (hr : regAt a = some (d, ix)) {f : Fld} (hf : f ∈ d.flds) :
    getBits (s.storedWord d ix a v) f.hi f.lo =
      (s.fieldWrite d ix (fun _ => true) (s.rd a) v f).1 % 2 ^ (f.hi + 1 - f.lo) :=
  getBits_putFields_of_mem _ _ (fieldsApart_of_regAt hr) hf

/-- R9: an RW field takes the bits written where it may hold them, and else keeps its value. -/
theorem State.getBits_storedWord_rw (hr : regAt a = some (d, ix)) {f : Fld} (hf : f ∈ d.flds) (h : f.acc = .rw) :
    getBits (s.storedWord d ix a v) f.hi f.lo =
      if s.fieldFits d f (getBits v f.hi f.lo) = true then getBits v f.hi f.lo else getBits (s.rd a) f.hi f.lo := by
  rw [s.getBits_storedWord v hr hf, s.fieldWrite_rw d ix _ v f h]
  split <;> exact Nat.mod_eq_of_lt (getBits_lt _ _ _)

theorem State.getBits_storedWord_ro (hr : regAt a = some (d, ix)) {f : Fld} (hf : f ∈ d.flds) (h : f.acc = .ro) :
    getBits (s.storedWord d ix a v) f.hi f.lo = getBits (s.rd a) f.hi f.lo := by
  rw [s.getBits_storedWord v hr hf, s.fieldWrite_ro d ix _ v f _ h]
  exact Nat.mod_eq_of_lt (getBits_lt _ _ _)

/-- R10: the plan lock keeps an RWP field. -/
theorem State.getBits_storedWord_rwp (hr : regAt a = some (d, ix)) {f : Fld} (hf : f ∈ d.flds) (h : f.acc = .rwp)
    (hs : s.plan.sealed = true) : getBits (s.storedWord d ix a v) f.hi f.lo = getBits (s.rd a) f.hi f.lo := by
  rw [s.getBits_storedWord v hr hf, s.fieldWrite_rwp_sealed d ix _ v f _ h hs]
  exact Nat.mod_eq_of_lt (getBits_lt _ _ _)

/-! ### Fields that no write changes -/

/-- The field is RO in the register at its address. -/
abbrev roField (f : FRef) : Prop := ∀ x ∈ regAt f.addr, ∃ g ∈ x.1.flds, g.acc = .ro ∧ g.hi = f.hi ∧ g.lo = f.lo

theorem State.g_storeWord_ro (hr : regAt a = some (d, ix)) {f : FRef} (hf : roField f) : (s.storeWord d ix a v).g f = s.g f := by
  unfold State.g
  by_cases h : f.addr = a
  · subst h
    obtain ⟨g, hg, hacc, hhi, hlo⟩ := hf (d, ix) hr
    rw [State.rd_storeWord_self, ← hhi, ← hlo]
    exact s.getBits_storedWord_ro v hr hg hacc
  · rw [s.rd_storeWord_ne v h]

theorem State.paired_storeWord (hr : regAt a = some (d, ix)) : (s.storeWord d ix a v).paired = s.paired := by
  have hrole : roField TWN_STATUS_ROLE := by decide
  have hpair : roField TWN_STATUS_PAIRED := by decide
  unfold State.paired State.role State.gb
  rw [s.g_storeWord_ro v hr hrole, s.g_storeWord_ro v hr hpair]

theorem State.maySend_storeWord (hr : regAt a = some (d, ix)) (p : Fin 4) (n : Nat) :
    (s.storeWord d ix a v).maySend p.val n = s.maySend p.val n := by
  have hstate : ∀ p : Fin 4, roField (LN_GRP_STATUS_STATE p.val) := by decide
  have hup : (s.storeWord d ix a v).portUp p.val = (s.touch a).portUp p.val := by
    unfold State.portUp
    rw [s.g_storeWord_ro v hr (hstate p), s.g_touch]; rfl
  rw [← s.maySend_touch a]
  unfold State.maySend
  rw [hup]; rfl

end

/-! ### Stores of a Ward -/

section
variable {s : State} {w : Fin 4} {d : RegDesc} {ix : List Nat} {a : Nat} {v : Word}

/-- Outside a pair nothing is mirrored (R348). -/
theorem State.mirror_unpaired {t : State} (hp : t.paired = false) (hc : t.twin.copying = false) (ty : Nat) (b : List Byte) :
    t.mirror ty b = t := by
  unfold State.mirror
  simp [hp, hc]

theorem State.masterWard_of_regCheck {b : Bool} (h : s.regCheck (.ward w) b a = 0) : s.masterWard (.ward w) = some w.val := by
  cases he : (s.ward w.val).enable with
  | true => simp [State.masterWard, he]
  | false =>
    simp only [State.regCheck, State.masterWard, isPorter, he, Bool.false_eq_true, if_false] at h
    split_ifs at h

theorem State.ownBit_whole (hr : regAt a = some (d, ix)) (hb : d.own.isBits = false) (w : Nat) : s.ownBit w a = fun _ => true := by
  funext b
  simp [State.ownBit, hr, hb]

theorem State.regWrite_busy (own : Nat → Bool) (hc : csWindow a = none) (hr : regAt a = some (d, ix))
    (hb : s.writeBusy d ix v = true) : s.regWrite own a v = (s.touch a, 6) := by
  simp [State.regWrite, hc, hr, State.descWrite, State.writeBusy_touch, hb]

/-- R71: a unit that turns the write away stores nothing. -/
theorem State.storeReg_busy (hk : s.regCheck (.ward w) true a = 0) (hc : csWindow a = none) (hr : regAt a = some (d, ix))
    (hb : s.writeBusy d ix v = true) : s.storeReg (.ward w) a v = (s.touch a, 6) := by
  have ht : s.writeTakes a v = none := by simp [State.writeTakes, hc, hr, hb]
  simp only [State.storeReg, State.masterWard_of_regCheck hk, State.regWrite_busy _ hc hr hb, ht]

theorem State.regWrite_plain (hc : csWindow a = none) (hr : regAt a = some (d, ix)) (hb : s.writeBusy d ix v = false)
    (hv : writeVoid d v = false) (hp : plainReg d ix) : s.regWrite (fun _ => true) a v =
      (s.storeWord d ix a v, if (s.fieldsWrite d ix (fun _ => true) (s.rd a) v).2 then 7 else 0) := by
  obtain ⟨heff, hmask, hnone⟩ := hp
  have hkeep (x y : Word) : (x &&& ~~~0#64) ||| (y &&& 0#64) = x := by
    rw [BitVec.not_zero, BitVec.and_allOnes, BitVec.and_zero, BitVec.or_zero]
  simp only [State.regWrite, hc, hr, State.descWrite, State.writeBusy_touch, hb, hv, heff, hmask, hnone, hkeep, State.rd_touch,
    State.fieldsWrite_touch, State.storeWord, State.storedWord, Bool.false_eq_true, if_false]

/-- A plain register takes the word and nothing else happens; the status is 0 or PLAN_LOCKED. -/
theorem State.storeReg_plain (hk : s.regCheck (.ward w) true a = 0) (hc : csWindow a = none) (hr : regAt a = some (d, ix))
    (hb : s.writeBusy d ix v = false) (hv : writeVoid d v = false) (hp : plainReg d ix) (hbits : d.own.isBits = false)
    (hpair : s.paired = false) (hcopy : s.twin.copying = false) : s.storeReg (.ward w) a v =
      (s.storeWord d ix a v, if (s.fieldsWrite d ix (fun _ => true) (s.rd a) v).2 then 7 else 0) := by
  have hmirror : ∀ ty b, (s.storeWord d ix a v).mirror ty b = s.storeWord d ix a v :=
    State.mirror_unpaired ((s.paired_storeWord v hr).trans hpair) (by rw [State.storeWord, State.wr_twin, State.touch_twin, hcopy])
  simp only [State.storeReg, State.masterWard_of_regCheck hk, State.ownBit_whole hr hbits, State.regWrite_plain hc hr hb hv hp,
    hmirror, ite_self]
  split <;> rfl

/-- Without plan-locked fields the write meets no plan lock. -/
theorem State.fieldsWrite_unlocked (own : Nat → Bool) (old : Word) (h : ∀ g, g ∈ d.flds → g.acc ≠ .rwp) :
    (s.fieldsWrite d ix own old v).2 = false :=
  putFields_unlocked _ _ (fun g hg => s.fieldWrite_unlocked d ix old v g own (h g hg))

end

/-! ### REGISTER_WRITE by a host -/

section
variable {s : State} {w : Fin 4} {a : BitVec 32} {v : Word}

theorem exec_registerWrite_ward : exec (.registerWrite (.ward w) a v) s =
    .next (if s.regCheck (.ward w) true a.toNat = 0 then (s.storeReg (.ward w) a.toNat v).1 else s) := rfl

theorem registerWrite_refused (h : s.regCheck (.ward w) true a.toNat ≠ 0) :
    Gives (.registerWrite (.ward w) a v) s (fun t => t = s) :=
  ⟨s, by rw [exec_registerWrite_ward, if_neg h], rfl⟩

/-- A write that passes the checks leaves the state of its store. -/
theorem gives_registerWrite {t : State} {st : Nat} {P : State → Prop} (hk : s.regCheck (.ward w) true a.toNat = 0)
    (h : s.storeReg (.ward w) a.toNat v = (t, st)) (ht : P t) : Gives (.registerWrite (.ward w) a v) s P :=
  ⟨t, by rw [exec_registerWrite_ward, if_pos hk, h], ht⟩

end

/-! ### REG_WR of one word -/

/-- The two states differ in the ports and the Wards' event queues at most: so a delivered frame leaves the state to its meaning. -/
def PortsMoved (s u : State) : Prop := u = { s with ports := u.ports, wards := u.wards }

section
variable {s u : State} (h : PortsMoved s u)
include h

theorem PortsMoved.regs : u.regs = s.regs := by rw [h]

theorem PortsMoved.outs : u.outs = s.outs := by rw [h]

theorem PortsMoved.twin : u.twin = s.twin := by rw [h]

theorem PortsMoved.role : u.role = s.role := State.g_congr h.regs _

theorem PortsMoved.portWard (p : Nat) : u.portWard p = s.portWard p := by rw [h]; rfl

theorem PortsMoved.regCheck (m : Master) (b : Bool) (a : Nat) : u.regCheck m b a = s.regCheck m b a := by rw [h]; rfl

theorem PortsMoved.writeBusy (d : RegDesc) (ix : List Nat) (v : Word) : u.writeBusy d ix v = s.writeBusy d ix v := by rw [h]; rfl

theorem PortsMoved.storedWord (d : RegDesc) (ix : List Nat) (a : Nat) (v : Word) :
    u.storedWord d ix a v = s.storedWord d ix a v := by rw [h]; rfl

end

theorem State.touch_ports (s : State) (ps : Vector Port 7) (ws : Vector WardSt 4) (a : Nat) :
    ({ s with ports := ps, wards := ws } : State).touch a = { s.touch a with ports := ps, wards := ws } := by
  unfold State.touch
  cases regDom a with
  | none => rfl
  | some x =>
    have hdom : ({ s with ports := ps, wards := ws } : State).domOn x = s.domOn x := rfl
    simp only [State.demand, hdom]
    split <;> rfl

theorem PortsMoved.touch {s u : State} (h : PortsMoved s u) (a : Nat) : PortsMoved (s.touch a) (u.touch a) := by
  unfold PortsMoved
  rw [h, State.touch_ports]

theorem PortsMoved.wr {s u : State} (h : PortsMoved s u) (a : Nat) (x : Word) : PortsMoved (s.wr a x) (u.wr a x) := by
  unfold PortsMoved State.wr
  rw [h]

theorem PortsMoved.storeWord {s u : State} (h : PortsMoved s u) (d : RegDesc) (ix : List Nat) (a : Nat) (v : Word) :
    PortsMoved (s.storeWord d ix a v) (u.storeWord d ix a v) := by
  unfold State.storeWord
  rw [h.storedWord]
  exact (h.touch a).wr a _

theorem PortsMoved.onlyComm {s u : State} (h : PortsMoved s u) : OnlyComm s u := OnlyComm.of (by rw [h])

section
variable {s : State} {p w : Fin 4} {f : Frame} {a : Nat} {v : Word}

/-- A data frame in order on the port of an enabled Ward is given to its meaning for that Ward. -/
theorem State.onHost_deliver (ty : Nat) (act : State → Fin 4 → State) (hin : s.inOrder p.val f = true)
    (hsend : s.maySend p.val 0 = true) (hw : s.portWard p.val = some w.val) :
    ∃ u, s.onHost p f ty act = act u w ∧ PortsMoved s u ∧ ∀ n, s.maySend p.val n = true → u.maySend p.val n = true := by
  have htx : (s.port p.val).txq = [] := by
    simp only [State.maySend, Bool.and_eq_true, decide_eq_true_eq] at hsend
    obtain ⟨⟨⟨⟨-, htx⟩, -⟩, -⟩, -⟩ := hsend
    exact htx
  refine (s.onData_deliver p.val f _ p.isLt hin htx).imp fun u ⟨hu, hmoved, _, hkeep, _⟩ => ⟨hu.trans ?_, hmoved, hkeep⟩
  have hmoved : PortsMoved s u := hmoved
  rw [hmoved.portWard, hw]
  exact congrArg (act u) (Fin.ofNat_val_eq_self w)

theorem exec_regWr_delivered (hin : s.inOrder p.val f = true) (hsend : s.maySend p.val 0 = true)
    (hw : s.portWard p.val = some w.val) :
    ∃ u, exec (.regWr p f) s = .next (u.regWr p w f) ∧ PortsMoved s u ∧ u.maySend p.val 0 = true := by
  obtain ⟨u, hu, hmoved, hkeep⟩ := s.onHost_deliver 0x82 (fun s w => s.regWr p w f) hin hsend hw
  exact ⟨u, congrArg Host.Outcome.next hu, hmoved, hkeep 0 hsend⟩

/-- REG_WR of one word: the role, then the checks, then the store give the status. -/
theorem State.regWr_word {t : State} (hpay : f.payload = toLe 8 a ++ toLe 8 v.toNat) (ha : a < 2 ^ 64) : t.regWr p w f =
    if t.role = 2 then t.answer p f 0x82 0xE []
    else if t.regRunCheck w true a 1 ≠ 0 then t.answer p f 0x82 (t.regRunCheck w true a 1) []
    else (t.storeReg (.ward w) a v).1.answer p f 0x82 (t.storeReg (.ward w) a v).2 [] := by
  have haddr : u f.payload 0 8 = a := by
    have h := u_toLe [] (toLe 8 v.toNat) 8 a
    rwa [List.nil_append, List.length_nil, ← hpay, Nat.mod_eq_of_lt (by omega)] at h
  have hword : u f.payload 8 8 = v.toNat := by
    have h := u_toLe (toLe 8 a) [] 8 v.toNat
    rwa [List.append_nil, toLe_length, ← hpay, Nat.mod_eq_of_lt (by omega)] at h
  have hlen : f.payload.length = 16 := by simp [hpay]
  simp [State.regWr, haddr, hword, hlen, State.writeMany]

theorem State.regRunCheck_one (s : State) (b : Bool) (ha : a < 0x10000000) (hal : a % 8 = 0) :
    s.regRunCheck w b a 1 = s.regCheck (.ward w) b a := by
  have hlow : ¬ 1099511627776 ≤ a := by omega
  have hin : ¬ 0x10000000 ≤ a := by omega
  have hone (x : Nat) : firstBadStatus [x] = x := by
    by_cases hx : x = 0 <;> simp [firstBadStatus, hx]
  simp [State.regRunCheck, hlow, hal, hin, hone]

/-- An answer from a state that may send changes the communication only, and is the last thing to leave. -/
theorem State.answer_sent {t : State} {ty : Nat} (st : Nat) {b : List Byte} (hsend : t.maySend p.val b.length = true)
    (houts : t.outs = s.outs) :
    OnlyComm t (t.answer p f ty st b) ∧ Sent s (t.answer p f ty st b) p.val ty st f.tag 0 b := by
  obtain ⟨hcomm, hsent⟩ := t.respond_sent p.val ty st f.tag 0 b p.isLt hsend
  exact ⟨hcomm, hsent.of_outs houts⟩

end

section
variable {s : State} {p w : Fin 4} {f : Frame} {a : Nat} {v : Word} (hin : s.inOrder p.val f = true)
  (hsend : s.maySend p.val 0 = true) (hw : s.portWard p.val = some w.val) (hpay : f.payload = toLe 8 a ++ toLe 8 v.toNat)
include hin hsend hw hpay

/-- R62: a STANDBY stores nothing. -/
theorem regWr_standby (hrole : s.role = 2) (ha : a < 2 ^ 64) :
    Gives (.regWr p f) s (fun t => OnlyComm s t ∧ Sent s t p.val 0x82 0xE f.tag 0 []) := by
  obtain ⟨u, he, hmoved, hu⟩ := exec_regWr_delivered hin hsend hw
  rw [State.regWr_word hpay ha, if_pos (hmoved.role.trans hrole)] at he
  obtain ⟨hcomm, hsent⟩ := State.answer_sent (f := f) (b := []) 0xE hu hmoved.outs
  exact ⟨_, he, hmoved.onlyComm.trans hcomm, hsent⟩

theorem regWr_refused (hrole : s.role ≠ 2) (ha : a < 0x10000000) (hal : a % 8 = 0) (hk : s.regCheck (.ward w) true a ≠ 0) :
    Gives (.regWr p f) s (fun t => OnlyComm s t ∧ Sent s t p.val 0x82 (s.regCheck (.ward w) true a) f.tag 0 []) := by
  obtain ⟨u, he, hmoved, hu⟩ := exec_regWr_delivered hin hsend hw
  rw [State.regWr_word hpay (by omega), if_neg (hmoved.role.trans_ne hrole), u.regRunCheck_one true ha hal, hmoved.regCheck,
    if_pos hk] at he
  obtain ⟨hcomm, hsent⟩ := State.answer_sent (f := f) (b := []) (s.regCheck (.ward w) true a) hu hmoved.outs
  exact ⟨_, he, hmoved.onlyComm.trans hcomm, hsent⟩

/-- A word that passes the checks is stored after delivery, and the status of the store is the answer. -/
theorem exec_regWr_stored (hrole : s.role ≠ 2) (ha : a < 0x10000000) (hal : a % 8 = 0) (hk : s.regCheck (.ward w) true a = 0) :
    ∃ u, exec (.regWr p f) s = .next ((u.storeReg (.ward w) a v).1.answer p f 0x82 (u.storeReg (.ward w) a v).2 []) ∧
      PortsMoved s u ∧ u.maySend p.val 0 = true := by
  obtain ⟨u, he, hmoved, hu⟩ := exec_regWr_delivered hin hsend hw
  rw [State.regWr_word hpay (by omega), if_neg (hmoved.role.trans_ne hrole), u.regRunCheck_one true ha hal, hmoved.regCheck,
    if_neg (not_not_intro hk)] at he
  exact ⟨u, he, hmoved, hu⟩

theorem regWr_busy {d : RegDesc} {ix : List Nat} (hrole : s.role ≠ 2) (ha : a < 0x10000000) (hal : a % 8 = 0)
    (hk : s.regCheck (.ward w) true a = 0) (hc : csWindow a = none) (hr : regAt a = some (d, ix)) (hb : s.writeBusy d ix v = true) :
    Gives (.regWr p f) s (fun t => OnlyComm (s.touch a) t ∧ Sent s t p.val 0x82 6 f.tag 0 []) := by
  obtain ⟨u, he, hmoved, hu⟩ := exec_regWr_stored hin hsend hw hpay hrole ha hal hk
  rw [State.storeReg_busy ((hmoved.regCheck _ _ _).trans hk) hc hr ((hmoved.writeBusy d ix v).trans hb)] at he
  obtain ⟨hcomm, hsent⟩ := State.answer_sent (f := f) (b := []) 6 ((u.maySend_touch a _ _).trans hu) ((u.touch_outs a).trans hmoved.outs)
  exact ⟨_, he, (hmoved.touch a).onlyComm.trans hcomm, hsent⟩

theorem regWr_plain {d : RegDesc} {ix : List Nat} (hpair : s.paired = false) (hcopy : s.twin.copying = false) (hrole : s.role ≠ 2)
    (ha : a < 0x10000000) (hal : a % 8 = 0) (hk : s.regCheck (.ward w) true a = 0) (hc : csWindow a = none)
    (hr : regAt a = some (d, ix)) (hb : s.writeBusy d ix v = false) (hv : writeVoid d v = false) (hp : plainReg d ix)
    (hbits : d.own.isBits = false) (hlock : ∀ g, g ∈ d.flds → g.acc ≠ .rwp) (htest : ∀ l, a ≠ LN_TEST l) :
    Gives (.regWr p f) s (fun t => OnlyComm ((s.touch a).wr a (t.rd a)) t ∧ Sent s t p.val 0x82 0 f.tag 0 [] ∧
      t.rd a = s.storedWord d ix a v) := by
  obtain ⟨u, he, hmoved, hu⟩ := exec_regWr_stored hin hsend hw hpay hrole ha hal hk
  rw [State.storeReg_plain ((hmoved.regCheck _ _ _).trans hk) hc hr ((hmoved.writeBusy d ix v).trans hb) hv hp hbits
    ((State.paired_congr hmoved.regs).trans hpair) (by rw [hmoved.twin, hcopy]), State.fieldsWrite_unlocked _ _ hlock] at he
  obtain ⟨hcomm, hsent⟩ := State.answer_sent (f := f) (b := []) 0 ((u.maySend_storeWord v hr p 0).trans hu) ((u.touch_outs a).trans hmoved.outs)
  have hword : (State.answer (u.storeWord d ix a v) p f 0x82 0 []).rd a = s.storedWord d ix a v := by
    rw [hcomm.2 a htest, State.rd_storeWord_self, hmoved.storedWord]
  refine ⟨_, he, ?_, hsent, hword⟩
  show OnlyComm ((s.touch a).wr a ((State.answer (u.storeWord d ix a v) p f 0x82 0 []).rd a)) _
  rw [hword]
  exact (hmoved.storeWord d ix a v).onlyComm.trans hcomm

end

/-! ### Register writes store -/

/-- Settles O2. Of a plain register a write leaves the word `storedWord`, whose fields are what R9 says; RO fields are kept, so that
neither the pair nor the port that answers changes under the write. -/
theorem registerWritesStore : Obligations.RegisterWritesStore := by
  unfold Obligations.RegisterWritesStore
  refine ⟨fun s w a v hpair hcopy => ⟨registerWrite_refused, fun d ix hk hc hr => ⟨fun hb => ?_, fun hb hv hp hbits => ?_⟩⟩,
    fun s p w f a v hin hsend hw hpair hcopy hpay => ⟨regWr_standby hin hsend hw hpay, fun hrole ha hal =>
      ⟨regWr_refused hin hsend hw hpay hrole ha hal, fun d ix hk hc hr =>
        ⟨regWr_busy hin hsend hw hpay hrole ha hal hk hc hr, fun hb hv hp hbits hlock htest => ?_⟩⟩⟩⟩
  · exact gives_registerWrite hk (State.storeReg_busy hk hc hr hb) rfl
  · refine gives_registerWrite hk (State.storeReg_plain hk hc hr hb hv hp hbits hpair hcopy) ⟨rfl, ?_, fun f hf => ?_⟩
    · exact fun b hb => s.rd_storeWord_ne v (by simpa using hb)
    · rw [State.rd_storeWord_self]
      exact ⟨s.getBits_storedWord_rw v hr hf, s.getBits_storedWord_ro v hr hf, s.getBits_storedWord_rwp v hr hf⟩
  · obtain ⟨t, he, hcomm, hsent, hword⟩ :=
      regWr_plain hin hsend hw hpay hpair hcopy hrole ha hal hk hc hr hb hv hp hbits hlock htest
    refine ⟨t, he, hcomm, hsent, fun g hg => ?_⟩
    rw [hword]
    exact ⟨s.getBits_storedWord_rw v hr hg, s.getBits_storedWord_ro v hr hg⟩

end Sys2Proof.Machine
end

section
/-! SUPPORT. What the commit of a Journal record does (R19, R329, R330): the commit word stands in its slot and the head moves, then
the CMD_ACK of an ACCEPTED record leaves or the CMD_DONE of a DONE record is queued; a record that does not verify stops the writer. -/

namespace Sys2Proof.Machine

/-! ### Bytes of the non-volatile memory -/

theorem tabGet_bytesPut_of_lt (m : Tab Byte) (l : List Byte) {a i : Nat} (h : i < a) :
    tabGet 0#8 (bytesPut m a l) i = tabGet 0#8 m i := by
  induction l generalizing m a with
  | nil => rfl
  | cons b t ih => rw [bytesPut, ih _ (by omega), tabGet_tabSet_ne _ _ _ _ (by omega)]

theorem map_tabGet_bytesPut (m : Tab Byte) (a : Nat) (l : List Byte) :
    (List.range l.length).map (fun i => tabGet 0#8 (bytesPut m a l) (a + i)) = l := by
  induction l generalizing m a with
  | nil => rfl
  | cons b t ih =>
    have htail := ih (tabSet 0#8 m a b) (a + 1)
    simp only [List.length_cons, List.range_succ_eq_map, List.map_cons, List.map_map, bytesPut, Nat.add_zero]
    rw [tabGet_bytesPut_of_lt _ _ (Nat.lt_succ_self a), tabGet_tabSet_self]
    congr 1
    simpa only [Function.comp_def, Nat.succ_eq_add_one, Nat.add_assoc, Nat.add_comm 1] using htail

/-- A read of the bytes last written gives them. -/
theorem State.nvLd_nvSt (s : State) (a : Nat) (l : List Byte) : (s.nvSt a l).nvLd a l.length = l := map_tabGet_bytesPut _ _ _

/-! ### A frame that may leave at once -/

theorem State.mayFollow_iff {s : State} {p n : Nat} (hp : p < 7) : s.mayFollow p n = true ↔
    s.portUp p = true ∧ s.pwr.inReset = none ∧ (s.port p).txq = [] ∧ (s.port p).replay.length < 128 ∧
      1 ≤ (s.port p).peerHdr ∧ dataUnits n ≤ (s.port p).peerData := by
  have hup (f : Port → Port) : (s.modPort p f).portUp p = s.portUp p := by simp [State.portUp]
  simp [State.mayFollow, State.maySend, hup, State.port_modPort_self _ _ _ hp, and_assoc]

theorem State.mayFollow_modPort_acks (s : State) {p : Nat} (hp : p < 7) (f : List Owed → List Owed) (n : Nat) :
    (s.modPort p (fun q => { q with acks := f q.acks })).mayFollow p n = s.mayFollow p n := by
  have hup (f : Port → Port) : (s.modPort p f).portUp p = s.portUp p := by simp [State.portUp]
  rw [Bool.eq_iff_iff, State.mayFollow_iff hp, State.mayFollow_iff hp, hup, State.port_modPort_self _ _ _ hp, State.modPort_pwr]

theorem State.mayFollow_congr {s t : State} {p : Nat} (hp : p < 7) (hup : t.portUp p = s.portUp p) (hport : t.port p = s.port p)
    (hpwr : t.pwr = s.pwr) (n : Nat) : t.mayFollow p n = s.mayFollow p n := by
  rw [Bool.eq_iff_iff, State.mayFollow_iff hp, State.mayFollow_iff hp, hup, hport, hpwr]

theorem State.mayFollow_modCmd (s : State) (id : Nat) (f : Cmd → Cmd) {p : Nat} (hp : p < 7) (n : Nat) :
    (s.modCmd id f).mayFollow p n = s.mayFollow p n :=
  State.mayFollow_congr (s := s) (t := s.modCmd id f) hp rfl rfl rfl n

theorem OnlyComm.g {s t : State} (h : OnlyComm s t) {f : FRef} (hf : ∀ l, f.addr ≠ LN_TEST l) : t.g f = s.g f := by
  unfold State.g
  rw [h.2 _ hf]

theorem OnlyComm.sendFrame (s : State) (p : Nat) (f : TxFrame) (hp : p ≠ 4) : OnlyComm s (s.sendFrame p f) :=
  (OnlyComm.modPort s p _).trans (OnlyComm.pump _ p hp)

/-- A frame that finds no other waiting, credits and room leaves at once. -/
theorem State.sendFrame_eq_sendData (s : State) (p : Nat) (f : TxFrame) (hp : p < 4) (h : s.mayFollow p f.payload.length = true) :
    s.sendFrame p f = ((s.modPort p (fun q => { q with txq := q.txq ++ [f] })).modPort p (fun q => { q with txq := [] })).sendData p f := by
  have hp4 : p ≠ 4 := by omega
  obtain ⟨hup, hin, htx, hreplay, hhdr, hdata⟩ := (State.mayFollow_iff (by omega)).1 h
  have hport : (s.modPort p (fun q => { q with txq := q.txq ++ [f] })).port p = { s.port p with txq := [f] } := by
    rw [State.port_modPort_self _ _ _ (by omega), htx]; rfl
  have hup' : (s.modPort p (fun q => { q with txq := q.txq ++ [f] })).portUp p = true := by simpa [State.portUp] using hup
  have hcan : (s.modPort p (fun q => { q with txq := q.txq ++ [f] })).canSend p f = true := by
    simp [State.canSend, State.carries, hport, hup', hin, hreplay, hhdr, hdata]
  simp [State.sendFrame, State.pump, State.pumpOne, hport, hp4, hcan]

theorem State.sendFrame_sent (s : State) (p ty st : Nat) (tag : BitVec 16) (q : Nat) (b : List Byte) (hp : p < 4)
    (h : s.mayFollow p b.length = true) : Sent s (s.sendFrame p (dataFrame ty st tag q b)) p ty st tag q b := by
  rw [s.sendFrame_eq_sendData p (dataFrame ty st tag q b) hp h]
  obtain ⟨l, x, a, hd, d, c, n, houts⟩ := State.sendData_outs ((s.modPort p (fun q' =>
    { q' with txq := q'.txq ++ [dataFrame ty st tag q b] })).modPort p (fun q' => { q' with txq := [] })) p (dataFrame ty st tag q b)
  rw [State.modPort_outs, State.modPort_outs] at houts
  exact ⟨l, _, a, hd, d, c, n, houts, rfl, rfl, rfl, rfl, rfl⟩

/-! ### A CMD_ACK that was owed (R57) -/

/-- What the CMD_ACK owed by port `p` for command `id` waited for has come: it gets its payload, and what may leave does. -/
def State.ackReady (s : State) (p id : Nat) (b : List Byte) : State :=
  (s.modPort p (fun q => { q with acks := readyOwed id b q.acks })).flushAcks p

/-- The one CMD_ACK that a port owes leaves. -/
theorem State.ackReady_eq_sendFrame (s : State) {p id : Nat} (b : List Byte) {f : TxFrame} (hp : p < 7)
    (h : (s.port p).acks = [⟨some id, f⟩]) :
    s.ackReady p id b = ((s.modPort p (fun q => { q with acks := readyOwed id b q.acks })).modPort p
      (fun q => { q with acks := q.acks.drop 1 })).sendFrame p { f with payload := b } := by
  have hready : ((s.modPort p (fun q => { q with acks := readyOwed id b q.acks })).port p).acks = [⟨none, { f with payload := b }⟩] := by
    simp [State.port_modPort_self _ _ _ hp, h, readyOwed, updFirst]
  simp [State.ackReady, State.flushAcks, hready, forEach]

theorem State.ackReady_sent (s : State) {p id ty st : Nat} {tag : BitVec 16} {q : Nat} (b : List Byte) (hp : p < 4)
    (h : (s.port p).acks = [⟨some id, dataFrame ty st tag q []⟩]) (hmay : s.mayFollow p b.length = true) :
    OnlyComm s (s.ackReady p id b) ∧ Sent s (s.ackReady p id b) p ty st tag q b := by
  have hp7 : p < 7 := by omega
  rw [s.ackReady_eq_sendFrame b hp7 h]
  refine ⟨((OnlyComm.modPort s p _).trans (OnlyComm.modPort _ p _)).trans (OnlyComm.sendFrame _ p _ (by omega)), ?_⟩
  refine Sent.of_outs (State.sendFrame_sent _ p ty st tag q b hp ?_) (by rw [State.modPort_outs, State.modPort_outs])
  rwa [State.mayFollow_modPort_acks _ hp7, State.mayFollow_modPort_acks _ hp7 (readyOwed id b)]

/-! ### An event into an empty queue (R60) -/

theorem evPush_evq_of_empty (now : Stamp) (e : Ev) {x : WardSt} (hq : x.evq = []) (hl : x.lost = 0) : (evPush now e x).evq = [e] := by
  simp [evPush, hq, hl, evInsert]

theorem State.post_eq (s : State) (w : Nat) (e : Ev) : s.post w e = { s with wards := (s.post w e).wards } := by
  unfold State.post
  split
  · exact s.modWard_eq w _
  · rfl

theorem State.wst_post_of_empty (s : State) (w : Fin 4) (e : Ev) (he : (s.ward w.val).enable = true) (hq : (s.wst w.val).evq = [])
    (hl : (s.wst w.val).lost = 0) : ((s.post w.val e).wst w.val).evq = [e] := by
  rw [State.post, if_pos he, State.wst_modWard_self _ _ _ w.isLt, evPush_evq_of_empty _ _ hq hl]

/-! ### The commit word (phase 2 of R330) -/

/-- The state once the commit word of the record `r` of command `id` stands in its slot, before what the record brings about. -/
def State.commitWritten (s : State) (r : Prog) (id : Nat) : State :=
  ((({ s with jnl := { s.jnl with prog := none } } : State).nvSt (jnlAddr (r.seqno % jnlSlots) + 0x0E) (toLe 2 (commitWord r.seqno))).p
    JNL_HEAD_SEQNO r.seqno).modCmd id (fun c => { c with latest := some r.seqno })

section
variable (s : State) (r : Prog) (id : Nat)

theorem State.commitWritten_nvLd :
    (s.commitWritten r id).nvLd (jnlAddr (r.seqno % jnlSlots) + 14) 2 = toLe 2 (commitWord r.seqno) := by
  have h := State.nvLd_nvSt { s with jnl := { s.jnl with prog := none } } (jnlAddr (r.seqno % jnlSlots) + 14) (toLe 2 (commitWord r.seqno))
  rwa [toLe_length] at h

theorem State.commitWritten_head (h : r.seqno < 2 ^ 64) : (s.commitWritten r id).g JNL_HEAD_SEQNO = r.seqno := by
  have hg : (s.commitWritten r id).g JNL_HEAD_SEQNO = (s.p JNL_HEAD_SEQNO r.seqno).g JNL_HEAD_SEQNO := State.g_congr rfl _
  rw [hg, State.g_p_self _ _ _ (by decide) (by decide)]
  exact Nat.mod_eq_of_lt h

theorem State.commitWritten_g {f : FRef} (h : f.addr ≠ JNL_HEAD) : (s.commitWritten r id).g f = s.g f :=
  (State.g_congr rfl f).trans (s.g_p_addr JNL_HEAD_SEQNO f r.seqno h)

theorem State.commitWritten_now : (s.commitWritten r id).now = s.now := by
  unfold State.now
  rw [s.commitWritten_g r id (by decide)]; rfl

theorem State.commitWritten_mayFollow {p : Nat} (hp : p < 4) (n : Nat) :
    (s.commitWritten r id).mayFollow p n = s.mayFollow p n := by
  have haddr : (LN_GRP_STATUS_STATE p).addr ≠ JNL_HEAD := by
    simp only [LN_GRP_STATUS_STATE, LN_GRP_STATUS, JNL_HEAD]; omega
  have hup : (s.commitWritten r id).portUp p = s.portUp p := by
    unfold State.portUp
    rw [s.commitWritten_g r id haddr]; rfl
  exact State.mayFollow_congr (by omega) hup rfl rfl n

end

/-- The same of an ACCEPTED record: the command is committed, and its CMD_ACK has yet to leave. -/
def State.acceptedWritten (s : State) (r : Prog) (id : Nat) : State :=
  (s.commitWritten r id).modCmd id (fun c => { c with committed := true })

section
variable {s : State} {r : Prog} {d : DueRec} {c : Cmd} (hcmds : s.cmds = [c])
include hcmds

theorem State.commitWritten_cmds : (s.commitWritten r c.id).cmds = [{ c with latest := some r.seqno }] := by
  simp [State.commitWritten, State.modCmd, hcmds, updFirst]

theorem State.acceptedWritten_cmds :
    (s.acceptedWritten r c.id).cmds = [{ c with latest := some r.seqno, committed := true }] := by
  simp [State.acceptedWritten, State.modCmd, State.commitWritten_cmds hcmds, updFirst]

theorem State.commitWritten_cmd : (s.commitWritten r c.id).cmd? c.id = some { c with latest := some r.seqno } := by
  simp [State.cmd?, State.commitWritten_cmds hcmds]

theorem State.commitWritten_ofPeer : (s.commitWritten r c.id).ofPeer (some c.id) = s.ofPeer (some c.id) := by
  have hrole : (s.commitWritten r c.id).role = s.role := s.commitWritten_g r c.id (by decide)
  have hcmd : s.cmd? c.id = some c := by simp [State.cmd?, hcmds]
  simp only [State.ofPeer, hrole, Option.bind_some, State.commitWritten_cmd hcmds, hcmd, Option.any_some]

end

/-! ### JOURNAL_COMMIT -/

theorem State.pumpJournal_of_due_nil {s : State} (h : s.jnl.due = []) : s.pumpJournal = s := by
  unfold State.pumpJournal State.forwardRecord
  simp [h]

theorem State.recordOver_of_none {s : State} (h : s.thm.finalDue = none) : s.recordOver = s := by
  simp [State.recordOver, h]

section
variable {s : State} {r : Prog} (hprog : s.jnl.prog = some r)
include hprog

theorem State.commitProg_eq {d : DueRec} {id : Nat} (hdue : r.due = some d) (hcmd : r.cmd = some id)
    (hlast : r.seqno % jnlSlots ≠ jnlSlots - 1) : s.commitProg = ((s.commitWritten r id).onCommit d).pumpJournal := by
  simp only [State.commitProg, hprog, hdue, hcmd, if_neg hlast, State.commitWritten]

/-- A record that verifies and asks for no peer commits; nothing else waits for the writer. -/
theorem exec_journalCommit_of_verified {d : DueRec} {id : Nat} (hdue : r.due = some d) (hcmd : r.cmd = some id)
    (hlast : r.seqno % jnlSlots ≠ jnlSlots - 1) (hworn : s.progWorn = false) (hpair : s.progPaired = false) {t : State}
    (ht : (s.commitWritten r id).onCommit d = t) (hnil : t.jnl.due = []) (hfinal : t.thm.finalDue = none) :
    exec .journalCommit s = .next t := by
  have hcommit : s.commitProg = t := by
    rw [State.commitProg_eq hprog hdue hcmd hlast, ht, State.pumpJournal_of_due_nil hnil]
  show execJournalCommit s = _
  simp [execJournalCommit, State.commitNow, hprog, hworn, hpair, hcommit, State.recordOver_of_none hfinal]

/-- A record with a worn word stops the writer, in a pair too. -/
theorem exec_journalCommit_of_worn (hworn : s.progWorn = true) (hfinal : s.thm.finalDue = none) :
    exec .journalCommit s = .next { s with jnl := { s.jnl with prog := none, stop := true }, flt := (s.assertFlt 355).flt } := by
  have hfails : s.recordFails = { s with jnl := { s.jnl with prog := none, stop := true }, flt := (s.assertFlt 355).flt } := by
    simp only [State.recordFails, hprog, Option.isSome_some, if_true, State.assertFlt]
    split <;> rfl
  have hover : s.recordFails.recordOver = s.recordFails := State.recordOver_of_none (by rw [hfails]; exact hfinal)
  rw [← hfails]
  show execJournalCommit s = _
  simp [execJournalCommit, State.commitNow, hprog, hworn, hover]

end

/-! ### What the commit brings about -/

/-- The CMD_DONE record that the commit of the DONE record `d` of command `c` queues (R59, Table 3.7). -/
def State.cmdDone (s : State) (d : DueRec) (c : Cmd) : Ev :=
  ⟨2, c.queue.val, u d.body 0 1, c.tag.toNat, c.jseqN, s.now, u d.body 4 4, d.data⟩

section
variable {s : State} {d : DueRec} {c : Cmd} (hc : d.cmd.bind s.cmd? = some c) (hown : s.ofPeer d.cmd = false)
include hc hown

theorem State.onCommit_accepted (hk : d.kind = .accepted) : s.onCommit d =
    (s.modCmd c.id (fun c => { c with committed := true })).ackReady c.port c.id (toLe 8 c.jseqN) := by
  simp [State.onCommit, hc, hown, hk, State.ackReady]

theorem State.onCommit_done (hk : d.kind = .done) : s.onCommit d =
    { s with wards := (s.post c.ward.val (s.cmdDone d c)).wards, cmds := s.cmds.filter (fun x => decide (x.id ≠ c.id)) } := by
  have hpost : s.cmdEvent c 2 (u d.body 0 1) (u d.body 4 4) d.data = s.post c.ward.val (s.cmdDone d c) := rfl
  simp only [State.onCommit, hc, hown, hk, hpost, Bool.false_eq_true, if_false]
  rw [State.post_eq]

end

section
variable {s : State} {r : Prog} {d : DueRec} {c : Cmd} (hprog : s.jnl.prog = some r) (hdue : r.due = some d)
  (hid : r.cmd = some c.id) (hcmd : d.cmd = some c.id) (hown : s.ofPeer (some c.id) = false) (hnil : s.jnl.due = [])
  (hfinal : s.thm.finalDue = none) (hcmds : s.cmds = [c]) (hlast : r.seqno % jnlSlots ≠ jnlSlots - 1) (hseq : r.seqno < 2 ^ 64)
  (hworn : s.progWorn = false) (hpair : s.progPaired = false)
include hprog hdue hid hcmd hown hnil hfinal hcmds hlast hseq hworn hpair

/-- R19, R57: the commit of an ACCEPTED record acknowledges the command with its JSEQ. -/
theorem journalCommit_accepted (hport : c.port < 4) (hk : d.kind = .accepted)
    (hacks : (s.port c.port).acks = [⟨some c.id, dataFrame 0x85 0 c.tag c.queue.val []⟩]) (hmay : s.mayFollow c.port 8 = true) :
    Gives .journalCommit s (fun t =>
      t.nvLd (jnlAddr (r.seqno % jnlSlots) + 14) 2 = toLe 2 (commitWord r.seqno) ∧ t.g JNL_HEAD_SEQNO = r.seqno ∧
      t.jnl = { s.jnl with prog := none } ∧ t.cmds = [{ c with latest := some r.seqno, committed := true }] ∧
      Sent s t c.port 0x85 0 c.tag c.queue.val (toLe 8 c.jseqN) ∧
      OnlyComm { s with nvm := t.nvm, nvmEcc := t.nvmEcc, jnl := t.jnl, cmds := t.cmds, regs := (s.p JNL_HEAD_SEQNO r.seqno).regs } t) := by
  have hmay' : (s.acceptedWritten r c.id).mayFollow c.port (toLe 8 c.jseqN).length = true := by
    rw [toLe_length, State.acceptedWritten, State.mayFollow_modCmd _ _ _ (by omega), s.commitWritten_mayFollow r c.id hport, hmay]
  have hcommit : (s.commitWritten r c.id).onCommit d = (s.acceptedWritten r c.id).ackReady c.port c.id (toLe 8 c.jseqN) :=
    State.onCommit_accepted (c := { c with latest := some r.seqno }) (by rw [hcmd]; exact State.commitWritten_cmd hcmds)
      (by rw [hcmd, State.commitWritten_ofPeer hcmds, hown]) hk
  obtain ⟨hcomm, hsent⟩ := (s.acceptedWritten r c.id).ackReady_sent (toLe 8 c.jseqN) hport hacks hmay'
  generalize (s.acceptedWritten r c.id).ackReady c.port c.id (toLe 8 c.jseqN) = t at hcommit hcomm hsent
  have hnvm : t.nvm = (s.acceptedWritten r c.id).nvm := by rw [hcomm.1]
  have hecc : t.nvmEcc = (s.acceptedWritten r c.id).nvmEcc := by rw [hcomm.1]
  have hjnl : t.jnl = (s.acceptedWritten r c.id).jnl := by rw [hcomm.1]
  have htcmds : t.cmds = (s.acceptedWritten r c.id).cmds := by rw [hcomm.1]
  have hthm : t.thm = (s.acceptedWritten r c.id).thm := by rw [hcomm.1]
  have hhead : ∀ l, JNL_HEAD ≠ LN_TEST l := fun l => by simp only [JNL_HEAD, LN_TEST]; omega
  refine ⟨t, exec_journalCommit_of_verified hprog hdue hid hlast hworn hpair hcommit (by rw [hjnl]; exact hnil)
    (by rw [hthm]; exact hfinal), ?_, ?_, hjnl, htcmds.trans (State.acceptedWritten_cmds hcmds), hsent, ?_⟩
  · rw [State.nvLd, hnvm]
    exact s.commitWritten_nvLd r c.id
  · rw [hcomm.g hhead]
    exact s.commitWritten_head r c.id hseq
  · rw [hnvm, hecc, hjnl, htcmds]
    exact hcomm

/-- R19, R59: the commit of a DONE record queues CMD_DONE and ends the command. -/
theorem journalCommit_done (hk : d.kind = .done) (hen : (s.ward c.ward.val).enable = true) (hq : (s.wst c.ward.val).evq = [])
    (hlost : (s.wst c.ward.val).lost = 0) :
    Gives .journalCommit s (fun t =>
      t.nvLd (jnlAddr (r.seqno % jnlSlots) + 14) 2 = toLe 2 (commitWord r.seqno) ∧ t.g JNL_HEAD_SEQNO = r.seqno ∧
      t.jnl = { s.jnl with prog := none } ∧ t.cmds = [] ∧
      (t.wst c.ward.val).evq = [⟨2, c.queue.val, u d.body 0 1, c.tag.toNat, c.jseqN, s.now, u d.body 4 4, d.data⟩] ∧
      t = { s with nvm := t.nvm, nvmEcc := t.nvmEcc, jnl := t.jnl, cmds := [], wards := t.wards, regs := (s.p JNL_HEAD_SEQNO r.seqno).regs }) := by
  have hevent : (s.commitWritten r c.id).cmdDone d { c with latest := some r.seqno } = s.cmdDone d c := by
    unfold State.cmdDone
    rw [s.commitWritten_now r c.id]; rfl
  have hnone : (s.commitWritten r c.id).cmds.filter (fun x => decide (x.id ≠ c.id)) = [] := by
    simp [State.commitWritten_cmds hcmds]
  have hcommit : (s.commitWritten r c.id).onCommit d =
      { s.commitWritten r c.id with wards := ((s.commitWritten r c.id).post c.ward.val (s.cmdDone d c)).wards, cmds := [] } := by
    rw [State.onCommit_done (c := { c with latest := some r.seqno }) (by rw [hcmd]; exact State.commitWritten_cmd hcmds)
      (by rw [hcmd, State.commitWritten_ofPeer hcmds, hown]) hk, hevent, hnone]
  exact ⟨_, exec_journalCommit_of_verified hprog hdue hid hlast hworn hpair hcommit hnil hfinal, s.commitWritten_nvLd r c.id,
    s.commitWritten_head r c.id hseq, rfl, rfl, State.wst_post_of_empty _ c.ward _ hen hq hlost, rfl⟩

end

/-- Settles O8. The commit word and the head are the same for every kind of record; what the record brings about comes behind them, and
the writer then finds nothing due. -/
theorem journalCommits : Obligations.JournalCommits := by
  unfold Obligations.JournalCommits
  intro s r d c hprog hdue hid hcmd hown hnil hfinal hcmds hport hlast hseq
  refine ⟨fun hworn hpair hk hacks hmay => ?_, fun hworn hpair hk hen hq hlost => ?_, fun hworn => ?_⟩
  · exact journalCommit_accepted hprog hdue hid hcmd hown hnil hfinal hcmds hlast hseq hworn hpair hport hk hacks hmay
  · exact journalCommit_done hprog hdue hid hcmd hown hnil hfinal hcmds hlast hseq hworn hpair hk hen hq hlost
  · exact ⟨_, exec_journalCommit_of_worn hprog hworn hfinal, rfl⟩

end Sys2Proof.Machine
end

section
/-! SUPPORT. What the Journal writer and the twin link leave of a member of any role: registers but LN_TEST, the plan, the Plan Store
and its two slots; a record that is due stays with the writer. -/

namespace Sys2Proof.Machine

/-! ### The twin link -/

/-- `t` is `s` but for what a frame on any port moves and the mirror backlog (R349). -/
def LinkMoved (s t : State) : Prop := OnlyComm { s with twin := { s.twin with backlog := t.twin.backlog } } t

theorem OnlyComm.twin {s t : State} (h : OnlyComm s t) : t.twin = s.twin := by rw [h.1]

/-- What a frame moves does not depend on the twin's state. -/
theorem OnlyComm.setTwin {s t : State} (h : OnlyComm s t) (x : TwinSt) : OnlyComm { s with twin := x } { t with twin := x } := by
  refine ⟨?_, h.2⟩
  rw [h.1]

theorem LinkMoved.refl (s : State) : LinkMoved s s := OnlyComm.refl s

theorem LinkMoved.trans {s t u : State} (h : LinkMoved s t) (h' : LinkMoved t u) : LinkMoved s u := by
  have htwin : t.twin = { s.twin with backlog := t.twin.backlog } := OnlyComm.twin h
  have hlift := OnlyComm.setTwin h { t.twin with backlog := u.twin.backlog }
  have hbase : ({ s with twin := { t.twin with backlog := u.twin.backlog } } : State) =
      { s with twin := { s.twin with backlog := u.twin.backlog } } := by rw [htwin]
  unfold LinkMoved at h' ⊢
  rw [← hbase]
  exact hlift.trans h'

theorem OnlyComm.linkMoved {s t : State} (h : OnlyComm s t) : LinkMoved s t := by
  unfold LinkMoved
  rw [h.twin]
  exact h

theorem LinkMoved.pumpOne (s : State) (p : Nat) : LinkMoved s (s.pumpOne p) := by
  unfold State.pumpOne
  split
  · split
    · exact ((OnlyComm.modPort s p _).trans (OnlyComm.sendData _ _ _)).linkMoved
    · exact LinkMoved.refl s
  · split
    · split
      · dsimp only
        split
        · unfold LinkMoved
          rw [(OnlyComm.sendData _ 4 _).twin]
          exact OnlyComm.sendData _ 4 _
        · exact LinkMoved.refl s
      · exact LinkMoved.refl s
    · exact LinkMoved.refl s

theorem LinkMoved.foldl_pumpOne {α : Type} (l : List α) (s : State) (p : Nat) :
    LinkMoved s (l.foldl (fun s _ => s.pumpOne p) s) := by
  induction l generalizing s with
  | nil => exact LinkMoved.refl s
  | cons x t ih => exact (LinkMoved.pumpOne s p).trans (ih _)

theorem LinkMoved.reply (s : State) (p ty st : Nat) (tag : BitVec 16) (q : Nat) (b : List Byte) :
    LinkMoved s (s.reply p ty st tag q b) :=
  (OnlyComm.modPort s p _).linkMoved.trans (LinkMoved.foldl_pumpOne _ _ p)

/-! ### The Journal writer in any role -/

/-- Both Plan Store slots, which lie before the Journal, hold the same bytes (R326). -/
def SlotsKept (s t : State) : Prop := ∀ a, a < 4194304 → tabGet 0#8 t.nvm a = tabGet 0#8 s.nvm a

theorem SlotsKept.refl (s : State) : SlotsKept s s := fun _ _ => rfl

theorem SlotsKept.trans {s t u : State} (h : SlotsKept s t) (h' : SlotsKept t u) : SlotsKept s u :=
  fun a ha => (h' a ha).trans (h a ha)

theorem SlotsKept.of_nvm {s t : State} (h : t.nvm = s.nvm) : SlotsKept s t := fun a _ => by rw [h]

theorem SlotsKept.nvSt_jnl (s : State) (k n : Nat) (l : List Byte) : SlotsKept s (s.nvSt (jnlAddr k + n) l) := fun a ha =>
  tabGet_bytesPut_of_lt _ _ (show a < jnlAddr k + n by unfold jnlAddr; omega)

/-- The error marks of the words of both slots are the same. -/
def MarksKept (s t : State) : Prop := ∀ m a n, a + n ≤ 4194304 → t.nvMark m a n = s.nvMark m a n

theorem MarksKept.refl (s : State) : MarksKept s s := fun _ _ _ _ => rfl

theorem MarksKept.trans {s t u : State} (h : MarksKept s t) (h' : MarksKept t u) : MarksKept s u :=
  fun m a n ha => (h' m a n ha).trans (h m a n ha)

theorem MarksKept.of_ecc {s t : State} (h : t.nvmEcc = s.nvmEcc) : MarksKept s t := fun m a n _ => by
  unfold State.nvMark
  rw [h]

theorem any_filter_of_imp {α : Type} (l : List α) {p q : α → Bool} (h : ∀ x, q x = true → p x = true) :
    (l.filter p).any q = l.any q := by
  rw [List.any_filter]
  congr 1
  funext x
  cases hq : q x with
  | false => rw [Bool.and_false]
  | true => rw [h x hq, Bool.and_true]

theorem MarksKept.nvSt_jnl (s : State) (k n : Nat) (l : List Byte) : MarksKept s (s.nvSt (jnlAddr k + n) l) := fun m a b hab => by
  refine any_filter_of_imp _ fun x hx => ?_
  simp only [Bool.and_eq_true, decide_eq_true_eq] at hx
  have hlow : ¬ (jnlAddr k + n) / 8 ≤ x.1 := by unfold jnlAddr; omega
  simp [hlow]

/-- `t` is `s` but for what records and their frames on the twin link touch; the Plan Store's slots keep their bytes and marks, and what awaits
the writer, or is with it, still does. -/
structure RecordsMoved (s t : State) : Prop where
  frame : t = { s with
    cmds := t.cmds, jnl := t.jnl, nvm := t.nvm, nvmEcc := t.nvmEcc, fresh := t.fresh, ports := t.ports, wards := t.wards,
    outs := t.outs, regs := t.regs, twin := { s.twin with backlog := t.twin.backlog } }
  rd : ∀ a, (∀ l, a ≠ LN_TEST l) → t.rd a = s.rd a
  slots : SlotsKept s t
  marks : MarksKept s t
  awaits : ∀ d, s.awaits d → t.awaits d

theorem RecordsMoved.refl (s : State) : RecordsMoved s s := ⟨rfl, fun _ _ => rfl, SlotsKept.refl s, MarksKept.refl s, fun _ h => h⟩

theorem RecordsMoved.trans {s t u : State} (h : RecordsMoved s t) (h' : RecordsMoved t u) : RecordsMoved s u := by
  refine ⟨?_, fun a ha => (h'.rd a ha).trans (h.rd a ha), h.slots.trans h'.slots, h.marks.trans h'.marks, fun d hd => h'.awaits d (h.awaits d hd)⟩
  rw [h'.frame]; rw [h.frame]

theorem RecordsMoved.of_linkMoved {s t : State} (h : LinkMoved s t) : RecordsMoved s t := by
  have hjnl : t.jnl = s.jnl := by rw [h.1]
  refine ⟨?_, h.2, SlotsKept.of_nvm (by rw [h.1]), MarksKept.of_ecc (by rw [h.1]), fun d hd => ?_⟩
  · conv_lhs => rw [h.1]
    rw [h.1]
  · unfold State.awaits at *
    rwa [hjnl]

/-- The state with a record put into the slot of the next SEQNO (phase 1 of R330). -/
def State.slotFilled (s : State) (d : Option DueRec) (c : Option Nat) (b : List Byte) : State :=
  ({ s with jnl := { s.jnl with prog := some ⟨d, c, s.jnl.next, b⟩, next := s.jnl.next + 1 } }.nvSt
    (jnlAddr (s.jnl.next % jnlSlots)) (b.take 0x0E)).nvSt (jnlAddr (s.jnl.next % jnlSlots) + 0x10) (b.drop 0x10)

theorem State.beginRecord_moves (s : State) (d : Option DueRec) (c : Option Nat) (b : List Byte) :
    RecordsMoved (s.slotFilled d c b) (s.beginRecord d c b) := by
  show RecordsMoved _ (if (s.slotFilled d c b).paired then
    (s.slotFilled d c b).reply 4 0x51 0 0#16 (b2n ((s.slotFilled d c b).ofPeer c)) b else s.slotFilled d c b)
  split
  · exact RecordsMoved.of_linkMoved (LinkMoved.reply _ _ _ _ _ _ _)
  · exact RecordsMoved.refl _

theorem SlotsKept.slotFilled (s : State) (d : Option DueRec) (c : Option Nat) (b : List Byte) : SlotsKept s (s.slotFilled d c b) :=
  (SlotsKept.nvSt_jnl { s with jnl := { s.jnl with prog := some ⟨d, c, s.jnl.next, b⟩, next := s.jnl.next + 1 } } _ 0 _).trans
    (SlotsKept.nvSt_jnl _ _ _ _)

theorem MarksKept.slotFilled (s : State) (d : Option DueRec) (c : Option Nat) (b : List Byte) : MarksKept s (s.slotFilled d c b) :=
  (MarksKept.nvSt_jnl { s with jnl := { s.jnl with prog := some ⟨d, c, s.jnl.next, b⟩, next := s.jnl.next + 1 } } _ 0 _).trans
    (MarksKept.nvSt_jnl _ _ _ _)

/-- The state in which the oldest record due has left the list of those that wait. -/
def State.dueTaken (s : State) (cs : List Cmd) (f : Option (DueRec × Option Nat)) : State :=
  { s with jnl := { s.jnl with due := dropFirst s.dueHere s.jnl.due, fwd := f }, cmds := cs }

/-- All that the Journal writer does in any role when it is asked: nothing, or it begins a carried copy or the oldest record due, or
gives that one to the ACTIVE. -/
theorem State.pumpJournal_cases_any (s : State) : s.pumpJournal = s ∨ (s.jnl.prog = none ∧
    ((∃ c b, s.pumpJournal = s.beginRecord none c b) ∨ ∃ d, s.jnl.due.find? s.dueHere = some d ∧
      ((∃ cs c b, s.pumpJournal = (s.dueTaken cs s.jnl.fwd).beginRecord (some d) c b) ∨
        (s.jnl.fwd = none ∧ ∃ b, s.pumpJournal = (s.dueTaken s.cmds (some (d, none))).reply 4 0x51 0 0#16 1 b)))) := by
  by_cases hc : (s.jnl.stop || s.jnl.prog.isSome || s.pwr.gatedAll) = true
  · left; unfold State.pumpJournal; rw [if_pos hc]
  · have hprog : s.jnl.prog = none := by
      cases h : s.jnl.prog <;> simp_all
    by_cases hrole : s.role = 2
    · have he : s.pumpJournal = s.forwardRecord := by unfold State.pumpJournal; rw [if_neg hc, if_pos hrole]
      rw [he]
      unfold State.forwardRecord
      split
      · rename_i d hfwd hdue
        exact Or.inr ⟨hprog, Or.inr ⟨d, hdue, Or.inr ⟨hfwd, _, rfl⟩⟩⟩
      · exact Or.inl rfl
    · cases hdue : s.jnl.due.find? s.dueHere with
      | none => left; unfold State.pumpJournal; rw [if_neg hc, if_neg hrole]; simp only [hdue]
      | some d =>
        refine Or.inr ⟨hprog, ?_⟩
        unfold State.pumpJournal
        rw [if_neg hc, if_neg hrole]
        simp only [hdue]
        split
        · exact Or.inl ⟨_, _, rfl⟩
        · refine Or.inr ⟨d, rfl, Or.inl ?_⟩
          split
          · exact ⟨_, _, _, rfl⟩
          · exact ⟨s.cmds, _, _, rfl⟩

theorem RecordsMoved.slotFilled_of_none {s : State} (h : s.jnl.prog = none) (c : Option Nat) (b : List Byte) :
    RecordsMoved s (s.slotFilled none c b) := by
  refine ⟨rfl, fun _ _ => rfl, SlotsKept.slotFilled s none c b, MarksKept.slotFilled s none c b, fun d hd => ?_⟩
  rcases hd with hd | ⟨r, hr, -⟩ | hd
  · exact Or.inl hd
  · rw [h] at hr; cases hr
  · exact Or.inr (Or.inr hd)

theorem RecordsMoved.slotFilled_of_due {s : State} {d : DueRec} (h : s.jnl.prog = none) (hd : s.jnl.due.find? s.dueHere = some d)
    (cs : List Cmd) (c : Option Nat) (b : List Byte) : RecordsMoved s ((s.dueTaken cs s.jnl.fwd).slotFilled (some d) c b) := by
  refine ⟨rfl, fun _ _ => rfl, SlotsKept.slotFilled (s.dueTaken cs s.jnl.fwd) (some d) c b,
    MarksKept.slotFilled (s.dueTaken cs s.jnl.fwd) (some d) c b, fun x hx => ?_⟩
  rcases hx with hx | ⟨r, hr, -⟩ | hx
  · rcases mem_dropFirst hd hx with rfl | hx
    · exact Or.inr (Or.inl ⟨_, rfl, rfl⟩)
    · exact Or.inl hx
  · rw [h] at hr; cases hr
  · exact Or.inr (Or.inr hx)

theorem RecordsMoved.dueTaken_forward {s : State} {d : DueRec} (h : s.jnl.fwd = none) (hd : s.jnl.due.find? s.dueHere = some d) :
    RecordsMoved s (s.dueTaken s.cmds (some (d, none))) := by
  refine ⟨rfl, fun _ _ => rfl, SlotsKept.refl s, MarksKept.refl s, fun x hx => ?_⟩
  rcases hx with hx | hx | ⟨n, hx⟩
  · rcases mem_dropFirst hd hx with rfl | hx
    · exact Or.inr (Or.inr ⟨none, rfl⟩)
    · exact Or.inl hx
  · exact Or.inr (Or.inl hx)
  · rw [h] at hx; cases hx

theorem RecordsMoved.pumpJournal (s : State) : RecordsMoved s s.pumpJournal := by
  rcases s.pumpJournal_cases_any with e | ⟨hprog, ⟨c, b, e⟩ | ⟨d, hdue, ⟨cs, c, b, e⟩ | ⟨hfwd, b, e⟩⟩⟩ <;> rw [e]
  · exact RecordsMoved.refl s
  · exact (RecordsMoved.slotFilled_of_none hprog c b).trans (State.beginRecord_moves _ _ _ _)
  · exact (RecordsMoved.slotFilled_of_due hprog hdue cs c b).trans (State.beginRecord_moves _ _ _ _)
  · exact (RecordsMoved.dueTaken_forward hfwd hdue).trans (RecordsMoved.of_linkMoved (LinkMoved.reply _ _ _ _ _ _ _))

theorem RecordsMoved.modCmd (s : State) (id : Nat) (f : Cmd → Cmd) : RecordsMoved s (s.modCmd id f) :=
  ⟨rfl, fun _ _ => rfl, SlotsKept.refl s, MarksKept.refl s, fun _ h => h⟩

theorem RecordsMoved.useFree (s : State) : RecordsMoved s s.useFree := ⟨rfl, fun _ _ => rfl, SlotsKept.refl s, MarksKept.refl s, fun _ h => h⟩

theorem RecordsMoved.addDue (s : State) (d : DueRec) : RecordsMoved s (s.addDue d) :=
  ⟨rfl, fun _ _ => rfl, SlotsKept.refl s, MarksKept.refl s, fun _ h => State.awaits_addDue h⟩

theorem RecordsMoved.record (s : State) (k : RecKind) (c : Option Nat) (b d : List Byte) : RecordsMoved s (s.record k c b d) :=
  (RecordsMoved.addDue s _).trans (RecordsMoved.pumpJournal _)

theorem RecordsMoved.finishData (s : State) (id st arg : Nat) (d : List Byte) : RecordsMoved s (s.finishData id st arg d) := by
  unfold State.finishData
  split
  · exact (RecordsMoved.modCmd s id _).trans (RecordsMoved.record _ _ _ _ _)
  · exact RecordsMoved.refl s

theorem RecordsMoved.finish (s : State) (id st arg : Nat) : RecordsMoved s (s.finish id st arg) := RecordsMoved.finishData s id st arg []

theorem RecordsMoved.finishF (s : State) (id st : Nat) : RecordsMoved s (s.finishF id st) :=
  (RecordsMoved.useFree s).trans (RecordsMoved.finish _ _ _ _)

theorem RecordsMoved.started (s : State) (c : Cmd) : RecordsMoved s (s.started c) :=
  (RecordsMoved.modCmd s c.id _).trans (RecordsMoved.record _ _ _ _ _)

/-- The record asked for awaits the writer. -/
theorem State.awaits_record (s : State) (k : RecKind) (c : Option Nat) (b d : List Byte) : (s.record k c b d).awaits ⟨k, c, b, d⟩ :=
  (RecordsMoved.pumpJournal (s.addDue ⟨k, c, b, d⟩)).awaits _ (Or.inl (List.mem_append_right _ (List.mem_singleton.2 rfl)))

theorem State.awaits_finishData (s : State) {id : Nat} (ho : s.cmdOpen id = true) (st arg : Nat) (d : List Byte) :
    (s.finishData id st arg d).awaits ⟨.done, some id, doneBody st arg, d⟩ := by
  unfold State.finishData
  rw [if_pos ho]
  exact State.awaits_record _ _ _ _ _

/-- A command that has no final record ends, in any role. -/
theorem State.ends_finishF_any (s : State) {id : Nat} (ho : s.cmdOpen id = true) (st : Nat) :
    (s.finishF id st).ends id st (s.freeVal % 2 ^ 32) :=
  ⟨_, State.awaits_finishData s.useFree ho st _ [], rfl, rfl, rfl⟩

end Sys2Proof.Machine
end

section
/-! SUPPORT. Fields that lie apart, registers kept by chains of writes, and what JNL_PLAN_ shows of the Plan Store. -/

namespace Sys2Proof.Machine

/-! ### Writes of fields -/

/-- Both fields lie in their words and share no bit. -/
abbrev FRef.apart (f f' : FRef) : Prop :=
  f.hi < 64 ∧ f.lo ≤ f.hi ∧ f'.hi < 64 ∧ (f'.addr ≠ f.addr ∨ f.hi < f'.lo ∨ f'.hi < f.lo)

theorem State.g_p_apart (s : State) {f f' : FRef} (h : f.apart f') (v : Nat) : (s.p f v).g f' = s.g f' :=
  s.g_p_ne f f' v h.1 h.2.1 h.2.2.1 h.2.2.2

theorem State.g_pb_apart (s : State) {f f' : FRef} (h : f.apart f') (b : Bool) : (s.pb f b).g f' = s.g f' := s.g_p_apart h _

theorem State.gb_p_apart (s : State) {f f' : FRef} (h : f.apart f') (v : Nat) : (s.p f v).gb f' = s.gb f' := by
  unfold State.gb
  rw [s.g_p_apart h]

theorem State.gb_pb_apart (s : State) {f f' : FRef} (h : f.apart f') (b : Bool) : (s.pb f b).gb f' = s.gb f' := s.gb_p_apart h _

/-- A value that fits its field. -/
theorem State.g_p_fits (s : State) {f : FRef} {v : Nat} (h : f.hi < 64 ∧ f.lo ≤ f.hi) (hv : v < 2 ^ (f.hi + 1 - f.lo)) :
    (s.p f v).g f = v := by
  rw [s.g_p_self f v h.1 h.2, Nat.mod_eq_of_lt hv]

theorem RegsKept.refl (l : List Nat) (s : State) : RegsKept l s s := fun _ _ => rfl

theorem RegsKept.trans {l : List Nat} {s t u : State} (h : RegsKept l s t) (h' : RegsKept l t u) : RegsKept l s u :=
  fun a ha => (h' a ha).trans (h a ha)

theorem OnlyRegs.trans {s t u : State} (h : OnlyRegs s t) (h' : OnlyRegs t u) : OnlyRegs s u := by
  unfold OnlyRegs at *
  rw [h', h]

theorem OnlyRegs.p (s : State) (f : FRef) (v : Nat) : OnlyRegs s (s.p f v) := rfl

/-- Nothing but registers of `l` differs. -/
structure RegsMoved (l : List Nat) (s t : State) : Prop where
  frame : OnlyRegs s t
  kept : RegsKept l s t

theorem RegsMoved.refl (l : List Nat) (s : State) : RegsMoved l s s := ⟨rfl, RegsKept.refl l s⟩

theorem RegsMoved.trans {l : List Nat} {s t u : State} (h : RegsMoved l s t) (h' : RegsMoved l t u) : RegsMoved l s u :=
  ⟨h.frame.trans h'.frame, h.kept.trans h'.kept⟩

section
variable {l : List Nat} {s t : State} (h : RegsMoved l s t) (f : FRef)
include h

theorem RegsMoved.p (v : Nat) (hf : f.addr ∈ l) : RegsMoved l s (t.p f v) :=
  h.trans ⟨OnlyRegs.p t f v, fun _ ha => State.rd_p_ne t f v (fun e => ha (e.symm ▸ hf))⟩

theorem RegsMoved.pb (b : Bool) (hf : f.addr ∈ l) : RegsMoved l s (t.pb f b) := h.p f _ hf

end

theorem RegsKept.g {l : List Nat} {s t : State} (h : RegsKept l s t) {f : FRef} (hf : f.addr ∉ l) : t.g f = s.g f := by
  unfold State.g
  rw [h _ hf]

theorem RegsKept.gb {l : List Nat} {s t : State} (h : RegsKept l s t) {f : FRef} (hf : f.addr ∉ l) : t.gb f = s.gb f := by
  unfold State.gb
  rw [h.g hf]

theorem RegsKept.mono {l l' : List Nat} {s t : State} (h : RegsKept l s t) (hl : ∀ a ∈ l, a ∈ l') : RegsKept l' s t :=
  fun a ha => h a (fun hm => ha (hl a hm))

theorem LN_TEST_ne {a : Nat} (h : a % 256 ≠ 32) (l : Nat) : a ≠ LN_TEST l := by
  unfold LN_TEST
  omega

theorem RecordsMoved.g {s t : State} (h : RecordsMoved s t) {f : FRef} (hf : ∀ l, f.addr ≠ LN_TEST l) : t.g f = s.g f := by
  unfold State.g
  rw [h.rd _ hf]

/-! ### The registers that show the Plan Store -/

/-- The registers that show the Plan Store. -/
abbrev storeRegs : List Nat := [JNL_PLAN_STATUS, JNL_PLAN_SEALS, JNL_PLAN_PENDING_ID, JNL_PLAN_CRC]

/-- The fields that follow the Plan Store. -/
abbrev storeFields : List FRef :=
  [JNL_PLAN_STATUS_PENDING, JNL_PLAN_STATUS_RETIRED, JNL_PLAN_STATUS_ACTIVE_SLOT, JNL_PLAN_STATUS_REQUIRE_SIG,
    JNL_PLAN_STATUS_KEY0_VALID, JNL_PLAN_STATUS_KEY1_VALID, JNL_PLAN_SEALS_COUNT, JNL_PLAN_PENDING_ID_PLAN_ID, JNL_PLAN_CRC_PENDING_CRC]

theorem State.showStore_moves (s : State) : RegsMoved storeRegs s s.showStore := by
  unfold State.showStore
  extract_lets d pend s1 s2 s3 s4
  have h1 : RegsMoved storeRegs s s1 :=
    (((RegsMoved.refl _ s).pb JNL_PLAN_STATUS_PENDING _ (by decide)).pb JNL_PLAN_STATUS_RETIRED _ (by decide)).pb
      JNL_PLAN_STATUS_ACTIVE_SLOT _ (by decide)
  have h2 : RegsMoved storeRegs s s2 :=
    (h1.pb JNL_PLAN_STATUS_REQUIRE_SIG _ (by decide)).pb JNL_PLAN_STATUS_KEY0_VALID _ (by decide)
  have h3 : RegsMoved storeRegs s s3 :=
    (h2.pb JNL_PLAN_STATUS_KEY1_VALID _ (by decide)).p JNL_PLAN_SEALS_COUNT _ (by decide)
  have h4 : RegsMoved storeRegs s s4 := h3.p JNL_PLAN_PENDING_ID_PLAN_ID _ (by decide)
  exact h4.p JNL_PLAN_CRC_PENDING_CRC _ (by decide)

/-- The state with the fields of the slot descriptor shown. -/
def State.showDesc (s : State) : State :=
  ((s.pb JNL_PLAN_STATUS_PENDING s.store.desc.pending).pb JNL_PLAN_STATUS_RETIRED s.store.desc.retired).pb
    JNL_PLAN_STATUS_ACTIVE_SLOT s.store.desc.activeB

theorem State.showStore_g_showDesc (s : State) {f : FRef} (h : ∀ x ∈ storeFields.drop 3, x.apart f) :
    s.showStore.g f = s.showDesc.g f := by
  simp only [storeFields, List.drop_succ_cons, List.drop_zero, List.forall_mem_cons] at h
  obtain ⟨hreq, hkey0, hkey1, hcount, hid, hcrc, -⟩ := h
  unfold State.showStore
  extract_lets d pend s1 s2 s3 s4
  calc (s4.p JNL_PLAN_CRC_PENDING_CRC _).g f
    _ = s4.g f := s4.g_p_apart hcrc _
    _ = s3.g f := s3.g_p_apart hid _
    _ = (s2.pb JNL_PLAN_STATUS_KEY1_VALID _).g f := State.g_p_apart _ hcount _
    _ = s2.g f := s2.g_p_apart hkey1 _
    _ = (s1.pb JNL_PLAN_STATUS_REQUIRE_SIG _).g f := State.g_pb_apart _ hkey0 _
    _ = s1.g f := s1.g_pb_apart hreq _

theorem State.showStore_g (s : State) {f : FRef} (h : ∀ x ∈ storeFields, x.apart f) : s.showStore.g f = s.g f := by
  rw [s.showStore_g_showDesc fun x hx => h x (List.mem_of_mem_drop hx)]
  simp only [storeFields, List.forall_mem_cons] at h
  obtain ⟨hpend, hret, hact, -⟩ := h
  exact ((State.g_pb_apart _ hact _).trans (State.g_pb_apart _ hret _)).trans (s.g_pb_apart hpend _)

theorem State.showStore_pending (s : State) : s.showStore.gb JNL_PLAN_STATUS_PENDING = s.store.desc.pending := by
  have hdesc : s.showDesc.gb JNL_PLAN_STATUS_PENDING = s.store.desc.pending := by
    unfold State.showDesc
    rw [State.gb_pb_apart _ (by decide), State.gb_pb_apart _ (by decide), s.gb_pb_self _ _ (by decide) (by decide)]
  rw [← hdesc]
  unfold State.gb
  rw [s.showStore_g_showDesc (by decide)]

theorem State.showStore_retired (s : State) : s.showStore.gb JNL_PLAN_STATUS_RETIRED = s.store.desc.retired := by
  have hdesc : s.showDesc.gb JNL_PLAN_STATUS_RETIRED = s.store.desc.retired := by
    unfold State.showDesc
    rw [State.gb_pb_apart _ (by decide), State.gb_pb_self _ _ _ (by decide) (by decide)]
  rw [← hdesc]
  unfold State.gb
  rw [s.showStore_g_showDesc (by decide)]

theorem State.setStage_moves (s : State) (v : Nat) : RegsMoved storeRegs s (s.setStage v) :=
  ((RegsMoved.refl storeRegs s).p JNL_PLAN_STATUS_STAGE v (by decide)).trans (State.showStore_moves _)

theorem State.setStage_stage (s : State) {v : Nat} (h : v < 8) : (s.setStage v).stage = v :=
  (State.showStore_g _ (by decide)).trans (s.g_p_fits (by decide) h)

end Sys2Proof.Machine
end

section
/-! SUPPORT. The Townplan commands (R33 to R37, R54 to R58; Table 2.11): a command that may start runs its effect on the state in which
its STARTED record is due, and completes; what the effect does to the Plan Store stands. -/

namespace Sys2Proof.Machine

/-! ### A command that starts -/

/-- The state in which the effect of the command `c` begins: its start mark is secured and its STARTED record is due. -/
def State.begun (s : State) (c : Cmd) : State :=
  (s.modCmd c.id (fun c => { c with marked := true })).started { c with marked := true }

theorem State.begun_moves (s : State) (c : Cmd) : RecordsMoved s (s.begun c) :=
  (RecordsMoved.modCmd s c.id _).trans (RecordsMoved.started _ _)

theorem State.begun_slots (s : State) (c : Cmd) : SlotsKept s (s.begun c) := (s.begun_moves c).slots

theorem State.takes.runCmd {s : State} {w : Fin 4} {q : Fin 8} {op : Nat} {c : Cmd} (h : s.takes w q op c) (f : Cmd → State → State) :
    s.runCmd w.val q.val op f = f { c with marked := true } (s.modCmd c.id (fun c => { c with marked := true })) :=
  State.runCmd_go h.1 f

section
variable {s : State} {w : Fin 4} {q : Fin 8} {op : Nat} {c : Cmd} (h : s.takes w q op c)
include h

theorem State.takes.begun_onlyJournal : OnlyJournal s (s.begun c) :=
  (OnlyJournal.modCmd s _ _).trans (OnlyJournal.started _ _ ((OnlyJournal.modCmd s _ _).alone h.2))

theorem State.takes.begun_alone : (s.begun c).alone := h.begun_onlyJournal.alone h.2

theorem State.takes.begun_starts : (s.begun c).starts c.id :=
  State.starts_started (s := s.modCmd c.id (fun c => { c with marked := true })) ((OnlyJournal.modCmd s _ _).alone h.2) { c with marked := true }

theorem State.takes.begun_cmdOpen : (s.begun c).cmdOpen c.id = true := by
  have hopen : (s.modCmd c.id (fun c => { c with marked := true })).cmdOpen c.id = true := by
    rw [State.cmdOpen_congr (s := s) (openKeys_updFirst _ (fun c => { c with marked := true }) (fun _ => ⟨rfl, rfl⟩) s.cmds)]
    exact State.cmdOpen_go h.1
  exact State.cmdOpen_started (s := s.modCmd c.id (fun c => { c with marked := true })) ((OnlyJournal.modCmd s _ _).alone h.2)
    { c with marked := true } hopen

/-- A state that holds the same records and the same commands as when the effect began, where the command then completes. -/
theorem State.takes.completes_finishF {e : State} (hjnl : e.jnl = (s.begun c).jnl) (hcmds : e.cmds = (s.begun c).cmds) (he : e.alone) :
    (e.finishF c.id 0).completes c.id 0 := by
  have hstart : e.starts c.id := State.holdsDue_congr hjnl h.begun_starts
  have hopen : e.cmdOpen c.id = true := by
    rw [State.cmdOpen_congr (s := s.begun c) (by rw [hcmds])]
    exact h.begun_cmdOpen
  exact ⟨State.starts_finishF he hstart c.id 0, _, State.ends_finishF he hopen 0⟩

end

/-! ### Effects on the Plan Store alone -/

/-- `e` is `u` but for the Plan Store, the registers that show it, and the non-volatile memory. -/
structure StoreMoved (u e : State) : Prop where
  frame : e = { u with regs := e.regs, store := e.store, nvm := e.nvm, nvmEcc := e.nvmEcc }
  regs : RegsKept storeRegs u e

/-- What the Journal moves depends on no register and not on the Plan Store. -/
theorem OnlyJournal.setStore {s u : State} (h : OnlyJournal s u) (r : Tab Word) (x : PlanStore) :
    OnlyJournal { s with regs := r, store := x } { u with regs := r, store := x } := by
  unfold OnlyJournal at *
  rw [h]

theorem StoreMoved.onlyJournal {u e : State} (h : StoreMoved u e) : OnlyJournal { u with regs := e.regs, store := e.store } e := by
  unfold OnlyJournal
  rw [h.frame]

theorem StoreMoved.trans {s t u : State} (h : StoreMoved s t) (h' : StoreMoved t u) : StoreMoved s u := by
  refine ⟨?_, h.regs.trans h'.regs⟩
  rw [h'.frame]; rw [h.frame]

theorem StoreMoved.of_regsMoved {u e : State} (h : RegsMoved storeRegs u e) : StoreMoved u e := by
  refine ⟨?_, h.kept⟩
  have hframe := h.frame
  unfold OnlyRegs at hframe
  rw [hframe]

theorem StoreMoved.setStore (u : State) (x : PlanStore) : StoreMoved u { u with store := x } := ⟨rfl, fun _ _ => rfl⟩

theorem StoreMoved.setStage (u : State) (v : Nat) : StoreMoved u (u.setStage v) := StoreMoved.of_regsMoved (u.setStage_moves v)

theorem StoreMoved.showStore (u : State) : StoreMoved u u.showStore := StoreMoved.of_regsMoved u.showStore_moves

theorem StoreMoved.commitDesc (u : State) (d : PlanDesc) : StoreMoved u (u.commitDesc d) := ⟨rfl, fun _ _ => rfl⟩

theorem StoreMoved.alone {u e : State} (h : StoreMoved u e) (hu : u.alone) : e.alone := by
  unfold State.alone State.paired State.role at *
  rwa [h.regs.g (f := TWN_STATUS_ROLE) (by decide), h.regs.gb (f := TWN_STATUS_PAIRED) (by decide)]

/-- What holds of a command whose effect `e` moves the Plan Store alone, in the state `t` where it has completed. -/
structure StoreCommand (s : State) (c : Cmd) (e t : State) : Prop where
  completes : t.completes c.id 0
  store : t.store = e.store
  g : ∀ f, t.g f = e.g f
  slots : SlotsKept e t
  regs : RegsKept storeRegs s t
  frame : OnlyJournal { s with regs := t.regs, store := t.store } t

theorem State.takes.storeCommand {s : State} {w : Fin 4} {q : Fin 8} {op : Nat} {c : Cmd} (h : s.takes w q op c) {e : State}
    (he : StoreMoved (s.begun c) e) : StoreCommand s c e (e.finishF c.id 0) := by
  have halone : e.alone := he.alone h.begun_alone
  have hend : OnlyJournal e (e.finishF c.id 0) := OnlyJournal.finishF e c.id 0 halone
  have hregs : (e.finishF c.id 0).regs = e.regs := hend.regs
  have hstore : (e.finishF c.id 0).store = e.store := by rw [hend]
  refine ⟨h.completes_finishF (by rw [he.frame]) (by rw [he.frame]) halone, hstore, State.g_congr hregs,
    (RecordsMoved.finishF e c.id 0).slots, fun a ha => ?_, ?_⟩
  · rw [State.rd_congr hregs, he.regs a ha, State.rd_congr h.begun_onlyJournal.regs]
  · rw [hregs, hstore]
    exact ((h.begun_onlyJournal.setStore e.regs e.store).trans he.onlyJournal).trans hend

theorem StoreCommand.stage {s : State} {c : Cmd} {e t : State} (h : StoreCommand s c e t) {v : Nat} (he : e.stage = v) : t.stage = v :=
  (h.g _).trans he

/-! ### The argument bytes -/

/-- A number at the front of a byte string. -/
theorem u_front (r : List Byte) (n v : Nat) : u (toLe n v ++ r) 0 n = v % 256 ^ n := u_toLe [] r n v

theorem toLe_zero (n : Nat) : toLe n 0 = List.replicate n 0#8 := by
  induction n with
  | zero => rfl
  | succ n ih => rw [toLe, ih]; rfl

theorem zeros_middle (l r : List Byte) (n : Nat) : zeros (l ++ toLe n 0 ++ r) l.length n = true := by
  have h := sub_middle l (toLe n 0) r
  rw [toLe_length] at h
  rw [zeros, h, toLe_zero, List.all_replicate]
  simp

end Sys2Proof.Machine
end

section
/-! SUPPORT. PLAN_BEGIN, PLAN_LOAD and PLAN_VERIFY (R31, R33, R35). -/

namespace Sys2Proof.Machine

/-! ### Bytes of the non-volatile memory -/

theorem tabGet_filter_of_kept {α : Type} (d : α) (t : Tab α) {f : Nat × α → Bool} {i : Nat} (h : ∀ v, f (i, v) = true) :
    tabGet d (t.filter f) i = tabGet d t i := by
  induction t with
  | nil => rfl
  | cons p t ih =>
    by_cases hp : f p = true
    · rw [List.filter_cons_of_pos hp, tabGet_cons, tabGet_cons, ih]
    · have hi : ¬ i = p.1 := by rintro rfl; exact hp (h p.2)
      rw [List.filter_cons_of_neg hp, tabGet_cons, if_neg hi, ih]

theorem tabGet_filter_of_dropped {α : Type} (d : α) (t : Tab α) {f : Nat × α → Bool} {i : Nat} (h : ∀ v, f (i, v) = false) :
    tabGet d (t.filter f) i = d := by
  induction t with
  | nil => rfl
  | cons p t ih =>
    by_cases hp : f p = true
    · have hi : ¬ i = p.1 := by rintro rfl; simp [h p.2] at hp
      rw [List.filter_cons_of_pos hp, tabGet_cons, if_neg hi, ih]
    · rw [List.filter_cons_of_neg hp, ih]

theorem tabGet_tabDrop_of_out {α : Type} (d : α) (t : Tab α) {lo hi i : Nat} (h : i < lo ∨ hi ≤ i) :
    tabGet d (tabDrop lo hi t) i = tabGet d t i :=
  tabGet_filter_of_kept d t fun _ => by simp; omega

theorem tabGet_tabDrop_of_in {α : Type} (d : α) (t : Tab α) {lo hi i : Nat} (hl : lo ≤ i) (hh : i < hi) :
    tabGet d (tabDrop lo hi t) i = d :=
  tabGet_filter_of_dropped d t fun _ => by simp; omega

theorem tabGet_bytesPut_of_out (m : Tab Byte) (l : List Byte) {a i : Nat} (h : i < a ∨ a + l.length ≤ i) :
    tabGet 0#8 (bytesPut m a l) i = tabGet 0#8 m i := by
  induction l generalizing m a with
  | nil => rfl
  | cons b t ih =>
    rw [List.length_cons] at h
    rw [bytesPut, ih _ (by omega), tabGet_tabSet_ne _ _ _ _ (by omega)]

theorem slotBase_le (b : Bool) : slotBase b ≤ 2097152 := by cases b <;> decide

theorem SlotsKept.nvLd {s t : State} (h : SlotsKept s t) {a n : Nat} (ha : a + n ≤ 4194304) : t.nvLd a n = s.nvLd a n := by
  unfold State.nvLd
  refine List.map_congr_left fun i hi => h _ ?_
  rw [List.mem_range] at hi
  omega

/-! ### PLAN_BEGIN -/

/-- The staging slot is cleared up to the announced length. -/
def State.clearSlot (s : State) (n : Nat) : State :=
  { s with
    nvm := tabDrop (slotBase s.stageSlot) (slotBase s.stageSlot + roundUp 64 n) s.nvm,
    nvmEcc := tabDrop (slotBase s.stageSlot / 8) ((slotBase s.stageSlot + roundUp 64 n) / 8) s.nvmEcc,
    store := { s.store with stageLen := n } }

/-- The effect of PLAN_BEGIN: the staging slot is clear, and the stage is STAGING (R33). -/
def State.slotCleared (s : State) (n : Nat) : State := (s.clearSlot n).setStage 1

theorem le_roundUp (n : Nat) : n ≤ roundUp 64 n := by unfold roundUp; omega

theorem planBegin_eq {s : State} {c : Cmd} {n : Nat} (hargs : c.args = toLe 4 n ++ toLe 4 0) (hlo : 128 ≤ n) (hhi : n ≤ 2097152)
    (hstage : s.stage ≠ 2) (hpend : s.store.desc.pending = false) (hslot : (s.started c).store = s.store) :
    planBegin c s = ((s.started c).slotCleared n).finishF c.id 0 := by
  have hn : u c.args 0 4 = n := by
    rw [hargs, u_front, Nat.mod_eq_of_lt (by omega)]
  have hz : zeros c.args 4 4 = true := by
    have h := zeros_middle (toLe 4 n) [] 4
    rwa [List.append_nil, toLe_length, ← hargs] at h
  have hlen : c.args.length = 8 := by simp [hargs]
  have hlo' : ¬ n < 128 := by omega
  have hhi' : ¬ 2097152 < n := by omega
  simp [planBegin, hn, hz, hlen, hlo', hhi', hstage, hpend, State.slotCleared, State.clearSlot, State.stageSlot, hslot]

theorem StoreMoved.slotCleared (u : State) (n : Nat) : StoreMoved u (u.slotCleared n) :=
  StoreMoved.trans (t := u.clearSlot n) ⟨rfl, fun _ _ => rfl⟩ (StoreMoved.setStage _ 1)

section
variable (s : State) {n i : Nat}

theorem State.slotCleared_nvm : (s.slotCleared n).nvm = tabDrop (slotBase s.stageSlot) (slotBase s.stageSlot + roundUp 64 n) s.nvm := by
  rw [State.slotCleared, (State.setStage_moves _ 1).frame]; rfl

theorem State.slotCleared_store : (s.slotCleared n).store = { s.store with stageLen := n } := by
  rw [State.slotCleared, (State.setStage_moves _ 1).frame]; rfl

theorem State.slotCleared_stage : (s.slotCleared n).stage = 1 := State.setStage_stage _ (by decide)

end

theorem exec_planBegin {s : State} {w : Fin 4} {q : Fin 8} {c : Cmd} {n : Nat} (h : s.takes w q 0x10 c)
    (hargs : c.args = toLe 4 n ++ toLe 4 0) (hlo : 128 ≤ n) (hhi : n ≤ 2097152) (hstage : s.stage ≠ 2)
    (hpend : s.store.desc.pending = false) :
    exec (.planBegin w q) s = .next (((s.begun c).slotCleared n).finishF c.id 0) := by
  show Host.Outcome.next _ = _
  rw [h.runCmd]
  exact congrArg _ (planBegin_eq (c := { c with marked := true }) (s := s.modCmd c.id _) hargs hlo hhi hstage hpend
    (by rw [OnlyJournal.started _ _ ((OnlyJournal.modCmd s _ _).alone h.2)]))

theorem planBegin_stages {s : State} {w : Fin 4} {q : Fin 8} {c : Cmd} {n : Nat} (h : s.takes w q 0x10 c)
    (hargs : c.args = toLe 4 n ++ toLe 4 0) (hlo : 128 ≤ n) (hhi : n ≤ 2097152) (hstage : s.stage ≠ 2)
    (hpend : s.store.desc.pending = false) :
    Gives (.planBegin w q) s (fun t => t.completes c.id 0 ∧ t.stage = 1 ∧ t.store = { s.store with stageLen := n } ∧
      (∀ i, i < n → tabGet 0#8 t.nvm (slotBase s.stageSlot + i) = 0#8) ∧
      (∀ a, a < 4194304 → a < slotBase s.stageSlot ∨ slotBase s.stageSlot + roundUp 64 n ≤ a → tabGet 0#8 t.nvm a = tabGet 0#8 s.nvm a) ∧
      RegsKept storeRegs s t ∧ OnlyJournal { s with regs := t.regs, store := t.store } t) := by
  have hdone := h.storeCommand (StoreMoved.slotCleared (s.begun c) n)
  have hstore : (s.begun c).store = s.store := by rw [h.begun_onlyJournal]
  have hslot : (s.begun c).stageSlot = s.stageSlot := congrArg (fun x : PlanStore => !x.desc.activeB) hstore
  have hbase := slotBase_le s.stageSlot
  have hround := le_roundUp n
  refine ⟨_, exec_planBegin h hargs hlo hhi hstage hpend, hdone.completes, hdone.stage (State.slotCleared_stage _), ?_,
    fun i hi => ?_, fun a ha hout => ?_, hdone.regs, hdone.frame⟩
  · rw [hdone.store, State.slotCleared_store, hstore]
  · rw [hdone.slots _ (by omega), State.slotCleared_nvm, hslot, tabGet_tabDrop_of_in _ _ (by omega) (by omega)]
  · rw [hdone.slots a ha, State.slotCleared_nvm, hslot, tabGet_tabDrop_of_out _ _ hout]
    exact s.begun_slots c a ha

/-! ### PLAN_LOAD -/

/-- DATA stands in the staging slot at OFFSET, and the stage is STAGING: a verdict is discarded (R35). -/
def State.slotLoaded (s : State) (o : Nat) (data : List Byte) : State := (s.nvSt (slotBase s.stageSlot + o) data).setStage 1

theorem planLoad_eq {s : State} {c : Cmd} {o : Nat} {data : List Byte} (hargs : c.args = toLe 4 o ++ toLe 4 0 ++ data)
    (hpos : 1 ≤ data.length) (hmax : data.length ≤ 1024) (hal : o % 64 = 0) (hstage : s.stage = 1)
    (hin : o + data.length ≤ s.store.stageLen) (hlen : s.store.stageLen ≤ 2097152) (hslot : (s.started c).store = s.store) :
    planLoad c s = ((s.started c).slotLoaded o data).finishF c.id 0 := by
  have ho : u c.args 0 4 = o := by
    rw [hargs, List.append_assoc, u_front, Nat.mod_eq_of_lt (by omega)]
  have hz : zeros c.args 4 4 = true := by
    have h := zeros_middle (toLe 4 o) data 4
    rwa [toLe_length, ← hargs] at h
  have hargsLen : c.args.length = 8 + data.length := by simp [hargs]; omega
  have hdata : c.args.drop 8 = data := by
    have h : (toLe 4 o ++ toLe 4 0).length = 8 := by simp
    rw [hargs, ← h, List.drop_left]
  have hshort : ¬ 8 + data.length < 9 := by omega
  have hlong : ¬ 1032 < 8 + data.length := by omega
  have hover : ¬ s.store.stageLen < o + data.length := by omega
  simp [planLoad, ho, hz, hargsLen, hdata, hshort, hlong, hal, hstage, hover, State.slotLoaded, State.stageSlot, hslot]

theorem StoreMoved.slotLoaded (u : State) (o : Nat) (data : List Byte) : StoreMoved u (u.slotLoaded o data) :=
  StoreMoved.trans (t := u.nvSt (slotBase u.stageSlot + o) data) ⟨rfl, fun _ _ => rfl⟩ (StoreMoved.setStage _ 1)

section
variable (s : State) (o : Nat) (data : List Byte)

theorem State.slotLoaded_nvm : (s.slotLoaded o data).nvm = bytesPut s.nvm (slotBase s.stageSlot + o) data := by
  rw [State.slotLoaded, (State.setStage_moves _ 1).frame]; rfl

theorem State.slotLoaded_store : (s.slotLoaded o data).store = s.store := by
  rw [State.slotLoaded, (State.setStage_moves _ 1).frame]; rfl

theorem State.slotLoaded_stage : (s.slotLoaded o data).stage = 1 := State.setStage_stage _ (by decide)

theorem State.slotLoaded_nvLd : (s.slotLoaded o data).nvLd (slotBase s.stageSlot + o) data.length = data := by
  unfold State.nvLd
  rw [State.slotLoaded_nvm, map_tabGet_bytesPut]

end

theorem planLoad_loads {s : State} {w : Fin 4} {q : Fin 8} {c : Cmd} {o : Nat} {data : List Byte} (h : s.takes w q 0x11 c)
    (hargs : c.args = toLe 4 o ++ toLe 4 0 ++ data) (hpos : 1 ≤ data.length) (hmax : data.length ≤ 1024) (hal : o % 64 = 0)
    (hstage : s.stage = 1) (hin : o + data.length ≤ s.store.stageLen) (hlen : s.store.stageLen ≤ 2097152) :
    Gives (.planLoad w q) s (fun t => t.completes c.id 0 ∧ t.stage = 1 ∧ t.store = s.store ∧
      t.nvLd (slotBase s.stageSlot + o) data.length = data ∧
      (∀ a, a < 4194304 → a < slotBase s.stageSlot + o ∨ slotBase s.stageSlot + o + data.length ≤ a →
        tabGet 0#8 t.nvm a = tabGet 0#8 s.nvm a) ∧
      RegsKept storeRegs s t ∧ OnlyJournal { s with regs := t.regs } t) := by
  have hdone := h.storeCommand (StoreMoved.slotLoaded (s.begun c) o data)
  have hstore : (s.begun c).store = s.store := by rw [h.begun_onlyJournal]
  have hslot : (s.begun c).stageSlot = s.stageSlot := congrArg (fun x : PlanStore => !x.desc.activeB) hstore
  have hbase := slotBase_le s.stageSlot
  have htstore : (((s.begun c).slotLoaded o data).finishF c.id 0).store = s.store := by
    rw [hdone.store, State.slotLoaded_store, hstore]
  have hexec : exec (.planLoad w q) s = .next (((s.begun c).slotLoaded o data).finishF c.id 0) := by
    show Host.Outcome.next _ = _
    rw [h.runCmd]
    exact congrArg _ (planLoad_eq (c := { c with marked := true }) (s := s.modCmd c.id _) hargs hpos hmax hal hstage hin hlen hstore)
  refine ⟨_, hexec, hdone.completes, hdone.stage (State.slotLoaded_stage _ _ _), htstore, ?_, fun a ha hout => ?_, hdone.regs, ?_⟩
  · have hload := (s.begun c).slotLoaded_nvLd o data
    rw [hslot] at hload
    rw [hdone.slots.nvLd (by omega), hload]
  · rw [hdone.slots a ha, State.slotLoaded_nvm, hslot, tabGet_bytesPut_of_out _ _ hout]
    exact s.begun_slots c a ha
  · have hframe := hdone.frame
    rwa [htstore] at hframe

/-! ### PLAN_VERIFY -/

/-- The validation of command `id` goes on. -/
def State.setVerify (s : State) (id : Nat) : State := { s with store := { s.store with verify := some id } }

/-- The effect of PLAN_VERIFY: the stage is VALIDATING (R31). -/
def State.validating (s : State) (id : Nat) : State := (s.setStage 2).setVerify id

theorem planVerify_eq {s : State} {c : Cmd} (hargs : c.args = []) (hstage : s.stage = 1) :
    planVerify c s = (s.started c).validating c.id := by
  unfold planVerify
  rw [if_neg (by simp [hargs]), if_neg (by simp [hstage])]
  dsimp only
  unfold State.validating State.setVerify
  rfl

theorem StoreMoved.setVerify (u : State) (id : Nat) : StoreMoved u (u.setVerify id) := ⟨rfl, fun _ _ => rfl⟩

theorem StoreMoved.validating (u : State) (id : Nat) : StoreMoved u (u.validating id) :=
  (StoreMoved.setStage u 2).trans (StoreMoved.setVerify _ id)

section
variable (s : State) (id : Nat)

theorem State.setVerify_regs : (s.setVerify id).regs = s.regs := rfl

theorem State.setVerify_nvm : (s.setVerify id).nvm = s.nvm := rfl

theorem State.setVerify_store : (s.setVerify id).store = { s.store with verify := some id } := rfl

theorem State.validating_stage : (s.validating id).stage = 2 :=
  (State.g_congr (State.setVerify_regs _ id) _).trans (s.setStage_stage (by decide))

theorem State.validating_nvm : (s.validating id).nvm = s.nvm := by
  rw [State.validating, State.setVerify_nvm, (s.setStage_moves 2).frame]

theorem State.validating_store : (s.validating id).store = { s.store with verify := some id } := by
  rw [State.validating, State.setVerify_store, (s.setStage_moves 2).frame]

end

theorem planVerify_validates {s : State} {w : Fin 4} {q : Fin 8} {c : Cmd} (h : s.takes w q 0x12 c) (hargs : c.args = [])
    (hstage : s.stage = 1) :
    Gives (.planVerify w q) s (fun t => t.starts c.id ∧ t.stage = 2 ∧ t.store = { s.store with verify := some c.id } ∧
      (∀ a, a < 4194304 → tabGet 0#8 t.nvm a = tabGet 0#8 s.nvm a) ∧ RegsKept storeRegs s t ∧
      OnlyJournal { s with regs := t.regs, store := t.store } t) := by
  have hexec : exec (.planVerify w q) s = .next ((s.begun c).validating c.id) := by
    show Host.Outcome.next _ = _
    rw [h.runCmd]
    exact congrArg _ (planVerify_eq (c := { c with marked := true }) (s := s.modCmd c.id _) hargs hstage)
  have hbegun := h.begun_onlyJournal
  have hmoved := StoreMoved.validating (s.begun c) c.id
  have hstore : ((s.begun c).validating c.id).store = { s.store with verify := some c.id } := by
    rw [State.validating_store, hbegun]
  refine ⟨_, hexec, ?_, State.validating_stage _ _, hstore, ?_, fun a ha => ?_, ?_⟩
  · exact State.holdsDue_congr (s := s.begun c) (by rw [hmoved.frame]) h.begun_starts
  · exact (s.begun_slots c).trans (SlotsKept.of_nvm (State.validating_nvm _ _))
  · rw [hmoved.regs a ha, State.rd_congr hbegun.regs]
  · exact (hbegun.setStore _ _).trans hmoved.onlyJournal

/-- Settles O16. Each effect moves the Plan Store alone; the Journal's records lie behind both slots. -/
theorem stagingFillsTheSlot : Obligations.StagingFillsTheSlot := by
  unfold Obligations.StagingFillsTheSlot
  exact fun s w q c => ⟨fun n h => planBegin_stages h, fun o data h => planLoad_loads h, planVerify_validates⟩

end Sys2Proof.Machine
end

section
/-! SUPPORT. What the validation, the restore check and the plan of an image look at: the non-volatile memory with its error marks, the
key slots and REQUIRE_SIG (R29, R31, R39). -/

namespace Sys2Proof.Machine

/-- Both states hold the same images, keys and REQUIRE_SIG. -/
structure SameImage (s t : State) : Prop where
  nvm : t.nvm = s.nvm
  ecc : t.nvmEcc = s.nvmEcc
  key0 : t.store.key0 = s.store.key0
  key1 : t.store.key1 = s.store.key1
  req : t.store.requireSig = s.store.requireSig

section
variable {s t : State} (h : SameImage s t)
include h

/-! ### Reading an image -/

theorem SameImage.nvLd : t.nvLd = s.nvLd := by
  unfold State.nvLd
  rw [h.nvm]

theorem SameImage.iu : t.iu = s.iu := by
  unfold State.iu
  rw [h.nvLd]

theorem SameImage.firstNonzero : t.firstNonzero = s.firstNonzero := by
  unfold State.firstNonzero
  rw [h.nvm]

theorem SameImage.nvMark : t.nvMark = s.nvMark := by
  unfold State.nvMark
  rw [h.ecc]

theorem SameImage.nvBad : t.nvBad = s.nvBad := by
  unfold State.nvBad
  rw [h.nvMark]

theorem SameImage.key : t.store.key = s.store.key := by
  unfold PlanStore.key
  rw [h.key0, h.key1]

theorem SameImage.sects : t.sects = s.sects := by
  unfold State.sects
  rw [h.iu]

theorem SameImage.regWords : t.regWords = s.regWords := by
  funext base fin n
  induction n with
  | zero => rfl
  | succ n ih =>
    funext o
    simp only [State.regWords, h.iu, ih]

theorem SameImage.sectWords : t.sectWords = s.sectWords := by
  unfold State.sectWords
  rw [h.regWords]

theorem SameImage.readWard : t.readWard = s.readWard := by
  unfold State.readWard
  rw [h.iu]

theorem SameImage.imgWards : t.imgWards = s.imgWards := by
  unfold State.imgWards
  rw [h.readWard]

theorem SameImage.imgRegions : t.imgRegions = s.imgRegions := by
  unfold State.imgRegions
  rw [h.iu]

theorem SameImage.imgResources : t.imgResources = s.imgResources := by
  unfold State.imgResources
  rw [h.iu]

theorem SameImage.imgCbOwner : t.imgCbOwner = s.imgCbOwner := by
  unfold State.imgCbOwner
  rw [h.iu]

theorem SameImage.readPlan : t.readPlan = s.readPlan := by
  unfold State.readPlan
  rw [h.sects, h.imgWards, h.iu, h.imgCbOwner, h.imgRegions, h.imgResources]

/-! ### The checks in their order (Table 2.10) -/

theorem SameImage.chkFormat : t.chkFormat = s.chkFormat := by
  unfold State.chkFormat
  rw [h.iu]

theorem SameImage.badHdrCrc : t.badHdrCrc = s.badHdrCrc := by
  unfold State.badHdrCrc
  rw [h.nvLd, h.iu, h.nvBad]

theorem SameImage.chkLayout : t.chkLayout = s.chkLayout := by
  unfold State.chkLayout
  rw [h.sects, h.iu, h.firstNonzero]

theorem SameImage.chkSectCrc : t.chkSectCrc = s.chkSectCrc := by
  unfold State.chkSectCrc
  rw [h.sects, h.nvLd, h.nvBad]

theorem SameImage.chkSig : t.chkSig = s.chkSig := by
  unfold State.chkSig
  rw [h.iu, h.key, h.nvLd, h.nvBad, h.req]

theorem SameImage.lenOk : t.lenOk = s.lenOk := by
  unfold State.lenOk
  rw [h.regWords]

theorem SameImage.iz : t.iz = s.iz := by
  unfold State.iz
  rw [h.firstNonzero]

theorem SameImage.chkFieldSect : t.chkFieldSect = s.chkFieldSect := by
  unfold State.chkFieldSect
  rw [h.lenOk, h.iu, h.iz, h.firstNonzero, h.regWords]

theorem SameImage.chkField : t.chkField = s.chkField := by
  unfold State.chkField
  rw [h.sects, h.iu, h.chkFieldSect, h.sectWords]

theorem SameImage.chkWard : t.chkWard = s.chkWard := by
  unfold State.chkWard
  rw [h.sects, h.imgWards]

theorem SameImage.chkOwnerSect : t.chkOwnerSect = s.chkOwnerSect := by
  unfold State.chkOwnerSect
  rw [h.imgWards, h.imgCbOwner, h.sectWords, h.imgResources]

theorem SameImage.needDomains : t.needDomains = s.needDomains := by
  unfold State.needDomains
  rw [h.imgWards, h.imgResources, h.iu]

theorem SameImage.chkClock : t.chkClock = s.chkClock := by
  unfold State.chkClock
  rw [h.sects, h.needDomains, h.sectWords]

theorem SameImage.chkMemory : t.chkMemory = s.chkMemory := by
  unfold State.chkMemory
  rw [h.sects, h.imgWards, h.imgRegions]

theorem SameImage.chkTwin : t.chkTwin = s.chkTwin := by
  unfold State.chkTwin
  rw [h.sects, h.iu]

theorem SameImage.validate : t.validate = s.validate := by
  unfold State.validate
  rw [h.sects, h.iu, h.chkFormat, h.badHdrCrc, h.chkLayout, h.chkSectCrc, h.chkSig, h.chkField, h.chkWard, h.chkOwnerSect,
    h.chkClock, h.chkMemory, h.chkTwin]

theorem SameImage.restoreCheck : t.restoreCheck = s.restoreCheck := by
  unfold State.restoreCheck
  rw [h.badHdrCrc, h.chkSectCrc, h.iu, h.chkSig]

end

/-! ### VALIDATION_COMPLETE -/

theorem State.nvCe_eq (s : State) (a n : Nat) : s.nvCe a n = { s with flt := (s.nvCe a n).flt } := by
  unfold State.nvCe State.assertFlt
  split
  · split <;> rfl
  · rfl

/-- The state in which the whole image and the system rows have been read and no validation goes on. -/
def State.imageRead (s : State) : State :=
  ({ s with store := { s.store with verify := none } }.nvCe (slotBase s.stageSlot) 2097152).nvCe (keyRow 0) 192

theorem State.imageRead_eq (s : State) :
    s.imageRead = { s with store := { s.store with verify := none }, flt := s.imageRead.flt } := by
  unfold State.imageRead
  rw [State.nvCe_eq _ (keyRow 0), State.nvCe_eq { s with store := { s.store with verify := none } }]

theorem State.imageRead_sameImage (s : State) : SameImage s s.imageRead := by
  rw [State.imageRead_eq]
  exact ⟨rfl, rfl, rfl, rfl, rfl⟩

theorem State.imageRead_validate (s : State) :
    s.imageRead.validate (slotBase s.imageRead.stageSlot) s.imageRead.store.stageLen =
      s.validate (slotBase s.stageSlot) s.store.stageLen := by
  rw [s.imageRead_sameImage.validate, s.imageRead_eq]
  rfl

/-- The state in which the verdict of a failed check is shown: code, section, offset, and the stage REJECTED (R398). -/
def State.diagShown (s : State) (code sec off : Nat) : State :=
  ((((s.p JNL_PLAN_STATUS_CODE code).p JNL_PLAN_DIAG_CODE code).p JNL_PLAN_DIAG_SECTION sec).p JNL_PLAN_DIAG_OFFSET off).setStage 4

theorem State.diagShown_moves (s : State) (code sec off : Nat) :
    RegsMoved (JNL_PLAN_DIAG :: storeRegs) s (s.diagShown code sec off) := by
  have h := ((((RegsMoved.refl (JNL_PLAN_DIAG :: storeRegs) s).p JNL_PLAN_STATUS_CODE code (by decide)).p
    JNL_PLAN_DIAG_CODE code (by decide)).p JNL_PLAN_DIAG_SECTION sec (by decide)).p JNL_PLAN_DIAG_OFFSET off (by decide)
  have hstage := State.setStage_moves
    ((((s.p JNL_PLAN_STATUS_CODE code).p JNL_PLAN_DIAG_CODE code).p JNL_PLAN_DIAG_SECTION sec).p JNL_PLAN_DIAG_OFFSET off) 4
  exact h.trans ⟨hstage.frame, hstage.kept.mono (by decide)⟩

section
variable (s : State) {code sec off : Nat}

theorem State.diagShown_code (h : code < 256) : (s.diagShown code sec off).g JNL_PLAN_DIAG_CODE = code := by
  rw [State.diagShown, (State.setStage_moves _ 4).kept.g (by decide), State.g_p_apart _ (by decide), State.g_p_apart _ (by decide),
    State.g_p_fits _ (by decide) h]

theorem State.diagShown_section (h : sec < 256) : (s.diagShown code sec off).g JNL_PLAN_DIAG_SECTION = sec := by
  rw [State.diagShown, (State.setStage_moves _ 4).kept.g (by decide), State.g_p_apart _ (by decide), State.g_p_fits _ (by decide) h]

theorem State.diagShown_offset (h : off < 2 ^ 32) : (s.diagShown code sec off).g JNL_PLAN_DIAG_OFFSET = off := by
  rw [State.diagShown, (State.setStage_moves _ 4).kept.g (by decide), State.g_p_fits _ (by decide) h]

end

section
variable {s : State} {id : Nat} (hv : s.store.verify = some id)
include hv

theorem validationEnd_of_valid (h : s.validate (slotBase s.stageSlot) s.store.stageLen = none) :
    validationEnd s = (s.imageRead.setStage 3).finishF id 0 := by
  rw [← State.imageRead_validate] at h
  unfold validationEnd
  simp only [hv]
  split
  · rfl
  · next heq => exact absurd (h.symm.trans heq) (by simp)

theorem validationEnd_of_failed {code sec off : Nat}
    (h : s.validate (slotBase s.stageSlot) s.store.stageLen = some (code, sec, off)) :
    validationEnd s = (s.imageRead.diagShown code sec off).finishF id (0x80 + code) := by
  rw [← State.imageRead_validate] at h
  unfold validationEnd
  simp only [hv]
  split
  · next heq => exact absurd (h.symm.trans heq) (by simp)
  · next heq =>
    cases h.symm.trans heq
    rfl

end

/-- What every end of a validation leaves, whatever the registers show of it: the command ends, no validation goes on, and the plan and
both slots stay. -/
theorem State.verdict_finishF {s : State} {id st : Nat} {l : List Nat} {e : State} (hopen : s.cmdOpen id = true)
    (he : RegsMoved l s.imageRead e) :
    (∃ arg, (e.finishF id st).ends id st arg) ∧ (e.finishF id st).store = { s.store with verify := none } ∧
      (∀ a, a < 4194304 → tabGet 0#8 (e.finishF id st).nvm a = tabGet 0#8 s.nvm a) ∧ (e.finishF id st).plan = s.plan := by
  have hend := RecordsMoved.finishF e id st
  have hframe := he.frame
  unfold OnlyRegs at hframe
  have hecmds : e.cmds = s.cmds := by rw [hframe, s.imageRead_eq]
  have heopen : e.cmdOpen id = true := by rw [State.cmdOpen_congr (s := s) (by rw [hecmds]), hopen]
  refine ⟨⟨_, e.ends_finishF_any heopen st⟩, ?_, ?_, ?_⟩
  · rw [hend.frame, hframe, s.imageRead_eq]
  · exact (SlotsKept.of_nvm (t := e) (by rw [hframe, s.imageRead_eq])).trans hend.slots
  · rw [hend.frame, hframe, s.imageRead_eq]

theorem exec_validationComplete {s : State} (h : s.ticks = true) : exec .validationComplete s = .next (validationEnd s) := by
  show Host.Outcome.next _ = _
  rw [h]
  rfl

/-- Settles O17. What is validated, and what the verdict leaves alone, does not depend on the reads that raise JNL_NVM_CE. -/
theorem validationEnds : Obligations.ValidationEnds := by
  unfold Obligations.ValidationEnds
  intro s id hticks _ hv hopen
  refine ⟨fun hval => ?_, fun code sec off hval hcode hsec hoff => ?_⟩
  · obtain ⟨hends, hstore, hslots, -⟩ := State.verdict_finishF (st := 0) hopen (s.imageRead.setStage_moves 3)
    refine ⟨_, (exec_validationComplete hticks).trans (congrArg _ (validationEnd_of_valid hv hval)), ?_, hends, hstore, hslots⟩
    exact ((RecordsMoved.finishF _ id 0).g (LN_TEST_ne (by decide))).trans (State.setStage_stage _ (by decide))
  · obtain ⟨hends, hstore, hslots, hplan⟩ :=
      State.verdict_finishF (st := 0x80 + code) hopen (s.imageRead.diagShown_moves code sec off)
    have hg {f : FRef} (h : f.addr % 256 ≠ 32) :=
      (RecordsMoved.finishF (s.imageRead.diagShown code sec off) id (0x80 + code)).g (LN_TEST_ne h)
    refine ⟨_, (exec_validationComplete hticks).trans (congrArg _ (validationEnd_of_failed hv hval)), ?_, hends, ?_, ?_, ?_, hstore,
      hslots, hplan⟩
    · exact (hg (by decide)).trans (State.setStage_stage _ (by decide))
    · exact (hg (by decide)).trans (State.diagShown_code _ (by omega))
    · exact (hg (by decide)).trans (State.diagShown_section _ hsec)
    · exact (hg (by decide)).trans (State.diagShown_offset _ hoff)

end Sys2Proof.Machine
end

section
/-! SUPPORT. What an image that comes into force, and a device that comes up unsealed, leave alone (R34, R38). -/

namespace Sys2Proof.Machine

/-! ### Loops -/

/-- A loop keeps what each of its rounds keeps. -/
theorem forEach_keeps_of_mem {α β γ : Type} (g : β → γ) (l : List α) (b : β) (f : α → β → β)
    (h : ∀ x ∈ l, ∀ c, g (f x c) = g c) : g (forEach l b f) = g b := by
  unfold forEach
  induction l generalizing b with
  | nil => rfl
  | cons x t ih =>
    rw [List.forall_mem_cons] at h
    rw [List.foldl_cons, ih _ h.2, h.1]

/-! ### All that a plan moves -/

/-- The state without what a plan in force moves: registers, ports, event queues, the plan itself and the channels. -/
def State.planErased (s : State) : State :=
  { s with
    regs := [], ports := .replicate 7 .zero, wards := .replicate 4 .zero, plan := .unsealed, chans := .replicate 128 .zero }

/-- Nothing differs but what a plan in force moves. -/
def PlanMoved (s t : State) : Prop := t.planErased = s.planErased

theorem PlanMoved.frame {s t : State} (h : PlanMoved s t) :
    t = { s with regs := t.regs, ports := t.ports, wards := t.wards, plan := t.plan, chans := t.chans } :=
  congrArg (fun x : State => { x with regs := t.regs, ports := t.ports, wards := t.wards, plan := t.plan, chans := t.chans }) h

section
variable (s : State)

@[simp] theorem State.p_planErased (f : FRef) (v : Nat) : (s.p f v).planErased = s.planErased := rfl

@[simp] theorem State.pb_planErased (f : FRef) (b : Bool) : (s.pb f b).planErased = s.planErased := rfl

@[simp] theorem State.wrMask_planErased (a m v : Nat) : (s.wrMask a m v).planErased = s.planErased := rfl

@[simp] theorem State.setRegs_planErased (r : Tab Word) : ({ s with regs := r } : State).planErased = s.planErased := rfl

@[simp] theorem State.setPlan_planErased (p : Plan) : ({ s with plan := p } : State).planErased = s.planErased := rfl

@[simp] theorem State.modWard_planErased (w : Nat) (f : WardSt → WardSt) : (s.modWard w f).planErased = s.planErased := by
  unfold State.modWard
  split <;> rfl

@[simp] theorem State.modPort_planErased (p : Nat) (f : Port → Port) : (s.modPort p f).planErased = s.planErased := by
  unfold State.modPort
  split <;> rfl

@[simp] theorem State.modCh_planErased (n : Nat) (f : Chan → Chan) : (s.modCh n f).planErased = s.planErased := by
  unfold State.modCh
  split <;> rfl

@[simp] theorem State.fltShow_planErased : s.fltShow.planErased = s.planErased := by simp [State.fltShow]

@[simp] theorem State.resetRwp_planErased : s.resetRwp.planErased = s.planErased := by simp [State.resetRwp]

@[simp] theorem State.chanRest_planErased (n : Nat) : (s.chanRest n).planErased = s.planErased := by
  unfold State.chanRest State.chanIdle
  split_ifs <;> simp

@[simp] theorem State.showWards_planErased : s.showWards.planErased = s.planErased := by
  unfold State.showWards
  rw [forEach_keeps State.planErased _ _ _ fun _ _ => by simp, forEach_keeps State.planErased _ _ _ fun _ _ => by simp]

@[simp] theorem State.movePorts_planErased (p : Plan) : (s.movePorts p).planErased = s.planErased :=
  forEach_keeps State.planErased _ s _ fun w t => by dsimp only; split_ifs <;> simp

/-! ### An image comes into force -/

/-- The words of an image's register blocks. -/
def State.imageWords (b : Bool) : List (Nat × Nat × Nat) :=
  ((s.sects (slotBase b)).filter (fun x => blockType x.type)).flatMap (s.sectWords (slotBase b))

/-- RWP fields hold the image's values, or their reset values. -/
def State.rwpLoaded (b : Bool) : State :=
  forEach (s.imageWords b) s.resetRwp (fun (_, a, v) t =>
    match regAt a with
    | some (d, ix) => t.wrMask a (fldMask (rwpFields d ix)) v
    | none => t)

/-- The image's plan is the plan, and event records leave on its ports. -/
def State.planTaken (b : Bool) : State := { (s.rwpLoaded b).movePorts (s.readPlan (slotBase b)) with plan := s.readPlan (slotBase b) }

/-- JNL_PLAN_ shows the image in force. -/
def State.imageShown (b : Bool) : State :=
  (((((s.planTaken b).pb JNL_PLAN_STATUS_SEALED true).pb JNL_PLAN_STATUS_SIGNED (decide (s.iu (slotBase b) 0x26 2 % 2 = 1))).pb
    JNL_PLAN_STATUS_ACTIVE_SLOT b).p JNL_PLAN_ID_PLAN_ID (s.readPlan (slotBase b)).planId).p JNL_PLAN_CRC_SEALED_CRC
    (s.readPlan (slotBase b)).hdrCrc

/-- PLL6 sleeps but in a pair. -/
def State.pll6Set (p : Plan) : State :=
  if p.twinMode = 1 then s.p CLK_PLL_STATUS_SLEEP (s.g CLK_PLL_STATUS_SLEEP &&& (0xFF ^^^ 64))
  else s.p CLK_PLL_STATUS_SLEEP (s.g CLK_PLL_STATUS_SLEEP ||| 64)

/-- The channels that are owned take their rest values (R152). -/
def State.chansRest : State := forEach (List.range 128) s (fun n s => s.chanRest n)

theorem State.applyImage_eq (b : Bool) :
    s.applyImage b = ((s.imageShown b).showWards.pll6Set (s.readPlan (slotBase b))).chansRest.fltShow := rfl

@[simp] theorem State.rwpLoaded_planErased (b : Bool) : (s.rwpLoaded b).planErased = s.planErased := by
  unfold State.rwpLoaded
  rw [forEach_keeps State.planErased _ _ _ fun x t => ?_, State.resetRwp_planErased]
  obtain ⟨-, a, v⟩ := x
  dsimp only
  split <;> simp

@[simp] theorem State.planTaken_planErased (b : Bool) : (s.planTaken b).planErased = s.planErased := by simp [State.planTaken]

theorem State.applyImage_moves (b : Bool) : PlanMoved s (s.applyImage b) := by
  have hpll (t : State) (p : Plan) : (t.pll6Set p).planErased = t.planErased := by
    unfold State.pll6Set
    split <;> simp
  have hrest (t : State) : t.chansRest.planErased = t.planErased :=
    forEach_keeps State.planErased _ t _ fun _ _ => by simp
  show (s.applyImage b).planErased = s.planErased
  simp [State.applyImage_eq, hpll, hrest, State.imageShown]

theorem State.applyImage_plan (b : Bool) : (s.applyImage b).plan = s.readPlan (slotBase b) := by
  have hrest (t : State) : t.chansRest.plan = t.plan :=
    forEach_keeps State.plan _ t _ fun n t => by unfold State.chanRest State.chanIdle; split_ifs <;> simp
  have hpll (t : State) (p : Plan) : (t.pll6Set p).plan = t.plan := by
    unfold State.pll6Set
    split <;> simp
  have hward (t : State) : t.showWards.plan = t.plan := by
    unfold State.showWards
    rw [forEach_keeps State.plan _ _ _ fun _ _ => by simp, forEach_keeps State.plan _ _ _ fun _ _ => by simp]
  have hflt (t : State) : t.fltShow.plan = t.plan := by simp [State.fltShow]
  rw [State.applyImage_eq, hflt, hrest, hpll, hward]
  rfl

/-! ### Registers that a plan does not show -/

/-- The address of a register of links and Wards, of channels, or of faults. -/
abbrev unitAddr (a : Nat) : Prop := (0x01000000 ≤ a ∧ a < 0x06000000) ∨ (0x0C000000 ≤ a ∧ a < 0x0D000000)

/-- No field of the register is plan-locked. -/
def rwpFree (a : Nat) : Bool :=
  match regAt a with
  | some (d, ix) => !d.flds.any (fun f => decide (f.acc = .rwp)) && (rwpFields d ix).isEmpty
  | none => true

theorem State.wrMask_zero_rd (a v b : Nat) : (s.wrMask a 0 v).rd b = s.rd b := by
  by_cases h : b = a
  · subst h
    have hlt := (s.rd b).isLt
    have hall : (s.rd b).toNat &&& (2 ^ 64 - 1) = (s.rd b).toNat := by
      rw [Nat.and_two_pow_sub_one_eq_mod, Nat.mod_eq_of_lt hlt]
    simp only [State.wrMask, State.rd_wr_self, Nat.xor_zero, Nat.and_zero, Nat.or_zero, hall, BitVec.ofNat_toNat, BitVec.setWidth_eq]
  · exact State.rd_wr_ne _ _ h

theorem State.wrMask_rd_ne {a b : Nat} (m v : Nat) (h : b ≠ a) : (s.wrMask a m v).rd b = s.rd b := State.rd_wr_ne _ _ h

theorem State.rd_pb_ne (f : FRef) (v : Bool) {a : Nat} (h : a ≠ f.addr) : (s.pb f v).rd a = s.rd a := State.rd_p_ne _ _ _ h

section
variable {a : Nat} (h : ¬ unitAddr a)
include h

theorem State.fltShow_rd : s.fltShow.rd a = s.rd a := by
  unfold State.fltShow
  have hsum : a ≠ FLT_SUMMARY := by unfold FLT_SUMMARY; omega
  have hstat : a ≠ FLT_STATUS := by unfold FLT_STATUS; omega
  rw [State.rd_p_ne _ _ _ hstat, State.rd_pb_ne _ _ _ hstat, State.rd_p_ne _ _ _ hsum]

theorem State.chanRest_rd {n : Nat} (hn : n < 128) : (s.chanRest n).rd a = s.rd a := by
  have hch : a ≠ CH_STATUS n := by unfold CH_STATUS; omega
  have hidle (t : State) : (t.chanIdle n).rd a = t.rd a := by
    unfold State.chanIdle
    rw [State.rd_p_ne _ _ _ hch, State.rd_pb_ne _ _ _ hch]
  unfold State.chanRest
  split_ifs
  · rfl
  · rw [hidle, State.rd_p_ne _ _ _ hch, State.rd_modCh]
  · rw [hidle]
  · rfl

theorem State.chansRest_rd : s.chansRest.rd a = s.rd a :=
  forEach_keeps_of_mem (fun t : State => t.rd a) _ s _ fun _ hn t => t.chanRest_rd h (List.mem_range.1 hn)

theorem State.showWards_rd : s.showWards.rd a = s.rd a := by
  have hward : ∀ w ∈ List.range 4, a ≠ WRD_STATUS w := fun w hw => by
    rw [List.mem_range] at hw
    unfold WRD_STATUS; omega
  have hport : ∀ p ∈ List.range 4, a ≠ LNK_PORT_STATUS p := fun p hp => by
    rw [List.mem_range] at hp
    unfold LNK_PORT_STATUS; omega
  unfold State.showWards
  rw [forEach_keeps_of_mem (fun t : State => t.rd a) _ _ _ fun p hp t => State.rd_p_ne _ _ _ (hport p hp),
    forEach_keeps_of_mem (fun t : State => t.rd a) _ _ _ fun w hw t =>
      (State.rd_p_ne _ _ _ (hward w hw)).trans (State.rd_pb_ne _ _ _ (hward w hw))]

/-- What follows the plan's own registers leaves registers of no unit but CLK_PLL_STATUS. -/
theorem State.planFollowed_rd (p : Plan) (hpll : a ≠ CLK_PLL_STATUS) :
    ((s.showWards.pll6Set p).chansRest.fltShow).rd a = s.rd a := by
  rw [State.fltShow_rd _ h, State.chansRest_rd _ h]
  unfold State.pll6Set
  split <;> rw [State.rd_p_ne _ _ _ hpll, State.showWards_rd _ h]

theorem State.resetRwp_rd (hfree : rwpFree a = true) : s.resetRwp.rd a = s.rd a := by
  unfold State.resetRwp
  rw [State.fltShow_rd _ h]
  refine tabGet_filter_of_kept _ _ fun v => ?_
  unfold rwpFree at hfree
  split at hfree
  · next d ix hreg => simp_all
  · next hreg => simp [hreg]

theorem State.rwpLoaded_rd (b : Bool) (hfree : rwpFree a = true) : (s.rwpLoaded b).rd a = s.rd a := by
  unfold State.rwpLoaded
  rw [forEach_keeps (fun t : State => t.rd a) _ _ _ fun x t => ?_, State.resetRwp_rd _ h hfree]
  obtain ⟨-, a', v⟩ := x
  dsimp only
  split
  · next d ix hreg =>
    by_cases ha : a = a'
    · subst ha
      have hnone : rwpFields d ix = [] := by
        simp only [rwpFree, hreg, Bool.and_eq_true, List.isEmpty_iff] at hfree
        exact hfree.2
      rw [hnone]
      exact t.wrMask_zero_rd _ _ _
    · exact t.wrMask_rd_ne _ _ ha
  · rfl

omit h in
theorem State.setPlan_rd (p : Plan) : ({ s with plan := p } : State).rd a = s.rd a := rfl

theorem State.planTaken_rd (b : Bool) (hfree : rwpFree a = true) : (s.planTaken b).rd a = s.rd a := by
  have hports (p : Plan) (t : State) : (t.movePorts p).rd a = t.rd a :=
    forEach_keeps (fun t : State => t.rd a) _ t _ fun w t => by dsimp only; split_ifs <;> simp
  rw [State.planTaken, State.setPlan_rd, hports, s.rwpLoaded_rd h b hfree]

/-- A register without plan-locked fields, of no unit, that does not show the plan. -/
theorem State.applyImage_rd (b : Bool) (hfree : rwpFree a = true)
    (hplan : a ∉ [JNL_PLAN_STATUS, JNL_PLAN_ID, JNL_PLAN_CRC, CLK_PLL_STATUS]) : (s.applyImage b).rd a = s.rd a := by
  simp only [List.mem_cons, List.not_mem_nil, or_false, not_or] at hplan
  obtain ⟨hstat, hid, hcrc, hpll⟩ := hplan
  rw [State.applyImage_eq, State.planFollowed_rd _ h _ hpll, State.imageShown, State.rd_p_ne _ _ _ hcrc, State.rd_p_ne _ _ _ hid,
    State.rd_pb_ne _ _ _ hstat, State.rd_pb_ne _ _ _ hstat, State.rd_pb_ne _ _ _ hstat, State.planTaken_rd _ h b hfree]

end

/-! ### What JNL_PLAN_ shows of the image in force -/

theorem State.applyImage_sealed (b : Bool) : (s.applyImage b).gb JNL_PLAN_STATUS_SEALED = true := by
  have h : (s.applyImage b).gb JNL_PLAN_STATUS_SEALED = (s.imageShown b).gb JNL_PLAN_STATUS_SEALED := by
    unfold State.gb State.g
    rw [State.applyImage_eq, State.planFollowed_rd _ (by decide) _ (by decide)]
  rw [h, State.imageShown, State.gb_p_apart _ (by decide), State.gb_p_apart _ (by decide), State.gb_pb_apart _ (by decide),
    State.gb_pb_apart _ (by decide), State.gb_pb_self _ _ _ (by decide) (by decide)]

theorem State.applyImage_planId (b : Bool) :
    (s.applyImage b).g JNL_PLAN_ID_PLAN_ID = (s.readPlan (slotBase b)).planId % 2 ^ 64 := by
  have h : (s.applyImage b).g JNL_PLAN_ID_PLAN_ID = (s.imageShown b).g JNL_PLAN_ID_PLAN_ID := by
    unfold State.g
    rw [State.applyImage_eq, State.planFollowed_rd _ (by decide) _ (by decide)]
  rw [h, State.imageShown, State.g_p_apart _ (by decide), State.g_p_self _ _ _ (by decide) (by decide)]
  rfl

end

end Sys2Proof.Machine
end

section
/-! SUPPORT. PLAN_SEAL and PLAN_RETIRE (R33, R36, R37). -/

namespace Sys2Proof.Machine

/-! ### A seal that waits for the next chip reset, and a retirement -/

/-- One more descriptor commit in the Plan Store (R326). -/
def PlanStore.commit (x : PlanStore) (d : PlanDesc) : PlanStore :=
  { x with desc := d, past := (x.desc :: x.past).take 127, seals := x.seals + 1 }

theorem State.commitDesc_eq (s : State) (d : PlanDesc) :
    s.commitDesc d = { s with store := s.store.commit d, nvmEcc := (s.commitDesc d).nvmEcc } := rfl

theorem State.commitDesc_g (s : State) (d : PlanDesc) (f : FRef) : (s.commitDesc d).g f = s.g f := rfl

theorem planSeal_pending_eq {s : State} {c : Cmd} (hlen : c.args.length = 8) (hstage : s.stage = 3)
    (hid : u c.args 0 8 = s.iu (slotBase s.stageSlot) 0x10 8) (hsealed : (s.started c).plan.sealed = true) :
    planSeal c s = (((s.started c).commitDesc { (s.started c).store.desc with pending := true, retired := false }).setStage 0).finishF
      c.id 0 := by
  unfold planSeal
  rw [if_neg (by simp [hlen]), if_neg (by simp [hstage, hid])]
  dsimp only
  rw [if_pos hsealed]

theorem planSeal_unsealed_eq {s : State} {c : Cmd} (hlen : c.args.length = 8) (hstage : s.stage = 3)
    (hid : u c.args 0 8 = s.iu (slotBase s.stageSlot) 0x10 8) (hsealed : (s.started c).plan.sealed = false) :
    planSeal c s = (((((s.started c).applyImage (s.started c).stageSlot).commitDesc
      ⟨(s.started c).stageSlot, true, false, false⟩).setStage 0).sendSqJoin).finishF c.id 0 := by
  unfold planSeal
  rw [if_neg (by simp [hlen]), if_neg (by simp [hstage, hid])]
  dsimp only
  rw [if_neg (by simp [hsealed])]

theorem planRetire_eq {s : State} {c : Cmd} (hargs : c.args = []) (hsealed : s.plan.sealed = true) :
    planRetire c s = (((s.started c).commitDesc { (s.started c).store.desc with pending := false, retired := true }).showStore).finishF
      c.id 0 := by
  unfold planRetire
  rw [if_neg (by simp [hargs]), if_neg (by simp [hsealed])]

section
variable {s : State} {w : Fin 4} {q : Fin 8} {c : Cmd}

theorem State.takes.begun_store {op : Nat} (h : s.takes w q op c) : (s.begun c).store = s.store := by rw [h.begun_onlyJournal]

theorem State.takes.begun_plan {op : Nat} (h : s.takes w q op c) : (s.begun c).plan = s.plan := by rw [h.begun_onlyJournal]

theorem State.takes.begun_stageSlot {op : Nat} (h : s.takes w q op c) : (s.begun c).stageSlot = s.stageSlot :=
  congrArg (fun x : PlanStore => !x.desc.activeB) h.begun_store

theorem StoreCommand.plan {e t : State} (h : StoreCommand s c e t) : t.plan = s.plan := by rw [h.frame]

theorem planSeal_pends (h : s.takes w q 0x13 c) (hlen : c.args.length = 8) (hstage : s.stage = 3)
    (hid : u c.args 0 8 = s.iu (slotBase s.stageSlot) 0x10 8) (hsealed : s.plan.sealed = true) :
    Gives (.planSeal w q) s (fun t => t.completes c.id 0 ∧ t.stage = 0 ∧ t.plan = s.plan ∧
      t.store = s.store.commit { s.store.desc with pending := true, retired := false } ∧ RegsKept storeRegs s t ∧
      OnlyJournal { s with regs := t.regs, store := t.store } t) := by
  have hexec : exec (.planSeal w q) s = .next ((((s.begun c).commitDesc
      { (s.begun c).store.desc with pending := true, retired := false }).setStage 0).finishF c.id 0) := by
    show Host.Outcome.next _ = _
    rw [h.runCmd]
    exact congrArg _ (planSeal_pending_eq (c := { c with marked := true }) (s := s.modCmd c.id _) hlen hstage hid
      ((congrArg Plan.sealed h.begun_plan).trans hsealed))
  have hdone := h.storeCommand ((StoreMoved.commitDesc (s.begun c)
    { (s.begun c).store.desc with pending := true, retired := false }).trans (StoreMoved.setStage _ 0))
  refine ⟨_, hexec, hdone.completes, hdone.stage (State.setStage_stage _ (by decide)), hdone.plan, ?_, hdone.regs, hdone.frame⟩
  rw [hdone.store, (State.setStage_moves _ 0).frame]
  show (s.begun c).store.commit _ = _
  rw [h.begun_store]

theorem planRetire_retires (h : s.takes w q 0x14 c) (hargs : c.args = []) (hsealed : s.plan.sealed = true) :
    Gives (.planRetire w q) s (fun t => t.completes c.id 0 ∧ t.plan = s.plan ∧
      t.store = s.store.commit { s.store.desc with pending := false, retired := true } ∧
      t.gb JNL_PLAN_STATUS_PENDING = false ∧ t.gb JNL_PLAN_STATUS_RETIRED = true ∧ RegsKept storeRegs s t ∧
      OnlyJournal { s with regs := t.regs, store := t.store } t) := by
  have hexec : exec (.planRetire w q) s = .next ((((s.begun c).commitDesc
      { (s.begun c).store.desc with pending := false, retired := true }).showStore).finishF c.id 0) := by
    show Host.Outcome.next _ = _
    rw [h.runCmd]
    exact congrArg _ (planRetire_eq (c := { c with marked := true }) (s := s.modCmd c.id _) hargs hsealed)
  have hdone := h.storeCommand ((StoreMoved.commitDesc (s.begun c)
    { (s.begun c).store.desc with pending := false, retired := true }).trans (StoreMoved.showStore _))
  have hgb (f : FRef) := congrArg (fun n => decide (n ≠ 0)) (hdone.g f)
  refine ⟨_, hexec, hdone.completes, hdone.plan, ?_, (hgb _).trans (State.showStore_pending _), (hgb _).trans (State.showStore_retired _),
    hdone.regs, hdone.frame⟩
  rw [hdone.store, (State.showStore_moves _).frame]
  show (s.begun c).store.commit _ = _
  rw [h.begun_store]

/-! ### A seal that puts the image in force -/

theorem State.iu_lt (s : State) (b o n : Nat) : s.iu b o n < 256 ^ n := by
  have hlt (l : List Byte) : leNat l < 256 ^ l.length := by
    induction l with
    | nil => simp [leNat]
    | cons x t ih =>
      have := x.isLt
      rw [leNat, List.length_cons, Nat.pow_succ]
      omega
  have h := hlt (s.nvLd (b + o) n)
  rwa [State.nvLd, List.length_map, List.length_range] at h

theorem SlotsKept.iu {s t : State} (h : SlotsKept s t) {b o n : Nat} (ha : b + o + n ≤ 4194304) : t.iu b o n = s.iu b o n := by
  rw [State.iu, State.iu, h.nvLd ha]

/-- A descriptor commit and a stage behind what a plan moves. -/
theorem PlanMoved.commitDesc_setStage {s t : State} (h : PlanMoved s t) (d : PlanDesc) (v : Nat) :
    (t.commitDesc d).setStage v = { s with
      regs := ((t.commitDesc d).setStage v).regs, ports := ((t.commitDesc d).setStage v).ports,
      wards := ((t.commitDesc d).setStage v).wards, plan := t.plan, chans := ((t.commitDesc d).setStage v).chans,
      store := s.store.commit d, nvmEcc := ((t.commitDesc d).setStage v).nvmEcc } := by
  have hset := ((t.commitDesc d).setStage_moves v).frame
  generalize (t.commitDesc d).setStage v = x at hset ⊢
  rw [hset, t.commitDesc_eq]
  conv_lhs => rw [h.frame]
  rw [h.frame]

/-- The image in slot `b` is in force, its descriptor is committed, and the stage is empty. -/
def State.imageCommitted (s : State) (b : Bool) : State := ((s.applyImage b).commitDesc ⟨b, true, false, false⟩).setStage 0

section
variable (s : State) (b : Bool)

theorem State.imageCommitted_frame : s.imageCommitted b = { s with
    regs := (s.imageCommitted b).regs, ports := (s.imageCommitted b).ports, wards := (s.imageCommitted b).wards,
    plan := s.readPlan (slotBase b), chans := (s.imageCommitted b).chans,
    store := s.store.commit ⟨b, true, false, false⟩, nvmEcc := (s.imageCommitted b).nvmEcc } := by
  rw [← s.applyImage_plan b]
  exact (s.applyImage_moves b).commitDesc_setStage _ _

theorem State.imageCommitted_g {f : FRef} (h : ∀ x ∈ JNL_PLAN_STATUS_STAGE :: storeFields, x.apart f) :
    (s.imageCommitted b).g f = (s.applyImage b).g f := by
  rw [List.forall_mem_cons] at h
  unfold State.imageCommitted State.setStage
  rw [State.showStore_g _ h.2, State.g_p_apart _ h.1, State.commitDesc_g]

end

theorem State.imageCommitted_stage (s : State) (b : Bool) : (s.imageCommitted b).stage = 0 := State.setStage_stage _ (by decide)

theorem OnlyComm.sendSqJoin (s : State) : OnlyComm s s.sendSqJoin := OnlyComm.reply s 6 _ _ _ _ _ (by decide)

theorem State.alone_of_g {s t : State} (hs : s.alone) (hrole : t.g TWN_STATUS_ROLE = s.g TWN_STATUS_ROLE)
    (hpair : t.g TWN_STATUS_PAIRED = s.g TWN_STATUS_PAIRED) : t.alone := by
  unfold State.alone State.paired State.role State.gb at *
  rwa [hrole, hpair]

/-- The image in slot `b` is sealed, and the ring hears of it (R267). -/
def State.imageSealed (s : State) (b : Bool) : State := (s.imageCommitted b).sendSqJoin

section
variable (s : State) (b : Bool)

theorem State.imageSealed_frame : s.imageSealed b = { s with
    regs := (s.imageSealed b).regs, ports := (s.imageSealed b).ports, wards := (s.imageSealed b).wards,
    outs := (s.imageSealed b).outs, plan := s.readPlan (slotBase b), chans := (s.imageSealed b).chans,
    store := s.store.commit ⟨b, true, false, false⟩, nvmEcc := (s.imageSealed b).nvmEcc } := by
  have hcommit := s.imageCommitted_frame b
  unfold State.imageSealed
  generalize s.imageCommitted b = e at *
  rw [(OnlyComm.sendSqJoin e).1]
  conv_lhs => rw [hcommit]
  rw [hcommit]

theorem State.imageSealed_g {f : FRef} (h : ∀ x ∈ JNL_PLAN_STATUS_STAGE :: storeFields, x.apart f) (hf : f.addr % 256 ≠ 32) :
    (s.imageSealed b).g f = (s.applyImage b).g f :=
  ((OnlyComm.sendSqJoin _).g (LN_TEST_ne hf)).trans (s.imageCommitted_g b h)

theorem State.imageSealed_stage : (s.imageSealed b).stage = 0 :=
  ((OnlyComm.sendSqJoin _).g (LN_TEST_ne (by decide))).trans (s.imageCommitted_stage b)

/-- A seal leaves the member's role and its pair. -/
theorem State.imageSealed_alone (hs : s.alone) : (s.imageSealed b).alone := by
  have hrd : (s.applyImage b).rd TWN_STATUS = s.rd TWN_STATUS := s.applyImage_rd (by decide) b (by decide) (by decide)
  exact State.alone_of_g hs
    ((s.imageSealed_g b (by decide) (by decide)).trans (congrArg (fun w => getBits w _ _) hrd))
    ((s.imageSealed_g b (by decide) (by decide)).trans (congrArg (fun w => getBits w _ _) hrd))

end

theorem planSeal_seals (h : s.takes w q 0x13 c) (hlen : c.args.length = 8) (hstage : s.stage = 3)
    (hid : u c.args 0 8 = s.iu (slotBase s.stageSlot) 0x10 8) (hsealed : s.plan.sealed = false) :
    Gives (.planSeal w q) s (fun t => t.completes c.id 0 ∧ t.stage = 0 ∧ t.plan.sealed = true ∧
      t.plan.planId = s.iu (slotBase s.stageSlot) 0x10 8 ∧ t.plan.hdrCrc = s.iu (slotBase s.stageSlot) 0x7C 4 ∧
      t.gb JNL_PLAN_STATUS_SEALED = true ∧ t.g JNL_PLAN_ID_PLAN_ID = u c.args 0 8 ∧
      t.store = s.store.commit ⟨s.stageSlot, true, false, false⟩ ∧ t.mem = s.mem ∧ t.seqs = s.seqs ∧ t.ctxs = s.ctxs) := by
  have hexec : exec (.planSeal w q) s = .next (((s.begun c).imageSealed (s.begun c).stageSlot).finishF c.id 0) := by
    show Host.Outcome.next _ = _
    rw [h.runCmd]
    exact congrArg _ (planSeal_unsealed_eq (c := { c with marked := true }) (s := s.modCmd c.id _) hlen hstage hid
      ((congrArg Plan.sealed h.begun_plan).trans hsealed))
  rw [h.begun_stageSlot] at hexec
  have hbegun := h.begun_onlyJournal
  have halone := (s.begun c).imageSealed_alone s.stageSlot h.begun_alone
  have hframe := (s.begun c).imageSealed_frame s.stageSlot
  have hend := OnlyJournal.finishF _ c.id 0 halone
  have hg (f : FRef) := State.g_congr hend.regs f
  have hbase := slotBase_le s.stageSlot
  have hplanId : (s.begun c).iu (slotBase s.stageSlot) 0x10 8 = s.iu (slotBase s.stageSlot) 0x10 8 :=
    (s.begun_slots c).iu (by omega)
  have hplan : (((s.begun c).imageSealed s.stageSlot).finishF c.id 0).plan = (s.begun c).readPlan (slotBase s.stageSlot) := by
    rw [hend, hframe]
  refine ⟨_, hexec, h.completes_finishF (by rw [hframe]) (by rw [hframe]) halone, (hg _).trans (State.imageSealed_stage _ _),
    by rw [hplan]; rfl, by rw [hplan]; exact hplanId, by rw [hplan]; exact (s.begun_slots c).iu (by omega), ?_, ?_, ?_, ?_, ?_, ?_⟩
  · unfold State.gb
    rw [hg, State.imageSealed_g _ _ (by decide) (by decide)]
    exact (s.begun c).applyImage_sealed s.stageSlot
  · rw [hg, State.imageSealed_g _ _ (by decide) (by decide), State.applyImage_planId, hid]
    exact (Nat.mod_eq_of_lt ((s.begun c).iu_lt _ _ 8)).trans hplanId
  · rw [hend, hframe, h.begun_store]
  · rw [hend, hframe, hbegun]
  · rw [hend, hframe, hbegun]
  · rw [hend, hframe, hbegun]

end

/-- Settles O18. What differs is where the image goes: into the descriptor alone, or into force before its descriptor is committed. -/
theorem sealingTakesEffect : Obligations.SealingTakesEffect := by
  unfold Obligations.SealingTakesEffect
  exact fun s w q c => ⟨fun h hlen hstage hid => ⟨planSeal_pends h hlen hstage hid, planSeal_seals h hlen hstage hid⟩, planRetire_retires⟩

end Sys2Proof.Machine
end

section
/-! SUPPORT. PLAN_READ and PLAN_KEY (R30, R55, R326; Table 2.11). -/

namespace Sys2Proof.Machine

/-! ### PLAN_READ -/

/-- The argument bytes of PLAN_READ. -/
def readArgs (slot : Bool) (o n : Nat) : List Byte := toLe 1 (b2n slot) ++ toLe 3 0 ++ toLe 4 o ++ toLe 2 n ++ toLe 6 0

section
variable (slot : Bool) (o n : Nat)

theorem readArgs_length : (readArgs slot o n).length = 16 := by simp [readArgs]

theorem readArgs_slot : u (readArgs slot o n) 0 1 = b2n slot := by
  have h := u_front (toLe 3 0 ++ (toLe 4 o ++ (toLe 2 n ++ toLe 6 0))) 1 (b2n slot)
  simp only [readArgs, List.append_assoc, h]
  cases slot <;> rfl

theorem readArgs_offset (h : o < 2 ^ 32) : u (readArgs slot o n) 4 4 = o := by
  have hu := u_toLe (toLe 1 (b2n slot) ++ toLe 3 0) (toLe 2 n ++ toLe 6 0) 4 o
  rw [Nat.mod_eq_of_lt (by omega)] at hu
  simpa [readArgs] using hu

theorem readArgs_count (h : n < 2 ^ 16) : u (readArgs slot o n) 8 2 = n := by
  have hu := u_toLe (toLe 1 (b2n slot) ++ toLe 3 0 ++ toLe 4 o) (toLe 6 0) 2 n
  rw [Nat.mod_eq_of_lt (by omega)] at hu
  simpa [readArgs] using hu

theorem readArgs_zeros : zeros (readArgs slot o n) 1 3 = true ∧ zeros (readArgs slot o n) 10 6 = true := by
  have h1 := zeros_middle (toLe 1 (b2n slot)) (toLe 4 o ++ toLe 2 n ++ toLe 6 0) 3
  have h2 := zeros_middle (toLe 1 (b2n slot) ++ toLe 3 0 ++ toLe 4 o ++ toLe 2 n) [] 6
  constructor
  · simpa [readArgs] using h1
  · simpa [readArgs] using h2

end

theorem planRead_eq {s : State} {c : Cmd} {slot : Bool} {o n : Nat} (hargs : c.args = readArgs slot o n) (hal : o % 8 = 0)
    (hlo : 8 ≤ n) (hhi : n ≤ 1024) (hn : n % 8 = 0) (hin : o + n ≤ 2097152) :
    planRead c s = ((s.started c).nvCe (slotBase slot + o) n).finishData c.id 0 n (s.nvLd (slotBase slot + o) n) := by
  have hz := readArgs_zeros slot o n
  have hslot : ¬ 1 < b2n slot := by cases slot <;> decide
  have hbase : decide (b2n slot = 1) = slot := by cases slot <;> rfl
  have hlo' : ¬ n < 8 := by omega
  have hhi' : ¬ 1024 < n := by omega
  have hin' : ¬ 2097152 < o + n := by omega
  unfold planRead
  simp only [hargs, readArgs_slot, readArgs_offset slot o n (by omega), readArgs_count slot o n (by omega), readArgs_length, hz.1, hz.2,
    hslot, hal, hlo', hhi', hn, hin', hbase]
  simp

theorem OnlyJournal.setFlt {s u : State} (h : OnlyJournal s u) (f : FltSt) : OnlyJournal { s with flt := f } { u with flt := f } := by
  unfold OnlyJournal at *
  rw [h]

theorem State.assertFlt_flt_congr {s t : State} (h : t.flt = s.flt) (i : Nat) : (t.assertFlt i).flt = (s.assertFlt i).flt := by
  unfold State.assertFlt
  rw [h]
  split
  · exact h
  · rfl

section
variable {s : State} {w : Fin 4} {q : Fin 8} {c : Cmd}

theorem planRead_returns {slot : Bool} {o n : Nat} (h : s.takes w q 0x15 c) (hargs : c.args = readArgs slot o n) (hal : o % 8 = 0)
    (hlo : 8 ≤ n) (hhi : n ≤ 1024) (hn : n % 8 = 0) (hin : o + n ≤ 2097152) :
    ∃ t, exec (.planRead w q) s = .next t ∧ t.returns c.id n (s.nvLd (slotBase slot + o) n) ∧
      OnlyJournal { s with flt := t.flt } t ∧
      t.flt = (if s.nvMark .single (slotBase slot + o) n then (s.assertFlt 353).flt else s.flt) := by
  have hbegun := h.begun_onlyJournal
  have hflt : (s.begun c).flt = s.flt := by rw [hbegun]
  have hbase := slotBase_le slot
  have hexec : exec (.planRead w q) s = .next (((s.begun c).nvCe (slotBase slot + o) n).finishData c.id 0 n
      (s.nvLd (slotBase slot + o) n)) := by
    show Host.Outcome.next _ = _
    rw [h.runCmd]
    exact congrArg _ (planRead_eq (c := { c with marked := true }) (s := s.modCmd c.id _) hargs hal hlo hhi hn hin)
  have hread := (s.begun c).nvCe_eq (slotBase slot + o) n
  have hce : ((s.begun c).nvCe (slotBase slot + o) n).flt =
      if s.nvMark .single (slotBase slot + o) n then (s.assertFlt 353).flt else s.flt := by
    unfold State.nvCe
    rw [(s.begun_moves c).marks _ _ _ (by omega), apply_ite State.flt, State.assertFlt_flt_congr hflt, hflt]
  generalize (s.begun c).nvCe (slotBase slot + o) n = e at *
  have halone : e.alone := (State.alone_congr (s := s.begun c) (by rw [hread])).2 h.begun_alone
  have hopen : e.cmdOpen c.id = true := by
    rw [State.cmdOpen_congr (s := s.begun c) (by rw [hread])]
    exact h.begun_cmdOpen
  have hstart : e.starts c.id := State.holdsDue_congr (s := s.begun c) (by rw [hread]) h.begun_starts
  have hend := OnlyJournal.finishData e c.id 0 n (s.nvLd (slotBase slot + o) n) halone
  have htflt : (e.finishData c.id 0 n (s.nvLd (slotBase slot + o) n)).flt = e.flt := by rw [hend]
  refine ⟨_, hexec, ⟨?_, _, e.awaits_finishData hopen 0 n _, rfl, rfl, rfl, rfl⟩, ?_, htflt.trans hce⟩
  · exact hstart.imp fun d hd => ⟨(RecordsMoved.finishData e c.id 0 n _).awaits d hd.1, hd.2⟩
  · rw [htflt]
    have hlift := hbegun.setFlt e.flt
    rw [← hread] at hlift
    exact hlift.trans hend

end

/-! ### PLAN_KEY -/

/-- The argument bytes of PLAN_KEY: slot, FLAGS, key and signature. -/
def keyArgs (slot : Bool) (fl : Nat) (key sig : List Byte) : List Byte := toLe 1 (b2n slot) ++ toLe 1 fl ++ toLe 6 0 ++ key ++ sig

section
variable (slot : Bool) (fl : Nat) (key sig : List Byte)

theorem keyArgs_length (hkey : key.length = 64) (hsig : sig.length = 64) : (keyArgs slot fl key sig).length = 136 := by
  simp [keyArgs, hkey, hsig]

theorem keyArgs_slot : u (keyArgs slot fl key sig) 0 1 = b2n slot := by
  have h := u_front (toLe 1 fl ++ (toLe 6 0 ++ (key ++ sig))) 1 (b2n slot)
  simp only [keyArgs, List.append_assoc, h]
  cases slot <;> rfl

theorem keyArgs_flags (h : fl < 256) : u (keyArgs slot fl key sig) 1 1 = fl := by
  have hu := u_toLe (toLe 1 (b2n slot)) (toLe 6 0 ++ key ++ sig) 1 fl
  rw [Nat.mod_eq_of_lt (by omega)] at hu
  simpa [keyArgs] using hu

theorem keyArgs_zeros : zeros (keyArgs slot fl key sig) 2 6 = true := by
  have h := zeros_middle (toLe 1 (b2n slot) ++ toLe 1 fl) (key ++ sig) 6
  simpa [keyArgs] using h

theorem keyArgs_key (h : key.length = 64) : sub (keyArgs slot fl key sig) 8 64 = key := by
  have hs := sub_middle (toLe 1 (b2n slot) ++ toLe 1 fl ++ toLe 6 0) key sig
  simpa [keyArgs, h] using hs

end

/-- A key slot takes a key, or none. -/
def PlanStore.setKey (x : PlanStore) (slot : Bool) (k : Option (List Byte)) : PlanStore :=
  if slot then { x with key1 := k } else { x with key0 := k }

/-- The effect of PLAN_KEY on a device that requires no signature. -/
def State.keySet (s : State) (slot : Bool) (k : Option (List Byte)) : State :=
  ((({ s with store := s.store.setKey slot k } : State).rowsSet (keyRow (b2n slot)) 1).rowsSet (keyRow 2) 1).showStore

theorem StoreMoved.rowsSet (s : State) (a n : Nat) : StoreMoved s (s.rowsSet a n) := ⟨rfl, fun _ _ => rfl⟩

theorem State.keySet_moves (s : State) (slot : Bool) (k : Option (List Byte)) : StoreMoved s (s.keySet slot k) :=
  (((StoreMoved.setStore s _).trans (StoreMoved.rowsSet _ _ _)).trans (StoreMoved.rowsSet _ _ _)).trans (StoreMoved.showStore _)

theorem State.keySet_store (s : State) (slot : Bool) (k : Option (List Byte)) : (s.keySet slot k).store = s.store.setKey slot k :=
  congrArg State.store (State.showStore_moves _).frame

section
variable {s : State} {w : Fin 4} {q : Fin 8} {c : Cmd} {slot : Bool} {fl : Nat} {key sig : List Byte}

theorem PlanStore.setKey_eq (x : PlanStore) (hreq : x.requireSig = false) (k : Option (List Byte)) :
    { x with key0 := if b2n slot = 0 then k else x.key0, key1 := if b2n slot = 1 then k else x.key1, requireSig := false } =
      x.setKey slot k := by
  cases x
  cases hreq
  cases slot <;> rfl

/-- Without EMPTY a point of the curve is written, with it the slot is emptied. -/
theorem planKey_eq (hargs : c.args = keyArgs slot fl key sig) (hkey : key.length = 64) (hsig : sig.length = 64) (hfl : fl < 2)
    (hreq : s.store.requireSig = false) (hstore : (s.started c).store = s.store)
    (hpoint : fl = 0 → onCurve (keyPoint key).1 (keyPoint key).2 = true) (hzero : fl = 1 → key = toLe 64 0) :
    planKey c s = ((s.started c).keySet slot (if fl = 1 then none else some key)).finishF c.id 0 := by
  have hslot : ¬ 1 < b2n slot := by cases slot <;> decide
  have hlow : ¬ 3 < fl := by omega
  have hsigBit : fl / 2 % 2 = 0 := by omega
  have hempty : fl % 2 = fl := Nat.mod_eq_of_lt hfl
  have hzeros : fl = 1 → zeros (keyArgs slot fl key sig) 8 64 = true := by
    intro h1
    rw [zeros, keyArgs_key slot fl key sig hkey, hzero h1, toLe_zero, List.all_replicate]
    simp
  have hpoint' : ¬ (¬ fl = 1 ∧ (!onCurve (keyPoint key).1 (keyPoint key).2) = true) := by
    rintro ⟨h1, h2⟩
    rw [hpoint (by omega)] at h2
    cases h2
  unfold planKey State.keySet
  simp only [hargs, keyArgs_slot, keyArgs_flags slot fl key sig (by omega), keyArgs_length slot fl key sig hkey hsig, keyArgs_zeros,
    keyArgs_key slot fl key sig hkey, hempty, hsigBit, hreq, Bool.false_eq_true, if_false, hstore,
    ← s.store.setKey_eq hreq]
  rw [if_neg (by simpa [hslot, hlow] using hzeros), if_neg (by simp), if_neg hpoint', if_neg (by simp)]
  rfl

theorem planKey_keys (h : s.takes w q 0x16 c) (hreq : s.store.requireSig = false) (hargs : c.args = keyArgs slot fl key sig)
    (hkey : key.length = 64) (hsig : sig.length = 64) (hfl : fl < 2)
    (hpoint : fl = 0 → onCurve (keyPoint key).1 (keyPoint key).2 = true) (hzero : fl = 1 → key = toLe 64 0) :
    ∃ t, exec (.planKey w q) s = .next t ∧ t.completes c.id 0 ∧ t.store = s.store.setKey slot (if fl = 1 then none else some key) ∧
      RegsKept storeRegs s t ∧ OnlyJournal { s with regs := t.regs, store := t.store } t := by
  have hstore : (s.begun c).store = s.store := h.begun_store
  have hexec : exec (.planKey w q) s = .next (((s.begun c).keySet slot (if fl = 1 then none else some key)).finishF c.id 0) := by
    show Host.Outcome.next _ = _
    rw [h.runCmd]
    exact congrArg _ (planKey_eq (c := { c with marked := true }) (s := s.modCmd c.id _) hargs hkey hsig hfl hreq hstore hpoint hzero)
  have hcmd := h.storeCommand ((s.begun c).keySet_moves slot (if fl = 1 then none else some key))
  refine ⟨_, hexec, hcmd.completes, ?_, hcmd.regs, hcmd.frame⟩
  rw [hcmd.store, State.keySet_store, hstore]

end

/-- Settles O19. PLAN_KEY with EMPTY is PLAN_KEY with a key of zeros. -/
theorem planReadAndKeys : Obligations.PlanReadAndKeys := by
  unfold Obligations.PlanReadAndKeys
  refine fun s w q c => ⟨fun slot o n => planRead_returns, fun slot key sig h hreq hkey hsig => ⟨fun hargs hpoint => ?_, fun hargs => ?_⟩⟩
  · exact planKey_keys (fl := 0) h hreq hargs hkey hsig (by decide) (fun _ => hpoint) (by simp)
  · exact planKey_keys (fl := 1) h hreq hargs (toLe_length 64 0) hsig (by decide) (by simp) (fun _ => rfl)

end Sys2Proof.Machine
end

section
/-! SUPPORT. A sequencer that stops (R90, R94, R117, R272): what it moves in any role, and what it leaves of a device on which no record may
begin any more. -/

namespace Sys2Proof.Machine

/-! ### Loops -/

/-- A loop stands in a relation in which each of its rounds stands. -/
theorem forEach_rel {α β : Type} {R : β → β → Prop} (hrefl : ∀ b, R b b) (htrans : ∀ {a b c}, R a b → R b c → R a c) (l : List α) (b : β)
    (f : α → β → β) (h : ∀ x c, R c (f x c)) : R b (forEach l b f) := by
  unfold forEach
  induction l generalizing b with
  | nil => exact hrefl b
  | cons x t ih => exact htrans (h x b) (ih _)

/-- What only the round of `d` changes, a loop over all of them changes as that round does. -/
theorem forEach_range_at {β γ : Type} (g : β → γ) (h : γ → γ) {n d : Nat} (hd : d < n) (b : β) (f : Nat → β → β)
    (hself : ∀ c, g (f d c) = h (g c)) (hne : ∀ e, e < n → e ≠ d → ∀ c, g (f e c) = g c) : g (forEach (List.range n) b f) = h (g b) := by
  unfold forEach
  induction n with
  | zero => omega
  | succ n ih =>
    rw [List.range_succ, List.foldl_append, List.foldl_cons, List.foldl_nil]
    by_cases hn : d = n
    · subst hn
      have hkeep := forEach_keeps_of_mem g (List.range d) b f fun e he c =>
        hne e (Nat.lt_succ_of_lt (List.mem_range.1 he)) (List.mem_range.1 he).ne c
      rw [hself]
      exact congrArg h hkeep
    · rw [hne n (Nat.lt_succ_self n) (Ne.symm hn)]
      exact ih (by omega) fun e he => hne e (by omega)

/-! ### Units and registers -/

/-- The state without its registers, event queues and the units that a stopping sequencer touches. -/
def State.unitsErased (s : State) : State :=
  { s with
    regs := [], wards := .replicate 4 .zero, seqs := .replicate 32 .zero, sqs := .replicate 64 .zero, vs := .replicate 16 .zero,
    arms := .replicate 32 .zero, shut := .zero, tims := .replicate 8 .zero }

section
variable (s : State)

@[simp] theorem State.p_unitsErased (f : FRef) (v : Nat) : (s.p f v).unitsErased = s.unitsErased := rfl

@[simp] theorem State.pb_unitsErased (f : FRef) (b : Bool) : (s.pb f b).unitsErased = s.unitsErased := rfl

@[simp] theorem State.setShut_unitsErased (x : Shut) : ({ s with shut := x } : State).unitsErased = s.unitsErased := rfl

@[simp] theorem State.modSeq_unitsErased (k : Nat) (f : Seq → Seq) : (s.modSeq k f).unitsErased = s.unitsErased := by
  unfold State.modSeq
  split <;> rfl

@[simp] theorem State.modSq_unitsErased (q : Nat) (f : Sq → Sq) : (s.modSq q f).unitsErased = s.unitsErased := by
  unfold State.modSq
  split <;> rfl

@[simp] theorem State.modVs_unitsErased (v : Nat) (f : VsEng → VsEng) : (s.modVs v f).unitsErased = s.unitsErased := by
  unfold State.modVs
  split <;> rfl

@[simp] theorem State.modArm_unitsErased (k : Nat) (f : CapArm → CapArm) : (s.modArm k f).unitsErased = s.unitsErased := by
  unfold State.modArm
  split <;> rfl

@[simp] theorem State.modTim_unitsErased (u : Nat) (f : TimU → TimU) : (s.modTim u f).unitsErased = s.unitsErased := by
  unfold State.modTim
  split <;> rfl

@[simp] theorem State.modWard_unitsErased (w : Nat) (f : WardSt → WardSt) : (s.modWard w f).unitsErased = s.unitsErased := by
  unfold State.modWard
  split <;> rfl

@[simp] theorem State.eventTo_unitsErased (w : Option Nat) (c x : Nat) : (s.eventTo w c x).unitsErased = s.unitsErased := by
  unfold State.eventTo State.event State.post
  split
  · split <;> simp
  · rfl

@[simp] theorem State.sqWithdraw_unitsErased (m : Nat) : (s.sqWithdraw m).unitsErased = s.unitsErased :=
  forEach_keeps State.unitsErased _ s _ fun q t => by
    split
    · simp [State.sqRemove, State.sqShow]
    · rfl

@[simp] theorem State.vsUnbind_unitsErased (v : Nat) : (s.vsUnbind v).unitsErased = s.unitsErased := by simp [State.vsUnbind]

@[simp] theorem State.afterDrain_unitsErased (k : Nat) : (s.afterDrain k).unitsErased = s.unitsErased := by
  unfold State.afterDrain State.closeBatch State.shutEnd
  split
  · dsimp only
    split <;> split <;> simp
  · rfl

end

/-! ### What a stopping sequencer moves -/

/-- `t` is `s` but for registers, units that sequencers use, event queues, and what the final records of commands touch; while no record may
begin, these records only become due. -/
structure HaltMoved (s t : State) : Prop where
  frame : t = { s with
    regs := t.regs, wards := t.wards, seqs := t.seqs, sqs := t.sqs, vs := t.vs, arms := t.arms, shut := t.shut, tims := t.tims,
    cmds := t.cmds, jnl := t.jnl, nvm := t.nvm, nvmEcc := t.nvmEcc, fresh := t.fresh, ports := t.ports, outs := t.outs,
    twin := { s.twin with backlog := t.twin.backlog } }
  awaits : ∀ d, s.awaits d → t.awaits d
  stopped : s.jnl.stop = true → t.jnl.stop = true ∧ t.nvm = s.nvm ∧ t.nvmEcc = s.nvmEcc ∧ t.twin = s.twin

theorem HaltMoved.refl (s : State) : HaltMoved s s := ⟨rfl, fun _ h => h, fun h => ⟨h, rfl, rfl, rfl⟩⟩

theorem HaltMoved.trans {s t u : State} (h : HaltMoved s t) (h' : HaltMoved t u) : HaltMoved s u := by
  refine ⟨?_, fun d hd => h'.awaits d (h.awaits d hd), fun hs => ?_⟩
  · rw [h'.frame]; rw [h.frame]
  · obtain ⟨hstop, hnvm, hecc, htwin⟩ := h.stopped hs
    obtain ⟨hstop', hnvm', hecc', htwin'⟩ := h'.stopped hstop
    exact ⟨hstop', hnvm'.trans hnvm, hecc'.trans hecc, htwin'.trans htwin⟩

theorem HaltMoved.of_unitsErased {s t : State} (h : t.unitsErased = s.unitsErased) : HaltMoved s t := by
  have hjnl : t.unitsErased.jnl = s.unitsErased.jnl := congrArg State.jnl h
  have hjnl : t.jnl = s.jnl := hjnl
  have hframe : t = { s with regs := t.regs, wards := t.wards, seqs := t.seqs, sqs := t.sqs, vs := t.vs, arms := t.arms, shut := t.shut, tims := t.tims } :=
    congrArg (fun x : State => { x with
      regs := t.regs, wards := t.wards, seqs := t.seqs, sqs := t.sqs, vs := t.vs, arms := t.arms, shut := t.shut, tims := t.tims }) h
  refine ⟨?_, fun d hd => ?_, fun hs => ?_⟩
  · conv_lhs => rw [hframe]
    rw [hframe]
  · unfold State.awaits at *
    rwa [hjnl]
  · rw [hframe]
    exact ⟨hs, rfl, rfl, rfl⟩

theorem HaltMoved.finish (s : State) (id st arg : Nat) : HaltMoved s (s.finish id st arg) := by
  have h := RecordsMoved.finish s id st arg
  refine ⟨?_, h.awaits, fun hs => ?_⟩
  · conv_lhs => rw [h.frame]
    rw [h.frame]
  · unfold State.finish State.finishData State.record State.pumpJournal
    split
    · rw [if_pos (by simp [State.addDue, State.modCmd, hs])]
      exact ⟨hs, rfl, rfl, rfl⟩
    · exact ⟨hs, rfl, rfl, rfl⟩

theorem HaltMoved.finishOpt (s : State) (id : Option Nat) (st arg : Nat) : HaltMoved s (s.finishOpt id st arg) := by
  cases id with
  | none => exact HaltMoved.refl s
  | some id => exact HaltMoved.finish s id st arg

theorem HaltMoved.timEnd (s : State) (u cause : Nat) : HaltMoved s (s.timEnd u cause) := by
  unfold State.timEnd
  extract_lets n sum sq mean sd x t₁ t₂ t₃ t₄
  refine HaltMoved.trans (HaltMoved.of_unitsErased ?_) (HaltMoved.finishOpt _ _ _ _)
  simp only [t₄, t₃, t₂, t₁]
  split <;> simp

theorem HaltMoved.timBoundEnd (s : State) (k : Nat) : HaltMoved s (s.timBoundEnd k) :=
  forEach_rel HaltMoved.refl HaltMoved.trans _ s _ fun u t => by
    split
    · exact HaltMoved.timEnd t u 4
    · exact HaltMoved.refl t

/-! The steps of the end of a burst, in order. -/

/-- The burst of sequencer `k` is marked as ended. -/
def State.burstMarked (s : State) (k cause pc : Nat) (fault : Bool) : State :=
  s.modSeq k (fun x => { x with
    st := if fault then .fault else .idle, arch := { x.shown with pc := pc }, shadow := none, pendStop := false,
    pendPause := false, wait := none, holdLeft := 0, urWait := false, urSent := false, step := false, ending := false,
    burst := x.burst.map (fun b => { b with
      ended := some cause, stops := [], stream := (s.seqVs k).bind (fun v => if (s.vse v).inBurst then some (v, s.vsImg v) else none) }) })

/-- The commands that stopped it complete, its arrivals at Squares are withdrawn, and the end shows. -/
def State.burstShown (s : State) (stops : List Nat) (k cause pc : Nat) : State :=
  (((forEach stops s (fun id s => s.finish id 0 cause)).sqWithdraw k).p (PS_BURST_END_CAUSE k) cause).p (PS_BURST_END_PC k) pc

/-- Its stream is unbound. -/
def State.streamEnds (s : State) (k : Nat) : State :=
  match s.seqVs k with
  | some v => if (s.vse v).inBurst then ((s.sqWithdraw (32 + v)).vsUnbind v).finishOpt (s.vse v).arm 0 0 else s
  | none => s

theorem State.streamEnds_of_none (s : State) {k : Nat} (h : s.seqVs k = none) : s.streamEnds k = s := by
  unfold State.streamEnds
  rw [h]

theorem State.streamEnds_of_some (s : State) {k v : Nat} (h : s.seqVs k = some v) : s.streamEnds k =
    if (s.vse v).inBurst then ((s.sqWithdraw (32 + v)).vsUnbind v).finishOpt (s.vse v).arm 0 0 else s := by
  unfold State.streamEnds
  rw [h]

theorem State.seqEnd_eq {s : State} {k : Nat} (h : s.bursting k = true) (cause pc : Nat) (fault : Bool) : s.seqEnd k cause pc fault =
    (((((s.burstMarked k cause pc fault).burstShown (((s.seq k).burst.map (·.stops)).getD []) k cause pc).streamEnds k).timBoundEnd
      k).afterDrain k) := by
  unfold State.seqEnd
  rw [if_neg (show ¬ (!s.bursting k) = true by simp [h])]
  extract_lets stops t₁ t₂ t₃ t₄
  have hshown : t₃ = t₁.burstShown stops k cause pc := rfl
  have hstream : t₄ = t₃.streamEnds k := by
    cases hv : t₃.seqVs k with
    | none => rw [t₃.streamEnds_of_none hv]; simp only [t₄, hv]
    | some v => rw [t₃.streamEnds_of_some hv]; simp only [t₄, hv]
  have hmarked : t₁ = s.burstMarked k cause pc fault := rfl
  rw [hstream, hshown, hmarked]

theorem HaltMoved.burstShown (s : State) (stops : List Nat) (k cause pc : Nat) : HaltMoved s (s.burstShown stops k cause pc) :=
  HaltMoved.trans (forEach_rel HaltMoved.refl HaltMoved.trans _ s _ fun id t => HaltMoved.finish t id 0 cause)
    ((HaltMoved.of_unitsErased (State.sqWithdraw_unitsErased _ k)).trans
      ((HaltMoved.of_unitsErased (State.p_unitsErased _ _ _)).trans (HaltMoved.of_unitsErased (State.p_unitsErased _ _ _))))

theorem HaltMoved.streamEnds (s : State) (k : Nat) : HaltMoved s (s.streamEnds k) := by
  unfold State.streamEnds
  split
  · split
    · exact (HaltMoved.of_unitsErased (by simp)).trans (HaltMoved.finishOpt _ _ _ _)
    · exact HaltMoved.refl _
  · exact HaltMoved.refl _

theorem HaltMoved.seqEnd (s : State) (k cause pc : Nat) (fault : Bool) : HaltMoved s (s.seqEnd k cause pc fault) := by
  by_cases h : s.bursting k = true
  · rw [State.seqEnd_eq h]
    exact ((((HaltMoved.of_unitsErased (s.modSeq_unitsErased k _)).trans (HaltMoved.burstShown _ _ _ _ _)).trans
      (HaltMoved.streamEnds _ _)).trans (HaltMoved.timBoundEnd _ _)).trans (HaltMoved.of_unitsErased (State.afterDrain_unitsErased _ _))
  · unfold State.seqEnd
    rw [if_pos (by simpa using h)]
    exact HaltMoved.refl s

theorem HaltMoved.seqHalt (s : State) (k cause : Nat) : HaltMoved s (s.seqHalt k cause) := HaltMoved.seqEnd _ _ _ _ _

/-! ### The sequencers behind it -/

theorem State.bursting_congr {s t : State} (h : t.seqs = s.seqs) (k : Nat) : t.bursting k = s.bursting k := by
  unfold State.bursting
  rw [State.seq_congr h]

theorem RecordsMoved.seqs {s t : State} (h : RecordsMoved s t) : t.seqs = s.seqs := by rw [h.frame]

theorem State.finish_seqs (s : State) (id st arg : Nat) : (s.finish id st arg).seqs = s.seqs := (RecordsMoved.finish s id st arg).seqs

theorem State.finishOpt_seqs (s : State) (id : Option Nat) (st arg : Nat) : (s.finishOpt id st arg).seqs = s.seqs := by
  cases id with
  | none => rfl
  | some id => exact s.finish_seqs id st arg

theorem State.sqWithdraw_seqs (s : State) (m : Nat) : (s.sqWithdraw m).seqs = s.seqs :=
  forEach_keeps State.seqs _ s _ fun q t => by
    split
    · simp [State.sqRemove, State.sqShow]
    · rfl

theorem State.timBoundEnd_seqs (s : State) (k : Nat) : (s.timBoundEnd k).seqs = s.seqs :=
  forEach_keeps State.seqs _ s _ fun u t => by
    split
    · unfold State.timEnd
      extract_lets n sum sq mean sd x t₁ t₂ t₃ t₄
      rw [State.finishOpt_seqs]
      simp only [t₄, t₃, t₂, t₁]
      split <;> simp
    · rfl

theorem State.afterDrain_seqs (s : State) (k : Nat) : (s.afterDrain k).seqs = s.seqs := by
  unfold State.afterDrain State.closeBatch State.shutEnd
  split
  · dsimp only
    split <;> split <;> simp
  · rfl

theorem State.burstShown_seqs (s : State) (stops : List Nat) (k cause pc : Nat) : (s.burstShown stops k cause pc).seqs = s.seqs := by
  unfold State.burstShown
  rw [State.p_seqs, State.p_seqs, State.sqWithdraw_seqs, forEach_keeps State.seqs _ _ _ fun id t => t.finish_seqs id 0 cause]

theorem State.streamEnds_seqs (s : State) (k : Nat) : (s.streamEnds k).seqs = s.seqs := by
  unfold State.streamEnds
  split
  · split
    · rw [State.finishOpt_seqs]
      simp [State.vsUnbind, State.sqWithdraw_seqs]
    · rfl
  · rfl

/-- Of the sequencers only the one that ends changes. -/
theorem State.seqEnd_seqs {s : State} {k : Nat} (h : s.bursting k = true) (cause pc : Nat) (fault : Bool) :
    (s.seqEnd k cause pc fault).seqs = (s.burstMarked k cause pc fault).seqs := by
  rw [State.seqEnd_eq h, State.afterDrain_seqs, State.timBoundEnd_seqs, State.streamEnds_seqs, State.burstShown_seqs]

theorem State.bursting_lt {s : State} {k : Nat} (h : s.bursting k = true) : k < 32 := by
  by_contra hk
  have hlen : s.seqs.toList.length ≤ k := by simpa using hk
  unfold State.bursting State.seq at h
  rw [List.getD_eq_default _ _ hlen] at h
  cases h

theorem State.seqHalt_bursting (s : State) (k cause j : Nat) :
    (s.seqHalt k cause).bursting j = (s.bursting j && decide (j ≠ k)) := by
  unfold State.seqHalt
  cases h : s.bursting k with
  | true =>
    rw [State.bursting_congr (State.seqEnd_seqs h _ _ _)]
    unfold State.bursting State.burstMarked
    by_cases hj : j = k
    · subst hj
      rw [State.seq_modSeq_self _ _ _ (State.bursting_lt h)]
      simp
    · rw [State.seq_modSeq_ne _ _ hj]
      simp [hj]
  | false =>
    unfold State.seqEnd
    rw [if_pos (by simp [h])]
    by_cases hj : j = k
    · simp [hj, h]
    · simp [hj]

end Sys2Proof.Machine
end

section
/-! SUPPORT. The start of a chip reset (R330, R335, R336, R366, R367; Table 17.5). -/

namespace Sys2Proof.Machine

/-! ### A byte string stored word by word -/

/-- The state without memory, its check bits, the DRAM channels, registers, event queues and the assertions that wait. -/
def State.memErased (s : State) : State :=
  { s with
    mem := [], ecc := [], drcs := .replicate 4 .zero, regs := [], wards := .replicate 4 .zero, flt := { s.flt with pend := [] } }

section
variable (s : State)

@[simp] theorem State.p_memErased (f : FRef) (v : Nat) : (s.p f v).memErased = s.memErased := rfl

@[simp] theorem State.pb_memErased (f : FRef) (b : Bool) : (s.pb f b).memErased = s.memErased := rfl

@[simp] theorem State.inc_memErased (f : FRef) (v : Nat) : (s.inc f v).memErased = s.memErased := rfl

@[simp] theorem State.eccClear_memErased (a : Nat) : (s.eccClear a).memErased = s.memErased := rfl

@[simp] theorem State.assertFlt_memErased (i : Nat) : (s.assertFlt i).memErased = s.memErased := by
  unfold State.assertFlt
  split <;> rfl

@[simp] theorem State.modDrc_memErased (d : Nat) (f : Drc → Drc) : (s.modDrc d f).memErased = s.memErased := by
  unfold State.modDrc
  split <;> rfl

@[simp] theorem State.eventTo_memErased (w : Option Nat) (c x : Nat) : (s.eventTo w c x).memErased = s.memErased := by
  cases w with
  | none => rfl
  | some w =>
    show (s.post w _).memErased = _
    unfold State.post State.modWard
    split
    · split <;> rfl
    · rfl

@[simp] theorem State.st_memErased (a : Nat) (l : List Byte) : (s.st a l).memErased = s.memErased := by
  induction l generalizing s a with
  | nil => rfl
  | cons b t ih => exact ih _ _

@[simp] theorem State.dramQueue_memErased (master o : Nat) (w p r : Bool) (data : List (Nat × Byte)) (tok : Nat) :
    (s.dramQueue master o w p r data tok).memErased = s.memErased := s.modDrc_memErased _ _

end

/-- Nothing is moved but bytes of memory in `[lo, hi)`, and what their controllers show. -/
structure MemMoved (lo hi : Nat) (s t : State) : Prop where
  erased : t.memErased = s.memErased
  ldB : ∀ a, a < lo ∨ hi ≤ a → t.ldB a = s.ldB a

section
variable {lo hi : Nat}

theorem MemMoved.refl (s : State) : MemMoved lo hi s s := ⟨rfl, fun _ _ => rfl⟩

theorem MemMoved.trans {s t u : State} (h : MemMoved lo hi s t) (h' : MemMoved lo hi t u) : MemMoved lo hi s u :=
  ⟨h'.erased.trans h.erased, fun a ha => (h'.ldB a ha).trans (h.ldB a ha)⟩

theorem MemMoved.of_mem {s t : State} (h : t.memErased = s.memErased) (hm : t.mem = s.mem) : MemMoved lo hi s t :=
  ⟨h, fun a _ => by unfold State.ldB; rw [hm]⟩

section
variable {s t : State} (h : MemMoved lo hi s t)
include h

theorem MemMoved.p (f : FRef) (v : Nat) : MemMoved lo hi s (t.p f v) := h.trans (MemMoved.of_mem rfl rfl)

theorem MemMoved.pb (f : FRef) (b : Bool) : MemMoved lo hi s (t.pb f b) := h.p f _

theorem MemMoved.inc (f : FRef) (v : Nat) : MemMoved lo hi s (t.inc f v) := h.p f _

theorem MemMoved.assertFlt (i : Nat) : MemMoved lo hi s (t.assertFlt i) :=
  h.trans (MemMoved.of_mem (t.assertFlt_memErased i) (by simp))

theorem MemMoved.eventTo (w : Option Nat) (c x : Nat) : MemMoved lo hi s (t.eventTo w c x) :=
  h.trans (MemMoved.of_mem (t.eventTo_memErased w c x) (by simp))

end

theorem MemMoved.eccUe (s : State) (master m o : Nat) (tag : Bool) : MemMoved lo hi s (s.eccUe master m o tag) := by
  unfold State.eccUe
  split
  · exact (((((MemMoved.refl s).pb _ _).pb _ _).p _ _).assertFlt _).eventTo _ _ _
  · exact ((((MemMoved.refl s).pb _ _).p _ _).assertFlt _).eventTo _ _ _

theorem MemMoved.lmRead (s : State) (a : Nat) : MemMoved lo hi s (s.lmRead a).1 := by
  unfold State.lmRead
  split
  · exact (((MemMoved.refl s).inc _ _).p _ _).assertFlt _
  · exact (((MemMoved.refl s).pb _ _).p _ _).assertFlt _
  · exact MemMoved.refl s

theorem MemMoved.eccRead (s : State) (master m o : Nat) : MemMoved lo hi s (s.eccRead master m o).1 := by
  have hcorrected : MemMoved lo hi s (if m = 0 then (s.inc (DRC_ECC_CORR (s.dramCh o)) 1).assertFlt (264 + s.dramCh o)
      else (s.inc MEM_SRAM_ECC_CORR 1).assertFlt 258) := by
    split <;> exact ((MemMoved.refl s).inc _ _).assertFlt _
  unfold State.eccRead
  split
  · exact MemMoved.lmRead s _
  · cases s.eccAt (memBase m + o) with
    | none => exact MemMoved.refl s
    | some mark =>
      cases mark with
      | multi => exact MemMoved.eccUe s _ _ _ _
      | single => exact hcorrected
      | tag b =>
        dsimp only
        split
        · exact MemMoved.refl s
        · split
          · exact hcorrected
          · exact MemMoved.eccUe s _ _ _ _

/-- One word of a memory that is no core's. -/
theorem MemMoved.writeWord {master m o : Nat} {b : List Byte} (s : State) (hm : m ≠ 4) (hlo : lo ≤ memBase m + o)
    (hhi : memBase m + o + b.length ≤ hi) : MemMoved lo hi s (s.writeWord master m o b).1 := by
  have hread : MemMoved lo hi s (if decide (b.length = 8) = true then (s, false) else s.eccRead master m (o / 8 * 8)).1 := by
    split
    · exact MemMoved.refl s
    · exact MemMoved.eccRead s _ _ _
  unfold State.writeWord
  extract_lets full r
  have hread : MemMoved lo hi s r.1 := hread
  rw [if_neg hm]
  split
  · exact hread
  · refine hread.trans ⟨by simp, fun a ha => ?_⟩
    have hout : a < memBase m + o ∨ memBase m + o + b.length ≤ a := by omega
    exact State.ldB_st_out _ _ _ _ hout

theorem cutWords_within (n a : Nat) (b : List Byte) :
    ∀ w : Nat × List Byte, w ∈ cutWords n a b → a ≤ w.1 ∧ w.1 + w.2.length ≤ a + b.length := by
  induction n generalizing a b with
  | zero => simp [cutWords]
  | succ n ih =>
    unfold cutWords
    dsimp only
    split
    · simp
    · rw [List.forall_mem_cons]
      refine ⟨⟨Nat.le_refl _, ?_⟩, fun w hw => ?_⟩
      · simp only [List.length_take]; omega
      · obtain ⟨hlow, hhigh⟩ := ih _ _ w hw
        have hlen := List.length_drop (i := 8 - a % 8) (l := b)
        by_cases hk : 8 - a % 8 ≤ b.length
        · omega
        · exfalso
          have hn : b.drop (8 - a % 8) = [] := List.drop_eq_nil_of_le (by omega)
          rw [hn] at hw
          cases n <;> simp [cutWords] at hw

end

theorem MemMoved.writeWords (s : State) {master m o n : Nat} (hm : m ≠ 4) {b : List Byte} (hn : b.length = n) :
    MemMoved (memBase m + o) (memBase m + o + n) s (s.writeWords master m o b).1 := by
  subst hn
  have hfold (l : List (Nat × List Byte)) (acc : State × Bool) (h : ∀ w ∈ l, o ≤ w.1 ∧ w.1 + w.2.length ≤ o + b.length) :
      MemMoved (memBase m + o) (memBase m + o + b.length) acc.1 (l.foldl (fun (acc : State × Bool) w =>
        if m = 0 ∧ s.rangeBad w.1 then acc
        else
          let t := acc.1.writeWord master m w.1 w.2
          (t.1, acc.2 || t.2)) acc).1 := by
    induction l generalizing acc with
    | nil => exact MemMoved.refl _
    | cons w l ih =>
      rw [List.forall_mem_cons] at h
      obtain ⟨⟨hlow, hhigh⟩, hl⟩ := h
      rw [List.foldl_cons]
      refine MemMoved.trans ?_ (ih _ hl)
      split
      · exact MemMoved.refl _
      · exact MemMoved.writeWord _ hm (by omega) (by omega)
  exact hfold _ (s, false) (cutWords_within _ _ _)

end Sys2Proof.Machine
end

section
/-! SUPPORT. The start of a chip reset (R330, R335, R336, R366, R367; Table 17.5), step by step. -/

namespace Sys2Proof.Machine

/-! ### The seal -/

theorem MemMoved.frame {lo hi : Nat} {s t : State} (h : MemMoved lo hi s t) : t = { s with
    mem := t.mem, ecc := t.ecc, drcs := t.drcs, regs := t.regs, wards := t.wards, flt := { s.flt with pend := t.flt.pend } } :=
  congrArg (fun x : State => { x with
    mem := t.mem, ecc := t.ecc, drcs := t.drcs, regs := t.regs, wards := t.wards, flt := { x.flt with pend := t.flt.pend } }) h.erased

theorem Recov.seal_length (ra : Recov) : ra.seal.length = 24 := by simp [Recov.seal]

theorem MemMoved.writeSeal (s : State) (o : Nat) (ra : Recov) : MemMoved (memBase 0 + o) (memBase 0 + o + 24) s
    ((s.dramQueue 0x08 o true false false).writeWords 0x08 0 o ra.seal).1 :=
  (MemMoved.of_mem (s.dramQueue_memErased _ _ _ _ _ _ _) (s.modDrc_mem _ _)).trans (MemMoved.writeWords _ (by decide) ra.seal_length)

/-- The definition, as an equation between functions: applied, it is too costly for the kernel to unfold. -/
theorem State.raWrite_fun : State.raWrite = fun s ra => ((s.dramQueue 0x08 s.raBase true false false).writeWords 0x08 0 s.raBase ra.seal).1 :=
  rfl

theorem MemMoved.raWrite {s : State} {o : Nat} (h : s.raBase = o) (ra : Recov) :
    MemMoved (memBase 0 + o) (memBase 0 + o + 24) s (s.raWrite ra) := by
  rw [congrFun (congrFun State.raWrite_fun s) ra, h]
  exact MemMoved.writeSeal s o ra

/-! ### Every sequencer stops -/

theorem State.haltAll_bursting (l : List Nat) (s : State) (cause j : Nat) :
    (forEach l s (fun k s => s.seqHalt k cause)).bursting j = (s.bursting j && decide (j ∉ l)) := by
  unfold forEach
  induction l generalizing s with
  | nil => simp
  | cons k l ih =>
    rw [List.foldl_cons, ih, State.seqHalt_bursting]
    by_cases hj : j = k <;> simp [hj]

theorem HaltMoved.haltAll (l : List Nat) (s : State) (cause : Nat) : HaltMoved s (forEach l s (fun k s => s.seqHalt k cause)) :=
  forEach_rel HaltMoved.refl HaltMoved.trans l s _ fun k t => HaltMoved.seqHalt t k cause

/-! ### DEN of every channel -/

theorem State.denOff_onlyRegs (s : State) : OnlyRegs s s.denOff :=
  forEach_rel (R := OnlyRegs) (fun _ => rfl) OnlyRegs.trans _ s _ fun _ _ => rfl

theorem CH_STATUS_DEN_fits (n : Nat) : (CH_STATUS_DEN n).hi < 64 ∧ (CH_STATUS_DEN n).lo ≤ (CH_STATUS_DEN n).hi :=
  ⟨(by decide : 1 < 64), (by decide : 1 ≤ 1)⟩

theorem CH_STATUS_DEN_apart {n m : Nat} (h : m ≠ n) : (CH_STATUS_DEN n).apart (CH_STATUS_DEN m) := by
  refine ⟨(CH_STATUS_DEN_fits n).1, (CH_STATUS_DEN_fits n).2, (CH_STATUS_DEN_fits m).1, Or.inl ?_⟩
  show CH_STATUS m ≠ CH_STATUS n
  unfold CH_STATUS
  omega

theorem State.denOff_den (s : State) {n : Nat} (h : n < 128) : s.denOff.gb (CH_STATUS_DEN n) = false :=
  forEach_range_at (fun t : State => t.gb (CH_STATUS_DEN n)) (fun _ => false) h s _
    (fun t => t.gb_pb_self _ _ (CH_STATUS_DEN_fits n).1 (CH_STATUS_DEN_fits n).2)
    (fun _ _ hm t => t.gb_pb_apart (CH_STATUS_DEN_apart (Ne.symm hm)) _)

/-! ### A reset that begins -/

/-- The recovery state that a reset leaves: as it stands, where it can be written; else the one before, over DRAM that keeps it. -/
def State.recovKept (s : State) : Option Recov :=
  if (s.fabricRuns && s.gb MEM_STATUS_READY) = true then some (s.recovSnap.withHeld s.raHeld)
  else if (bitsOf 4 (s.g MEM_CFG_CH_MASK)).all (fun d => decide (s.g (DRC_STATUS_STATE d) = 3)) then s.ra else none

/-- The reset is under way: no record is begun any more. -/
def State.resetMarked (s : State) (cause : Nat) : State :=
  { s with
    pwr := { s.pwr with inReset := some cause, selfRef := s.fabricRuns, t0 := s.flt.tick }, ra := s.recovKept,
    jnl := { s.jnl with stop := true }, flt := { s.flt with resetPend := false }, raHeld := none,
    twin := { s.twin with backlog := [] } }

/-- The recovery state is sealed where memory is there for it. -/
def State.resetSealed (s : State) (cause : Nat) : State :=
  if (s.fabricRuns && s.gb MEM_STATUS_READY) = true then (s.resetMarked cause).raWrite (s.recovSnap.withHeld s.raHeld)
  else s.resetMarked cause

/-- Of the twin link only what completes the record in progress is left. -/
def State.linkCut (s : State) : State := s.modPort 4 (fun q => { q with txq := q.txq.filter (fun f => [0x51#8, 0x52#8].contains f.type) })

theorem State.resetBegin_eq {s : State} (h : s.pwr.inReset = none) (cause : Nat) : s.resetBegin cause =
    ((forEach (List.range 32) (s.resetSealed cause).linkCut (fun k s => s.seqHalt k 4)).denOff).pb TWN_STATUS_SIDE false := by
  unfold State.resetBegin
  rw [if_neg (by simp [h])]
  rfl

/-- What holds of a chip reset of cause `c` that has begun in the state `s`. -/
def State.resetBegun (s : State) (c : Nat) (t : State) : Prop :=
  t.pwr.inReset = some c ∧ t.jnl.stop = true ∧ (∀ n, n < 128 → t.gb (CH_STATUS_DEN n) = false) ∧
    t.gb TWN_STATUS_SIDE = false ∧ (∀ k, k < 32 → t.bursting k = false) ∧ t.nvm = s.nvm ∧ t.plan = s.plan ∧
    t.pwr.t0 = s.flt.tick ∧ t.raHeld = none ∧ t.flt.resetPend = false ∧ t.nvmEcc = s.nvmEcc ∧ t.store = s.store ∧
    (∀ a, a < memBase 0 + s.raBase ∨ memBase 0 + s.raBase + 24 ≤ a → t.ldB a = s.ldB a) ∧ t.twin.backlog = [] ∧
    ((s.fabricRuns && s.gb MEM_STATUS_READY) = true → t.ra = some (s.recovSnap.withHeld s.raHeld)) ∧
    ((s.fabricRuns && s.gb MEM_STATUS_READY) = false → t.mem = s.mem ∧
      t.ra = if (bitsOf 4 (s.g MEM_CFG_CH_MASK)).all (fun d => decide (s.g (DRC_STATUS_STATE d) = 3)) then s.ra else none)

/-- What a reset that begins leaves of what it has marked. -/
structure ResetMoved (s t : State) : Prop where
  pwr : t.pwr = s.pwr
  stop : t.jnl.stop = true
  nvm : t.nvm = s.nvm
  nvmEcc : t.nvmEcc = s.nvmEcc
  store : t.store = s.store
  plan : t.plan = s.plan
  ra : t.ra = s.ra
  raHeld : t.raHeld = s.raHeld
  resetPend : t.flt.resetPend = s.flt.resetPend
  twin : t.twin = s.twin

theorem ResetMoved.trans {s t u : State} (h : ResetMoved s t) (h' : ResetMoved t u) : ResetMoved s u :=
  ⟨h'.pwr.trans h.pwr, h'.stop, h'.nvm.trans h.nvm, h'.nvmEcc.trans h.nvmEcc, h'.store.trans h.store, h'.plan.trans h.plan,
    h'.ra.trans h.ra, h'.raHeld.trans h.raHeld, h'.resetPend.trans h.resetPend, h'.twin.trans h.twin⟩

theorem MemMoved.resetMoved {lo hi : Nat} {s t : State} (h : MemMoved lo hi s t) (hs : s.jnl.stop = true) : ResetMoved s t := by
  rw [h.frame]
  exact ⟨rfl, hs, rfl, rfl, rfl, rfl, rfl, rfl, rfl, rfl⟩

theorem HaltMoved.resetMoved {s t : State} (h : HaltMoved s t) (hs : s.jnl.stop = true) : ResetMoved s t := by
  obtain ⟨hstop, hnvm, hecc, htwin⟩ := h.stopped hs
  refine ⟨?_, hstop, hnvm, hecc, ?_, ?_, ?_, ?_, ?_, htwin⟩ <;> rw [h.frame]

theorem OnlyRegs.mem {s t : State} (h : OnlyRegs s t) : t.mem = s.mem := by
  unfold OnlyRegs at h
  rw [h]

theorem OnlyRegs.seqs {s t : State} (h : OnlyRegs s t) : t.seqs = s.seqs := by
  unfold OnlyRegs at h
  rw [h]

theorem OnlyRegs.resetMoved {s t : State} (h : OnlyRegs s t) (hs : s.jnl.stop = true) : ResetMoved s t := by
  unfold OnlyRegs at h
  rw [h]
  exact ⟨rfl, hs, rfl, rfl, rfl, rfl, rfl, rfl, rfl, rfl⟩

theorem State.linkCut_resetMoved {s : State} (hs : s.jnl.stop = true) : ResetMoved s s.linkCut := by
  unfold State.linkCut
  rw [State.modPort_eq]
  exact ⟨rfl, hs, rfl, rfl, rfl, rfl, rfl, rfl, rfl, rfl⟩

theorem State.resetSealed_moves {s : State} {o : Nat} (h : s.raBase = o) (cause : Nat) :
    MemMoved (memBase 0 + o) (memBase 0 + o + 24) (s.resetMarked cause) (s.resetSealed cause) := by
  unfold State.resetSealed
  split
  · exact MemMoved.raWrite (s := s.resetMarked cause) h _
  · exact MemMoved.refl _

/-- From the reset that is marked to the sequencers that have stopped. -/
def State.resetHalted (s : State) (cause : Nat) : State := forEach (List.range 32) (s.resetSealed cause).linkCut (fun k s => s.seqHalt k 4)

theorem State.resetHalted_moved (s : State) (c : Nat) : ResetMoved (s.resetMarked c) (s.resetHalted c) := by
  obtain ⟨o, ho⟩ : ∃ o, s.raBase = o := ⟨_, rfl⟩
  have hsealed : ResetMoved (s.resetMarked c) (s.resetSealed c) := (State.resetSealed_moves ho c).resetMoved rfl
  have hcut := State.linkCut_resetMoved hsealed.stop
  exact (hsealed.trans hcut).trans ((HaltMoved.haltAll _ _ 4).resetMoved hcut.stop)

theorem State.resetHalted_mem (s : State) (c : Nat) : (s.resetHalted c).mem = (s.resetSealed c).mem := by
  have hcut : (s.resetSealed c).linkCut.mem = (s.resetSealed c).mem := State.modPort_mem _ _ _
  have hhalt := HaltMoved.haltAll (List.range 32) (s.resetSealed c).linkCut 4
  rw [State.resetHalted, hhalt.frame]
  exact hcut

theorem State.resetHalted_bursting (s : State) (c : Nat) {k : Nat} (hk : k < 32) : (s.resetHalted c).bursting k = false := by
  rw [State.resetHalted, State.haltAll_bursting]
  simp [hk]

theorem State.resetBegin_onlyRegs {s : State} (h : s.pwr.inReset = none) (c : Nat) : OnlyRegs (s.resetHalted c) (s.resetBegin c) := by
  rw [State.resetBegin_eq h]
  exact (State.denOff_onlyRegs _).trans rfl

theorem State.resetBegin_moved {s : State} (h : s.pwr.inReset = none) (c : Nat) : ResetMoved (s.resetMarked c) (s.resetBegin c) :=
  (s.resetHalted_moved c).trans ((State.resetBegin_onlyRegs h c).resetMoved (s.resetHalted_moved c).stop)

theorem State.resetBegin_den {s : State} (h : s.pwr.inReset = none) (c : Nat) {n : Nat} (hn : n < 128) :
    (s.resetBegin c).gb (CH_STATUS_DEN n) = false := by
  have hapart : TWN_STATUS_SIDE.apart (CH_STATUS_DEN n) := by
    refine ⟨by decide, by decide, (CH_STATUS_DEN_fits n).1, Or.inl ?_⟩
    show CH_STATUS n ≠ TWN_STATUS
    unfold CH_STATUS TWN_STATUS
    omega
  rw [State.resetBegin_eq h, State.gb_pb_apart _ hapart, State.denOff_den _ hn]

theorem State.resetBegin_side {s : State} (h : s.pwr.inReset = none) (c : Nat) : (s.resetBegin c).gb TWN_STATUS_SIDE = false := by
  rw [State.resetBegin_eq h]
  exact State.gb_pb_self _ _ _ (by decide) (by decide)

theorem State.resetBegin_begun {s : State} (h : s.pwr.inReset = none) (c : Nat) : s.resetBegun c (s.resetBegin c) := by
  have hden := fun n hn => State.resetBegin_den h c (n := n) hn
  have hside := State.resetBegin_side h c
  obtain ⟨hpwr, hstop, hnvm, hecc, hstore, hplan, hra, hheld, hpend, htwin⟩ := State.resetBegin_moved h c
  have hregs := State.resetBegin_onlyRegs h c
  have hmem : (s.resetBegin c).mem = (s.resetSealed c).mem := hregs.mem.trans (s.resetHalted_mem c)
  have hseqs : (s.resetBegin c).seqs = (s.resetHalted c).seqs := hregs.seqs
  unfold State.resetBegun
  obtain ⟨o, ho⟩ : ∃ o, s.raBase = o := ⟨_, rfl⟩
  rw [ho]
  generalize s.resetBegin c = t at *
  refine ⟨by rw [hpwr]; rfl, hstop, hden, hside, fun k hk => ?_, hnvm, hplan, by rw [hpwr]; rfl, hheld, hpend, hecc, hstore,
    fun a ha => ?_, by rw [htwin]; rfl, fun hw => ?_, fun hw => ⟨?_, ?_⟩⟩
  · rw [State.bursting_congr hseqs, s.resetHalted_bursting c hk]
  · have hld : t.ldB a = (s.resetSealed c).ldB a := by
      unfold State.ldB
      rw [hmem]
    exact hld.trans ((State.resetSealed_moves ho c).ldB a ha)
  · rw [hra]
    exact if_pos hw
  · rw [hmem, State.resetSealed, if_neg (by simp [hw])]
    rfl
  · rw [hra]
    exact if_neg (by simp [hw])

end Sys2Proof.Machine
end

section
/-! SUPPORT. Registers of which every bit is an action or is read only: their write stores nothing, and its effect is all there is. -/

namespace Sys2Proof.Machine

/-! ### A word stored over itself -/

theorem tabGet_of_notMem {α : Type} (d : α) {t : Tab α} {i : Nat} (h : ∀ p ∈ t, p.1 ≠ i) : tabGet d t i = d := by
  induction t with
  | nil => rfl
  | cons p t ih =>
    rw [List.forall_mem_cons] at h
    rw [tabGet_cons, if_neg (Ne.symm h.1), ih h.2]

theorem tabErase_of_notMem {α : Type} {t : Tab α} {i : Nat} (h : ∀ p ∈ t, p.1 ≠ i) : tabErase i t = t :=
  List.filter_eq_self.2 fun p hp => by simp [h p hp]

theorem tabIns_of_lt {α : Type} {t : Tab α} {i : Nat} (x : α) (h : ∀ p ∈ t, i < p.1) : tabIns i x t = (i, x) :: t := by
  cases t with
  | nil => rfl
  | cons p t => exact if_pos (h p List.mem_cons_self)

/-- A table in canonical form that gets the value it holds is the same table. -/
theorem tabSet_tabGet {α : Type} [DecidableEq α] (d : Nat → α) {lo : Nat} {t : Tab α} (h : tabOk d lo t = true) (i : Nat) :
    tabSet (d i) t i (tabGet (d i) t i) = t := by
  induction t generalizing lo with
  | nil => simp [tabSet, tabErase]
  | cons p t ih =>
    obtain ⟨k, v⟩ := p
    have hgt : ∀ p ∈ t, k < p.1 := (List.pairwise_cons.1 ((tabOk_iff d lo _).1 h).2).1
    simp only [tabOk, Bool.and_eq_true, Bool.not_eq_true', decide_eq_false_iff_not] at h
    obtain ⟨⟨-, hv⟩, ht⟩ := h
    rw [tabGet_cons]
    by_cases hi : i = k
    · subst hi
      have herase : tabErase i ((i, v) :: t) = t := by
        rw [tabErase, List.filter_cons_of_neg (by simp)]
        exact tabErase_of_notMem fun p hp => (hgt p hp).ne'
      rw [if_pos rfl, tabSet, if_neg hv, herase]
      exact tabIns_of_lt v hgt
    · have herase : tabErase i ((k, v) :: t) = (k, v) :: tabErase i t :=
        List.filter_cons_of_pos (by simp [Ne.symm hi])
      have ih := ih ht
      unfold tabSet at ih ⊢
      rw [if_neg hi, herase]
      split at ih
      · next hx => rw [if_pos hx, ih]
      · next hx =>
        have hlt : ¬ i < k := fun hlt => hx (tabGet_of_notMem _ fun p hp => (hlt.trans (hgt p hp)).ne')
        rw [if_neg hx, tabIns, if_neg hlt, ih]

theorem State.wr_rd_self {s : State} (h : s.canonical = true) (a : Nat) : s.wr a (s.rd a) = s := by
  unfold State.canonical at h
  rw [Bool.and_eq_true] at h
  have htab : tabSet (resetAt a) s.regs a (tabGet (resetAt a) s.regs a) = s.regs := tabSet_tabGet resetAt h.2 a
  unfold State.wr State.rd
  rw [htab]

theorem State.rd_wr_rd (s : State) (a b : Nat) : (s.wr a (s.rd a)).rd b = s.rd b := by
  by_cases h : b = a
  · subst h
    exact s.rd_wr_self _ _
  · exact s.rd_wr_ne _ h

theorem setBits_getBits (w : Word) {hi lo : Nat} (hh : hi < 64) (hl : lo ≤ hi) : setBits w hi lo (getBits w hi lo) = w := by
  apply BitVec.eq_of_toNat_eq
  apply Nat.eq_of_testBit_eq
  intro i
  by_cases hi' : i < 64
  · rw [setBits_testBit _ _ _ _ _ hh hl hi', getBits_testBit]
    split
    · next h => simp only [Nat.add_sub_cancel' h.1, decide_eq_true (show i - lo < hi + 1 - lo by omega), Bool.true_and]
    · rfl
  · have hpow : 2 ^ 64 ≤ 2 ^ i := Nat.pow_le_pow_right (by decide) (by omega)
    rw [Nat.testBit_lt_two_pow (lt_of_lt_of_le (setBits w hi lo (getBits w hi lo)).isLt hpow),
      Nat.testBit_lt_two_pow (lt_of_lt_of_le w.isLt hpow)]

/-! ### Action registers -/

/-- No bit of the register is stored by a write. -/
abbrev RegDesc.actionOnly (d : RegDesc) : Prop :=
  (∀ f ∈ d.flds, f.hi < 64 ∧ f.lo ≤ f.hi ∧ f.acc ≠ .rw ∧ f.acc ≠ .w1c ∧ f.acc ≠ .rwp) ∧ effectOnly d.name = false ∧
    effectMask d.name = 0#64

section
variable {s : State} {d : RegDesc} {ix : List Nat} {own : Nat → Bool} {a : Nat} {v : Word}

theorem State.fieldsWrite_action (h : d.actionOnly) (old : Word) : s.fieldsWrite d ix own old v = (old, false) := by
  obtain ⟨hflds, -, -⟩ := h
  unfold State.fieldsWrite
  generalize d.flds = flds at hflds ⊢
  induction flds with
  | nil => rfl
  | cons f l ih =>
    rw [List.forall_mem_cons] at hflds
    obtain ⟨⟨hhi, hlo, hrw, hw1c, hrwp⟩, hl⟩ := hflds
    have hfield : s.fieldWrite d ix own old v f = (getBits old f.hi f.lo, false) := by
      unfold State.fieldWrite
      cases hacc : f.acc with
      | rw => exact absurd hacc hrw
      | w1c => exact absurd hacc hw1c
      | rwp => exact absurd hacc hrwp
      | _ => rfl
    rw [List.foldl_cons, hfield]
    simpa only [setBits_getBits old hhi hlo, Bool.or_self] using ih hl

theorem State.descWrite_action (h : d.actionOnly) (hb : s.writeBusy d ix v = false) (hv : writeVoid d v = false) :
    s.descWrite d ix own a v = (s.wr a (s.rd a)).writeEffect d ix own a (s.rd a) v := by
  have hkeep (x y : Word) : (x &&& ~~~0#64) ||| (y &&& 0#64) = x := by
    rw [BitVec.not_zero, BitVec.and_allOnes, BitVec.and_zero, BitVec.or_zero]
  unfold State.descWrite
  simp only [hb, hv, State.fieldsWrite_action h, h.2.1, h.2.2, hkeep, Bool.false_eq_true, if_false]

end

end Sys2Proof.Machine
end

section
/-! SUPPORT. Power-on, loss of power, RESET_N and RST_CTRL.CHIP (R358, R359, R361, R366, R367, R370). -/

namespace Sys2Proof.Machine

/-! ### Power -/

theorem getD_replicate {α : Type} (n k : Nat) (x : α) : (Vector.replicate n x).toList.getD k x = x := by
  rw [Vector.toList_replicate, List.getD_eq_getElem?_getD, List.getElem?_replicate]
  split <;> rfl

theorem State.volatileLost_seq (s : State) (k : Nat) : s.volatileLost.seq k = Seq.zero := getD_replicate 32 k Seq.zero

theorem State.storeKept_verify (s : State) : s.storeKept.verify = none := by
  unfold State.storeKept
  split <;> rfl

theorem State.storeKept_desc (s : State) : s.storeKept.desc = s.store.desc := by
  unfold State.storeKept
  split <;> rfl

theorem volatileLost_leaves {s : State} {i : Instr} (h : exec i s = .next s.volatileLost) : Gives i s (fun t => t.nvm = s.nvm ∧
    t.nvmEcc = s.nvmEcc ∧ t.store = s.storeKept ∧ t.store.verify = none ∧ t.store.desc = s.store.desc ∧ t.regs = [] ∧ t.mem = [] ∧ t.cmds = [] ∧
    t.ra = none ∧ t.plan = Plan.unsealed ∧ t.pwr = { PwrSt.zero with romBad := s.pwr.romBad } ∧ (∀ k, t.seq k = Seq.zero)) :=
  ⟨s.volatileLost, h, rfl, rfl, rfl, s.storeKept_verify, s.storeKept_desc, rfl, rfl, rfl, rfl, rfl, rfl, s.volatileLost_seq⟩

/-! ### RESET_N -/

theorem State.setAct_eq (s : State) (v : Bool) : s.setAct v = { s with twin := { s.twin with act := v }, outs := (s.setAct v).outs } := by
  unfold State.setAct
  split
  · next h => rw [← h]
  · rfl

theorem State.resetBegun_setAct {s t : State} {c : Nat} (h : s.resetBegun c t) (v : Bool) : s.resetBegun c (t.setAct v) := by
  rw [t.setAct_eq v]
  exact h

/-- RESET_N is low. -/
def State.resetNPulled (s : State) : State := { s with pwr := { s.pwr with resetN := false } }

theorem exec_resetNLow {s : State} (h : s.pwr.resetN = true) :
    exec .resetNLow s = .next ((s.resetNPulled.resetBegin 1).setAct false) := congrArg Host.Outcome.next (if_pos h)

theorem State.resetBegun_of_pulled {s t : State} {c : Nat} (h : s.resetNPulled.resetBegun c t) : s.resetBegun c t := h

theorem resetNLow_begins {s : State} (hn : s.pwr.resetN = true) (hr : s.pwr.inReset = none) :
    Gives .resetNLow s (fun t => s.resetBegun 1 t ∧ t.pwr.resetN = false ∧ t.twin.act = false) := by
  have hr : s.resetNPulled.pwr.inReset = none := hr
  have hbegun := State.resetBegun_of_pulled (State.resetBegin_begun hr 1)
  have hpwr := (State.resetBegin_moved hr 1).pwr
  refine ⟨_, exec_resetNLow hn, State.resetBegun_setAct hbegun false, ?_, ?_⟩
  · rw [State.setAct_eq]
    exact congrArg PwrSt.resetN hpwr
  · rw [State.setAct_eq]

theorem resetNLow_low {s : State} (hn : s.pwr.resetN = false) : Gives .resetNLow s (fun t => t = s) := by
  refine ⟨s, ?_, rfl⟩
  show Host.Outcome.next _ = _
  rw [if_neg (by simp [hn])]

/-- A reset that goes on is joined: of causes of one tick the lower counts. -/
theorem resetNLow_joins {s : State} {c : Nat} (hn : s.pwr.resetN = true) (hr : s.pwr.inReset = some c) : Gives .resetNLow s (fun t =>
    t = { s with
      pwr := { s.pwr with resetN := false, inReset := some (if s.pwr.t0 = s.flt.tick then min 1 c else c) },
      twin := { s.twin with act := false }, outs := t.outs }) := by
  have hjoin : s.resetNPulled.resetBegin 1 =
      { s with pwr := { s.pwr with resetN := false, inReset := some (if s.pwr.t0 = s.flt.tick then min 1 c else c) } } := by
    unfold State.resetBegin State.resetNPulled
    rw [if_pos (by simp [hr])]
    by_cases ht : s.pwr.t0 = s.flt.tick
    · rw [if_pos ht, if_pos ht]
      simp only [hr, Option.map_some]
    · rw [if_neg ht, if_neg ht, ← hr]
  refine ⟨_, exec_resetNLow hn, ?_⟩
  rw [hjoin]
  exact State.setAct_eq _ false

theorem resetNRise_rises {s : State} (hn : s.pwr.resetN = false) (b : BootPins) :
    Gives (.resetNRise b) s (fun t => t.gb RST_STATUS_BOOT_SEL = b.sel ∧
      t.pwr = { s.pwr with resetN := true, waitRise := false, romBad := b.romBad, tA := if s.pwr.waitRise = true then s.flt.tick else s.pwr.tA } ∧
      RegsKept [RST_STATUS] s t ∧ t = { s with regs := t.regs, pwr := t.pwr }) := by
  refine ⟨({ s with pwr := { s.pwr with
    resetN := true, waitRise := false, romBad := b.romBad, tA := if s.pwr.waitRise then s.flt.tick else s.pwr.tA } } : State).pb
      RST_STATUS_BOOT_SEL b.sel, ?_, State.gb_pb_self _ _ _ (by decide) (by decide), rfl,
    fun a ha => State.rd_pb_ne _ _ _ (List.ne_of_not_mem_cons ha), rfl⟩
  show Host.Outcome.next _ = _
  rw [if_neg (by simp [hn])]

theorem resetNRise_high {s : State} (hn : s.pwr.resetN = true) (b : BootPins) : Gives (.resetNRise b) s (fun t => t = s) := by
  refine ⟨s, ?_, rfl⟩
  show Host.Outcome.next _ = _
  rw [if_pos hn]

/-! ### RST_CTRL.CHIP -/

/-- RST_CTRL as the register map describes it. -/
def rstCtrlDesc : RegDesc := ⟨.RST_CTRL, 0x00003008, [], .dev, [fld 0 0 .w1s 0, fld 15 8 .wo 0]⟩

theorem regAt_RST_CTRL : csWindow RST_CTRL = none ∧ regAt RST_CTRL = some (rstCtrlDesc, []) ∧ regDom RST_CTRL = none := by decide

theorem State.touch_of_regDom {a : Nat} (h : regDom a = none) (s : State) : s.touch a = s := by
  unfold State.touch
  rw [h]

theorem State.regWrite_action {s : State} {a : Nat} {d : RegDesc} {ix : List Nat} {own : Nat → Bool} {v : Word}
    (ha : csWindow a = none ∧ regAt a = some (d, ix) ∧ regDom a = none) (h : d.actionOnly) (hb : s.writeBusy d ix v = false)
    (hv : writeVoid d v = false) : s.regWrite own a v = (s.wr a (s.rd a)).writeEffect d ix own a (s.rd a) v := by
  obtain ⟨hcs, hreg, hdom⟩ := ha
  unfold State.regWrite
  rw [State.touch_of_regDom hdom, hcs, hreg]
  exact State.descWrite_action h hb hv

/-- CHIP written with its key asks for a chip reset of cause 3. -/
theorem exec_rstCtrlChip_plan {s : State} (hen : (s.ward 0).enable = true) :
    exec (.rstCtrlChip (.ward 0)) s = .next ((s.wr RST_CTRL (s.rd RST_CTRL)).resetSoft 3) := by
  obtain ⟨hcs, hreg, hdom⟩ := regAt_RST_CTRL
  have hmaster : s.masterWard (.ward 0) = some 0 := if_pos hen
  have hcheck : s.regCheck (.ward 0) true RST_CTRL = 0 := by
    unfold State.regCheck
    rw [if_neg (by decide), if_neg (by decide), if_neg (by decide), hmaster]
    dsimp only
    rw [hcs, hreg]
    rfl
  have hmirrored : s.mirrored RST_CTRL = false := by
    unfold State.mirrored
    rw [hcs, hreg]
    rfl
  have hwrite : s.regWrite (s.ownBit 0 RST_CTRL) RST_CTRL 0xA501#64 = ((s.wr RST_CTRL (s.rd RST_CTRL)).resetSoft 3, 0) := by
    rw [State.regWrite_action regAt_RST_CTRL (by decide) rfl rfl]
    rfl
  show Host.Outcome.next (if s.regCheck (.ward 0) true RST_CTRL = 0 then (s.storeReg (.ward 0) RST_CTRL 0xA501#64).1 else s) = _
  rw [if_pos hcheck]
  unfold State.storeReg
  rw [hmaster]
  dsimp only
  rw [hwrite, hmirrored]
  split <;> rfl

theorem rstCtrlChip_begins {s : State} (hen : (s.ward 0).enable = true) (hr : s.pwr.inReset = none) (hcan : s.canonical = true)
    (hg : s.pwr.gatedAll = false) (hsh : s.thm.shutdown = false) : Gives (.rstCtrlChip (.ward 0)) s (fun t => s.resetBegun 3 t) := by
  refine ⟨s.resetBegin 3, ?_, State.resetBegin_begun hr 3⟩
  rw [exec_rstCtrlChip_plan hen, State.wr_rd_self hcan, State.resetSoft, if_neg (by simp [hg, hsh])]

theorem rstCtrlChip_dark {s : State} (hen : (s.ward 0).enable = true) (h : (s.pwr.gatedAll || s.thm.shutdown) = true) :
    Gives (.rstCtrlChip (.ward 0)) s (fun t => t.pwr = s.pwr ∧ t.seqs = s.seqs ∧ t.jnl = s.jnl ∧ t.mem = s.mem ∧ t.ra = s.ra) := by
  refine ⟨s.wr RST_CTRL (s.rd RST_CTRL), ?_, rfl, rfl, rfl, rfl, rfl⟩
  rw [exec_rstCtrlChip_plan hen, State.resetSoft]
  exact congrArg Host.Outcome.next (if_pos h)

theorem State.masterWard_ward (s : State) (w : Fin 4) : s.masterWard (.ward w) = none ∨ s.masterWard (.ward w) = some w.val := by
  show (if (s.ward w.val).enable then some w.val else none) = none ∨ (if (s.ward w.val).enable then some w.val else none) = some w.val
  split
  · exact Or.inr rfl
  · exact Or.inl rfl

/-- The register belongs to the device, that is to the Plan Ward. -/
theorem rstCtrlChip_fenced (s : State) {w : Fin 4} (hw : w ≠ 0) : Gives (.rstCtrlChip (.ward w)) s (fun t => t = s) := by
  obtain ⟨hcs, hreg, -⟩ := regAt_RST_CTRL
  have hval : w.val ≠ 0 := fun h => hw (Fin.ext h)
  refine ⟨s, ?_, rfl⟩
  have hdev : s.mayWrite w.val rstCtrlDesc [] = false := decide_eq_false hval
  have hcheck : s.regCheck (.ward w) true RST_CTRL ≠ 0 := by
    unfold State.regCheck
    rw [if_neg (by decide), if_neg (by decide), if_neg (show ¬ isPorter (.ward w) = true from Bool.false_ne_true)]
    cases s.masterWard_ward w with
    | inl h => simp [h]
    | inr h => simp [h, hcs, hreg, hdev]
  show Host.Outcome.next (if s.regCheck (.ward w) true RST_CTRL = 0 then _ else s) = _
  rw [if_neg hcheck]

end Sys2Proof.Machine
end

section
/-! SUPPORT. The internal reset (R226, R321, R366, R367, R369, R391; Table 17.4). -/

namespace Sys2Proof.Machine

/-! ### Its steps -/

/-- The state before any register is put back but those of the always-on domain. -/
def State.resetBase (s : State) : State :=
  { State.reset with
    pending := s.pending, outs := s.outs, fresh := s.fresh, nvm := s.nvm, nvmEcc := s.nvmEcc, store := s.storeKept,
    mem := s.keptMem s.mem 1, ecc := s.keptMem s.ecc 8, regs := regsOf alwaysOn s.regs, ra := s.ra, plan := s.plan,
    jnl := { Jnl.zero with nextId := s.jnl.nextId },
    flt := { FltSt.zero with tick := s.flt.tick, feTick := s.flt.feTick, feWin := s.flt.feWin },
    pwr := { PwrSt.zero with resetN := s.pwr.resetN, waitRise := !s.pwr.resetN, selfRef := s.pwr.selfRef, romBad := s.pwr.romBad, tA := s.flt.tick } }

/-- Plan-locked fields are put back. -/
def State.resetLocked (s : State) : State := if s.plan.sealed then s.resetBase.lockedRegs s.regs else s.resetBase

/-- What RST_STATUS and THM_STATUS keep, the count and the cause. -/
def State.causeShown (s : State) (cause : Nat) (t : State) : State :=
  ((((t.pb THM_STATUS_SHUTDOWN_SEEN (s.gb THM_STATUS_SHUTDOWN_SEEN)).pb RST_STATUS_BOOT_SEL (s.gb RST_STATUS_BOOT_SEL)).p
    RST_STATUS_CHIP_RESETS (s.g RST_STATUS_CHIP_RESETS)).inc RST_STATUS_CHIP_RESETS 1).p RST_STATUS_CAUSE cause

/-- A DRAM channel keeps the level of its reset output, and its self-refresh. -/
def State.channelKept (s : State) (d : Nat) (t : State) : State :=
  let t := t.modDrc d (fun x => { x with resetN := (s.drc d).resetN })
  if s.keptCh d then (t.p (DRC_STATUS_STATE d) 3).modDrc d (fun x => { x with selfRef := true }) else t

/-- All four do. -/
def State.channelsKept (s t : State) : State := forEach (List.range 4) t (fun d t => s.channelKept d t)

/-- TWIN_ACT falls. -/
def State.actFalls (s t : State) : State := if s.twin.act then t.emit (.twinAct false) else t

theorem State.internalReset_eq (s : State) (cause : Nat) :
    s.internalReset cause = s.actFalls (s.channelsKept (s.causeShown cause s.resetLocked)) := rfl

/-! ### What they leave -/

/-- The state without registers, DRAM channels and outputs. -/
def State.bootErased (s : State) : State := { s with regs := [], drcs := .replicate 4 .zero, outs := [] }

section
variable (s t : State)

@[simp] theorem State.p_bootErased (f : FRef) (v : Nat) : (t.p f v).bootErased = t.bootErased := rfl

@[simp] theorem State.pb_bootErased (f : FRef) (b : Bool) : (t.pb f b).bootErased = t.bootErased := rfl

@[simp] theorem State.inc_bootErased (f : FRef) (v : Nat) : (t.inc f v).bootErased = t.bootErased := rfl

@[simp] theorem State.modDrc_bootErased (d : Nat) (f : Drc → Drc) : (t.modDrc d f).bootErased = t.bootErased := by
  unfold State.modDrc
  split <;> rfl

@[simp] theorem State.channelsKept_bootErased : (s.channelsKept t).bootErased = t.bootErased :=
  forEach_keeps State.bootErased _ t _ fun d t => by
    unfold State.channelKept
    dsimp only
    split <;> simp

theorem State.actFalls_bootErased : (s.actFalls t).bootErased = t.bootErased := by
  unfold State.actFalls
  split <;> rfl

theorem State.lockedRegs_bootErased (old : Tab Word) : (t.lockedRegs old).bootErased = t.bootErased :=
  forEach_keeps State.bootErased _ t _ fun p t => by
    split <;> rfl

theorem State.internalReset_bootErased (cause : Nat) : (s.internalReset cause).bootErased = s.resetBase.bootErased := by
  rw [State.internalReset_eq, State.actFalls_bootErased, State.channelsKept_bootErased]
  unfold State.causeShown State.resetLocked
  simp only [State.p_bootErased, State.inc_bootErased, State.pb_bootErased]
  split
  · exact State.lockedRegs_bootErased _ _
  · rfl

/-- The internal reset puts back registers and DRAM channels, and nothing else. -/
theorem State.internalReset_frame (cause : Nat) : s.internalReset cause = { s.resetBase with
    regs := (s.internalReset cause).regs, drcs := (s.internalReset cause).drcs, outs := (s.internalReset cause).outs } :=
  congrArg (fun x : State => { x with
    regs := (s.internalReset cause).regs, drcs := (s.internalReset cause).drcs, outs := (s.internalReset cause).outs })
    (s.internalReset_bootErased cause)

/-! ### Registers -/

theorem State.lockedRegs_rd (old : Tab Word) {a : Nat} (hfree : rwpFree a = true) : (t.lockedRegs old).rd a = t.rd a :=
  forEach_keeps (fun t : State => t.rd a) _ t _ fun p t => by
    split
    · next d ix hreg =>
      by_cases ha : a = p.1
      · subst ha
        have hnone : rwpFields d ix = [] := by
          simp only [rwpFree, hreg, Bool.and_eq_true, List.isEmpty_iff] at hfree
          exact hfree.2
        rw [hnone]
        exact t.wrMask_zero_rd _ _ _
      · exact t.wrMask_rd_ne _ _ ha
    · rfl

/-- A register that an internal reset keeps whole. -/
def alwaysOnAt (a : Nat) : Bool :=
  match regAt a with
  | some (d, _) => alwaysOn d.name
  | none => false

theorem State.resetBase_rd {a : Nat} : s.resetBase.rd a = if alwaysOnAt a = true then s.rd a else resetAt a := by
  unfold State.rd State.resetBase regsOf alwaysOnAt
  cases hreg : regAt a with
  | none => exact tabGet_filter_of_dropped _ _ fun v => by simp [hreg]
  | some x =>
    obtain ⟨d, ix⟩ := x
    dsimp only
    split
    · next h => exact tabGet_filter_of_kept _ _ fun v => by simpa [hreg] using h
    · next h => exact tabGet_filter_of_dropped _ _ fun v => by simpa [hreg] using h

/-- A register of the reset device, without plan-locked fields. -/
theorem State.resetLocked_rd {a : Nat} (hfree : rwpFree a = true) (hoff : alwaysOnAt a = false) : s.resetLocked.rd a = resetAt a := by
  have hbase : s.resetBase.rd a = resetAt a := by
    rw [State.resetBase_rd, if_neg (by simp [hoff])]
  unfold State.resetLocked
  split
  · rw [State.lockedRegs_rd _ _ hfree, hbase]
  · exact hbase

theorem State.channelKept_rd {d a : Nat} (h : a ≠ DRC_STATUS d) : (s.channelKept d t).rd a = t.rd a := by
  unfold State.channelKept
  dsimp only
  split
  · rw [State.rd_modDrc, State.rd_p_ne _ _ _ h, State.rd_modDrc]
  · rw [State.rd_modDrc]

theorem State.channelsKept_rd {a : Nat} (h : ∀ d, d < 4 → a ≠ DRC_STATUS d) : (s.channelsKept t).rd a = t.rd a :=
  forEach_keeps_of_mem (fun t : State => t.rd a) _ t _ fun d hd t => s.channelKept_rd t (h d (List.mem_range.1 hd))

theorem State.actFalls_regs : (s.actFalls t).regs = t.regs := by
  unfold State.actFalls
  split <;> rfl

/-- A register that is not of a DRAM channel's state shows what `causeShown` leaves. -/
theorem State.internalReset_rd (cause : Nat) {a : Nat} (h : ∀ d, d < 4 → a ≠ DRC_STATUS d) :
    (s.internalReset cause).rd a = (s.causeShown cause s.resetLocked).rd a := by
  rw [State.internalReset_eq, State.rd_congr (State.actFalls_regs s _), State.channelsKept_rd _ _ h]

theorem State.internalReset_g (cause : Nat) {f : FRef} (h : ∀ d, d < 4 → f.addr ≠ DRC_STATUS d) :
    (s.internalReset cause).g f = (s.causeShown cause s.resetLocked).g f := by
  unfold State.g
  rw [s.internalReset_rd cause h]

/-- A register that the reset shows nothing in. -/
theorem State.causeShown_rd (cause : Nat) {a : Nat} (hr : a ≠ RST_STATUS) (ht : a ≠ THM_STATUS) :
    (s.causeShown cause t).rd a = t.rd a := by
  unfold State.causeShown State.inc
  rw [State.rd_p_ne _ _ _ hr, State.rd_p_ne _ _ _ hr, State.rd_p_ne _ _ _ hr, State.rd_pb_ne _ _ _ hr, State.rd_pb_ne _ _ _ ht]

end

/-! ### The channels of DRAM -/

theorem DRC_STATUS_ne {d e : Nat} (h : e ≠ d) : DRC_STATUS e ≠ DRC_STATUS d := by
  unfold DRC_STATUS
  omega

theorem State.channelKept_state (s t : State) (d : Nat) :
    (s.channelKept d t).g (DRC_STATUS_STATE d) = if s.keptCh d = true then 3 else t.g (DRC_STATUS_STATE d) := by
  unfold State.channelKept
  dsimp only
  split
  · rw [State.g_modDrc]
    exact State.g_p_fits _ ⟨(by decide : 2 < 64), (by decide : 0 ≤ 2)⟩ (by decide : 3 < 2 ^ 3)
  · rw [State.g_modDrc]

theorem State.channelsKept_state (s t : State) {d : Nat} (hd : d < 4) :
    (s.channelsKept t).g (DRC_STATUS_STATE d) = if s.keptCh d = true then 3 else t.g (DRC_STATUS_STATE d) :=
  forEach_range_at (fun t : State => t.g (DRC_STATUS_STATE d)) (fun x => if s.keptCh d = true then 3 else x) hd t _
    (fun t => s.channelKept_state t d) fun e _ he t => by
      unfold State.g
      rw [s.channelKept_rd t (show (DRC_STATUS_STATE d).addr ≠ DRC_STATUS e from DRC_STATUS_ne (Ne.symm he))]

theorem State.drc_p (t : State) (f : FRef) (v d : Nat) : (t.p f v).drc d = t.drc d := State.drc_congr (t.p_drcs f v) d

theorem State.channelsKept_resetN (s t : State) {d : Nat} (hd : d < 4) : ((s.channelsKept t).drc d).resetN = (s.drc d).resetN :=
  forEach_range_at (fun t : State => (t.drc d).resetN) (fun _ => (s.drc d).resetN) hd t _
    (fun t => by
      unfold State.channelKept
      dsimp only
      split <;> simp [State.drc_modDrc_self _ _ _ hd, State.drc_p])
    fun e _ he t => by
      unfold State.channelKept
      dsimp only
      split <;> simp [State.drc_modDrc_ne _ _ (Ne.symm he), State.drc_p]

/-! ### Memory -/

theorem State.keptMem_sram (s : State) {a : Nat} (ha : a < 0x1000000000) (hm : (memOf a).isSome = true) :
    tabGet 0#8 (s.keptMem s.mem 1) a = tabGet 0#8 s.mem a := by
  have hcode : ∀ o, memOf a ≠ some (0, o) := by
    intro o
    unfold memOf
    split_ifs <;> simp_all
    omega
  refine tabGet_filter_of_kept _ _ fun v => ?_
  dsimp only
  rw [Nat.mul_one]
  cases hx : memOf a with
  | none => simp [hx] at hm
  | some x =>
    obtain ⟨m, o⟩ := x
    cases m with
    | zero => exact absurd hx (hcode o)
    | succ m => rfl

theorem State.keptMem_dram (s : State) {a o : Nat} (hm : memOf a = some (0, o)) :
    tabGet 0#8 (s.keptMem s.mem 1) a = if s.keptCh (s.dramCh o) = true then tabGet 0#8 s.mem a else 0 := by
  split
  · next h => exact tabGet_filter_of_kept _ _ fun v => by simp [hm, h]
  · next h => exact tabGet_filter_of_dropped _ _ fun v => by simpa [hm] using h

/-! ### CHIP_RESET_INTERNAL -/

theorem satAdd_lt (n c k : Nat) : satAdd n c k < 2 ^ n := by
  have hpos : 0 < 2 ^ n := Nat.two_pow_pos n
  unfold satAdd
  split <;> omega

theorem State.g_lt (s : State) (f : FRef) : s.g f < 2 ^ (f.hi + 1 - f.lo) := getBits_lt _ _ _

theorem State.causeShown_resets (s : State) (c : Nat) (t : State) :
    (s.causeShown c t).g RST_STATUS_CHIP_RESETS = satAdd 16 (s.g RST_STATUS_CHIP_RESETS) 1 := by
  unfold State.causeShown State.inc
  rw [State.g_p_apart _ (by decide), State.g_p_fits _ (by decide) (satAdd_lt _ _ _), State.g_p_fits _ (by decide) (s.g_lt _)]
  rfl

theorem chipReset_waits {s : State} {c : Nat} (hr : s.pwr.inReset = some c) (hp : s.jnl.prog.isSome = true) (hpair : s.progPaired = false) :
    Gives .chipResetInternal s (fun t => t = s) := by
  refine ⟨s, ?_, rfl⟩
  show Host.Outcome.next (match s.pwr.inReset with
    | none => s
    | some cause => if s.jnl.prog.isSome ∧ !s.progPaired then s else s.internalReset cause) = _
  simp [hr, hp, hpair]

theorem exec_chipReset {s : State} {c : Nat} (hr : s.pwr.inReset = some c) (hp : s.jnl.prog = none) :
    exec .chipResetInternal s = .next (s.internalReset c) := by
  show Host.Outcome.next (match s.pwr.inReset with
    | none => s
    | some cause => if s.jnl.prog.isSome ∧ !s.progPaired then s else s.internalReset cause) = _
  simp [hr, hp]

theorem chipReset_resets {s : State} {c : Nat} (hr : s.pwr.inReset = some c) (hc : c < 4) (hp : s.jnl.prog = none) :
    Gives .chipResetInternal s (fun t => t.pwr.inReset = none ∧ t.g RST_STATUS_CAUSE = c ∧ t.g RST_STATUS_PHASE = 0 ∧
        t.g RST_STATUS_CHIP_RESETS = satAdd 16 (s.g RST_STATUS_CHIP_RESETS) 1 ∧ t.gb RST_STATUS_BOOT_SEL = s.gb RST_STATUS_BOOT_SEL ∧
        t.gb THM_STATUS_SHUTDOWN_SEEN = s.gb THM_STATUS_SHUTDOWN_SEEN ∧ t.nvm = s.nvm ∧ t.nvmEcc = s.nvmEcc ∧ t.store = s.storeKept ∧
        t.store.verify = none ∧ t.store.desc = s.store.desc ∧
        (3 ≤ s.g RST_STATUS_PHASE → t.store.stage = if s.stage = 2 ∨ s.stage = 3 then 1 else s.stage) ∧
        t.plan = s.plan ∧ t.ra = s.ra ∧ (∀ a, a < 0x1000000000 → (memOf a).isSome = true → t.ldB a = s.ldB a) ∧
        (∀ a o, memOf a = some (0, o) → t.ldB a = if s.keptCh (s.dramCh o) = true then s.ldB a else 0) ∧
        (∀ d, d < 4 → t.g (DRC_STATUS_STATE d) = if s.keptCh d = true then 3 else 0) ∧
        t.cmds = [] ∧ t.ctxs = [] ∧ (∀ k, t.seq k = Seq.zero) ∧ t.tb = TbSt.zero ∧ t.twin.act = false ∧
        (∀ d, d < 4 → (t.drc d).resetN = (s.drc d).resetN) ∧
        (∀ a d ix, regAt a = some (d, ix) → alwaysOn d.name = true → s.plan.sealed = false → t.rd a = s.rd a)) := by
  have hframe := s.internalReset_frame c
  have hrst (f : FRef) (hf : f.addr = RST_STATUS) : (s.internalReset c).g f = (s.causeShown c s.resetLocked).g f :=
    s.internalReset_g c (by rw [hf]; decide)
  have hdrcs : (s.internalReset c).drcs = (s.channelsKept (s.causeShown c s.resetLocked)).drcs := by
    rw [State.internalReset_eq]
    unfold State.actFalls
    split <;> rfl
  have hmem (a : Nat) : (s.internalReset c).ldB a = tabGet 0#8 (s.keptMem s.mem 1) a := by
    rw [hframe]
    rfl
  refine ⟨_, exec_chipReset hr hp, by rw [hframe]; rfl, ?_, ?_, ?_, ?_, ?_, by rw [hframe]; rfl, by rw [hframe]; rfl, by rw [hframe]; rfl,
    by rw [hframe]; exact s.storeKept_verify, by rw [hframe]; exact s.storeKept_desc, fun hph => ?_, by rw [hframe]; rfl,
    by rw [hframe]; rfl, fun a ha hm => (hmem a).trans (s.keptMem_sram ha hm), fun a o hm => (hmem a).trans (s.keptMem_dram hm),
    fun d hd => ?_, by rw [hframe]; rfl, by rw [hframe]; rfl, fun k => ?_, by rw [hframe]; rfl, by rw [hframe]; rfl, fun d hd => ?_, ?_⟩
  · rw [hrst _ rfl]
    exact State.g_p_fits _ (by decide) hc
  · rw [hrst _ rfl]
    unfold State.causeShown State.inc
    rw [State.g_p_apart _ (by decide), State.g_p_apart _ (by decide), State.g_p_apart _ (by decide), State.g_pb_apart _ (by decide),
      State.g_pb_apart _ (by decide), State.g, s.resetLocked_rd (by decide) (by decide)]
    decide
  · rw [hrst _ rfl, State.causeShown_resets]
  · unfold State.gb
    rw [hrst _ rfl]
    unfold State.causeShown State.inc
    rw [State.g_p_apart _ (by decide), State.g_p_apart _ (by decide), State.g_p_apart _ (by decide)]
    exact State.gb_pb_self _ _ _ (by decide) (by decide)
  · unfold State.gb
    rw [s.internalReset_g c (by decide)]
    unfold State.causeShown State.inc
    rw [State.g_p_apart _ (by decide), State.g_p_apart _ (by decide), State.g_p_apart _ (by decide), State.g_pb_apart _ (by decide)]
    exact State.gb_pb_self _ _ _ (by decide) (by decide)
  · rw [hframe]
    show s.storeKept.stage = _
    rw [State.storeKept, if_pos hph]
  · have hoff : (s.causeShown c s.resetLocked).g (DRC_STATUS_STATE d) = 0 := by
      have hreset : ∀ d : Fin 4, rwpFree (DRC_STATUS d) = true ∧ alwaysOnAt (DRC_STATUS d) = false ∧ DRC_STATUS d ≠ RST_STATUS ∧
          DRC_STATUS d ≠ THM_STATUS ∧ getBits (resetAt (DRC_STATUS d)) 2 0 = 0 := by decide
      obtain ⟨hfree, hoff, hr, ht, hz⟩ := hreset ⟨d, hd⟩
      have hrd : (s.causeShown c s.resetLocked).rd (DRC_STATUS d) = resetAt (DRC_STATUS d) := by
        rw [State.causeShown_rd _ _ _ hr ht, s.resetLocked_rd hfree hoff]
      exact (congrArg (fun w => getBits w 2 0) hrd).trans hz
    rw [State.internalReset_eq, State.g_congr (State.actFalls_regs s _), s.channelsKept_state _ hd, hoff]
  · rw [hframe]
    exact getD_replicate 32 k Seq.zero
  · rw [State.drc_congr hdrcs, s.channelsKept_resetN _ hd]
  · intro a d ix hreg hon hs
    have hat : alwaysOnAt a = true := by
      unfold alwaysOnAt
      rw [hreg]
      exact hon
    have hne (b : Nat) (hb : alwaysOnAt b = false) : a ≠ b := fun h => by
      rw [h, hb] at hat
      cases hat
    have hdrc : ∀ d : Fin 4, alwaysOnAt (DRC_STATUS d) = false := by decide
    rw [s.internalReset_rd c fun d hd => hne _ (hdrc ⟨d, hd⟩), State.causeShown_rd _ _ _ (hne _ (by decide)) (hne _ (by decide)),
      State.resetLocked, if_neg (by simp [hs]), State.resetBase_rd, if_pos hat]

end Sys2Proof.Machine
end

section
/-! SUPPORT. A write of one bit to RST_UNIT_PS, _CB, _VS or _AC by the Ward of the unit (R9, R52, R368). -/

namespace Sys2Proof.Machine

/-! ### One bit -/

theorem toNat_bit {k : Nat} (h : k < 64) : (BitVec.ofNat 64 (2 ^ k)).toNat = 2 ^ k := by
  rw [BitVec.toNat_ofNat]
  exact Nat.mod_eq_of_lt (Nat.pow_lt_pow_right (by decide) h)

/-- Of the bits of such a write only the one that is set and owned counts. -/
theorem filter_bit {n k : Nat} {own : Nat → Bool} (hk : k < n) (hn : n ≤ 64) (h : own k = true) :
    (List.range n).filter (fun b => nbit (BitVec.ofNat 64 (2 ^ k)).toNat b && own b) = [k] := by
  have hbit (b : Nat) : (nbit (BitVec.ofNat 64 (2 ^ k)).toNat b && own b) = (b == k) := by
    rw [toNat_bit (by omega), nbit, Nat.testBit_two_pow]
    by_cases hb : b = k
    · subst hb
      simp [h]
    · simp [hb, Ne.symm hb]
  simp only [hbit]
  rw [List.filter_beq, (List.nodup_range).count, if_pos (List.mem_range.2 hk)]
  rfl

/-! ### A unit reset of one unit -/

/-- The unit's reset, with its bit that reads 1. -/
def State.unitRan (s : State) (cls k : Nat) (rst : State → Nat → State) : State :=
  (rst s k).p (rstUnitField cls) (s.g (rstUnitField cls) ||| maskOf 64 [k].contains)

theorem State.unitReset_quiet {s : State} {cls k : Nat} {quiet : State → Nat → Bool} {rst : State → Nat → State}
    (hr : s.pwr.inReset = none) (h : quiet s k = true) : (s.unitReset cls [k] quiet rst).1 = s.unitRan cls k rst := by
  unfold State.unitReset
  rw [if_neg (by simp [hr])]
  have hpart : [k].partition (quiet s) = ([k], []) := by simp [h]
  rw [hpart]
  rfl

theorem State.unitReset_busy {s : State} {cls k : Nat} {quiet : State → Nat → Bool} {rst : State → Nat → State}
    (hr : s.pwr.inReset = none) (h : quiet s k = false) :
    (s.unitReset cls [k] quiet rst).1 = s.p (rstUnitField cls) (s.g (rstUnitField cls)) := by
  have hzero : maskOf 64 ([] : List Nat).contains = 0 := by decide
  unfold State.unitReset
  rw [if_neg (by simp [hr])]
  have hpart : [k].partition (quiet s) = ([], [k]) := by simp [h]
  rw [hpart]
  show s.p (rstUnitField cls) (s.g (rstUnitField cls) ||| maskOf 64 ([] : List Nat).contains) = _
  rw [hzero, Nat.or_zero]

theorem rstUnitField_fits (cls : Nat) : (rstUnitField cls).hi < 64 ∧ (rstUnitField cls).lo ≤ (rstUnitField cls).hi := by
  unfold rstUnitField
  split <;> decide

theorem State.rd_p_g (s : State) {f : FRef} (h : f.hi < 64 ∧ f.lo ≤ f.hi) (a : Nat) : (s.p f (s.g f)).rd a = s.rd a := by
  by_cases ha : a = f.addr
  · subst ha
    unfold State.p State.g
    rw [State.rd_wr_self, setBits_getBits _ h.1 h.2]
  · exact s.rd_p_ne _ _ ha

/-- Its bit reads 1. -/
theorem State.unitRan_bit (s : State) {cls k : Nat} (rst : State → Nat → State) (h : k < (rstUnitField cls).hi + 1 - (rstUnitField cls).lo) :
    nbit ((s.unitRan cls k rst).g (rstUnitField cls)) k = true := by
  have hf := rstUnitField_fits cls
  unfold State.unitRan
  rw [State.g_p_self _ _ _ hf.1 hf.2, nbit, Nat.testBit_mod_two_pow, Nat.testBit_or, maskOf_testBit]
  have hk : k < 64 := by omega
  simp [h, hk]

/-! ### The write -/

/-- A register of unit resets: who writes it resets units of its own. -/
structure UnitReg (a cls n : Nat) (d : RegDesc) (quiet : State → Nat → Bool) (rst : State → Nat → State) : Prop where
  at_ : csWindow a = none ∧ regAt a = some (d, []) ∧ regDom a = none
  aligned : a % 8 = 0 ∧ a < 0x10000000
  action : d.actionOnly
  bits : d.own.isBits = true
  free : ∀ (s : State) (v : Word), s.unitWard d [] = none ∧ d.own ≠ .acq ∧ s.writeBusy d [] v = false ∧ writeVoid d v = false
  effect : ∀ (s : State) (own : Nat → Bool) (old v : Word), (s.writeEffect d [] own a old v).1 =
    (s.unitReset cls ((List.range n).filter (fun b => nbit v.toNat b && own b)) quiet rst).1

/-- A store outside a pair is its effect, mirrored or not. -/
theorem State.storeReg_alone {s : State} {w : Fin 4} {a : Nat} {v : Word} (hm : s.masterWard (.ward w) = some w.val)
    (hp : (s.regWrite (s.ownBit w a) a v).1.paired = false) (hc : (s.regWrite (s.ownBit w a) a v).1.twin.copying = false) :
    (s.storeReg (.ward w) a v).1 = (s.regWrite (s.ownBit w a) a v).1 := by
  unfold State.storeReg
  rw [hm]
  dsimp only
  split
  · split
    · exact State.mirror_unpaired hp hc _ _
    · rfl
  · rfl

section
variable {s : State} {w : Fin 4} {a cls n k : Nat} {d : RegDesc} {quiet : State → Nat → Bool} {rst : State → Nat → State}

theorem UnitReg.regCheck (h : UnitReg a cls n d quiet rst) (hen : (s.ward w.val).enable = true) : s.regCheck (.ward w) true a = 0 := by
  obtain ⟨hcs, hreg, -⟩ := h.at_
  obtain ⟨hnone, hacq, -⟩ := h.free s 0#64
  have hmay : s.mayWrite w.val d [] = true := by
    unfold State.mayWrite
    rw [hnone]
    simp [hacq, h.bits]
  have hlow : ¬ 0x10000000 ≤ a := by have := h.aligned.2; omega
  unfold State.regCheck
  rw [if_neg (by simp [h.aligned.1]), if_neg hlow, if_neg (show ¬ isPorter (.ward w) = true from Bool.false_ne_true),
    show s.masterWard (.ward w) = some w.val from if_pos hen]
  simp [hcs, hreg, hmay]

theorem UnitReg.regWrite (h : UnitReg a cls n d quiet rst) (hk : k < n) (hn : n ≤ 64) (hown : s.bitWard d [] k = some w.val) :
    (s.regWrite (s.ownBit w a) a (BitVec.ofNat 64 (2 ^ k))).1 = ((s.wr a (s.rd a)).unitReset cls [k] quiet rst).1 := by
  obtain ⟨-, -, hb, hv⟩ := h.free s (BitVec.ofNat 64 (2 ^ k))
  have hbit : s.ownBit w a k = true := by
    unfold State.ownBit
    rw [h.at_.2.1]
    simp [hown]
  rw [State.regWrite_action h.at_ h.action hb hv, h.effect, filter_bit hk hn hbit]

/-- The write of a unit's bit, outside a pair. -/
theorem UnitReg.writeBy (h : UnitReg a cls n d quiet rst) (hen : (s.ward w.val).enable = true) (hk : k < n) (hn : n ≤ 64)
    (hown : s.bitWard d [] k = some w.val) {t : State} (ht : ((s.wr a (s.rd a)).unitReset cls [k] quiet rst).1 = t)
    (hp : t.paired = false) (hc : t.twin.copying = false) : s.writeBy (.ward w) a (BitVec.ofNat 64 (2 ^ k)) = t := by
  have hwrite := (h.regWrite hk hn hown).trans ht
  show (if s.regCheck (.ward w) true a = 0 then (s.storeReg (.ward w) a (BitVec.ofNat 64 (2 ^ k))).1 else s) = t
  rw [if_pos (h.regCheck hen), State.storeReg_alone (if_pos hen) (by rw [hwrite]; exact hp) (by rw [hwrite]; exact hc), hwrite]

end

theorem unitReg_ps : UnitReg RST_UNIT_PS 0 32 ⟨.RST_UNIT_PS, 0x00003010, [], .seqBits, [fld 31 0 .w1s 0]⟩ State.psQuiet State.resetPs :=
  ⟨by decide, by decide, by decide, rfl, fun _ _ => ⟨rfl, by decide, rfl, rfl⟩, fun _ _ _ _ => rfl⟩

theorem unitReg_cb : UnitReg RST_UNIT_CB 1 32 ⟨.RST_UNIT_CB, 0x00003018, [], .cbBits, [fld 31 0 .w1s 0]⟩ State.cbQuiet State.resetCb :=
  ⟨by decide, by decide, by decide, rfl, fun _ _ => ⟨rfl, by decide, rfl, rfl⟩, fun _ _ _ _ => rfl⟩

theorem unitReg_vs : UnitReg RST_UNIT_VS 2 16 ⟨.RST_UNIT_VS, 0x00003020, [], .vsBits, [fld 15 0 .w1s 0]⟩ State.vsQuiet State.resetVs :=
  ⟨by decide, by decide, by decide, rfl, fun _ _ => ⟨rfl, by decide, rfl, rfl⟩, fun _ _ _ _ => rfl⟩

theorem unitReg_ac : UnitReg RST_UNIT_AC 3 48 ⟨.RST_UNIT_AC, 0x00003028, [], .coreBits, [fld 47 0 .w1s 0]⟩ State.acQuiet State.resetAc :=
  ⟨by decide, by decide, by decide, rfl, fun _ _ => ⟨rfl, by decide, rfl, rfl⟩, fun _ _ _ _ => rfl⟩

end Sys2Proof.Machine
end

section
/-! SUPPORT. What the reset of one unit leaves: everything but the unit, its registers, its fault latches, and the corrections of its
channels (R300, R321, R368). -/

namespace Sys2Proof.Machine

/-! ### The state behind it -/

/-- The state without registers, fault latches, event queues, Squares and corrections: what a unit reset touches of other units. -/
def State.marksErased (s : State) : State :=
  { s with regs := [], flt := .zero, wards := .replicate 4 .zero, sqs := .replicate 64 .zero, cal := .zero, fresh := 0 }

section
variable (s : State)

@[simp] theorem State.p_marksErased (f : FRef) (v : Nat) : (s.p f v).marksErased = s.marksErased := rfl

@[simp] theorem State.pb_marksErased (f : FRef) (b : Bool) : (s.pb f b).marksErased = s.marksErased := rfl

@[simp] theorem State.pi_marksErased (f : FRef) (v : Int) : (s.pi f v).marksErased = s.marksErased := rfl

@[simp] theorem State.wr_marksErased (a : Nat) (w : Word) : (s.wr a w).marksErased = s.marksErased := rfl

@[simp] theorem State.rstRange_marksErased (lo hi : Nat) : (s.rstRange lo hi).marksErased = s.marksErased := rfl

@[simp] theorem State.useFree_marksErased : s.useFree.marksErased = s.marksErased := rfl

@[simp] theorem State.calAcc_marksErased (n p v : Nat) : (s.calAcc n p v).marksErased = s.marksErased := rfl

@[simp] theorem State.clearWin_marksErased (f : Latch → Bool) : (s.clearWin f).marksErased = s.marksErased := rfl

@[simp] theorem State.modSq_marksErased (q : Nat) (f : Sq → Sq) : (s.modSq q f).marksErased = s.marksErased := by
  unfold State.modSq
  split <;> rfl

@[simp] theorem State.modSeq_marksErased (k : Nat) (f : Seq → Seq) : (s.modSeq k f).marksErased = s.marksErased.modSeq k f := by
  unfold State.modSeq
  split <;> rfl

@[simp] theorem State.modVs_marksErased (v : Nat) (f : VsEng → VsEng) : (s.modVs v f).marksErased = s.marksErased.modVs v f := by
  unfold State.modVs
  split <;> rfl

@[simp] theorem State.modCh_marksErased (n : Nat) (f : Chan → Chan) : (s.modCh n f).marksErased = s.marksErased.modCh n f := by
  unfold State.modCh
  split <;> rfl

@[simp] theorem State.modCb_marksErased (c : Nat) (f : Cblk → Cblk) : (s.modCb c f).marksErased = s.marksErased.modCb c f := by
  unfold State.modCb
  split <;> rfl

@[simp] theorem State.modCore_marksErased (c : Nat) (f : Core → Core) : (s.modCore c f).marksErased = s.marksErased.modCore c f := by
  unfold State.modCore
  split <;> rfl

@[simp] theorem State.eventAll_marksErased (c x : Nat) : (s.eventAll c x).marksErased = s.marksErased :=
  forEach_keeps State.marksErased _ s _ fun w t => by
    show (t.post w _).marksErased = t.marksErased
    unfold State.post State.modWard
    split
    · split <;> rfl
    · rfl

@[simp] theorem State.sqWithdraw_marksErased (m : Nat) : (s.sqWithdraw m).marksErased = s.marksErased :=
  forEach_keeps State.marksErased _ s _ fun q t => by
    split
    · simp [State.sqRemove, State.sqShow]
    · rfl

@[simp] theorem State.clearSrcs_marksErased (l : List Nat) : (s.clearSrcs l).marksErased = s.marksErased := by
  unfold State.clearSrcs State.fltShow
  dsimp only
  rw [State.p_marksErased, State.pb_marksErased, State.p_marksErased, forEach_keeps State.marksErased _ _ _ fun i t => by simp,
    State.clearWin_marksErased]

@[simp] theorem State.calRetarget_marksErased (l : List Nat) : (s.calRetarget l).marksErased = s.marksErased := by
  have hcount (t : State) : t.calCount.marksErased = t.marksErased := by
    unfold State.calCount
    dsimp only
    split <;> simp
  unfold State.calRetarget
  rw [hcount]
  refine forEach_keeps State.marksErased _ s _ fun n t => ?_
  unfold State.calMark
  dsimp only
  rw [State.pb_marksErased]
  split
  · exact forEach_keeps State.marksErased _ t _ fun p t => by simp [State.calJump]
  · rfl

@[simp] theorem State.cbIdle_marksErased (c : Nat) : (s.cbIdle c).marksErased = s.marksErased := by
  unfold State.cbIdle
  dsimp only
  split <;> simp

theorem State.resetPs_marksErased (k : Nat) : (s.resetPs k).marksErased = s.marksErased.modSeq k Seq.resetUnit := by
  simp [State.resetPs]

/-- A Channel Block with its four channels, as after power-on. -/
def State.blockZero (c : Nat) : State :=
  ((((s.modCb c (fun _ => .zero)).modCh (4 * c) (fun _ => .zero)).modCh (4 * c + 1) (fun _ => .zero)).modCh (4 * c + 2)
    (fun _ => .zero)).modCh (4 * c + 3) (fun _ => .zero)

theorem State.resetCb_marksErased (c : Nat) : (s.resetCb c).marksErased = s.marksErased.blockZero c := by
  unfold State.resetCb
  dsimp only
  rw [State.clearSrcs_marksErased, State.cbIdle_marksErased]
  simp only [cbChans, forEach, List.foldl_cons, List.foldl_nil, State.rstRange_marksErased, State.modCh_marksErased,
    State.modCb_marksErased]
  rfl

theorem State.resetVs_marksErased (v : Nat) : (s.resetVs v).marksErased =
    (s.marksErased.modVs v (fun x => { VsEng.zero with ckpt := x.ckpt })).modVs v (fun _ => .zero) := by
  simp [State.resetVs, State.vsUnbind]

theorem State.resetAc_marksErased (c : Nat) :
    (s.resetAc c).marksErased = s.marksErased.modCore c (fun x => { Core.zero with stores := x.stores }) := by
  simp [State.resetAc]

end

/-! ### Registers -/

section
variable (s : State)

theorem State.rd_rstRange_out {lo hi a : Nat} (h : a < lo ∨ hi ≤ a) : (s.rstRange lo hi).rd a = s.rd a := tabGet_tabDrop_of_out _ _ h

theorem State.rd_rstRange_in {lo hi a : Nat} (hl : lo ≤ a) (hh : a < hi) : (s.rstRange lo hi).rd a = resetAt a :=
  tabGet_tabDrop_of_in _ _ hl hh

/-- Fault latches show in the registers of the collector only. -/
theorem State.clearSrcs_rd {l : List Nat} (hl : ∀ i ∈ l, i < 2 ^ 16) {a : Nat} (h : a < 0x0C000000 ∨ 0x0D000000 ≤ a) :
    (s.clearSrcs l).rd a = s.rd a := by
  have hsum : a ≠ FLT_SUMMARY := by unfold FLT_SUMMARY; omega
  have hstat : a ≠ FLT_STATUS := by unfold FLT_STATUS; omega
  unfold State.clearSrcs State.fltShow
  dsimp only
  rw [State.rd_p_ne _ _ _ hstat, State.rd_pb_ne _ _ _ hstat, State.rd_p_ne _ _ _ hsum]
  refine forEach_keeps_of_mem (fun t : State => t.rd a) _ (s.clearWin _) _ fun i hi t => ?_
  have hlt := hl i (List.mem_of_mem_filter hi)
  have hreal : a ≠ FLT_GRP_REAL (i / 32) := by unfold FLT_GRP_REAL; omega
  have hforced : a ≠ FLT_GRP_FORCED (i / 32) := by unfold FLT_GRP_FORCED; omega
  have hconseq : a ≠ FLT_GRP_CONSEQ (i / 32) := by unfold FLT_GRP_CONSEQ; omega
  rw [State.rd_p_ne _ _ _ hconseq, State.rd_p_ne _ _ _ hforced, State.rd_p_ne _ _ _ hreal]

theorem State.sqShow_rd {q a : Nat} (h : a ≠ PS_SQ_STATUS q) : (s.sqShow q).rd a = s.rd a := by
  unfold State.sqShow
  dsimp only
  rw [State.rd_pb_ne _ _ _ h, State.rd_pb_ne _ _ _ h, State.rd_pb_ne _ _ _ h, State.rd_p_ne _ _ _ h, State.rd_p_ne _ _ _ h]

theorem State.sqWithdraw_rd (m : Nat) {a : Nat} (h : ∀ q, q < 64 → a ≠ PS_SQ_STATUS q) : (s.sqWithdraw m).rd a = s.rd a :=
  forEach_keeps_of_mem (fun t : State => t.rd a) _ s _ fun q hq t => by
    split
    · unfold State.sqRemove
      rw [State.sqShow_rd _ (h q (List.mem_range.1 hq)), State.rd_modSq]
    · rfl

theorem State.calAcc_regs (n p v : Nat) : (s.calAcc n p v).regs = s.regs := rfl

theorem State.calRetarget_rd {l : List Nat} (hl : ∀ n ∈ l, n < 128) {a : Nat} (h : a < 0x0D000000 ∨ 0x0E000000 ≤ a) :
    (s.calRetarget l).rd a = s.rd a := by
  have hcount (t : State) : t.calCount.rd a = t.rd a := by
    have hstat : a ≠ CAL_STATUS := by unfold CAL_STATUS; omega
    unfold State.calCount
    dsimp only
    split
    · rw [State.rd_useFree, State.rd_eventAll, State.rd_p_ne _ _ _ hstat]
    · rw [State.rd_p_ne _ _ _ hstat]
  unfold State.calRetarget
  rw [hcount]
  refine forEach_keeps_of_mem (fun t : State => t.rd a) _ s _ fun n hn t => ?_
  have hnow : a ≠ CAL_CH_NOW n := by
    have := hl n hn
    unfold CAL_CH_NOW; omega
  have hpath (p : Nat) : (calNow n p).addr = CAL_CH_NOW n := by
    unfold calNow
    split <;> rfl
  unfold State.calMark
  dsimp only
  rw [State.rd_pb_ne _ _ _ hnow]
  split
  · refine forEach_keeps (fun t : State => t.rd a) _ t _ fun p t => ?_
    unfold State.calJump State.pi
    rw [State.rd_congr (State.calAcc_regs _ _ _ _), State.rd_p_ne _ _ _ (by rw [hpath]; exact hnow)]
  · rfl

/-- A Channel Block that becomes IDLE shows it, and the corrections that its channels take. -/
theorem State.cbIdle_rd {c a : Nat} (hc : c < 32) (ha : a ≠ CH_CB_STATUS c) (h : a < 0x0D000000 ∨ 0x0E000000 ≤ a) :
    (s.cbIdle c).rd a = s.rd a := by
  have hchans : ∀ n ∈ cbChans c, n < 128 := by
    intro n hn
    simp only [cbChans, List.mem_cons, List.not_mem_nil, or_false] at hn
    omega
  unfold State.cbIdle
  dsimp only
  split
  · rw [State.calRetarget_rd _ hchans h, State.rd_p_ne _ _ _ ha]
  · rw [State.rd_p_ne _ _ _ ha]

theorem State.cbIdle_state {c : Nat} (hc : c < 32) : (s.cbIdle c).g (CH_CB_STATUS_STATE c) = 0 := by
  have hchans : ∀ n ∈ cbChans c, n < 128 := by
    intro n hn
    simp only [cbChans, List.mem_cons, List.not_mem_nil, or_false] at hn
    omega
  have hlow : CH_CB_STATUS c < 0x0D000000 := by unfold CH_CB_STATUS; omega
  have hp : (s.p (CH_CB_STATUS_STATE c) 0).g (CH_CB_STATUS_STATE c) = 0 :=
    State.g_p_fits _ ⟨(by decide : 1 < 64), (by decide : 0 ≤ 1)⟩ (Nat.two_pow_pos _)
  unfold State.cbIdle
  dsimp only
  split
  · exact (congrArg (fun w => getBits w _ _) (State.calRetarget_rd _ hchans (Or.inl hlow))).trans hp
  · exact hp

theorem State.vsUnbind_rd {v a : Nat} (hst : a ≠ VS_STATUS v) (hlv : a ≠ VS_LEVEL v) : (s.vsUnbind v).rd a = s.rd a := by
  unfold State.vsUnbind
  rw [State.rd_p_ne _ _ _ hlv, State.rd_p_ne _ _ _ hlv, State.rd_p_ne _ _ _ hst, State.rd_pb_ne _ _ _ hst, State.rd_p_ne _ _ _ hst,
    State.rd_modVs]

end

/-! ### TWN_STATUS -/

section
variable (s : State) {k : Nat}

theorem TWN_STATUS_far : (∀ q, q < 64 → TWN_STATUS ≠ PS_SQ_STATUS q) ∧ 0x0E000000 ≤ TWN_STATUS := by
  refine ⟨fun q hq => ?_, by decide⟩
  unfold TWN_STATUS PS_SQ_STATUS
  omega

theorem State.resetPs_twn (hk : k < 32) : (s.resetPs k).rd TWN_STATUS = s.rd TWN_STATUS := by
  obtain ⟨hsq, hfar⟩ := TWN_STATUS_far
  unfold State.resetPs
  dsimp only
  rw [State.clearSrcs_rd _ (by simp; omega) (by omega), State.rd_rstRange_out _ (by omega), State.rd_modSeq, State.sqWithdraw_rd _ _ hsq]

theorem State.resetCb_twn (hk : k < 32) : (s.resetCb k).rd TWN_STATUS = s.rd TWN_STATUS := by
  obtain ⟨-, hfar⟩ := TWN_STATUS_far
  have hst : TWN_STATUS ≠ CH_CB_STATUS k := by unfold TWN_STATUS CH_CB_STATUS; omega
  unfold State.resetCb
  dsimp only
  rw [State.clearSrcs_rd _ (by simp; omega) (by omega), State.cbIdle_rd _ hk hst (by omega),
    forEach_keeps_of_mem (fun t : State => t.rd TWN_STATUS) (cbChans k) _ _ fun n hn t => ?_, State.rd_rstRange_out _ (by omega), State.rd_modCb]
  simp only [cbChans, List.mem_cons, List.not_mem_nil, or_false] at hn
  rw [State.rd_rstRange_out _ (by omega), State.rd_modCh]

theorem State.resetVs_twn (hk : k < 16) : (s.resetVs k).rd TWN_STATUS = s.rd TWN_STATUS := by
  obtain ⟨hsq, hfar⟩ := TWN_STATUS_far
  have hst : TWN_STATUS ≠ VS_STATUS k := by unfold TWN_STATUS VS_STATUS; omega
  have hlv : TWN_STATUS ≠ VS_LEVEL k := by unfold TWN_STATUS VS_LEVEL; omega
  unfold State.resetVs
  dsimp only
  rw [State.clearSrcs_rd _ (by simp; omega) (by omega), State.rd_rstRange_out _ (by omega), State.rd_modVs, State.vsUnbind_rd _ hst hlv,
    State.sqWithdraw_rd _ _ hsq]

theorem State.resetAc_twn (hk : k < 48) : (s.resetAc k).rd TWN_STATUS = s.rd TWN_STATUS := by
  obtain ⟨-, hfar⟩ := TWN_STATUS_far
  unfold State.resetAc
  dsimp only
  rw [State.clearSrcs_rd _ (by simp; omega) (by omega), State.rd_rstRange_out _ (by omega), State.rd_modCore]

end

end Sys2Proof.Machine
end

section
/-! SUPPORT. Each class of unit resets (R368), and with them the whole of what resets do. -/

namespace Sys2Proof.Machine

/-! ### Waveform Tables -/

theorem splitIdx_of_findReg {l : List RegDesc} {a : Nat} {d : RegDesc} {ix : List Nat} (h : findReg l a = some (d, ix)) :
    d.base ≤ a ∧ splitIdx d.dims (a - d.base) = some ix := by
  induction l with
  | nil => simp [findReg] at h
  | cons e t ih =>
    simp only [findReg] at h
    split at h
    · next hb =>
      split at h
      · next hs =>
        cases h
        exact ⟨hb, hs⟩
      · exact ih h
    · exact ih h

theorem blockRegs_WT_ENTRY (b : Nat) :
    ∀ d ∈ blockRegs b, d.name = .WT_ENTRY → d.base = 0x05008000 ∧ d.dims = [(128, 0x10000), (256, 0x20), (4, 0x8)] := by
  unfold blockRegs
  split <;> decide

/-- Where the words of the Waveform Tables lie. -/
theorem WT_ENTRY_bounds {a : Nat} {d : RegDesc} {ix : List Nat} (h : regAt a = some (d, ix)) (hd : d.name = .WT_ENTRY) :
    0x05008000 ≤ a ∧ a < 0x05808000 ∧ (a - 0x05008000) % 0x10000 < 0x2000 := by
  obtain ⟨hbase, hdims⟩ := blockRegs_WT_ENTRY _ d (mem_of_findReg h) hd
  obtain ⟨hlow, hidx⟩ := splitIdx_of_findReg h
  rw [hbase] at hlow hidx
  rw [hdims] at hidx
  simp only [splitIdx] at hidx
  split at hidx
  · next hchan =>
    split at hidx
    · next hrow => omega
    · cases hidx
  · cases hidx

/-! ### What a unit reset leaves of the device -/

theorem State.paired_of_twn {s t : State} (h : t.rd TWN_STATUS = s.rd TWN_STATUS) : t.paired = s.paired := by
  unfold State.paired State.role State.gb State.g
  rw [show TWN_STATUS_ROLE.addr = TWN_STATUS from rfl, show TWN_STATUS_PAIRED.addr = TWN_STATUS from rfl, h]

/-- What a unit reset leaves beside registers, fault latches, event queues, Squares and corrections: as in `s`. -/
structure UnitMoved (s t : State) : Prop where
  mem : t.mem = s.mem
  cmds : t.cmds = s.cmds
  plan : t.plan = s.plan
  ctxs : t.ctxs = s.ctxs
  seqs : t.seqs = s.seqs
  twin : t.twin = s.twin
  vs : t.vs = s.vs
  chans : t.chans = s.chans
  cbs : t.cbs = s.cbs
  cores : t.cores = s.cores

theorem UnitMoved.of_erased {s t : State} (h : t.marksErased = s.marksErased) : UnitMoved s t := by
  have hframe : t = { s with regs := t.regs, flt := t.flt, wards := t.wards, sqs := t.sqs, cal := t.cal, fresh := t.fresh } :=
    congrArg (fun x : State => { x with
      regs := t.regs, flt := t.flt, wards := t.wards, sqs := t.sqs, cal := t.cal, fresh := t.fresh }) h
  constructor <;> rw [hframe]

/-- The register of the bits lies among those of power and reset. -/
theorem rstUnitField_addr (cls : Nat) : 0x00003010 ≤ (rstUnitField cls).addr ∧ (rstUnitField cls).addr < 0x00003030 := by
  unfold rstUnitField
  split <;> decide

theorem State.unitRan_rd (s : State) (cls k : Nat) (rst : State → Nat → State) {a : Nat} (h : 0x00003030 ≤ a) :
    (s.unitRan cls k rst).rd a = (rst s k).rd a := by
  have haddr := rstUnitField_addr cls
  exact State.rd_p_ne _ _ _ (by omega)

theorem State.unitRan_marksErased (s : State) (cls k : Nat) (rst : State → Nat → State) :
    (s.unitRan cls k rst).marksErased = (rst s k).marksErased := rfl

section
variable {s : State} {w : Fin 4} {a cls n k : Nat} {d : RegDesc} {quiet : State → Nat → Bool} {rst : State → Nat → State} {i : Instr}

/-- A busy unit stays as it is. -/
theorem rstUnit_busy (h : UnitReg a cls n d quiet rst) (hi : exec i s = .next (s.writeBy (.ward w) a (BitVec.ofNat 64 (2 ^ k))))
    (hen : (s.ward w.val).enable = true) (hr : s.pwr.inReset = none) (hp : s.paired = false) (hc : s.twin.copying = false) (hk : k < n)
    (hn : n ≤ 64) (hown : s.bitWard d [] k = some w.val) (hq : quiet (s.wr a (s.rd a)) k = false) :
    Gives i s (fun t => RegsKept [] s t ∧ t = { s with regs := t.regs }) := by
  have hrd (b : Nat) : ((s.wr a (s.rd a)).p (rstUnitField cls) ((s.wr a (s.rd a)).g (rstUnitField cls))).rd b = s.rd b :=
    (State.rd_p_g _ (rstUnitField_fits cls) b).trans (s.rd_wr_rd a b)
  have hpair := (State.paired_of_twn (hrd TWN_STATUS)).trans hp
  exact ⟨_, hi.trans (congrArg Host.Outcome.next (h.writeBy hen hk hn hown (State.unitReset_busy hr hq) hpair hc)), fun b _ => hrd b, rfl⟩

/-- A quiet unit is reset, and its bit reads 1: `x` is the device with that unit reset, but for registers and marks. -/
theorem rstUnit_quiet (h : UnitReg a cls n d quiet rst) (hi : exec i s = .next (s.writeBy (.ward w) a (BitVec.ofNat 64 (2 ^ k))))
    (hen : (s.ward w.val).enable = true) (hr : s.pwr.inReset = none) (hp : s.paired = false) (hc : s.twin.copying = false) (hk : k < n)
    (hn : n ≤ 64) (hown : s.bitWard d [] k = some w.val) (hq : quiet (s.wr a (s.rd a)) k = true)
    (htwn : (rst (s.wr a (s.rd a)) k).rd TWN_STATUS = (s.wr a (s.rd a)).rd TWN_STATUS) {x : State}
    (hx : (rst (s.wr a (s.rd a)) k).marksErased = x.marksErased) (htwin : x.twin = s.twin) :
    ∃ t, exec i s = .next t ∧ t = (s.wr a (s.rd a)).unitRan cls k rst ∧ UnitMoved x t := by
  have hmoved : UnitMoved x ((s.wr a (s.rd a)).unitRan cls k rst) := .of_erased ((State.unitRan_marksErased ..).trans hx)
  have hrd : ((s.wr a (s.rd a)).unitRan cls k rst).rd TWN_STATUS = s.rd TWN_STATUS := by
    rw [State.unitRan_rd _ _ _ _ (by decide), htwn, s.rd_wr_rd]
  have hpair := (State.paired_of_twn hrd).trans hp
  have hcopy : ((s.wr a (s.rd a)).unitRan cls k rst).twin.copying = false := by
    rw [hmoved.twin, htwin, hc]
  exact ⟨_, hi.trans (congrArg Host.Outcome.next (h.writeBy hen hk hn hown (State.unitReset_quiet hr hq) hpair hcopy)), rfl, hmoved⟩

end

/-! ### Channel Blocks and stream engines -/

section
variable (s : State) {c : Nat}

theorem State.blockZero_marksErased (c : Nat) : (s.blockZero c).marksErased = s.marksErased.blockZero c := by
  unfold State.blockZero
  simp only [State.modCh_marksErased, State.modCb_marksErased]

theorem State.blockZero_cb (h : c < 32) : (s.blockZero c).cb c = Cblk.zero := by
  unfold State.blockZero
  rw [State.cb_congr (s := s.modCb c (fun _ => .zero)) (by simp), State.cb_modCb_self _ _ _ h]

theorem State.blockZero_ch (h : c < 32) {n : Nat} (hn : n / 4 = c) : (s.blockZero c).ch n = Chan.zero := by
  have hself (t : State) {m : Nat} (hm : n = m) : (t.modCh m (fun _ => Chan.zero)).ch n = Chan.zero := by
    subst hm
    exact State.ch_modCh_self _ _ _ (by omega)
  have hcase : n = 4 * c + 3 ∨ n = 4 * c + 2 ∨ n = 4 * c + 1 ∨ n = 4 * c := by omega
  unfold State.blockZero
  rcases hcase with h3 | h2 | h1 | h0
  · exact hself _ h3
  · rw [State.ch_modCh_ne _ _ (by omega), hself _ h2]
  · rw [State.ch_modCh_ne _ _ (by omega), State.ch_modCh_ne _ _ (by omega), hself _ h1]
  · rw [State.ch_modCh_ne _ _ (by omega), State.ch_modCh_ne _ _ (by omega), State.ch_modCh_ne _ _ (by omega), hself _ h0]

theorem State.blockZero_ch_ne {n : Nat} (hn : n / 4 ≠ c) : (s.blockZero c).ch n = s.ch n := by
  unfold State.blockZero
  rw [State.ch_modCh_ne _ _ (by omega), State.ch_modCh_ne _ _ (by omega), State.ch_modCh_ne _ _ (by omega),
    State.ch_modCh_ne _ _ (by omega), State.ch_congr (s := s) (by simp)]

theorem State.resetCb_state (h : c < 32) : (s.resetCb c).g (CH_CB_STATUS_STATE c) = 0 := by
  have hlow : CH_CB_STATUS c < 0x0C000000 := by unfold CH_CB_STATUS; omega
  unfold State.resetCb
  dsimp only
  exact (congrArg (fun v => getBits v _ _) (State.clearSrcs_rd _ (by simp; omega) (Or.inl hlow))).trans (State.cbIdle_state _ h)

/-- The words of the Waveform Tables lie outside what the reset of a Channel Block returns to its reset values. -/
theorem State.resetCb_wt (h : c < 32) {a : Nat} (hlo : 0x05008000 ≤ a) (hhi : a < 0x05808000) (hmod : (a - 0x05008000) % 0x10000 < 0x2000) :
    (s.resetCb c).rd a = s.rd a := by
  have hst : a ≠ CH_CB_STATUS c := by unfold CH_CB_STATUS; omega
  unfold State.resetCb
  dsimp only
  rw [State.clearSrcs_rd _ (by simp; omega) (by omega), State.cbIdle_rd _ h hst (by omega),
    forEach_keeps (fun t : State => t.rd a) (cbChans c) _ _ fun n t => ?_, State.rd_rstRange_out _ (by omega), State.rd_modCb]
  rw [State.rd_rstRange_out _ (by omega), State.rd_modCh]

theorem State.resetVs_status {v : Nat} (h : v < 16) : (s.resetVs v).rd (VS_STATUS v) = resetAt (VS_STATUS v) := by
  have hlo : 0x04000000 + v * 0x1000 ≤ VS_STATUS v := by unfold VS_STATUS; omega
  have hhi : VS_STATUS v < 0x04001000 + v * 0x1000 := by unfold VS_STATUS; omega
  unfold State.resetVs
  dsimp only
  rw [State.clearSrcs_rd _ (by simp; omega) (by omega), State.rd_rstRange_in _ hlo hhi]

end

/-! ### Units that are quiet stay so when their own bits are written back -/

theorem State.cbQuiet_wr (s : State) (a c : Nat) : (s.wr a (s.rd a)).cbQuiet c = s.cbQuiet c := by
  have hg (f : FRef) : (s.wr a (s.rd a)).g f = s.g f := congrArg (fun v => getBits v _ _) (s.rd_wr_rd a _)
  unfold State.cbQuiet
  rw [hg]
  rfl

theorem State.vsQuiet_wr (s : State) (a v : Nat) : (s.wr a (s.rd a)).vsQuiet v = s.vsQuiet v := by
  have hg (f : FRef) : (s.wr a (s.rd a)).g f = s.g f := congrArg (fun v => getBits v _ _) (s.rd_wr_rd a _)
  unfold State.vsQuiet State.gb
  rw [hg, hg, hg]
  rfl

/-! ### The four classes -/

section
variable {s : State} {w : Fin 4} (hen : (s.ward w.val).enable = true) (hr : s.pwr.inReset = none) (hp : s.paired = false)
  (hc : s.twin.copying = false)
include hen hr hp hc

theorem rstUnitPs_resets {k : Fin 32} (hown : s.seqWard k.val = some w.val) (hq : s.psQuiet k.val = true) :
    Gives (.rstUnitPs (.ward w) (BitVec.ofNat 64 (2 ^ k.val))) s (fun t => (t.seq k.val).st = .idle ∧
      (t.seq k.val).arch = Arch.zero ∧ nbit (t.g RST_UNIT_PS_PS) k.val = true ∧ (t.seq k.val).cs = (s.seq k.val).cs ∧
      (∀ j, j ≠ k.val → t.seq j = s.seq j) ∧
      (∀ a, 0x02000000 + k.val * 0x100000 ≤ a → a < 0x02060000 + k.val * 0x100000 → t.rd a = resetAt a) ∧ t.mem = s.mem ∧ t.cmds = s.cmds ∧
      t.plan = s.plan) := by
  have hk := k.isLt
  obtain ⟨t, hexec, ht, hmoved⟩ := rstUnit_quiet unitReg_ps (i := .rstUnitPs (.ward w) (BitVec.ofNat 64 (2 ^ k.val))) rfl hen hr hp hc hk
    (by decide) hown hq (State.resetPs_twn _ hk) (x := s.modSeq k.val Seq.resetUnit) (by rw [State.resetPs_marksErased]; simp) (by simp)
  have hself : t.seq k.val = (s.seq k.val).resetUnit := by
    rw [State.seq_congr hmoved.seqs, State.seq_modSeq_self _ _ _ hk]
  refine ⟨t, hexec, by rw [hself]; rfl, by rw [hself]; rfl, by rw [ht]; exact State.unitRan_bit _ (cls := 0) _ hk, by rw [hself]; rfl,
    fun j hj => ?_, fun a hlo hhi => ?_, hmoved.mem.trans (by simp), hmoved.cmds.trans (by simp), hmoved.plan.trans (by simp)⟩
  · rw [State.seq_congr hmoved.seqs, State.seq_modSeq_ne _ _ hj]
  · rw [ht, State.unitRan_rd _ _ _ _ (by omega)]
    unfold State.resetPs
    dsimp only
    rw [State.clearSrcs_rd _ (by simp; omega) (by omega), State.rd_rstRange_in _ hlo (by omega)]

theorem rstUnitPs_busy {k : Fin 32} (hown : s.seqWard k.val = some w.val) (hq : s.psQuiet k.val = false) :
    Gives (.rstUnitPs (.ward w) (BitVec.ofNat 64 (2 ^ k.val))) s (fun t => RegsKept [] s t ∧ t = { s with regs := t.regs }) :=
  rstUnit_busy unitReg_ps (i := .rstUnitPs (.ward w) (BitVec.ofNat 64 (2 ^ k.val))) rfl hen hr hp hc k.isLt (by decide) hown hq

theorem rstUnitCb_resets {c : Fin 32} (hown : s.cbWard c.val = some w.val) (hq : s.cbQuiet c.val = true) :
    Gives (.rstUnitCb (.ward w) (BitVec.ofNat 64 (2 ^ c.val))) s (fun t =>
      t.cb c.val = Cblk.zero ∧ (∀ n, n / 4 = c.val → t.ch n = Chan.zero) ∧ (∀ n, n / 4 ≠ c.val → t.ch n = s.ch n) ∧
      t.g (CH_CB_STATUS_STATE c.val) = 0 ∧
      (∀ a d ix, regAt a = some (d, ix) → d.name = .WT_ENTRY → t.rd a = s.rd a) ∧ t.seqs = s.seqs ∧ t.mem = s.mem ∧ t.cmds = s.cmds) := by
  have hk := c.isLt
  obtain ⟨t, hexec, ht, hmoved⟩ := rstUnit_quiet unitReg_cb (i := .rstUnitCb (.ward w) (BitVec.ofNat 64 (2 ^ c.val))) rfl hen hr hp hc hk
    (by decide) hown ((s.cbQuiet_wr _ _).trans hq) (State.resetCb_twn _ hk) (x := s.blockZero c.val)
    (by rw [State.resetCb_marksErased, State.blockZero_marksErased]; rfl) (by simp [State.blockZero])
  have hrd {a : Nat} (ha : 0x00003030 ≤ a) := State.unitRan_rd (s.wr RST_UNIT_CB (s.rd RST_UNIT_CB)) 1 c.val State.resetCb ha
  refine ⟨t, hexec, ?_, fun n hn => ?_, fun n hn => ?_, ?_, fun a d ix hreg hd => ?_, hmoved.seqs.trans (by simp [State.blockZero]),
    hmoved.mem.trans (by simp [State.blockZero]), hmoved.cmds.trans (by simp [State.blockZero])⟩
  · rw [State.cb_congr hmoved.cbs, State.blockZero_cb _ hk]
  · rw [State.ch_congr hmoved.chans, State.blockZero_ch _ hk hn]
  · rw [State.ch_congr hmoved.chans, State.blockZero_ch_ne _ hn]
  · have hfar : 0x00003030 ≤ CH_CB_STATUS c.val := by unfold CH_CB_STATUS; omega
    rw [ht]
    exact (congrArg (fun v => getBits v _ _) (hrd hfar)).trans (State.resetCb_state _ hk)
  · obtain ⟨hlo, hhi, hmod⟩ := WT_ENTRY_bounds hreg hd
    rw [ht, hrd (by omega), State.resetCb_wt _ hk hlo hhi hmod, s.rd_wr_rd]

theorem rstUnitVs_resets {v : Fin 16} (hown : s.vsWard v.val = some w.val) (hq : s.vsQuiet v.val = true) :
    Gives (.rstUnitVs (.ward w) (BitVec.ofNat 64 (2 ^ v.val))) s (fun t =>
      t.vse v.val = VsEng.zero ∧ (∀ j, j ≠ v.val → t.vse j = s.vse j) ∧ t.g (VS_STATUS_STATE v.val) = 0 ∧ t.gb (VS_STATUS_BOUND v.val) = false ∧
      t.seqs = s.seqs ∧ t.mem = s.mem ∧ t.cmds = s.cmds) := by
  have hk := v.isLt
  obtain ⟨t, hexec, ht, hmoved⟩ := rstUnit_quiet unitReg_vs (i := .rstUnitVs (.ward w) (BitVec.ofNat 64 (2 ^ v.val))) rfl hen hr hp hc hk
    (by decide) hown ((s.vsQuiet_wr _ _).trans hq) (State.resetVs_twn _ hk)
    (x := (s.modVs v.val (fun x => { VsEng.zero with ckpt := x.ckpt })).modVs v.val (fun _ => .zero))
    (by rw [State.resetVs_marksErased]; simp) (by simp)
  have hfar : 0x00003030 ≤ VS_STATUS v.val := by unfold VS_STATUS; omega
  have hrd : t.rd (VS_STATUS v.val) = resetAt (VS_STATUS v.val) := by
    rw [ht, State.unitRan_rd _ _ _ _ hfar]
    exact State.resetVs_status _ hk
  have hzero : ∀ v : Fin 16, resetAt (VS_STATUS v.val) = 0#64 := by decide
  refine ⟨t, hexec, ?_, fun j hj => ?_, ?_, ?_, hmoved.seqs.trans (by simp), hmoved.mem.trans (by simp), hmoved.cmds.trans (by simp)⟩
  · rw [State.vse_congr hmoved.vs, State.vse_modVs_self _ _ _ hk]
  · rw [State.vse_congr hmoved.vs, State.vse_modVs_ne _ _ hj, State.vse_modVs_ne _ _ hj]
  · show getBits (t.rd (VS_STATUS v.val)) _ _ = 0
    rw [hrd, hzero]
    rfl
  · show decide (getBits (t.rd (VS_STATUS v.val)) _ _ ≠ 0) = false
    rw [hrd, hzero]
    rfl

theorem rstUnitAc_resets {c : Fin 48} (hown : s.coreWard c.val = some w.val) (hq : s.acQuiet c.val = true) :
    Gives (.rstUnitAc (.ward w) (BitVec.ofNat 64 (2 ^ c.val))) s (fun t =>
      t.core c.val = { Core.zero with stores := (s.core c.val).stores } ∧ (∀ d, d ≠ c.val → t.core d = s.core d) ∧
      t.seqs = s.seqs ∧ t.mem = s.mem ∧ t.ctxs = s.ctxs ∧ t.cmds = s.cmds) := by
  have hk := c.isLt
  obtain ⟨t, hexec, ht, hmoved⟩ := rstUnit_quiet unitReg_ac (i := .rstUnitAc (.ward w) (BitVec.ofNat 64 (2 ^ c.val))) rfl hen hr hp hc hk
    (by decide) hown hq (State.resetAc_twn _ hk) (x := s.modCore c.val (fun x => { Core.zero with stores := x.stores }))
    (by rw [State.resetAc_marksErased]; simp) (by simp)
  refine ⟨t, hexec, ?_, fun j hj => ?_, hmoved.seqs.trans (by simp), hmoved.mem.trans (by simp), hmoved.ctxs.trans (by simp),
    hmoved.cmds.trans (by simp)⟩
  · rw [State.core_congr hmoved.cores, State.core_modCore_self _ _ _ hk]
  · rw [State.core_congr hmoved.cores, State.core_modCore_ne _ _ hj]

end

end Sys2Proof.Machine
end

section
/-! SUPPORT. O56: the remaining clauses, and what resets do as a whole (R366 to R370, R374). -/

namespace Sys2Proof.Machine

theorem State.assertFlt_eq (s : State) (i : Nat) : s.assertFlt i = { s with flt := (s.assertFlt i).flt } := by
  unfold State.assertFlt
  split <;> rfl

/-- A reset of a unit that still runs is reported (R374). -/
theorem rstUnitTimeout_runs {s : State} {c : Fin 4} {n : Nat} (h : nbit (s.g (rstUnitField c.val)) n = true) :
    Gives (.rstUnitTimeout c n) s (fun t => t.flt = (s.assertFlt 394).flt ∧ t = { s with flt := t.flt }) :=
  ⟨s.assertFlt 394, congrArg Host.Outcome.next (if_pos h), rfl, s.assertFlt_eq 394⟩

theorem rstUnitTimeout_done {s : State} {c : Fin 4} {n : Nat} (h : nbit (s.g (rstUnitField c.val)) n = false) :
    Gives (.rstUnitTimeout c n) s (fun t => t = s) :=
  ⟨s, congrArg Host.Outcome.next (if_neg (by simp [h])), rfl⟩

/-- The watchdog has ended. -/
def State.wdogEnded (s : State) : State := { s with twin := { s.twin with wdog := false } }

/-- The watchdog's expiry ends it and is reported. -/
theorem porterWatchdogExpired_reports (s : State) : Gives .porterWatchdogExpired s (fun t =>
    t.twin = { s.twin with wdog := false } ∧ t.flt = (s.assertFlt 360).flt ∧ t = { s with twin := t.twin, flt := t.flt }) := by
  have hframe := s.wdogEnded.assertFlt_eq 360
  rw [State.assertFlt_flt_congr (show s.wdogEnded.flt = s.flt from rfl)] at hframe
  exact ⟨_, congrArg Host.Outcome.next hframe, rfl, rfl, rfl⟩

/-- Settles O56: power, RESET_N and RST_CTRL.CHIP begin a chip reset (`State.resetBegin_begun`), its internal part
(`chipReset_resets`) keeps what is always on, and a unit reset changes one unit (`rstUnit_quiet`). -/
theorem resetsAct : Obligations.ResetsAct := by
  intro s
  refine ⟨fun i hi => ?_, ⟨resetNLow_begins, resetNLow_low, fun c => resetNLow_joins, rstCtrlChip_begins, rstCtrlChip_dark,
    fun w => rstCtrlChip_fenced s⟩, fun c hc => ⟨chipReset_waits hc, chipReset_resets hc⟩, fun b => ⟨fun h => resetNRise_rises h b,
    fun h => resetNRise_high h b⟩, fun w hen hr hp hc => ⟨fun k hown => ⟨rstUnitPs_resets hen hr hp hc hown, rstUnitPs_busy hen hr hp hc hown⟩,
    fun c => rstUnitCb_resets hen hr hp hc, fun v => rstUnitVs_resets hen hr hp hc, fun c => rstUnitAc_resets hen hr hp hc⟩,
    fun c n => ⟨rstUnitTimeout_runs, rstUnitTimeout_done⟩, ⟨s, rfl, rfl⟩, porterWatchdogExpired_reports s⟩
  obtain rfl | rfl : i = .powerOn ∨ i = .lossOfPower := by simpa using hi
  · exact volatileLost_leaves rfl
  · exact volatileLost_leaves rfl

end Sys2Proof.Machine
end

section
/-! SUPPORT. O57: a record that is due before phase E is begun before BOOT, and changes the command it belongs to (R330, R371). -/

namespace Sys2Proof.Machine

/-- The device goes on behind this instruction with the command table it had. -/
def State.keepsCmds (s : State) (i : Instr) : Bool :=
  match exec i s with
  | .next t => decide (t.cmds = s.cmds)
  | _ => false

theorem State.keepsCmds_of_gives {s : State} {i : Instr} (h : Gives i s (fun t => t.cmds = s.cmds)) : s.keepsCmds i = true := by
  obtain ⟨t, hexec, hcmds⟩ := h
  unfold State.keepsCmds
  rw [hexec]
  exact decide_eq_true hcmds

/-- A command that waits for its ACCEPTED record. -/
def waitingCmd : Cmd :=
  ⟨0, 0, 0, 0, 0#16, 0x10, 0x10#64, [], false, false, none, none, false, false, false, .queued, false, false, true⟩

/-- An unsealed device in phase D, with its sensors read and nothing open in the Journal: what phase E asks for. The ACCEPTED record
of one command is due already. -/
def dueBeforeBoot : State :=
  { State.reset.p RST_STATUS_PHASE 3 with
    cmds := [waitingCmd], jnl := { Jnl.zero with due := [⟨.accepted, some 0, [1#8], []⟩] }, thm := { Thm.zero with seen := 255 },
    pwr := { PwrSt.zero with resetN := true, waitRise := false, gatedAll := false } }

theorem dueBeforeBoot_alone : dueBeforeBoot.alone := by
  unfold State.alone
  decide

/-- It satisfies what the clause of STARTUP_PORTS asks for, and is in canonical form. -/
theorem dueBeforeBoot_starts : dueBeforeBoot.inPhase 3 = true ∧ dueBeforeBoot.sensorsRead = true ∧ dueBeforeBoot.cal.run = none ∧
    (∀ d, d < 4 → dueBeforeBoot.g (DRC_STATUS_STATE d) ≠ 1) ∧ dueBeforeBoot.plan.twinMode = 0 ∧ dueBeforeBoot.pwr.scanOpen = [] ∧
    dueBeforeBoot.ra = none ∧ dueBeforeBoot.ticks = true ∧ dueBeforeBoot.canonical = true := by
  decide

/-- STARTUP_PORTS frees the writer, which begins the oldest record due: the command takes its JSEQ. -/
theorem dueBeforeBoot_changes : dueBeforeBoot.keepsCmds .startupPorts = false := by
  decide +kernel

/-- Refutes O57: its clause of phase E keeps the command table of every device that may enter the phase, also of `dueBeforeBoot`, where
an ACCEPTED record is due: the writer that STARTUP_PORTS frees begins that record ahead of BOOT, and the command takes its JSEQ. (Phase D
leaves no record due, as STARTUP_RESTORE empties the writer; the clause does not ask for that.) -/
theorem not_startUpRuns : ¬ Obligations.StartUpRuns := by
  unfold Obligations.StartUpRuns
  intro h
  obtain ⟨-, -, -, -, -, -, -, -, -, hports, -⟩ := h dueBeforeBoot dueBeforeBoot_alone
  obtain ⟨hphase, hread, hcal, hdrc, hmode, hopen, hra, hticks, -⟩ := dueBeforeBoot_starts
  obtain ⟨t, hexec, -, -, -, -, -, -, -, hcmds⟩ := hports hphase hread hcal hdrc hmode hopen hra hticks
  have hkept := State.keepsCmds_of_gives ⟨t, hexec, hcmds⟩
  rw [dueBeforeBoot_changes] at hkept
  exact Bool.false_ne_true hkept

end Sys2Proof.Machine
end

section
/-! SUPPORT. What a host's store to a register or to the control-store window leaves (R52, R70, R71, R364): outside a pair nothing is
mirrored, so the write itself is all that happens. -/

namespace Sys2Proof.Machine

/-! ### Stores outside a pair -/

theorem State.masterWard_of_enable {s : State} {w : Fin 4} (h : (s.ward w.val).enable = true) :
    s.masterWard (.ward w) = some w.val := by
  simp [State.masterWard, h]

/-! ### An address of a register (R52, R364)

The address is a variable here: the register map would otherwise be evaluated at it. -/

theorem State.touch_of_regDom_some {s : State} {a d : Nat} (h : regDom a = some d) : s.touch a = s.demand d := by
  simp only [State.touch, h]

section
variable {s : State} {w : Fin 4} {a : Nat} {d : RegDesc} {ix : List Nat} (hc : csWindow a = none) (hr : regAt a = some (d, ix))
include hr

theorem State.writeBack_of_regAt : s.writeBack a = s.liveReg 0 d ix a &&&
    BitVec.ofNat 64 (fldMask (d.flds.filter (fun f => decide (f.acc = .rw) || decide (f.acc = .rwp)))) := by
  simp only [State.writeBack, hr]

include hc

theorem regDom_of_ward (hown : d.own = .ward) (hblock : blockOf a = 1) : regDom a = none := by
  simp only [regDom, hc, hr, hown, hblock]

theorem regDom_of_cb (hown : d.own = .cb) (hblock : blockOf a = 5) : regDom a = some (cbDom (ix.headD 0)) := by
  simp only [regDom, hc, hr, hown, hblock]

theorem State.regWrite_of_regAt (own : Nat → Bool) (v : Word) : s.regWrite own a v = (s.touch a).descWrite d ix own a v := by
  simp only [State.regWrite, hc, hr]

/-- The status of a Ward's access to a register: whether it may. -/
theorem State.regCheck_of_regAt (hen : (s.ward w.val).enable = true) (hal : a % 8 = 0) (hlt : a < 0x10000000) (write : Bool) :
    s.regCheck (.ward w) write a =
      if (if write then s.mayWrite w.val d ix else s.mayRead w.val d ix) = true then 0 else 3 := by
  have hin : ¬ 0x10000000 ≤ a := by omega
  simp [State.regCheck, State.masterWard_of_enable hen, hc, hr, hal, hin, isPorter]

/-- The Ward of the unit writes its register. -/
theorem State.regCheck_of_unitWard (hen : (s.ward w.val).enable = true) (hal : a % 8 = 0) (hlt : a < 0x10000000)
    (hown : s.unitWard d ix = some (some w.val)) : s.regCheck (.ward w) true a = 0 := by
  rw [State.regCheck_of_regAt hc hr hen hal hlt]
  simp [State.mayWrite, hown]

end

/-! ### The control-store window (R70) -/

theorem csAddr_lt (k : Fin 32) (word : Fin 8192) {q : Nat} (hq : q < 4) : csAddr k.val word.val q < 0x10000000 := by
  unfold csAddr
  omega

theorem csAddr_aligned (k word q : Nat) : csAddr k word q % 8 = 0 := by
  unfold csAddr
  omega

theorem csWindow_csAddr (k : Fin 32) (word : Fin 8192) {q : Nat} (hq : q < 4) :
    csWindow (csAddr k.val word.val q) = some (k.val, word.val, q) := by
  have hk := k.isLt
  have hword := word.isLt
  unfold csWindow csAddr
  dsimp only
  rw [if_pos (by omega)]
  simp only [Option.some.injEq, Prod.mk.injEq]
  omega

section
variable {s : State} {a k word q : Nat} (h : csWindow a = some (k, word, q))
include h

theorem State.touch_of_csWindow : s.touch a = s.demand (psDom k) := by
  simp only [State.touch, regDom, h]

/-- The Ward of the sequencer writes every word that is not the vendor's (R68). -/
theorem State.regCheck_of_csWindow {w : Fin 4} (hlt : a < 0x10000000) (hal : a % 8 = 0) (hen : (s.ward w.val).enable = true)
    (hown : s.seqWard k = some w.val) (hvendor : 0x800 ≤ word) : s.regCheck (.ward w) true a = 0 := by
  have hin : ¬ 0x10000000 ≤ a := by omega
  have hnot : ¬ word < 0x800 := by omega
  simp [State.regCheck, State.masterWard_of_enable hen, h, hal, hin, hnot, hown, isPorter]

theorem State.regWrite_of_csWindow (own : Nat → Bool) (v : Word) : s.regWrite own a v = (s.demand (psDom k)).csWrite k word q v := by
  simp only [State.regWrite, h, State.touch_of_csWindow h]

end

theorem State.demand_eq (s : State) (d : Nat) : ∃ l, s.demand d = { s with pwr := { s.pwr with demand := l } } := by
  unfold State.demand
  split
  · exact ⟨_, rfl⟩
  · exact ⟨_, rfl⟩

@[simp] theorem State.demand_regs (s : State) (d : Nat) : (s.demand d).regs = s.regs := by
  obtain ⟨l, h⟩ := s.demand_eq d
  rw [h]

@[simp] theorem State.demand_twin (s : State) (d : Nat) : (s.demand d).twin = s.twin := by
  obtain ⟨l, h⟩ := s.demand_eq d
  rw [h]

@[simp] theorem State.demand_seqs (s : State) (d : Nat) : (s.demand d).seqs = s.seqs := by
  obtain ⟨l, h⟩ := s.demand_eq d
  rw [h]

@[simp] theorem State.seq_demand (s : State) (d k : Nat) : (s.demand d).seq k = s.seq k := State.seq_congr (s.demand_seqs d) k

/-- A write of the window leaves registers and the twin as they were. -/
theorem State.csWrite_kept (s : State) (k word q : Nat) (v : Word) :
    (s.csWrite k word q v).1.regs = s.regs ∧ (s.csWrite k word q v).1.twin = s.twin := by
  have hdirty (t : State) : (t.markDirty k).regs = t.regs ∧ (t.markDirty k).twin = t.twin := by
    unfold State.markDirty
    split <;> simp
  unfold State.csWrite
  split
  · simp
  · simp
  · split
    · exact ⟨rfl, rfl⟩
    · simp [hdirty]
  · exact ⟨rfl, rfl⟩

/-- A write of the window by the sequencer's Ward, outside a pair. -/
theorem State.writeBy_of_csWindow {s : State} {w : Fin 4} {a k word q : Nat} (h : csWindow a = some (k, word, q)) (hlt : a < 0x10000000)
    (hal : a % 8 = 0) (v : Word) (hen : (s.ward w.val).enable = true) (hown : s.seqWard k = some w.val) (hvendor : 0x800 ≤ word)
    (hpair : s.paired = false) (hcopy : s.twin.copying = false) :
    s.writeBy (.ward w) a v = ((s.demand (psDom k)).csWrite k word q v).1 := by
  obtain ⟨hregs, htwin⟩ := (s.demand (psDom k)).csWrite_kept k word q v
  have hstore : (s.storeReg (.ward w) a v).1 = (s.regWrite (s.ownBit w.val a) a v).1 := by
    refine State.storeReg_alone (State.masterWard_of_enable hen) ?_ ?_ <;> rw [State.regWrite_of_csWindow h]
    · rw [State.paired_congr hregs, State.paired_congr (s.demand_regs _), hpair]
    · rw [htwin, State.demand_twin, hcopy]
  simp only [State.writeBy, State.regCheck_of_csWindow h hlt hal hen hown hvendor, if_true, hstore, State.regWrite_of_csWindow h]

/-! ### Qword 2 -/

/-- The microword of both latches and the low 32 bits of qword 2. -/
theorem micro_of_latches (v l0 l1 : Word) :
    BitVec.ofNat 160 (l0.toNat + 2 ^ 64 * l1.toNat + 2 ^ 128 * (v.toNat % 2 ^ 32)) = v.extractLsb' 0 32 ++ l1 ++ l0 := by
  apply BitVec.eq_of_toNat_eq
  have h0 := l0.isLt
  have h1 := l1.isLt
  simp only [BitVec.toNat_ofNat, BitVec.toNat_append, BitVec.extractLsb'_toNat, Nat.shiftRight_zero]
  rw [← Nat.shiftLeft_add_eq_or_of_lt h1, ← Nat.shiftLeft_add_eq_or_of_lt h0, Nat.shiftLeft_eq, Nat.shiftLeft_eq]
  omega

/-- The sequencer with word `word` of its control store written from its latches and `v`, under the code of R395. -/
def Seq.wordStored (x : Seq) (word : Nat) (v : Word) : Seq :=
  { x with cs := tabSet (csDefault word) x.cs word (csEncode (v.extractLsb' 0 32 ++ x.latch1 ++ x.latch0)) }

theorem State.csWrite_store {s : State} {k : Nat} (hk : k < 32) (word : Nat) (v : Word) (hidle : (s.seq k).st = .idle) :
    s.csWrite k word 2 v = (s.modSeq k (fun x => x.wordStored word v), 0) := by
  have hopen : s.csOpen k = true := by simp [State.csOpen, hidle]
  have hst : ((s.modSeq k (fun x => x.wordStored word v)).seq k).st ≠ .paused := by
    rw [State.seq_modSeq_self _ _ _ hk]
    show (s.seq k).st ≠ .paused
    rw [hidle]
    decide
  simp only [State.csWrite, hopen, Bool.not_true, Bool.false_eq_true, if_false, micro_of_latches]
  show ((s.modSeq k (fun x => x.wordStored word v)).markDirty k, 0) = _
  rw [State.markDirty, if_neg hst]

theorem State.csWord_wordStored (s : State) {k : Nat} (hk : k < 32) (word : Nat) (v : Word) :
    (s.modSeq k (fun x => x.wordStored word v)).csWord k word =
      csEncode (v.extractLsb' 0 32 ++ (s.seq k).latch1 ++ (s.seq k).latch0) := by
  rw [State.csWord, State.seq_modSeq_self _ _ _ hk]
  exact tabGet_tabSet_self _ _ _ _

theorem State.csWord_wordStored_ne (s : State) {k : Nat} (hk : k < 32) {word n : Nat} (v : Word) (h : n ≠ word) :
    (s.modSeq k (fun x => x.wordStored word v)).csWord k n = s.csWord k n := by
  rw [State.csWord, State.seq_modSeq_self _ _ _ hk]
  exact tabGet_tabSet_ne _ _ _ _ h

/-- Settles O10. A write of the window is its effect on the sequencer's latches or store, behind the demand for its clock. -/
theorem controlStoreWrites : Obligations.ControlStoreWrites := by
  unfold Obligations.ControlStoreWrites
  intro s w k word v hen hown hvendor hpair hcopy
  have hwrite {q : Nat} (hq : q < 4) :=
    State.writeBy_of_csWindow (csWindow_csAddr k word hq) (csAddr_lt k word hq) (csAddr_aligned _ _ _) v hen hown hvendor hpair hcopy
  refine ⟨⟨⟨_, congrArg Host.Outcome.next (hwrite (q := 0) (by decide)), rfl⟩,
    ⟨_, congrArg Host.Outcome.next (hwrite (q := 1) (by decide)), rfl⟩, fun hidle => ?_⟩, fun hbeat => ?_⟩
  · have hst := State.csWrite_store k.isLt word.val v (((s.seq_demand _ _).symm ▸ hidle : ((s.demand (psDom k.val)).seq k.val).st = .idle))
    refine ⟨_, congrArg Host.Outcome.next ((hwrite (by decide)).trans (congrArg Prod.fst hst)), ?_, fun n hn => ?_, ?_⟩
    · rw [State.csWord_wordStored _ k.isLt, State.seq_demand]
    · rw [State.csWord_wordStored_ne _ k.isLt v hn, State.csWord, State.csWord, State.seq_demand]
    · rw [State.seq_modSeq_self _ _ _ k.isLt]
      unfold State.modSeq
      simp [modv, Seq.wordStored, State.seq]
  · have hshut : (s.demand (psDom k.val)).csWrite k.val word.val 2 v = (s.demand (psDom k.val), 6) := by
      simp [State.csWrite, State.csOpen, hbeat]
    exact ⟨_, congrArg Host.Outcome.next ((hwrite (by decide)).trans (congrArg Prod.fst hshut)), rfl⟩

end Sys2Proof.Machine
end

section
/-! SUPPORT. WRD_QCTL.FLUSH (R56): the register keeps its value, and every entry that has not started is abandoned, one after the other. -/

namespace Sys2Proof.Machine

/-! ### The command table under the Journal writer -/

/-- The command without its JSEQ, which the writer gives it when its ACCEPTED record is begun. -/
def Cmd.unnumbered (c : Cmd) : Cmd := { c with jseq := none }

theorem Cmd.eq_of_unnumbered {c x : Cmd} (h : x.unnumbered = c.unnumbered) : x = { c with jseq := x.jseq } :=
  congrArg (fun y : Cmd => { y with jseq := x.jseq }) h

theorem Cmd.id_of_unnumbered {c x : Cmd} (h : x.unnumbered = c.unnumbered) : x.id = c.id := by rw [Cmd.eq_of_unnumbered h]

theorem Cmd.st_of_unnumbered {c x : Cmd} (h : x.unnumbered = c.unnumbered) : x.st = c.st := by rw [Cmd.eq_of_unnumbered h]

theorem map_updFirst_of_eq {α β : Type} (g : α → β) (p : α → Bool) {f : α → α} (hf : ∀ x, g (f x) = g x) (l : List α) :
    (updFirst p f l).map g = l.map g := by
  induction l with
  | nil => rfl
  | cons x t ih =>
    unfold updFirst
    split
    · simp [hf]
    · simp [ih]

theorem LinkMoved.cmds {s t : State} (h : LinkMoved s t) : t.cmds = s.cmds := by rw [h.1]

theorem State.beginRecord_cmds_any (s : State) (d : Option DueRec) (c : Option Nat) (b : List Byte) :
    (s.beginRecord d c b).cmds = s.cmds := by
  show (if (s.slotFilled d c b).paired then
    (s.slotFilled d c b).reply 4 0x51 0 0#16 (b2n ((s.slotFilled d c b).ofPeer c)) b else s.slotFilled d c b).cmds = _
  split
  · exact (LinkMoved.reply _ _ _ _ _ _ _).cmds
  · rfl

/-- In any role the writer changes no command but for the JSEQ it gives. -/
theorem State.pumpJournal_cmds (s : State) : s.pumpJournal.cmds.map Cmd.unnumbered = s.cmds.map Cmd.unnumbered := by
  unfold State.pumpJournal State.forwardRecord
  split
  · rfl
  · split
    · split
      · exact congrArg (List.map Cmd.unnumbered) (LinkMoved.reply _ _ _ _ _ _ _).cmds
      · rfl
    · dsimp only
      split
      · rfl
      · split
        · rw [State.beginRecord_cmds_any]
        · rw [State.beginRecord_cmds_any]
          split
          · exact map_updFirst_of_eq Cmd.unnumbered _ (f := fun c => { c with jseq := some s.jnl.next }) (fun _ => rfl) _
          · rfl

theorem State.record_cmds (s : State) (k : RecKind) (c : Option Nat) (b d : List Byte) :
    (s.record k c b d).cmds.map Cmd.unnumbered = s.cmds.map Cmd.unnumbered := State.pumpJournal_cmds _

/-! ### Commands that are abandoned one after the other -/

/-- The commands of `l` are abandoned with a reason, in order. -/
def State.abandonEach (s : State) (l : List Nat) (r : Nat) : State := forEach l s (fun id s => s.abandon id r)

theorem State.abandonEach_cons (s : State) (x : Nat) (l : List Nat) (r : Nat) :
    s.abandonEach (x :: l) r = (s.abandon x r).abandonEach l r := rfl

theorem OnlyJournal.abandonEach {s : State} (h : s.alone) (l : List Nat) (r : Nat) : OnlyJournal s (s.abandonEach l r) := by
  induction l generalizing s with
  | nil => rfl
  | cons x l ih =>
    have hx := OnlyJournal.abandon s x r h
    exact hx.trans (ih (hx.alone h))

theorem State.holdsDue_abandon {s : State} (hp : s.alone) {k : RecKind} {id : Nat} {f : List Byte → Prop} (h : s.holdsDue k id f)
    (x r : Nat) : (s.abandon x r).holdsDue k id f := by
  unfold State.abandon
  split
  · exact State.holdsDue_record (s := s.modCmd x (fun c => { c with st := .ending })) ((OnlyJournal.modCmd s _ _).alone hp)
      (State.holdsDue_congr (s := s) rfl h) _ _ _ _
  · exact h

theorem State.holdsDue_abandonEach {s : State} (hp : s.alone) {k : RecKind} {id : Nat} {f : List Byte → Prop} (h : s.holdsDue k id f)
    (l : List Nat) (r : Nat) : (s.abandonEach l r).holdsDue k id f := by
  induction l generalizing s with
  | nil => exact h
  | cons x l ih => exact ih ((OnlyJournal.abandon s x r hp).alone hp) (State.holdsDue_abandon hp h x r)

theorem mem_updFirst_of_not {α : Type} {p : α → Bool} {f : α → α} {l : List α} {c : α} (hc : c ∈ l) (h : p c = false) :
    c ∈ updFirst p f l := by
  induction l with
  | nil => exact hc
  | cons x t ih =>
    unfold updFirst
    rcases List.mem_cons.1 hc with rfl | hm
    · rw [if_neg (by simp [h])]
      exact List.mem_cons_self
    · split
      · exact List.mem_cons_of_mem _ hm
      · exact List.mem_cons_of_mem _ (ih hm)

/-- A command of another name stays as it is, but for its JSEQ. -/
theorem State.abandon_keeps {s : State} {c : Cmd} (hc : c.unnumbered ∈ s.cmds.map Cmd.unnumbered) {x : Nat} (h : c.id ≠ x) (r : Nat) :
    c.unnumbered ∈ (s.abandon x r).cmds.map Cmd.unnumbered := by
  unfold State.abandon
  split
  · rw [State.record_cmds]
    obtain ⟨y, hy, hyc⟩ := List.mem_map.1 hc
    have hid : y.id = c.id := Cmd.id_of_unnumbered hyc
    have hkept : y ∈ updFirst (fun z => decide (z.id = x)) (fun z : Cmd => { z with st := .ending }) s.cmds :=
      mem_updFirst_of_not hy (by simp [hid, h])
    exact List.mem_map.2 ⟨y, hkept, hyc⟩
  · exact hc

theorem State.abandonEach_keeps {s : State} {c : Cmd} (hc : c.unnumbered ∈ s.cmds.map Cmd.unnumbered) {l : List Nat} (h : c.id ∉ l)
    (r : Nat) : c.unnumbered ∈ (s.abandonEach l r).cmds.map Cmd.unnumbered := by
  induction l generalizing s with
  | nil => exact hc
  | cons x l ih =>
    obtain ⟨hx, hl⟩ := List.ne_and_not_mem_of_not_mem_cons h
    exact ih (State.abandon_keeps hc hx r) hl

/-- A command that ends leaves those of other names open. -/
theorem State.cmdOpen_abandon_ne {s : State} {id x : Nat} (h : s.cmdOpen id = true) (hne : id ≠ x) (r : Nat) :
    (s.abandon x r).cmdOpen id = true := by
  obtain ⟨c, hc, hkey⟩ := List.any_eq_true.1 h
  simp only [Bool.and_eq_true, decide_eq_true_eq] at hkey
  obtain ⟨hid, hst⟩ := hkey
  obtain ⟨y, hy, hyc⟩ := List.mem_map.1 (State.abandon_keeps (List.mem_map_of_mem hc) (hid ▸ hne) r)
  have hyid : y.id = c.id := Cmd.id_of_unnumbered hyc
  have hyst : y.st = c.st := Cmd.st_of_unnumbered hyc
  exact List.any_eq_true.2 ⟨y, hy, by simp [hyid, hyst, hid, hst]⟩

theorem State.abandons_abandonEach {s : State} (hp : s.alone) {id : Nat} {l : List Nat} (hl : id ∈ l) (ho : s.cmdOpen id = true) (r : Nat) :
    (s.abandonEach l r).abandons id r := by
  induction l generalizing s with
  | nil => cases hl
  | cons x l ih =>
    have hp' := (OnlyJournal.abandon s x r hp).alone hp
    rw [State.abandonEach_cons]
    by_cases hx : id = x
    · subst hx
      exact State.holdsDue_abandonEach hp' (State.abandons_abandon hp ho r) l r
    · exact ih hp' ((List.mem_cons.1 hl).resolve_left hx) (State.cmdOpen_abandon_ne ho hx r)

/-! ### The entries of a queue that have not started -/

/-- The entry stands in queue `q` of Ward `w` and has not started (R56). -/
def Cmd.waitsIn (c : Cmd) (w q : Nat) : Bool := decide (c.ward.val = w) && decide (c.queue.val = q) && c.waits

theorem Cmd.waitsIn_iff {c : Cmd} {w : Fin 4} {q : Fin 8} : c.waitsIn w.val q.val = true ↔ c.ward = w ∧ c.queue = q ∧ c.waits = true := by
  simp [Cmd.waitsIn, Fin.ext_iff, and_assoc]

/-- The names of the entries that FLUSH abandons. -/
def State.flushIds (s : State) (w q : Nat) : List Nat := (s.cmds.filter (fun c => c.waitsIn w q)).map (·.id)

theorem State.flush_eq (s : State) (w q : Nat) : s.flush w q = s.abandonEach (s.flushIds w q) 3 := rfl

theorem State.cmdOpen_of_waits {s : State} {c : Cmd} (hc : c ∈ s.cmds) (h : c.waits = true) : s.cmdOpen c.id = true := by
  refine List.any_eq_true.2 ⟨c, hc, ?_⟩
  have hst : c.st ≠ .ending := fun e => by simp [Cmd.waits, e] at h
  simp [hst]

theorem eq_of_countP_eq_one {α : Type} {p : α → Bool} {l : List α} (h : l.countP p = 1) {a b : α} (ha : a ∈ l) (hb : b ∈ l)
    (hpa : p a = true) (hpb : p b = true) : a = b := by
  rw [List.countP_eq_length_filter] at h
  obtain ⟨x, hx⟩ := List.length_eq_one_iff.1 h
  have hmem {y : α} (hy : y ∈ l) (hpy : p y = true) : y = x := by
    have : y ∈ l.filter p := List.mem_filter.2 ⟨hy, hpy⟩
    rwa [hx, List.mem_singleton] at this
  rw [hmem ha hpa, hmem hb hpb]

/-- A command whose name no other has is not among the names of the entries that wait, unless it waits itself. -/
theorem State.not_mem_flushIds {s : State} {w q : Nat} {c : Cmd} (hc : c ∈ s.cmds)
    (hone : s.cmds.countP (fun x => decide (x.id = c.id)) = 1) (h : c.waitsIn w q = false) : c.id ∉ s.flushIds w q := by
  intro hm
  obtain ⟨x, hx, hid⟩ := List.mem_map.1 hm
  obtain ⟨hx, hxw⟩ := List.mem_filter.1 hx
  have hxc : x = c := eq_of_countP_eq_one hone hx hc (by simpa using hid) (by simp)
  rw [hxc, h] at hxw
  cases hxw

/-! ### The register write -/

/-- WRD_QCTL as the register table gives it. -/
def qctlDesc : RegDesc := ⟨.WRD_QCTL, 0x01100200, [(4, 0x10000), (8, 0x8)], .ward, [fld 0 0 .rw 0, fld 1 1 .wo 0]⟩

theorem regAt_qctl : ∀ (w : Fin 4) (q : Fin 8), regAt (WRD_QCTL w.val q.val) = some (qctlDesc, [w.val, q.val]) := by decide

section
variable (w : Fin 4) (q : Fin 8)

theorem csWindow_qctl : csWindow (WRD_QCTL w.val q.val) = none := by
  unfold csWindow WRD_QCTL
  dsimp only
  rw [if_neg (by omega)]

theorem State.touch_qctl (s : State) : s.touch (WRD_QCTL w.val q.val) = s := by
  have hblock : ∀ (w : Fin 4) (q : Fin 8), blockOf (WRD_QCTL w.val q.val) = 1 := by decide
  exact State.touch_of_regDom (regDom_of_ward (csWindow_qctl w q) (regAt_qctl w q) rfl (hblock w q)) s

/-- The Ward of the queue writes its register. -/
theorem State.regCheck_qctl {s : State} (hen : (s.ward w.val).enable = true) :
    s.regCheck (.ward w) true (WRD_QCTL w.val q.val) = 0 := by
  refine State.regCheck_of_unitWard (csWindow_qctl w q) (regAt_qctl w q) hen ?_ ?_ ?_
  · unfold WRD_QCTL; omega
  · unfold WRD_QCTL; omega
  · exact congrArg some (if_pos hen)

/-- What software writes for FLUSH: bit 1, and HALT as it stands. -/
def State.flushWord (s : State) (a : Nat) : Word := setBits (s.rd a &&& 1#64) 1 1 1

theorem State.writeBack_qctl (s : State) : s.writeBack (WRD_QCTL w.val q.val) = s.rd (WRD_QCTL w.val q.val) &&& 1#64 := by
  have hmask : BitVec.ofNat 64 (fldMask (qctlDesc.flds.filter (fun f => decide (f.acc = .rw) || decide (f.acc = .rwp)))) = 1#64 := by decide
  rw [State.writeBack_of_regAt (regAt_qctl w q), hmask]
  rfl

theorem State.flushWord_halt (s : State) (a : Nat) : getBits (s.flushWord a) 0 0 = getBits (s.rd a) 0 0 := by
  rw [State.flushWord, getBits_setBits_ne _ _ _ _ _ _ (by decide) (by decide) (by decide) (by decide)]
  simp [getBits, nbits]

theorem State.flushWord_flush (s : State) (a : Nat) : nbit (s.flushWord a).toNat 1 = true := by
  rw [nbit, State.flushWord, setBits_testBit _ _ _ _ _ (by decide) (by decide) (by decide)]
  rfl

/-- HALT is written as it stands and FLUSH is not stored, so the register keeps its value. -/
theorem State.fieldsWrite_qctl (s : State) (ix : List Nat) (a : Nat) :
    (s.fieldsWrite qctlDesc ix (fun _ => true) (s.rd a) (s.flushWord a)).1 = s.rd a := by
  have hhalt : (s.fieldWrite qctlDesc ix (fun _ => true) (s.rd a) (s.flushWord a) (fld 0 0 .rw 0)).1 = getBits (s.rd a) 0 0 := by
    rw [State.fieldWrite_rw _ _ _ _ _ _ rfl]
    show (if _ then getBits (s.flushWord a) 0 0 else getBits (s.rd a) 0 0) = _
    rw [s.flushWord_halt, ite_self]
  have hflush : (s.fieldWrite qctlDesc ix (fun _ => true) (s.rd a) (s.flushWord a) (fld 1 1 .wo 0)).1 = getBits (s.rd a) 1 1 := rfl
  show setBits (setBits (s.rd a) 0 0 _) 1 1 _ = _
  rw [hhalt, hflush, setBits_getBits _ (by decide) (by decide), setBits_getBits _ (by decide) (by decide)]

/-- The write keeps the register's value and flushes the queue. -/
theorem State.descWrite_qctl (s : State) (a : Nat) :
    (s.descWrite qctlDesc [w.val, q.val] (fun _ => true) a (s.flushWord a)).1 = (s.wr a (s.rd a)).flush w.val q.val := by
  have hkeep (x y : Word) : (x &&& ~~~0#64) ||| (y &&& 0#64) = x := by
    rw [BitVec.not_zero, BitVec.and_allOnes, BitVec.and_zero, BitVec.or_zero]
  have hbusy : s.writeBusy qctlDesc [w.val, q.val] (s.flushWord a) = false := rfl
  have hvoid : writeVoid qctlDesc (s.flushWord a) = false := rfl
  have heff : effectOnly qctlDesc.name = false := rfl
  have hmask : effectMask qctlDesc.name = 0#64 := rfl
  simp only [State.descWrite, hbusy, hvoid, heff, hmask, Bool.false_eq_true, if_false, hkeep, s.fieldsWrite_qctl]
  simp [State.writeEffect, qctlDesc, s.flushWord_flush]

end

/-- A write of FLUSH by the Ward of the queue, outside a pair, where no clock is asked for. -/
theorem State.writeBy_flush {s : State} {w : Fin 4} {q : Fin 8} {a : Nat} (hc : csWindow a = none)
    (hr : regAt a = some (qctlDesc, [w.val, q.val]))
    (htouch : s.touch a = s) (hk : s.regCheck (.ward w) true a = 0) (hen : (s.ward w.val).enable = true) (halone : s.alone)
    (hcopy : s.twin.copying = false) : s.writeBy (.ward w) a (s.flushWord a) = (s.wr a (s.rd a)).flush w.val q.val := by
  have hown : s.ownBit w.val a = fun _ => true := State.ownBit_whole hr rfl w.val
  have hwrite : (s.regWrite (s.ownBit w.val a) a (s.flushWord a)).1 = (s.wr a (s.rd a)).flush w.val q.val := by
    rw [hown, State.regWrite_of_regAt hc hr, htouch, s.descWrite_qctl w q]
  have hg (f : FRef) : (s.wr a (s.rd a)).g f = s.g f := by
    unfold State.g
    rw [State.rd_wr_rd]
  have halone' : (s.wr a (s.rd a)).alone := State.alone_of_g halone (hg _) (hg _)
  have hflush : OnlyJournal (s.wr a (s.rd a)) ((s.wr a (s.rd a)).flush w.val q.val) := OnlyJournal.abandonEach halone' _ 3
  have hstore := State.storeReg_alone (State.masterWard_of_enable hen) (v := s.flushWord a) (a := a)
    (by rw [hwrite]; exact (hflush.alone halone').1) (by rw [hwrite, hflush]; exact hcopy)
  simp only [State.writeBy, hk, if_true, hstore, hwrite]

/-- WRD_QCTL.FLUSH by the Ward of the queue, outside a pair. -/
theorem exec_wrdQctlFlush {s : State} {w : Fin 4} (q : Fin 8) (hen : (s.ward w.val).enable = true) (halone : s.alone)
    (hcopy : s.twin.copying = false) : exec (.wrdQctlFlush (.ward w) w q) s =
      .next ((s.wr (WRD_QCTL w.val q.val) (s.rd (WRD_QCTL w.val q.val))).flush w.val q.val) := by
  have hwrite := State.writeBy_flush (csWindow_qctl w q) (regAt_qctl w q) (s.touch_qctl w q) (State.regCheck_qctl w q hen) hen halone hcopy
  have hback : s.flushWord (WRD_QCTL w.val q.val) = setBits (s.writeBack (WRD_QCTL w.val q.val)) 1 1 1 := by
    rw [s.writeBack_qctl]; rfl
  rw [hback] at hwrite
  exact congrArg Host.Outcome.next hwrite

/-- Settles O9. The names of the entries that wait are taken first; each is then abandoned, which leaves the commands of other names alone. -/
theorem flushAbandonsTheQueue : Obligations.FlushAbandonsTheQueue := by
  unfold Obligations.FlushAbandonsTheQueue
  intro s w q hen halone hcopy
  have he := exec_wrdQctlFlush q hen halone hcopy
  have hrd (b : Nat) := s.rd_wr_rd (WRD_QCTL w.val q.val) b
  have hcmds : (s.wr (WRD_QCTL w.val q.val) (s.rd (WRD_QCTL w.val q.val))).cmds = s.cmds := rfl
  have hframe : OnlyJournal { s with regs := (s.wr (WRD_QCTL w.val q.val) (s.rd (WRD_QCTL w.val q.val))).regs }
      (s.wr (WRD_QCTL w.val q.val) (s.rd (WRD_QCTL w.val q.val))) := rfl
  generalize s.wr (WRD_QCTL w.val q.val) (s.rd (WRD_QCTL w.val q.val)) = u at he hrd hcmds hframe
  have hg (f : FRef) : u.g f = s.g f := by unfold State.g; rw [hrd]
  have hu : u.alone := State.alone_of_g halone (hg _) (hg _)
  have hflush := OnlyJournal.abandonEach hu (u.flushIds w.val q.val) 3
  rw [State.flush_eq] at he
  rw [← hcmds]
  refine ⟨_, he, fun c hc hw hq hwait _ => ?_, fun c hc hnot hone => ?_, fun a _ => ?_, ?_⟩
  · have hin : c.id ∈ u.flushIds w.val q.val :=
      List.mem_map_of_mem (List.mem_filter.2 ⟨hc, Cmd.waitsIn_iff.2 ⟨hw, hq, hwait⟩⟩)
    exact State.abandons_abandonEach hu hin (State.cmdOpen_of_waits hc hwait) 3
  · have hout : c.id ∉ u.flushIds w.val q.val :=
      State.not_mem_flushIds hc hone (Bool.eq_false_iff.2 fun h => hnot (Cmd.waitsIn_iff.1 h))
    obtain ⟨x, hx, hxc⟩ := List.mem_map.1 (State.abandonEach_keeps (List.mem_map_of_mem hc) hout 3)
    exact ⟨x, hx, Cmd.eq_of_unnumbered hxc⟩
  · rw [State.rd_congr hflush.regs, hrd]
  · rw [hflush.regs]
    exact hframe.trans hflush

end Sys2Proof.Machine
end

section
/-! SUPPORT. NOP, REG_SET of one pair, and FCP_WRITE (R54, R57, R61): each runs its effect on the state in which its STARTED record is due. -/

namespace Sys2Proof.Machine

/-! ### What the records of a command leave of other effects -/

theorem OnlyJournal.demand {s u : State} (h : OnlyJournal s u) (d : Nat) : OnlyJournal (s.demand d) (u.demand d) := by
  have hon : u.domOn d = s.domOn d := by rw [h]; rfl
  have hpwr : u.pwr = s.pwr := by rw [h]
  unfold State.demand
  rw [hon, hpwr]
  split
  · exact h
  · unfold OnlyJournal at h ⊢
    rw [h]

theorem OnlyJournal.setRegs {s u : State} (h : OnlyJournal s u) (r : Tab Word) :
    OnlyJournal { s with regs := r } { u with regs := r } := by
  unfold OnlyJournal at h ⊢
  rw [h]

theorem OnlyJournal.setFcp {s u : State} (h : OnlyJournal s u) (x : Vector (Option FcpXfer) 8) (l : List Out) :
    OnlyJournal { s with fcp := x, outs := l } { u with fcp := x, outs := l } := by
  unfold OnlyJournal at h ⊢
  rw [h]

theorem nop_completes {s : State} {w : Fin 4} {q : Fin 8} {c : Cmd} (h : s.takes w q 1 c) :
    ∃ t, exec (.nop w q) s = .next t ∧ t.completes c.id 0 ∧ OnlyJournal s t :=
  ⟨_, congrArg Host.Outcome.next (h.runCmd _), h.completes_finishF rfl rfl h.begun_alone,
    h.begun_onlyJournal.trans (OnlyJournal.finishF _ _ _ h.begun_alone)⟩

/-! ### REG_SET -/

/-- REG_SET of one register that passes the checks stores the value, and its status is that of the store. -/
theorem regSet_word {s : State} {c : Cmd} {a : Nat} {v : Word} (hargs : c.args = toLe 8 a ++ toLe 8 v.toNat) (ha : a < 0x10000000)
    (hal : a % 8 = 0) (hk : s.regCheck (.ward c.ward) true a = 0) : regSet c s =
      ((s.started c).storeReg (.ward c.ward) a v).1.finishF c.id ((s.started c).storeReg (.ward c.ward) a v).2 := by
  have haddr : u c.args 0 8 = a := by
    rw [hargs, u_front]
    omega
  have hword : u c.args 8 8 = v.toNat := by
    have h := u_toLe (toLe 8 a) [] 8 v.toNat
    rwa [List.append_nil, toLe_length, ← hargs, Nat.mod_eq_of_lt (by omega)] at h
  have hlen : c.args.length = 16 := by simp [hargs]
  simp [regSet, hlen, haddr, hword, s.regRunCheck_one true ha hal, hk, firstBadStatus, State.writeMany]

/-- CH_CB_PMIN as the register table gives it. -/
def pminDesc : RegDesc := ⟨.CH_CB_PMIN, 0x05004020, [(32, 0x40000)], .cb, [fld 31 0 .rw 0]⟩

theorem regAt_pmin : ∀ k : Fin 32, regAt (CH_CB_PMIN k.val) = some (pminDesc, [k.val]) := by decide

section
variable (k : Fin 32)

theorem CH_CB_PMIN_lt : CH_CB_PMIN k.val < 0x10000000 := by
  unfold CH_CB_PMIN
  omega

theorem CH_CB_PMIN_aligned : CH_CB_PMIN k.val % 8 = 0 := by
  unfold CH_CB_PMIN
  omega

theorem csWindow_pmin : csWindow (CH_CB_PMIN k.val) = none := by
  unfold csWindow CH_CB_PMIN
  dsimp only
  rw [if_neg (by omega)]

theorem State.touch_pmin (s : State) : s.touch (CH_CB_PMIN k.val) = s.demand (cbDom k.val) := by
  have hblock : ∀ k : Fin 32, blockOf (CH_CB_PMIN k.val) = 5 := by decide
  exact State.touch_of_regDom_some (regDom_of_cb (csWindow_pmin k) (regAt_pmin k) rfl (hblock k))

theorem plainReg_pmin : plainReg pminDesc [k.val] := ⟨rfl, rfl, fun _ _ _ _ _ => rfl⟩

/-- The Ward of the block writes its register. -/
theorem State.regCheck_pmin {s : State} {w : Fin 4} (hen : (s.ward w.val).enable = true) (hown : s.cbWard k.val = some w.val) :
    s.regCheck (.ward w) true (CH_CB_PMIN k.val) = 0 :=
  State.regCheck_of_unitWard (csWindow_pmin k) (regAt_pmin k) hen (CH_CB_PMIN_aligned k) (CH_CB_PMIN_lt k) (congrArg some hown)

theorem State.storedWord_pmin (s : State) (v : Word) :
    getBits (s.storedWord pminDesc [k.val] (CH_CB_PMIN k.val) v) 31 0 = v.toNat % 2 ^ 32 := by
  have hval : getBits v 31 0 = v.toNat % 2 ^ 32 := rfl
  have hfit : s.fieldFits pminDesc (fld 31 0 .rw 0) (getBits v 31 0) = true := by
    have hlt : getBits v 31 0 < 2 ^ 32 := getBits_lt v 31 0
    simp [State.fieldFits, fieldLegal, pminDesc, fld]
    omega
  have hrw := s.getBits_storedWord_rw v (regAt_pmin k) (f := fld 31 0 .rw 0) (by decide) rfl
  exact hrw.trans ((if_pos hfit).trans hval)

theorem State.alone_storeWord {s : State} {d : RegDesc} {ix : List Nat} {a : Nat} (v : Word) (hr : regAt a = some (d, ix))
    (h : s.alone) : (s.storeWord d ix a v).alone :=
  State.alone_of_g h (s.g_storeWord_ro v hr (by decide)) (s.g_storeWord_ro v hr (by decide))

theorem regSet_pmin {s : State} {w : Fin 4} {q : Fin 8} {c : Cmd} {v : Word} (h : s.takes w q 2 c) (hcw : c.ward = w)
    (hargs : c.args = toLe 8 (CH_CB_PMIN k.val) ++ toLe 8 v.toNat) (hen : (s.ward w.val).enable = true)
    (hown : s.cbWard k.val = some w.val) (hcopy : s.twin.copying = false) :
    ∃ t, exec (.regSet w q) s = .next t ∧ t.completes c.id 0 ∧ t.g (CH_CB_PMIN_COUNT k.val) = v.toNat % 2 ^ 32 ∧
      RegsKept [CH_CB_PMIN k.val] s t ∧ OnlyJournal { s.demand (cbDom k.val) with regs := t.regs } t := by
  subst hcw
  have hjnl := h.begun_onlyJournal
  have hcheck : (s.begun c).regCheck (.ward c.ward) true (CH_CB_PMIN k.val) = 0 := by
    rw [hjnl]
    exact State.regCheck_pmin k hen hown
  have hlock : ((s.begun c).fieldsWrite pminDesc [k.val] (fun _ => true) ((s.begun c).rd (CH_CB_PMIN k.val)) v).2 = false :=
    State.fieldsWrite_unlocked _ _ (by decide)
  have hstore : (s.begun c).storeReg (.ward c.ward) (CH_CB_PMIN k.val) v =
      ((s.begun c).storeWord pminDesc [k.val] (CH_CB_PMIN k.val) v, 0) := by
    rw [State.storeReg_plain hcheck (csWindow_pmin k) (regAt_pmin k) rfl rfl (plainReg_pmin k) rfl h.begun_alone.1
      (by rw [hjnl]; exact hcopy), hlock]
    rfl
  have hrun : exec (.regSet c.ward q) s =
      .next (((s.begun c).storeWord pminDesc [k.val] (CH_CB_PMIN k.val) v).finishF c.id 0) := by
    refine congrArg Host.Outcome.next ((h.runCmd regSet).trans ?_)
    have hset := regSet_word (s := s.modCmd c.id (fun c => { c with marked := true })) (c := { c with marked := true }) hargs
      (CH_CB_PMIN_lt k) (CH_CB_PMIN_aligned k) (State.regCheck_pmin k hen hown)
    rw [hset]
    show ((s.begun c).storeReg (.ward c.ward) (CH_CB_PMIN k.val) v).1.finishF c.id
      ((s.begun c).storeReg (.ward c.ward) (CH_CB_PMIN k.val) v).2 = _
    rw [hstore]
  have halone : ((s.begun c).storeWord pminDesc [k.val] (CH_CB_PMIN k.val) v).alone :=
    State.alone_storeWord v (regAt_pmin k) h.begun_alone
  have hfin := OnlyJournal.finishF _ c.id 0 halone
  have hword : (s.begun c).storeWord pminDesc [k.val] (CH_CB_PMIN k.val) v = { (s.begun c).demand (cbDom k.val) with
      regs := ((s.begun c).storeWord pminDesc [k.val] (CH_CB_PMIN k.val) v).regs } := by
    unfold State.storeWord
    rw [State.touch_pmin]
    rfl
  have hsame : ((s.begun c).storeWord pminDesc [k.val] (CH_CB_PMIN k.val) v).jnl = (s.begun c).jnl ∧
      ((s.begun c).storeWord pminDesc [k.val] (CH_CB_PMIN k.val) v).cmds = (s.begun c).cmds := by
    obtain ⟨l, hl⟩ := (s.begun c).demand_eq (cbDom k.val)
    rw [hword, hl]
    exact ⟨rfl, rfl⟩
  refine ⟨_, hrun, h.completes_finishF hsame.1 hsame.2 halone, ?_, fun b hb => ?_, ?_⟩
  · rw [State.g_congr hfin.regs, State.g]
    show getBits (State.rd _ (CH_CB_PMIN k.val)) 31 0 = _
    rw [State.rd_storeWord_self, State.storedWord_pmin]
  · rw [State.rd_congr hfin.regs, State.rd_storeWord_ne _ _ (by simpa using hb), State.rd_congr hjnl.regs]
  · rw [hfin.regs]
    refine OnlyJournal.trans ?_ hfin
    conv_rhs => rw [hword]
    exact (hjnl.demand _).setRegs _

end

/-! ### Front-end transfers (R61) -/

/-- The header of a front-end transfer of `n` bytes on port `p`. -/
theorem fcpPort_head (p : Fin 8) (n : Nat) : fcpPort (p.val + 8 * n) = p.val := by
  simp only [fcpPort, nbits, Nat.shiftRight_zero]
  omega

theorem fcpBytes_head (p : Fin 8) {n : Nat} (hn : n ≤ 256) : fcpBytes (p.val + 8 * n) = n := by
  simp only [fcpBytes, nbits, Nat.shiftRight_eq_div_pow]
  omega

/-- A transfer of 1 to 256 bytes on a port that the Ward may use is refused only while another runs. -/
theorem State.fcpCheck_head {s : State} {w : Fin 4} {p : Fin 8} {n : Nat} (hlo : 1 ≤ n) (hhi : n ≤ 256)
    (harm : s.mayArm w.val 1 p.val = true) : s.fcpCheck w (p.val + 8 * n) = if s.fcp[p] = none then 0 else 6 := by
  have hrsvd : ¬ 4096 ≤ p.val + 8 * n := by omega
  have hpos : n ≠ 0 := by omega
  have hmax : ¬ 256 < n := by omega
  cases hx : s.fcp[p] <;> simp_all [State.fcpCheck, fcpPort_head, fcpBytes_head p hhi]

theorem State.fcpStart_eq (s : State) (p : Fin 8) (n : Nat) (x : FcpXfer) :
    s.fcpStart (p.val + 8 * n) x = { s with fcp := s.fcp.set p (some x), outs := s.outs ++ [.fcp p.val x.mosi] } := by
  unfold State.fcpStart
  simp only [fcpPort_head, p.isLt, dif_pos]
  rfl

/-- A string behind its header of 8 bytes. -/
theorem sub_behind_head (v : Nat) (b : List Byte) : sub (toLe 8 v ++ b) 8 b.length = b := by
  have h := sub_middle (toLe 8 v) b []
  rwa [List.append_nil, toLe_length] at h

theorem fcpWrite_eq {s : State} {c : Cmd} {p : Fin 8} {b : List Byte} (hlo : 1 ≤ b.length) (hhi : b.length ≤ 256)
    (hargs : c.args = toLe 8 (p.val + 8 * b.length) ++ b) (harm : s.mayArm c.ward.val 1 p.val = true) (hfree : s.fcp[p] = none) :
    fcpWrite c s = (s.started c).fcpStart (p.val + 8 * b.length) ⟨c.ward, none, some c.id, b⟩ := by
  have hhead : u c.args 0 8 = p.val + 8 * b.length := by
    rw [hargs, u_front]
    omega
  have hlen : c.args.length = 8 + b.length := by simp [hargs]
  have hdata : sub c.args 8 b.length = b := by rw [hargs, sub_behind_head]
  simp [fcpWrite, hhead, hlen, fcpBytes_head p hhi, State.fcpCheck_head hlo hhi harm, hfree, hdata]

theorem fcpWrite_starts {s : State} {w : Fin 4} {q : Fin 8} {c : Cmd} {p : Fin 8} {b : List Byte} (h : s.takes w q 3 c)
    (hcw : c.ward = w) (hlo : 1 ≤ b.length) (hhi : b.length ≤ 256) (hargs : c.args = toLe 8 (p.val + 8 * b.length) ++ b)
    (harm : s.mayArm w.val 1 p.val = true) (hfree : s.fcp[p] = none) :
    ∃ t, exec (.fcpWrite w q) s = .next t ∧ t.starts c.id ∧ t.outs = s.outs ++ [.fcp p.val b] ∧
      t.fcp = s.fcp.set p (some ⟨w, none, some c.id, b⟩) ∧ OnlyJournal { s with fcp := t.fcp, outs := t.outs } t := by
  subst hcw
  have hjnl := h.begun_onlyJournal
  have houts : (s.begun c).outs = s.outs := by rw [hjnl]
  have hfcp : (s.begun c).fcp = s.fcp := by rw [hjnl]
  have hrun := fcpWrite_eq (s := s.modCmd c.id (fun c => { c with marked := true })) (c := { c with marked := true }) hlo hhi hargs
    harm hfree
  refine ⟨_, congrArg Host.Outcome.next ((h.runCmd fcpWrite).trans (hrun.trans (State.fcpStart_eq _ p _ _))), ?_, ?_, ?_, ?_⟩
  · exact State.holdsDue_congr (s := s.begun c) rfl h.begun_starts
  · exact congrArg (· ++ [Out.fcp p.val b]) houts
  · exact congrArg (fun x : Vector (Option FcpXfer) 8 => x.set p (some ⟨c.ward, none, some c.id, b⟩)) hfcp
  · exact hjnl.setFcp _ _

/-- FCP_TRANSFER_DONE of a transfer that FCP_WRITE started. -/
theorem fcpTransferDone_completes {s : State} {p : Fin 8} {x : FcpXfer} {id : Nat} (miso : List Byte) (hticks : s.ticks = true)
    (halone : s.alone) (hx : s.fcp[p] = some x) (hport : x.port = none) (hcmd : x.cmd = some id) (hopen : s.cmdOpen id = true) :
    ∃ t, exec (.fcpTransferDone p miso) s = .next t ∧ (∃ arg, t.ends id 0 arg) ∧ OnlyJournal { s with fcp := s.fcp.set p none } t := by
  have hrun : exec (.fcpTransferDone p miso) s = .next (State.finishF { s with fcp := s.fcp.set p none } id 0) := by
    show execFcpTransferDone p miso s = _
    simp [execFcpTransferDone, hticks, hx, hport, hcmd]
  exact ⟨_, hrun, ⟨_, State.ends_finishF (s := { s with fcp := s.fcp.set p none }) halone hopen 0⟩, OnlyJournal.finishF _ _ _ halone⟩

/-- Settles O20. Each command runs its effect between its STARTED and its DONE record; FCP_WRITE leaves the latter to the end of its transfer. -/
theorem registerCommands : Obligations.RegisterCommands := by
  unfold Obligations.RegisterCommands
  intro s w q c hcw
  refine ⟨nop_completes, fun k v h hargs hen hown hcopy => regSet_pmin k h hcw hargs hen hown hcopy,
    fun p b h hlo hhi hargs harm hfree => fcpWrite_starts h hcw hlo hhi hargs harm hfree,
    fun p x id miso hticks halone hx hport hcmd hopen => fcpTransferDone_completes miso hticks halone hx hport hcmd hopen⟩

end Sys2Proof.Machine
end

section
/-! SUPPORT. The state a received frame leaves to its meaning on a host port (R43 to R47): ACK and credits are taken, and a data frame in
order takes its SEQ and credits. Responses and acknowledgements that wait, or that something before them holds up, stay at the port. -/

namespace Sys2Proof.Machine

/-! ### ACK and credits of a frame -/

/-- The frames of a replay buffer that `f` acknowledges (R46). -/
def Port.gone (q : Port) (f : Frame) : List TxFrame := q.replay.takeWhile (fun x => covers f.ack x.seq)

/-- Port `p` once ACK and credits of `f` are taken. -/
def State.headed (s : State) (p : Nat) (f : Frame) : State :=
  (s.modPort p (fun q => { q with
    replay := q.replay.drop ((s.port p).gone f).length, replays := if ((s.port p).gone f).isEmpty then q.replays else 0,
    peerHdr := q.peerHdr + f.crdHdr.toNat, peerData := q.peerData + f.crdData.toNat })).dropEvents ((s.port p).gone f)

/-- The state in which a data frame in order acts. -/
def State.delivered (s : State) (p : Nat) (f : Frame) : State := (s.headed p f).deliver p f

section
variable (s : State) {p : Nat} (f : Frame) (hp : p < 4)

theorem PortsMoved.headed : PortsMoved s (s.headed p f) := by
  unfold PortsMoved State.headed
  rw [State.dropEvents_eq, State.modPort_eq]

theorem PortsMoved.delivered : PortsMoved s (s.delivered p f) := by
  have h := PortsMoved.headed s (p := p) f
  unfold PortsMoved at h ⊢
  unfold State.delivered State.deliver
  rw [State.modPort_eq, h]

include hp

theorem State.headed_port : (s.headed p f).port p = { s.port p with
    replay := (s.port p).replay.dropWhile (fun x => covers f.ack x.seq),
    replays := if ((s.port p).gone f).isEmpty then (s.port p).replays else 0,
    peerHdr := (s.port p).peerHdr + f.crdHdr.toNat, peerData := (s.port p).peerData + f.crdData.toNat } := by
  have hports : (s.headed p f).ports = (s.modPort p (fun q => { q with
      replay := q.replay.drop ((s.port p).gone f).length, replays := if ((s.port p).gone f).isEmpty then q.replays else 0,
      peerHdr := q.peerHdr + f.crdHdr.toNat, peerData := q.peerData + f.crdData.toNat })).ports := by
    unfold State.headed
    rw [State.dropEvents_eq]
  have hdrop : (s.port p).replay.drop ((s.port p).gone f).length = (s.port p).replay.dropWhile (fun x => covers f.ack x.seq) := by
    conv_lhs => rw [← List.takeWhile_append_dropWhile (p := fun x => covers f.ack x.seq) (l := (s.port p).replay)]
    exact List.drop_left
  rw [State.port_congr hports, State.port_modPort_self _ _ _ (by omega), hdrop]

theorem State.delivered_port : (s.delivered p f).port p = { (s.headed p f).port p with
    rxNext := (s.port p).rxNext + 1#16, nakSent := false, owedHdr := (s.port p).owedHdr + 1,
    owedData := (s.port p).owedData + dataUnits f.payload.length } := by
  unfold State.delivered State.deliver
  rw [State.port_modPort_self _ _ _ (by omega), s.headed_port f hp]

/-- Nothing waits to be sent, so the credits of a frame send nothing. -/
theorem State.rxHeader_eq (htx : (s.port p).txq = []) : s.rxHeader p f = s.headed p f := by
  have hp4 : p ≠ 4 := by omega
  have hpump : (s.headed p f).pump p = s.headed p f := by
    simp [State.pump, s.headed_port f hp, htx, hp4]
  rw [← hpump]
  simp only [State.rxHeader, hp4, false_and, if_false]
  rfl

theorem State.onData_delivered (act : State → State) (h : s.inOrder p f = true) (htx : (s.port p).txq = []) :
    s.onData p f act = act (s.delivered p f) := by
  simp only [State.inOrder, Bool.and_eq_true, decide_eq_true_eq, Bool.not_eq_true'] at h
  obtain ⟨⟨⟨⟨hup, hcor⟩, hseq⟩, hhdr⟩, hdata⟩ := h
  have hcredit : ¬ ((s.port p).crdHdr ≤ (s.port p).owedHdr ∨
      (s.port p).crdData < (s.port p).owedData + dataUnits f.payload.length) := by omega
  simp [State.onData, State.rxData, hup, hcor, s.rxHeader_eq f hp htx, hseq, hcredit, State.delivered]

/-- What might leave before the frame came may leave behind it. -/
theorem State.maySend_delivered {n : Nat} (h : s.maySend p n = true) : (s.delivered p f).maySend p n = true := by
  have hmoved := PortsMoved.delivered s (p := p) f
  have hup : (s.delivered p f).portUp p = s.portUp p := by rw [hmoved]; rfl
  have hpwr : (s.delivered p f).pwr = s.pwr := by rw [hmoved]
  simp only [State.maySend, Bool.and_eq_true, decide_eq_true_eq] at h ⊢
  rw [hup, hpwr, s.delivered_port f hp, s.headed_port f hp]
  obtain ⟨⟨hsame, hhdr⟩, hdata⟩ := h
  obtain ⟨hsame, hreplay⟩ := hsame
  have hlen := (List.dropWhile_sublist (l := (s.port p).replay) (fun x => covers f.ack x.seq)).length_le
  exact ⟨⟨⟨hsame, by dsimp only; omega⟩, by dsimp only; omega⟩, by dsimp only; omega⟩

end

/-- What decides whether a frame may leave: the state of the port's group, the ports and the power. -/
theorem State.maySend_congr {s t : State} {p : Nat} (hstate : t.g (LN_GRP_STATUS_STATE p) = s.g (LN_GRP_STATUS_STATE p))
    (hports : t.ports = s.ports) (hpwr : t.pwr = s.pwr) (n : Nat) : t.maySend p n = s.maySend p n := by
  have hup : t.portUp p = s.portUp p := by
    unfold State.portUp
    rw [hstate, hpwr]
  unfold State.maySend
  rw [hup, State.port_congr hports, hpwr]

section
variable {s : State} {p w : Fin 4} {f : Frame}

theorem State.onHost_delivered (ty : Nat) (act : State → Fin 4 → State) (hin : s.inOrder p.val f = true) (htx : (s.port p.val).txq = [])
    (hw : s.portWard p.val = some w.val) : s.onHost p f ty act = act (s.delivered p.val f) w := by
  unfold State.onHost
  rw [s.onData_delivered f p.isLt _ hin htx, (PortsMoved.delivered s f).portWard, hw]
  exact congrArg (act _) (Fin.ofNat_val_eq_self w)

theorem State.txq_of_maySend {n : Nat} (h : s.maySend p.val n = true) : (s.port p.val).txq = [] := by
  simp only [State.maySend, Bool.and_eq_true, decide_eq_true_eq] at h
  obtain ⟨⟨⟨⟨-, htx⟩, -⟩, -⟩, -⟩ := h
  exact htx

theorem State.maySend_zero {n : Nat} (h : s.maySend p.val n = true) : s.maySend p.val 0 = true := by
  simp only [State.maySend, Bool.and_eq_true, decide_eq_true_eq] at h ⊢
  exact ⟨h.1, Nat.zero_le _⟩

/-- A port that may send owes no response and no acknowledgement. -/
theorem State.owes_nothing_of_maySend {n : Nat} (h : s.maySend p.val n = true) : (s.port p.val).resps = [] ∧ (s.port p.val).acks = [] := by
  simp only [State.maySend, Bool.and_eq_true, decide_eq_true_eq] at h
  obtain ⟨⟨⟨⟨⟨⟨⟨hresps, hacks⟩, -⟩, -⟩, -⟩, -⟩, -⟩, -⟩ := h
  exact ⟨hresps, hacks⟩

theorem State.mayFollow_of_maySend {n : Nat} (h : s.maySend p.val n = true) : s.mayFollow p.val n = true := by
  simp only [State.maySend, Bool.and_eq_true, decide_eq_true_eq] at h
  rw [State.mayFollow_iff (by omega)]
  tauto

end

/-! ### Responses and acknowledgements that wait -/

theorem State.modPort_id (s : State) (p : Nat) {f : Port → Port} (h : ∀ q, f q = q) : s.modPort p f = s := by
  unfold State.modPort
  split
  · simp [modv, h]
  · rfl

/-- A response behind one that waits, or that waits itself, takes its place and nothing leaves. -/
theorem State.respond_waits (s : State) {p : Nat} (hp : p < 7) (o : Owed)
    (h : ((s.port p).resps ++ [o]).takeWhile (fun o => o.wait.isNone) = []) :
    s.respond p o = s.modPort p (fun q => { q with resps := q.resps ++ [o] }) := by
  have hport := State.port_modPort_self s p (fun q => { q with resps := q.resps ++ [o] }) hp
  unfold State.respond State.flushResps
  rw [hport]
  simp only [h, forEach, List.foldl_nil, List.length_nil, List.drop_zero]
  exact State.modPort_id _ _ (fun _ => rfl)

/-- The same of a CMD_ACK. -/
theorem State.acknowledge_waits (s : State) {p : Nat} (hp : p < 7) (o : Owed)
    (h : ((s.port p).acks ++ [o]).takeWhile (fun o => o.wait.isNone) = []) :
    s.acknowledge p o = s.modPort p (fun q => { q with acks := q.acks ++ [o] }) := by
  have hport := State.port_modPort_self s p (fun q => { q with acks := q.acks ++ [o] }) hp
  unfold State.acknowledge State.flushAcks
  rw [hport]
  simp only [h, forEach, List.foldl_nil, List.length_nil, List.drop_zero]
  exact State.modPort_id _ _ (fun _ => rfl)

/-- A CMD_ACK that nothing is owed before changes the communication only, and is the last thing to leave. -/
theorem State.acknowledge_sent (s : State) (p ty st : Nat) (tag : BitVec 16) (q : Nat) (b : List Byte) (hp : p < 4)
    (h : s.maySend p b.length = true) : OnlyComm s (s.acknowledge p ⟨none, dataFrame ty st tag q b⟩) ∧
      Sent s (s.acknowledge p ⟨none, dataFrame ty st tag q b⟩) p ty st tag q b := by
  have hacks : (s.port p).acks = [] := (State.owes_nothing_of_maySend (p := ⟨p, hp⟩) h).2
  rw [State.acknowledge_eq s p _ (by omega) hacks]
  refine ⟨((OnlyComm.modPort s p _).trans (OnlyComm.modPort _ p _)).trans (OnlyComm.sendFrame _ p _ (by omega)), ?_⟩
  refine Sent.of_outs (State.sendFrame_sent _ p ty st tag q b hp ?_) (by rw [State.modPort_outs, State.modPort_outs])
  have hfollow : s.mayFollow p b.length = true := State.mayFollow_of_maySend (p := ⟨p, hp⟩) h
  rwa [State.mayFollow_modPort_acks _ (by omega) (List.drop 1), State.mayFollow_modPort_acks _ (by omega) (· ++ _)]

end Sys2Proof.Machine
end

section
/-! SUPPORT. Front-end transfers of a host (R51, R61): the start, a busy port, and the response that a transfer's end lets go. -/

namespace Sys2Proof.Machine

section
variable {s : State} {p w : Fin 4} {f : Frame} {c : Fin 8} {b : List Byte} (hb : b.length = 8)
  (hpay : f.payload = toLe 8 (c.val + 8 * 8) ++ b) (hrole : s.role ≠ 2) (harm : s.mayArm w.val 1 c.val = true)
include hb hpay hrole harm

/-- FCP_XFER of 8 bytes by a Ward that may use the port: the transfer starts unless another runs. -/
theorem State.fcpXfer_eq : s.fcpXfer p w f = if s.fcp[c] = none then
      (s.respond p.val ⟨some c.val, dataFrame 0x86 0 f.tag 0 []⟩).fcpStart (c.val + 8 * 8) ⟨w, some (p.val, f.tag), none, b⟩
    else s.answer p f 0x86 6 [] := by
  have hhead : u f.payload 0 8 = c.val + 8 * 8 := by
    rw [hpay, u_front]
    omega
  have hlen : f.payload.length = 16 := by simp [hpay, hb]
  have hdata : sub f.payload 8 8 = b := by
    have h := sub_behind_head (c.val + 8 * 8) b
    rwa [hb, ← hpay] at h
  have hcheck := State.fcpCheck_head (s := s) (n := 8) (by decide) (by decide) harm
  unfold State.fcpXfer
  simp only [hhead, fcpBytes_head c (show 8 ≤ 256 by decide), fcpPort_head, hlen, hdata, if_neg hrole]
  by_cases hfree : s.fcp[c] = none
  · rw [if_pos hfree] at hcheck ⊢
    simp [hcheck, roundUp]
  · rw [if_neg hfree] at hcheck ⊢
    simp [hcheck, roundUp]

variable (hin : s.inOrder p.val f = true) (htx : (s.port p.val).txq = []) (hw : s.portWard p.val = some w.val)
include hin htx hw

theorem exec_fcpXfer_delivered : exec (.fcpXfer p f) s = .next (if s.fcp[c] = none then
      ((s.delivered p.val f).respond p.val ⟨some c.val, dataFrame 0x86 0 f.tag 0 []⟩).fcpStart (c.val + 8 * 8)
        ⟨w, some (p.val, f.tag), none, b⟩
    else (s.delivered p.val f).answer p f 0x86 6 []) := by
  have hmoved := PortsMoved.delivered s (p := p.val) f
  have harm' : (s.delivered p.val f).mayArm w.val 1 c.val = true := by rw [hmoved]; exact harm
  have hfcp : (s.delivered p.val f).fcp = s.fcp := by rw [hmoved]
  have h := State.fcpXfer_eq (p := p) hb hpay (hmoved.role.trans_ne hrole) harm'
  rw [hfcp] at h
  exact congrArg Host.Outcome.next
    ((State.onHost_delivered 0x86 (fun s w => s.fcpXfer p w f) hin htx hw).trans h)

/-- A transfer on an idle port starts; its response waits for the end. -/
theorem fcpXfer_starts (hresps : (s.port p.val).resps = []) (hfree : s.fcp[c] = none) : Gives (.fcpXfer p f) s (fun t =>
    OnlyComm { s with fcp := s.fcp.set c (some ⟨w, some (p.val, f.tag), none, b⟩) } t ∧ t.outs = s.outs ++ [.fcp c.val b]) := by
  have hmoved := PortsMoved.delivered s (p := p.val) f
  have hrun := exec_fcpXfer_delivered hb hpay hrole harm hin htx hw
  rw [if_pos hfree, State.respond_waits _ (by omega) _ (by simp [s.delivered_port f p.isLt, s.headed_port f p.isLt, hresps]),
    State.fcpStart_eq, State.modPort_eq] at hrun
  refine ⟨_, hrun, OnlyComm.of ?_, ?_⟩
  · rw [hmoved]
  · rw [← hmoved.outs]

/-- On a busy port it is refused, behind what the host port owes. -/
theorem exec_fcpXfer_busy (hbusy : s.fcp[c] ≠ none) :
    exec (.fcpXfer p f) s = .next ((s.delivered p.val f).answer p f 0x86 6 []) := by
  rw [exec_fcpXfer_delivered hb hpay hrole harm hin htx hw, if_neg hbusy]

theorem fcpXfer_busy (hsend : s.maySend p.val 0 = true) (hbusy : s.fcp[c] ≠ none) :
    Gives (.fcpXfer p f) s (fun t => OnlyComm s t ∧ Sent s t p.val 0x86 6 f.tag 0 []) := by
  have hmoved := PortsMoved.delivered s (p := p.val) f
  obtain ⟨hcomm, hsent⟩ := State.answer_sent (f := f) (ty := 0x86) (b := []) 6 (s.maySend_delivered f p.isLt hsend) hmoved.outs
  exact ⟨_, exec_fcpXfer_busy hb hpay hrole harm hin htx hw hbusy, hmoved.onlyComm.trans hcomm, hsent⟩

theorem fcpXfer_queued {x : Owed} {l : List Owed} (hresps : (s.port p.val).resps = x :: l) (hwait : x.wait.isSome = true)
    (hbusy : s.fcp[c] ≠ none) : Gives (.fcpXfer p f) s (fun t => OnlyComm s t ∧ t.outs = s.outs ∧
      (t.port p.val).resps = x :: l ++ [⟨none, dataFrame 0x86 6 f.tag 0 []⟩]) := by
  have hmoved := PortsMoved.delivered s (p := p.val) f
  have hrun := exec_fcpXfer_busy hb hpay hrole harm hin htx hw hbusy
  have hkept : ((s.delivered p.val f).port p.val).resps = x :: l := by
    rw [s.delivered_port f p.isLt, s.headed_port f p.isLt, ← hresps]
  have hstop : (x :: l ++ [(⟨none, dataFrame 0x86 6 f.tag 0 []⟩ : Owed)]).takeWhile (fun o => o.wait.isNone) = [] := by
    rw [List.cons_append, List.takeWhile_cons_of_neg]
    simpa [Option.isSome_iff_ne_none] using hwait
  rw [State.answer, State.respond_waits _ (by omega) _ (by rw [hkept]; exact hstop)] at hrun
  refine ⟨_, hrun, hmoved.onlyComm.trans (OnlyComm.modPort _ _ _), ?_, ?_⟩
  · rw [State.modPort_outs, hmoved.outs]
  · rw [State.port_modPort_self _ _ _ (by omega)]
    exact congrArg (· ++ _) hkept

end

/-! ### The end of a transfer -/

/-- The sampled bytes are as many as the bytes shifted out. -/
theorem map_getD_range {l : List Byte} {n : Nat} (h : l.length = n) : (List.range n).map (fun i => l.getD i 0#8) = l := by
  refine List.ext_getElem (by simp [h]) fun i _ hi => ?_
  simp [List.getD_eq_getElem?_getD, List.getElem?_eq_getElem hi]

theorem State.mayFollow_modPort_resps (s : State) {p : Nat} (hp : p < 7) (f : List Owed → List Owed) (n : Nat) :
    (s.modPort p (fun q => { q with resps := f q.resps })).mayFollow p n = s.mayFollow p n := by
  have hup (f : Port → Port) : (s.modPort p f).portUp p = s.portUp p := by simp [State.portUp]
  rw [Bool.eq_iff_iff, State.mayFollow_iff hp, State.mayFollow_iff hp, hup, State.port_modPort_self _ _ _ hp, State.modPort_pwr]

/-- What the response owed by port `p` waited for has come: it gets its payload, and what may leave does. -/
def State.respReady (s : State) (p wait : Nat) (b : List Byte) : State :=
  (s.modPort p (fun q => { q with resps := readyOwed wait b q.resps })).flushResps p

/-- The one response that a port owes leaves. -/
theorem State.respReady_sent (s : State) {p wait ty st : Nat} {tag : BitVec 16} {q : Nat} (b : List Byte) (hp : p < 4)
    (h : (s.port p).resps = [⟨some wait, dataFrame ty st tag q []⟩]) (hmay : s.mayFollow p b.length = true) :
    OnlyComm s (s.respReady p wait b) ∧ Sent s (s.respReady p wait b) p ty st tag q b := by
  have hp7 : p < 7 := by omega
  have hready : ((s.modPort p (fun q => { q with resps := readyOwed wait b q.resps })).port p).resps =
      [⟨none, dataFrame ty st tag q b⟩] := by
    simp [State.port_modPort_self _ _ _ hp7, h, readyOwed, updFirst, dataFrame]
  have hleaves : s.respReady p wait b = ((s.modPort p (fun q => { q with resps := readyOwed wait b q.resps })).modPort p
      (fun q => { q with resps := q.resps.drop 1 })).sendFrame p (dataFrame ty st tag q b) := by
    simp [State.respReady, State.flushResps, hready, forEach]
  rw [hleaves]
  refine ⟨((OnlyComm.modPort s p _).trans (OnlyComm.modPort _ p _)).trans (OnlyComm.sendFrame _ p _ (by omega)), ?_⟩
  refine Sent.of_outs (State.sendFrame_sent _ p ty st tag q b hp ?_) (by rw [State.modPort_outs, State.modPort_outs])
  rwa [State.mayFollow_modPort_resps _ hp7 (List.drop 1), State.mayFollow_modPort_resps _ hp7 (readyOwed wait b)]

theorem fcpTransferDone_responds {s : State} {p : Fin 4} {c : Fin 8} {x : FcpXfer} {tag : BitVec 16} {miso : List Byte}
    (hticks : s.ticks = true) (hx : s.fcp[c] = some x) (hport : x.port = some (p.val, tag)) (hlen : miso.length = x.mosi.length)
    (hresps : (s.port p.val).resps = [⟨some c.val, dataFrame 0x86 0 tag 0 []⟩]) (hmay : s.mayFollow p.val (pad8 miso).length = true) :
    Gives (.fcpTransferDone c miso) s (fun t => OnlyComm { s with fcp := s.fcp.set c none } t ∧
      Sent s t p.val 0x86 0 tag 0 (pad8 miso)) := by
  have hrun : exec (.fcpTransferDone c miso) s =
      .next (State.respReady { s with fcp := s.fcp.set c none } p.val c.val (pad8 miso)) := by
    show execFcpTransferDone c miso s = _
    simp only [execFcpTransferDone, hticks, hx, hport, map_getD_range hlen, State.respReady]
    rfl
  have hmay' := (State.mayFollow_congr (s := s) (t := { s with fcp := s.fcp.set c none }) (p := p.val) (by omega) rfl rfl rfl _).trans hmay
  exact ⟨_, hrun, State.respReady_sent _ (pad8 miso) p.isLt hresps hmay'⟩

/-- Settles O4. A transfer's response is owed from its start, so what comes behind it waits; its end gives it the sampled bytes. -/
theorem frontEndTransfers : Obligations.FrontEndTransfers := by
  unfold Obligations.FrontEndTransfers
  intro s p w f c b hb
  refine ⟨fun hin hsend hw hrole hpay harm => ⟨fun hfree => ?_, fun hbusy => ?_⟩, fun x tag miso hticks hx hport hlen hresps hmay => ?_,
    fun x l d hresps hwait htx hin hw hrole hpay harm hbusy => ?_⟩
  · exact fcpXfer_starts hb hpay hrole harm hin (State.txq_of_maySend hsend) hw (State.owes_nothing_of_maySend hsend).1 hfree
  · exact fcpXfer_busy hb hpay hrole harm hin (State.txq_of_maySend hsend) hw hsend hbusy
  · exact fcpTransferDone_responds hticks hx hport hlen hresps hmay
  · exact fcpXfer_queued hb hpay hrole harm hin htx hw hresps hwait hbusy

end Sys2Proof.Machine
end

section
/-! SUPPORT. The acceptance of commands (R54, R56, R57, R63): the checks in order on a header taken apart, a refusal that is counted and
acknowledged, and what an accepted command leaves. -/

namespace Sys2Proof.Machine

/-! ### The acceptance checks -/

theorem nbits_eq (hi lo v : Nat) : nbits hi lo v = v / 2 ^ lo % 2 ^ (hi + 1 - lo) := by rw [nbits, Nat.shiftRight_eq_div_pow]

/-- The payload has the length that its header gives (Table 3.4). -/
abbrev cmdFits (b : List Byte) : Prop := 8 ≤ b.length ∧ b.length = roundUp 8 (8 + u b 0 8 / 2 ^ 16 % 2 ^ 11)

/-- The header has an opcode of Table 3.5 and no reserved bit. -/
abbrev cmdKnown (h : Nat) : Prop := h % 2 ^ 16 ∈ opcodes ∧ h / 2 ^ 27 % 2 ^ 5 = 0 ∧ h / 2 ^ 34 % 2 ^ 30 = 0

/-- The Ward gives this command: those for the Townplan are the Plan Ward's. -/
abbrev planOpBy (w : Fin 4) (op : Nat) : Prop := isPlanOp op = true → w = 0

/-- The role takes this command: a STANDBY only REPLAY, LEAVE and JOIN. -/
abbrev State.takesOp (s : State) (op : Nat) : Prop := s.role = 2 → op ∈ [0xA0, 0xA1, 0xA2]

section
variable {s : State} {w : Fin 4} {q : Nat} {b : List Byte}

theorem State.acceptCheck_length (h : ¬ cmdFits b) : s.acceptCheck w q b = 5 := by
  have hlen : b.length < 8 ∨ b.length ≠ roundUp 8 (8 + u b 0 8 / 2 ^ 16 % 2 ^ 11) := by
    by_contra hnot
    exact h (by omega)
  unfold State.acceptCheck
  simp only [nbits_eq]
  exact if_pos hlen

/-- Behind the length, the checks are these, in order. -/
theorem State.acceptCheck_of_fits (hfits : cmdFits b) : s.acceptCheck w q b =
    if ¬ cmdKnown (u b 0 8) then 0xC
    else if ¬ planOpBy w (u b 0 8 % 2 ^ 16) then 9
    else if ¬ s.takesOp (u b 0 8 % 2 ^ 16) then 0xE
    else if s.out = true then 0xF
    else if 512 ≤ s.queueDepth w.val q then 0xB
    else 0 := by
  obtain ⟨hlo, hlen⟩ := hfits
  have hfit : ¬ (b.length < 8 ∨ b.length ≠ roundUp 8 (8 + u b 0 8 / 2 ^ 16 % 2 ^ 11)) := by omega
  unfold State.acceptCheck
  simp only [nbits_eq]
  rw [if_neg hfit]
  simp only [cmdKnown, planOpBy, State.takesOp, not_and_or, Classical.not_imp, List.contains_iff_mem, Bool.not_eq_true', ← Bool.not_eq_true]
  simp

end

/-! ### A header taken apart (Table 3.4) -/

section
variable {h op n : Nat} {fence notify : Bool} (hh : h = op + 2 ^ 16 * n + 2 ^ 32 * b2n fence + 2 ^ 33 * b2n notify) (hop : op ∈ opcodes)
  (hn : n < 2 ^ 11)
include hh hop hn

theorem cmdHeader_fields : h % 2 ^ 16 = op ∧ h / 2 ^ 16 % 2 ^ 11 = n ∧ h / 2 ^ 27 % 2 ^ 5 = 0 ∧ h / 2 ^ 34 % 2 ^ 30 = 0 ∧
    h / 2 ^ 32 % 2 = b2n fence ∧ h / 2 ^ 33 % 2 = b2n notify ∧ h < 2 ^ 64 := by
  have hop16 : op < 2 ^ 16 := (by decide : ∀ x ∈ opcodes, x < 2 ^ 16) op hop
  cases fence <;> cases notify <;> simp only [b2n, Bool.false_eq_true, if_true, if_false] at hh ⊢ <;> omega

theorem cmdHeader_known : cmdKnown h := by
  obtain ⟨hlow, -, hrsvd, hhigh, -⟩ := cmdHeader_fields hh hop hn
  exact ⟨hlow.symm ▸ hop, hrsvd, hhigh⟩

end

/-! ### A refusal at acceptance (R56, R63) -/

theorem OnlyRegs.maySend {s t : State} (h : OnlyRegs s t) {p : Nat} (hstate : t.g (LN_GRP_STATUS_STATE p) = s.g (LN_GRP_STATUS_STATE p))
    (n : Nat) : t.maySend p n = s.maySend p n := State.maySend_congr hstate (by rw [h]) (by rw [h]) n

theorem OnlyRegs.outs {s t : State} (h : OnlyRegs s t) : t.outs = s.outs := by rw [h]

theorem PortsMoved.acceptCheck {s u : State} (h : PortsMoved s u) (w : Fin 4) (q : Nat) (b : List Byte) :
    u.acceptCheck w q b = s.acceptCheck w q b := by
  rw [h]
  rfl

/-- A delivered frame of which registers and then the communication are all that changes. -/
theorem OnlyComm.setRegs {s u r t : State} (h : OnlyComm r t) (hmoved : PortsMoved s u) (hregs : OnlyRegs u r) :
    OnlyComm { s with regs := t.regs } t := by
  refine ⟨?_, fun _ _ => rfl⟩
  unfold PortsMoved OnlyRegs at *
  rw [h.1, hregs, hmoved]

/-- A refusal is counted with its status and queue. -/
def State.refusalCounted (s : State) (w q st : Nat) : State :=
  ((s.inc (WRD_REFUSED_COUNT w) 1).p (WRD_REFUSED_LAST_STATUS w) st).p (WRD_REFUSED_LAST_QUEUE w) q

section
variable (s : State) (w : Fin 4) (q st : Nat)

theorem RegsMoved.refusalCounted : RegsMoved [WRD_REFUSED w.val] s (s.refusalCounted w.val q st) := by
  have haddr : WRD_REFUSED w.val ∈ [WRD_REFUSED w.val] := List.mem_singleton_self _
  exact (((RegsMoved.refl _ s).p _ _ haddr).p _ _ haddr).p _ _ haddr

theorem State.refusalCounted_fields (hst : st < 2 ^ 8) (hq : q < 8) :
    (s.refusalCounted w.val q st).g (WRD_REFUSED_COUNT w.val) = satAdd 32 (s.g (WRD_REFUSED_COUNT w.val)) 1 ∧
    (s.refusalCounted w.val q st).g (WRD_REFUSED_LAST_STATUS w.val) = st ∧
    (s.refusalCounted w.val q st).g (WRD_REFUSED_LAST_QUEUE w.val) = q := by
  have hapart : (WRD_REFUSED_LAST_QUEUE w.val).apart (WRD_REFUSED_COUNT w.val) ∧
      (WRD_REFUSED_LAST_QUEUE w.val).apart (WRD_REFUSED_LAST_STATUS w.val) ∧
      (WRD_REFUSED_LAST_STATUS w.val).apart (WRD_REFUSED_COUNT w.val) := by
    simp [FRef.apart, WRD_REFUSED_COUNT, WRD_REFUSED_LAST_STATUS, WRD_REFUSED_LAST_QUEUE]
  obtain ⟨hqc, hqs, hsc⟩ := hapart
  unfold State.refusalCounted
  refine ⟨?_, ?_, State.g_p_fits _ (by simp [WRD_REFUSED_LAST_QUEUE]) hq⟩
  · rw [State.g_p_apart _ hqc, State.g_p_apart _ hsc]
    exact State.g_p_fits _ (by simp [WRD_REFUSED_COUNT]) (satAdd_lt _ _ _)
  · rw [State.g_p_apart _ hqs]
    exact State.g_p_fits _ (by simp [WRD_REFUSED_LAST_STATUS]) hst

theorem State.maySend_refusalCounted (p : Fin 4) (n : Nat) : (s.refusalCounted w.val q st).maySend p.val n = s.maySend p.val n := by
  have haddr : (LN_GRP_STATUS_STATE p.val).addr ∉ [WRD_REFUSED w.val] := by
    simp only [LN_GRP_STATUS_STATE, LN_GRP_STATUS, WRD_REFUSED, List.mem_singleton]
    omega
  have hmoved := RegsMoved.refusalCounted s w q st
  exact hmoved.frame.maySend (hmoved.kept.g haddr) n

end

theorem State.cmdRefused_eq (s : State) (p w : Fin 4) (f : Frame) (q st : Nat) : s.cmdRefused p w f q st =
    (s.refusalCounted w.val q st).acknowledge p.val ⟨none, dataFrame 0x85 st f.tag q []⟩ := rfl

section
variable {s : State} {p w : Fin 4} {f : Frame} (hin : s.inOrder p.val f = true) (hw : s.portWard p.val = some w.val)
include hin hw

/-- From RUN on a command frame is given to the acceptance checks. -/
theorem exec_cmd_delivered (htx : (s.port p.val).txq = []) (hphase : 5 ≤ s.g RST_STATUS_PHASE) :
    exec (.cmd p f) s = .next ((s.delivered p.val f).cmdFrame p w f) := by
  have hrun : ¬ (s.delivered p.val f).g RST_STATUS_PHASE < 5 := by
    rw [State.g_congr (PortsMoved.delivered s f).regs]
    omega
  refine congrArg Host.Outcome.next ((State.onHost_delivered 0x85 _ hin htx hw).trans ?_)
  exact if_neg hrun

theorem cmd_refused {q st : Nat} (hsend : s.maySend p.val 0 = true) (hphase : 5 ≤ s.g RST_STATUS_PHASE)
    (hq : f.queue.toNat % 8 = q) (hcheck : s.acceptCheck w q f.payload = st) (hst : st ≠ 0) (hlt : st < 2 ^ 8) :
    Gives (.cmd p f) s (fun t => Sent s t p.val 0x85 st f.tag q [] ∧
      OnlyComm { s with regs := t.regs } t ∧ (∀ a, a ≠ WRD_REFUSED w.val → (∀ l, a ≠ LN_TEST l) → t.rd a = s.rd a) ∧
      t.g (WRD_REFUSED_COUNT w.val) = satAdd 32 (s.g (WRD_REFUSED_COUNT w.val)) 1 ∧
      t.g (WRD_REFUSED_LAST_STATUS w.val) = st ∧ t.g (WRD_REFUSED_LAST_QUEUE w.val) = q) := by
  have hmoved := PortsMoved.delivered s (p := p.val) f
  have hrun := exec_cmd_delivered hin hw (State.txq_of_maySend hsend) hphase
  simp only [State.cmdFrame, hq, hmoved.acceptCheck, hcheck, if_pos hst, State.cmdRefused_eq] at hrun
  have hcount := RegsMoved.refusalCounted (s.delivered p.val f) w q st
  obtain ⟨hinc, hstatus, hqueue⟩ := (s.delivered p.val f).refusalCounted_fields w q st hlt (by omega)
  obtain ⟨hcomm, hsent⟩ := State.acknowledge_sent ((s.delivered p.val f).refusalCounted w.val q st) p.val 0x85 st f.tag q [] p.isLt
    ((State.maySend_refusalCounted _ w q st p 0).trans (s.maySend_delivered f p.isLt hsend))
  have htest : ∀ l, WRD_REFUSED w.val ≠ LN_TEST l := LN_TEST_ne (by unfold WRD_REFUSED; omega)
  refine ⟨_, hrun, hsent.of_outs (hcount.frame.outs.trans hmoved.outs), hcomm.setRegs hmoved hcount.frame, fun a ha hl => ?_, ?_, ?_, ?_⟩
  · exact (hcomm.2 a hl).trans ((hcount.kept a (by simpa using ha)).trans (State.rd_congr hmoved.regs a))
  · exact (hcomm.g htest).trans (hinc.trans (by rw [State.g_congr hmoved.regs]))
  · exact (hcomm.g htest).trans hstatus
  · exact (hcomm.g htest).trans hqueue

end

/-- Settles O6. The first check that fails gives the status; what follows is the same for every status. -/
theorem commandsAreRefused : Obligations.CommandsAreRefused := by
  unfold Obligations.CommandsAreRefused
  intro s p w f op n fence notify hin hsend hw hphase q h refused
  have hrefused {st : Nat} (hcheck : s.acceptCheck w q f.payload = st) (hst : st ≠ 0) (hlt : st < 2 ^ 8) : refused st :=
    cmd_refused hin hw hsend hphase rfl hcheck hst hlt
  refine ⟨fun hlen => hrefused (State.acceptCheck_length ?_) (by decide) (by decide), fun hlo hlen => ⟨fun hbad => ?_,
    fun hh hop hn => ?_⟩⟩
  · rintro ⟨hlo, hfit⟩
    exact hlen.elim (by omega) (fun hne => hne hfit)
  · have hcheck := State.acceptCheck_of_fits (s := s) (w := w) (q := q) ⟨hlo, hlen⟩
    refine hrefused (hcheck.trans (if_pos ?_)) (by decide) (by decide)
    rintro ⟨hop, hrsvd, hhigh⟩
    exact hbad.elim (fun hno => hno hop) (fun hno => hno.elim (fun hne => hne hrsvd) (fun hne => hne hhigh))
  · have hcheck := State.acceptCheck_of_fits (s := s) (w := w) (q := q) ⟨hlo, hlen⟩
    obtain ⟨hlow, -⟩ := cmdHeader_fields hh hop hn
    rw [if_neg (not_not_intro (cmdHeader_known hh hop hn)), hlow] at hcheck
    refine ⟨fun hplan hne => hrefused (hcheck.trans (if_pos fun hby => hne (hby hplan))) (by decide) (by decide), fun hby => ?_⟩
    rw [if_neg (not_not_intro hby)] at hcheck
    refine ⟨fun hrole hno => hrefused (hcheck.trans (if_pos fun htakes => hno (htakes hrole))) (by decide) (by decide), fun htakes => ?_⟩
    rw [if_neg (not_not_intro htakes)] at hcheck
    refine ⟨fun hout => hrefused (hcheck.trans (if_pos hout)) (by decide) (by decide), fun hout hfull => ?_⟩
    rw [if_neg (by simp [hout]), if_pos hfull] at hcheck
    exact hrefused hcheck (by decide) (by decide)

end Sys2Proof.Machine
end

section
/-! SUPPORT. Accepted commands (R54, R56, R57): the command joins the table, its CMD_ACK is owed, and its ACCEPTED record becomes due. -/

namespace Sys2Proof.Machine

/-! ### A record leaves the host ports alone -/

section
variable {p q : Nat} (h : p ≠ q)
include h

theorem State.port_sendData_ne (s : State) (f : TxFrame) : (s.sendData q f).port p = s.port p := by
  unfold State.sendData State.sendOut
  dsimp only
  rw [State.port_modPort_ne _ _ h]
  exact (State.port_congr (State.liveInj_ports _ q).1 p).trans (State.port_modPort_ne _ _ h)

theorem State.port_pumpOne_ne (s : State) : (s.pumpOne q).port p = s.port p := by
  unfold State.pumpOne
  split
  · split
    · rw [State.port_sendData_ne h, State.port_modPort_ne _ _ h]
    · rfl
  · split
    · rename_i hq
      split
      · dsimp only
        split
        · rw [State.port_sendData_ne (hq ▸ h)]
          rfl
        · rfl
      · rfl
    · rfl

theorem State.port_reply_ne (s : State) (ty st : Nat) (tag : BitVec 16) (n : Nat) (b : List Byte) :
    (s.reply q ty st tag n b).port p = s.port p := by
  have hpump (l : List Nat) (t : State) : (l.foldl (fun s _ => s.pumpOne q) t).port p = t.port p := by
    induction l generalizing t with
    | nil => rfl
    | cons x l ih => rw [List.foldl_cons, ih, State.port_pumpOne_ne h]
  unfold State.reply State.sendFrame State.pump
  rw [hpump, State.port_modPort_ne _ _ h]

end

section
variable {p : Nat} (h : p ≠ 4)
include h

theorem State.port_beginRecord (s : State) (d : Option DueRec) (c : Option Nat) (b : List Byte) :
    (s.beginRecord d c b).port p = s.port p := by
  show (if (s.slotFilled d c b).paired then
    (s.slotFilled d c b).reply 4 0x51 0 0#16 (b2n ((s.slotFilled d c b).ofPeer c)) b else s.slotFilled d c b).port p = _
  split
  · rw [State.port_reply_ne h]
    rfl
  · rfl

/-- What a record sends leaves on the twin link (R330). -/
theorem State.port_record (s : State) (k : RecKind) (c : Option Nat) (b d : List Byte) : (s.record k c b d).port p = s.port p := by
  have hpump (t : State) : t.pumpJournal.port p = t.port p := by
    rcases t.pumpJournal_cases_any with e | ⟨-, ⟨c, b, e⟩ | ⟨d, -, ⟨cs, c, b, e⟩ | ⟨-, b, e⟩⟩⟩ <;> rw [e]
    · exact t.port_beginRecord h none c b
    · exact (t.dueTaken cs t.jnl.fwd).port_beginRecord h (some d) c b
    · exact State.port_reply_ne h _ _ _ _ _ _
  exact hpump (s.addDue ⟨k, c, b, d⟩)

end

/-! ### The accepted command -/

/-- The command that an accepted frame gives (R56): it has the next name and waits in its queue. -/
def State.commandOf (s : State) (p w : Fin 4) (f : Frame) : Cmd :=
  let h := u f.payload 0 8
  ⟨s.jnl.nextId, w, Fin.ofNat 8 (f.queue.toNat % 8), p.val, f.tag, nbits 15 0 h, BitVec.ofNat 64 h, sub f.payload 8 (nbits 26 16 h),
    nbit h 32, nbit h 33, none, none, false, false, false, .queued, false, false, true⟩

/-- The state once the command stands in the table and its CMD_ACK is owed, before its ACCEPTED record. -/
def State.commandQueued (s : State) (p w : Fin 4) (f : Frame) : State :=
  (({ s with cmds := s.cmds ++ [s.commandOf p w f], jnl := { s.jnl with nextId := s.jnl.nextId + 1 } } : State).modPort p.val
    (fun x => { x with acks := x.acks ++ [⟨some s.jnl.nextId, dataFrame 0x85 0 f.tag (f.queue.toNat % 8) []⟩] })).p
    (WRD_QSTATUS_LAST_TAG w.val (f.queue.toNat % 8)) f.tag.toNat

section
variable {s : State} (p w : Fin 4) (f : Frame)

/-- Behind a CMD_ACK that waits, the new one is owed too. -/
theorem State.cmdAccepted_eq (h : (s.port p.val).acks.takeWhile (fun o => o.wait.isNone) = []) :
    s.cmdAccepted p w f (f.queue.toNat % 8) = (s.commandQueued p w f).record .accepted (some s.jnl.nextId) [] [] := by
  have hwaits : ((s.port p.val).acks ++ [(⟨some s.jnl.nextId, dataFrame 0x85 0 f.tag (f.queue.toNat % 8) []⟩ : Owed)]).takeWhile
      (fun o => o.wait.isNone) = [] := by
    cases hacks : (s.port p.val).acks with
    | nil => rfl
    | cons x l =>
      rw [hacks] at h
      cases hx : x.wait <;> simp_all
  exact congrArg (fun t : State => (t.p (WRD_QSTATUS_LAST_TAG w.val (f.queue.toNat % 8)) f.tag.toNat).record .accepted
    (some s.jnl.nextId) [] []) (State.acknowledge_waits { s with cmds := _, jnl := _ } (by omega) _ hwaits)


theorem State.commandQueued_eq (s : State) : s.commandQueued p w f = { s with
    cmds := s.cmds ++ [s.commandOf p w f], jnl := { s.jnl with nextId := s.jnl.nextId + 1 },
    ports := (s.commandQueued p w f).ports, regs := (s.commandQueued p w f).regs } := by
  unfold State.commandQueued
  rw [State.modPort_eq]
  rfl

theorem RegsKept.commandQueued (s : State) : RegsKept [WRD_QSTATUS w.val (f.queue.toNat % 8)] s (s.commandQueued p w f) := fun a ha => by
  unfold State.commandQueued
  rw [State.rd_p_ne _ _ _ (by simpa [WRD_QSTATUS_LAST_TAG] using ha)]
  exact State.rd_congr (State.modPort_regs _ _ _) a

theorem State.commandQueued_tag (s : State) :
    (s.commandQueued p w f).g (WRD_QSTATUS_LAST_TAG w.val (f.queue.toNat % 8)) = f.tag.toNat :=
  State.g_p_fits _ (by simp [WRD_QSTATUS_LAST_TAG]) f.tag.isLt

theorem State.commandQueued_acks (s : State) : ((s.commandQueued p w f).port p.val).acks =
    (s.port p.val).acks ++ [⟨some s.jnl.nextId, dataFrame 0x85 0 f.tag (f.queue.toNat % 8) []⟩] := by
  unfold State.commandQueued
  rw [State.port_congr (State.p_ports _ _ _), State.port_modPort_self _ _ _ (by omega)]
  rfl

/-- Outside a pair the record and what goes before it touch the table, the Journal, one port and the queue's register. -/
theorem State.alone_commandQueued {s : State} (h : s.alone) : (s.commandQueued p w f).alone := by
  have haddr : TWN_STATUS ∉ [WRD_QSTATUS w.val (f.queue.toNat % 8)] := by
    simp only [TWN_STATUS, WRD_QSTATUS, List.mem_singleton]
    omega
  have hkept := RegsKept.commandQueued p w f s
  exact State.alone_of_g h (hkept.g haddr) (hkept.g haddr)

theorem OnlyJournal.commandQueued_record {s : State} (h : s.alone) :
    ∀ t, (s.commandQueued p w f).record .accepted (some s.jnl.nextId) [] [] = t →
    RegsKept [WRD_QSTATUS w.val (f.queue.toNat % 8)] s t ∧ OnlyJournal { s with regs := t.regs, ports := t.ports } t := by
  intro t ht
  have hjnl := OnlyJournal.record (s.commandQueued p w f) .accepted (some s.jnl.nextId) [] [] (State.alone_commandQueued p w f h)
  rw [ht] at hjnl
  refine ⟨fun a ha => (State.rd_congr hjnl.regs a).trans (RegsKept.commandQueued p w f s a ha), ?_⟩
  have hqueued := s.commandQueued_eq p w f
  generalize s.commandQueued p w f = r at hjnl hqueued
  unfold OnlyJournal at *
  rw [hjnl, hqueued]

end

/-! ### CMD -/

section
variable {s : State} {p w : Fin 4} {f : Frame} (hin : s.inOrder p.val f = true) (htx : (s.port p.val).txq = [])
  (hw : s.portWard p.val = some w.val)
include hin htx hw

/-- Before RUN a frame waits at its port. -/
theorem cmd_waits (hphase : s.g RST_STATUS_PHASE < 5) : Gives (.cmd p f) s (fun t => OnlyComm s t ∧ t.outs = s.outs ∧
    (t.port p.val).early = (s.port p.val).early ++ [f]) := by
  have hmoved := PortsMoved.delivered s (p := p.val) f
  have hearly : (s.delivered p.val f).g RST_STATUS_PHASE < 5 := by rwa [State.g_congr hmoved.regs]
  refine ⟨_, congrArg Host.Outcome.next ((State.onHost_delivered 0x85 _ hin htx hw).trans (if_pos hearly)),
    hmoved.onlyComm.trans (OnlyComm.modPort _ _ _), ?_, ?_⟩
  · rw [State.modPort_outs, hmoved.outs]
  · rw [State.port_modPort_self _ _ _ (by omega), s.delivered_port f p.isLt, s.headed_port f p.isLt]

/-- A frame that passes the checks is queued, and its ACCEPTED record asked for. -/
theorem exec_cmd_accepted (hphase : 5 ≤ s.g RST_STATUS_PHASE) (hacks : (s.port p.val).acks.takeWhile (fun o => o.wait.isNone) = [])
    (hcheck : s.acceptCheck w (f.queue.toNat % 8) f.payload = 0) : exec (.cmd p f) s =
      .next (((s.delivered p.val f).commandQueued p w f).record .accepted (some s.jnl.nextId) [] []) := by
  have hmoved := PortsMoved.delivered s (p := p.val) f
  have hrun := exec_cmd_delivered hin hw htx hphase
  have hjnl : (s.delivered p.val f).jnl = s.jnl := by rw [hmoved]
  simp only [State.cmdFrame, hmoved.acceptCheck, hcheck, ne_eq, not_true_eq_false, if_false] at hrun
  rwa [State.cmdAccepted_eq p w f (by rwa [s.delivered_port f p.isLt, s.headed_port f p.isLt]), hjnl] at hrun

theorem cmd_accepted (hphase : 5 ≤ s.g RST_STATUS_PHASE) (hacks : (s.port p.val).acks.takeWhile (fun o => o.wait.isNone) = [])
    (hcheck : s.acceptCheck w (f.queue.toNat % 8) f.payload = 0) : Gives (.cmd p f) s (fun t =>
      t.cmds.map (fun x => { x with jseq := none }) = (s.cmds ++ [s.commandOf p w f]).map (fun x => { x with jseq := none }) ∧
      t.holdsDue .accepted s.jnl.nextId (fun _ => True) ∧ t.g (WRD_QSTATUS_LAST_TAG w.val (f.queue.toNat % 8)) = f.tag.toNat ∧
      (t.port p.val).acks = (s.port p.val).acks ++ [⟨some s.jnl.nextId, dataFrame 0x85 0 f.tag (f.queue.toNat % 8) []⟩] ∧
      (s.alone → RegsKept [WRD_QSTATUS w.val (f.queue.toNat % 8)] s t ∧
        OnlyJournal { s with regs := t.regs, ports := t.ports, wards := t.wards } t)) := by
  have hmoved := PortsMoved.delivered s (p := p.val) f
  have hrun := exec_cmd_accepted hin htx hw hphase hacks hcheck
  have hkept : ((s.delivered p.val f).port p.val).acks = (s.port p.val).acks := by
    rw [s.delivered_port f p.isLt, s.headed_port f p.isLt]
  have htable : (s.delivered p.val f).cmds = s.cmds ∧ (s.delivered p.val f).commandOf p w f = s.commandOf p w f ∧
      (s.delivered p.val f).jnl = s.jnl := by
    rw [hmoved]
    exact ⟨rfl, rfl, rfl⟩
  generalize s.delivered p.val f = u at hmoved hrun hkept htable
  obtain ⟨hcmds, hcmd, hjnl⟩ := htable
  have htest : ∀ l, WRD_QSTATUS w.val (f.queue.toNat % 8) ≠ LN_TEST l := fun l => by
    simp only [WRD_QSTATUS, LN_TEST]
    omega
  refine ⟨_, hrun, ?_, ⟨_, State.awaits_record _ _ _ _ _, rfl, rfl, trivial⟩, ?_, ?_, fun halone => ?_⟩
  · rw [← hcmd, ← hcmds]
    exact (State.record_cmds _ _ _ _ _).trans (congrArg (fun x : State => x.cmds.map Cmd.unnumbered) (u.commandQueued_eq p w f))
  · exact ((RecordsMoved.record _ _ _ _ _).g htest).trans (u.commandQueued_tag p w f)
  · rw [State.port_record (by omega), u.commandQueued_acks, hkept, hjnl]
  · obtain ⟨hregs, honly⟩ := OnlyJournal.commandQueued_record p w f ((State.alone_congr hmoved.regs).2 halone) _ rfl
    rw [hjnl] at hregs honly
    refine ⟨fun a ha => (hregs a ha).trans (State.rd_congr hmoved.regs a), ?_⟩
    generalize (u.commandQueued p w f).record .accepted (some s.jnl.nextId) [] [] = t at honly
    unfold OnlyJournal PortsMoved at *
    rw [honly, hmoved]

end

/-- What the header of a command says of it. -/
theorem State.commandOf_fields (s : State) (p w : Fin 4) {f : Frame} {op n : Nat} {fence notify : Bool} (hop : op ∈ opcodes) (hn : n < 2 ^ 11)
    (hh : u f.payload 0 8 = op + 2 ^ 16 * n + 2 ^ 32 * b2n fence + 2 ^ 33 * b2n notify) :
    (s.commandOf p w f).opcode = op ∧ (s.commandOf p w f).hdr.toNat = u f.payload 0 8 ∧ (s.commandOf p w f).args = sub f.payload 8 n ∧
      (s.commandOf p w f).fence = fence ∧ (s.commandOf p w f).notify = notify := by
  obtain ⟨hlow, hlen, -, -, hfence, hnotify, hlt⟩ := cmdHeader_fields hh hop hn
  have hbit {i : Nat} {b : Bool} (h : u f.payload 0 8 / 2 ^ i % 2 = b2n b) : nbit (u f.payload 0 8) i = b := by
    rw [nbit, Nat.testBit_eq_decide_div_mod_eq, h]
    cases b <;> rfl
  refine ⟨(nbits_eq 15 0 _).trans (by simpa using hlow), ?_, ?_, hbit hfence, hbit hnotify⟩
  · exact (BitVec.toNat_ofNat _ _).trans (Nat.mod_eq_of_lt hlt)
  · show sub f.payload 8 (nbits 26 16 (u f.payload 0 8)) = _
    rw [nbits_eq, hlen]

/-- Settles O5. Every check passes, so the command is queued; the record moves what records move in any role, and no host port. -/
theorem commandsAreAccepted : Obligations.CommandsAreAccepted := by
  unfold Obligations.CommandsAreAccepted
  intro s p w f op n fence notify hin htx hw
  refine ⟨fun hphase hacks hop hplan htakes hout hdepth hn hh hlen => ?_, cmd_waits hin htx hw⟩
  have hn' : n < 2 ^ 11 := by omega
  obtain ⟨hlow, hbytes, -⟩ := cmdHeader_fields hh hop hn'
  have hfits : cmdFits f.payload := by
    have hround : 8 ≤ roundUp 8 (8 + n) := by unfold roundUp; omega
    exact ⟨hlen ▸ hround, by rw [hbytes]; exact hlen⟩
  have hcheck : s.acceptCheck w (f.queue.toNat % 8) f.payload = 0 := by
    rw [State.acceptCheck_of_fits hfits, if_neg (not_not_intro (cmdHeader_known hh hop hn')), hlow, if_neg (not_not_intro hplan),
      if_neg (not_not_intro htakes), if_neg (by simp [hout]), if_neg (by omega)]
  obtain ⟨t, ht, hcmds, hdue, htag, hack, halone⟩ := cmd_accepted hin htx hw hphase hacks hcheck
  obtain ⟨hopcode, hhdr, hargs, hfence, hnotify⟩ := s.commandOf_fields p w hop hn' hh
  refine ⟨t, ht, ⟨s.commandOf p w f, rfl, rfl, ?_, rfl, rfl, hopcode, hhdr, hargs, hfence, hnotify, rfl, rfl, rfl, rfl, hcmds⟩, hdue, htag,
    hack, halone⟩
  exact Nat.mod_mod _ _

end Sys2Proof.Machine
end

section
/-! SUPPORT. Link frames, replay, link hold and EVENT frames of a host port (R42 to R48, R59, R60). -/

namespace Sys2Proof.Machine

/-! ### What a frame leaves the wire with -/

theorem framesOf_append (l m : List Out) : framesOf (l ++ m) = framesOf l ++ framesOf m := List.filterMap_append

/-- LIVE_INJ sends ordered sets and no frame (R247). -/
theorem State.liveInj_frames (s : State) (p : Nat) :
    framesOf (s.liveInj p).outs = framesOf s.outs ∧ (s.liveInj p).wards = s.wards := by
  unfold State.liveInj forEach
  generalize grpLanes p = ls
  induction ls generalizing s with
  | nil => exact ⟨rfl, rfl⟩
  | cons x t ih =>
    rw [List.foldl_cons]
    beta_reduce
    split
    · obtain ⟨houts, hwards⟩ := ih ((s.pb (LN_TEST_LIVE_INJ x) false).laneSet x 5 [])
      refine ⟨houts.trans ?_, hwards⟩
      exact (framesOf_append _ _).trans (List.append_nil _)
    · exact ih s

theorem State.sendData_wards (s : State) (p : Nat) (f : TxFrame) : (s.sendData p f).wards = s.wards := by
  unfold State.sendData State.sendOut
  simp only [State.modPort_wards, State.emit_wards, (State.liveInj_frames _ p).2]

/-! ### What frames leave of the event queues -/

theorem State.pumpOne_wards (s : State) (p : Nat) : (s.pumpOne p).wards = s.wards := by
  unfold State.pumpOne
  split
  · split
    · rw [State.sendData_wards, State.modPort_wards]
    · rfl
  · split
    · split
      · dsimp only
        split
        · rw [State.sendData_wards]
        · rfl
      · rfl
    · rfl

theorem State.sendFrame_wards (s : State) (p : Nat) (f : TxFrame) : (s.sendFrame p f).wards = s.wards := by
  have hpump (l : List Nat) (t : State) : (l.foldl (fun s _ => s.pumpOne p) t).wards = t.wards := by
    induction l generalizing t with
    | nil => rfl
    | cons x l ih => rw [List.foldl_cons, ih, State.pumpOne_wards]
  unfold State.sendFrame State.pump
  rw [hpump, State.modPort_wards]

theorem State.respond_wards (s : State) (p : Nat) (o : Owed) : (s.respond p o).wards = s.wards := by
  have hsend (l : List Owed) (t : State) : (forEach l t (fun o s => s.sendFrame p o.frame)).wards = t.wards := by
    induction l generalizing t with
    | nil => rfl
    | cons x l ih => exact (ih _).trans (State.sendFrame_wards _ _ _)
  unfold State.respond State.flushResps
  rw [hsend, State.modPort_wards, State.modPort_wards]

/-! ### Replay (R46) -/

/-- The frames `l` leave again, in order. -/
def State.sendAgain (s : State) (p : Nat) (l : List TxFrame) : State := forEach l s (fun f s => (s.liveInj p).sendOut p f)

theorem State.sendAgain_frames (s : State) {p : Nat} (hp : p < 7) (l : List TxFrame) :
    framesOf (s.sendAgain p l).outs = framesOf s.outs ++ l ∧ ((s.sendAgain p l).port p).replay = (s.port p).replay ∧
      ((s.sendAgain p l).port p).replays = (s.port p).replays := by
  induction l generalizing s with
  | nil => exact ⟨(List.append_nil _).symm, rfl, rfl⟩
  | cons f l ih =>
    obtain ⟨houts, hreplay, hreplays⟩ := ih ((s.liveInj p).sendOut p f)
    obtain ⟨a, h, d, c, n, hsent⟩ := (s.liveInj p).sendOut_outs p f
    have hport : ((s.liveInj p).sendOut p f).port p = { s.port p with
        owedHdr := (s.port p).owedHdr - min 255 (s.port p).owedHdr, owedData := (s.port p).owedData - min 255 (s.port p).owedData } := by
      unfold State.sendOut
      dsimp only
      rw [State.port_modPort_self _ _ _ hp, State.port_congr (State.emit_ports _ _), State.port_congr (State.liveInj_ports s p).1]
    rw [hsent, framesOf_append, (State.liveInj_frames s p).1, List.append_assoc] at houts
    rw [hport] at hreplay hreplays
    exact ⟨houts, hreplay, hreplays⟩

/-- Below the limit every unacknowledged frame is sent again. -/
theorem State.resend_frames (s : State) (p : Fin 4) (hne : (s.port p.val).replay ≠ [])
    (hlimit : (s.port p.val).replays < s.g (LNK_PORT_CFG_REPLAY_LIMIT p.val)) :
    framesOf (s.resend p.val).outs = framesOf s.outs ++ (s.port p.val).replay ∧
      ((s.resend p.val).port p.val).replay = (s.port p.val).replay ∧
      ((s.resend p.val).port p.val).replays = (s.port p.val).replays + 1 := by
  have hlim : ¬ s.replayLimit p.val ≤ (s.port p.val).replays := by
    unfold State.replayLimit
    rw [if_pos p.isLt]
    omega
  have hport : ((s.modPort p.val (fun q => { q with replays := q.replays + 1 })).inc (LNK_PORT_STATUS_REPLAYS p.val) 1).port p.val =
      { s.port p.val with replays := (s.port p.val).replays + 1 } := by
    rw [State.port_congr (State.inc_ports _ _ _), State.port_modPort_self _ _ _ (by omega)]
  obtain ⟨houts, hreplay, hreplays⟩ := State.sendAgain_frames
    ((s.modPort p.val (fun q => { q with replays := q.replays + 1 })).inc (LNK_PORT_STATUS_REPLAYS p.val) 1) (p := p.val) (by omega)
    (s.port p.val).replay
  rw [State.inc_outs, State.modPort_outs] at houts
  rw [hport] at hreplay hreplays
  unfold State.resend
  simp only [if_neg hne, if_neg hlim, if_pos p.isLt]
  exact ⟨houts, hreplay, hreplays⟩

/-! ### Link frames (R42, R44, R47) -/

section
variable {s : State} {p : Fin 4} {f : Frame} (hhears : s.portHears p.val f.type = true)
include hhears

theorem credit_corrupted (hcor : s.corrupted p.val f = true) (hnak : (s.port p.val).nakSent = true) :
    Gives (.credit ⟨p.val, by omega⟩ f) s (fun t => t = s.inc (LNK_PORT_ERR_CRC_ERR p.val) 1) := by
  have hport : ((s.inc (LNK_PORT_ERR_CRC_ERR p.val) 1).port p.val).nakSent = true := by
    rwa [State.port_congr (State.inc_ports _ _ _)]
  refine ⟨_, rfl, ?_⟩
  simp only [State.onLink, hhears, hcor, State.portErr, p.isLt, if_true, Bool.not_true, Bool.false_eq_true, if_false, State.nakOnce, hport]

variable (htx : (s.port p.val).txq = []) (hcor : s.corrupted p.val f = false)
include htx hcor

theorem State.onLink_headed (act : State → State) : s.onLink p.val f act = act (s.headed p.val f) := by
  simp only [State.onLink, hhears, hcor, Bool.not_true, Bool.false_eq_true, if_false, s.rxHeader_eq f p.isLt htx]

theorem credit_taken : Gives (.credit ⟨p.val, by omega⟩ f) s (fun t =>
      (t.port p.val).peerHdr = (s.port p.val).peerHdr + f.crdHdr.toNat ∧
      (t.port p.val).peerData = (s.port p.val).peerData + f.crdData.toNat ∧
      (t.port p.val).replay = (s.port p.val).replay.dropWhile (fun x => covers f.ack x.seq) ∧
      t = { s with ports := t.ports, wards := t.wards }) := by
  refine ⟨_, congrArg Host.Outcome.next (State.onLink_headed hhears htx hcor id), ?_⟩
  have hport := s.headed_port f p.isLt
  exact ⟨congrArg Port.peerHdr hport, congrArg Port.peerData hport, congrArg Port.replay hport, PortsMoved.headed s f⟩

theorem nak_resends (hne : (s.port p.val).replay.dropWhile (fun x => covers f.ack x.seq) ≠ [])
    (hlimit : (s.port p.val).replays < s.g (LNK_PORT_CFG_REPLAY_LIMIT p.val)) :
    Gives (.nak ⟨p.val, by omega⟩ f) s (fun t =>
      framesOf t.outs = framesOf s.outs ++ (s.port p.val).replay.dropWhile (fun x => covers f.ack x.seq) ∧
      (t.port p.val).replay = (s.port p.val).replay.dropWhile (fun x => covers f.ack x.seq)) := by
  have hmoved := PortsMoved.headed s (p := p.val) f
  have hport := s.headed_port f p.isLt
  have hreplay := congrArg Port.replay hport
  have hreplays : ((s.headed p.val f).port p.val).replays ≤ (s.port p.val).replays := by
    rw [hport]
    dsimp only
    split <;> omega
  obtain ⟨houts, hkept, -⟩ := (s.headed p.val f).resend_frames p (by rw [hreplay]; exact hne) (by
    rw [State.g_congr hmoved.regs]; omega)
  rw [hmoved.outs, hreplay] at houts
  exact ⟨_, congrArg Host.Outcome.next (State.onLink_headed hhears htx hcor _), houts, hkept.trans hreplay⟩

end

/-- R43: a data frame of an unknown type takes its SEQ and counts. -/
theorem unknownFrame_counted {s : State} {p : Fin 4} {f : Frame} (htx : (s.port p.val).txq = []) (hin : s.inOrder p.val f = true) :
    Gives (.unknownFrame ⟨p.val, by omega⟩ f) s (fun t =>
      (t.port p.val).rxNext = (s.port p.val).rxNext + 1#16 ∧
      t.g (LNK_PORT_ERR_SEQ_ERR p.val) = satAdd 16 (s.g (LNK_PORT_ERR_SEQ_ERR p.val)) 1 ∧
      RegsKept [LNK_PORT_ERR p.val] s t ∧ t.outs = s.outs) := by
  have hmoved := PortsMoved.delivered s (p := p.val) f
  have hrun : exec (.unknownFrame ⟨p.val, by omega⟩ f) s =
      .next ((s.delivered p.val f).inc (LNK_PORT_ERR_SEQ_ERR p.val) 1) := by
    refine congrArg Host.Outcome.next ((s.onData_delivered f p.isLt _ hin htx).trans ?_)
    exact if_pos p.isLt
  refine ⟨_, hrun, ?_, ?_, fun a ha => ?_, ?_⟩
  · rw [State.port_congr (State.inc_ports _ _ _), s.delivered_port f p.isLt]
  · unfold State.inc
    rw [State.g_congr hmoved.regs]
    exact State.g_p_fits _ (by simp [LNK_PORT_ERR_SEQ_ERR]) (satAdd_lt _ _ _)
  · unfold State.inc
    rw [State.rd_p_ne _ _ _ (by simpa [LNK_PORT_ERR_SEQ_ERR] using ha), State.rd_congr hmoved.regs]
  · rw [State.inc_outs, hmoved.outs]

theorem ackTimeout_resends {s : State} {p : Fin 4} (hup : s.portUp p.val = true) (hne : (s.port p.val).replay ≠ [])
    (hlimit : (s.port p.val).replays < s.g (LNK_PORT_CFG_REPLAY_LIMIT p.val)) : Gives (.ackTimeout ⟨p.val, by omega⟩) s (fun t =>
      framesOf t.outs = framesOf s.outs ++ (s.port p.val).replay ∧ (t.port p.val).replay = (s.port p.val).replay ∧
      (t.port p.val).replays = (s.port p.val).replays + 1) :=
  ⟨_, congrArg Host.Outcome.next (if_pos hup), s.resend_frames p hne hlimit⟩

/-! ### LINK_HOLD (R48, R60) -/

/-- What waits in the event queues still does. -/
def EventsKept (s t : State) : Prop := ∀ (w : Fin 4), ∀ e ∈ (s.wst w.val).evq, e ∈ (t.wst w.val).evq

theorem EventsKept.trans {s t u : State} (h : EventsKept s t) (h' : EventsKept t u) : EventsKept s u :=
  fun w e he => h' w e (h w e he)

theorem EventsKept.of_wards {s t : State} (h : t.wards = s.wards) : EventsKept s t := fun w e he => by
  rwa [State.wst_congr h]

theorem EventsKept.forEach {α : Type} (l : List α) {f : α → State → State} (h : ∀ x t, EventsKept t (f x t)) (s : State) :
    EventsKept s (forEach l s f) := by
  induction l generalizing s with
  | nil => exact EventsKept.of_wards rfl
  | cons x l ih => exact (h x s).trans (ih (f x s))

theorem EventsKept.modWard (s : State) (w : Nat) {f : WardSt → WardSt} (h : ∀ x, ∀ e ∈ x.evq, e ∈ (f x).evq) :
    EventsKept s (s.modWard w f) := fun v e he => by
  by_cases hv : v.val = w
  · subst hv
    rw [State.wst_modWard_self _ _ _ v.isLt]
    exact h _ e he
  · rwa [State.wst_modWard_ne _ _ hv]

theorem mem_evInsert {e x : Ev} {l : List Ev} (h : x ∈ l) : x ∈ evInsert e l := by
  induction l with
  | nil => cases h
  | cons y t ih =>
    unfold evInsert
    split
    · exact List.mem_cons_of_mem _ h
    · rcases List.mem_cons.1 h with rfl | ht
      · exact List.mem_cons_self
      · exact List.mem_cons_of_mem _ (ih ht)

/-- A record enters behind those in flight, and no other is lost (R60). -/
theorem mem_evPush (now : Stamp) (e : Ev) (x : WardSt) : ∀ y ∈ x.evq, y ∈ (evPush now e x).evq := by
  have hin (e : Ev) (n : Nat) (l : List Ev) : ∀ y ∈ l, y ∈ l.take n ++ evInsert e (l.drop n) := fun y hy => by
    rw [← List.take_append_drop n l] at hy
    rw [List.mem_append] at hy ⊢
    exact hy.imp id mem_evInsert
  intro y hy
  unfold evPush
  dsimp only
  split
  · split
    · exact hin _ _ _ y hy
    · split
      · exact hin _ _ _ y (hin _ _ _ y hy)
      · exact hin _ _ _ y hy
  · exact hy

theorem EventsKept.eventAll (s : State) (c x : Nat) : EventsKept s (s.eventAll c x) := by
  refine EventsKept.forEach _ (fun w t => ?_) s
  unfold State.event State.post
  split
  · exact EventsKept.modWard t w (mem_evPush _ _)
  · exact EventsKept.of_wards rfl

/-- The Wards of port `p` have no event record in flight any more. -/
def State.flightEnded (s : State) (p : Nat) : State :=
  forEach (List.range 4) s (fun w s => if (s.ward w).port = p then s.modWard w (fun x => { x with flight := 0 }) else s)

theorem State.flightEnded_eq (s : State) (p : Nat) : s.flightEnded p = { s with wards := (s.flightEnded p).wards } := by
  refine forEach_wards _ s _ fun w t => ?_
  split
  · exact State.modWard_eq _ _ _
  · rfl

theorem State.flightEnded_ports (s : State) (p : Nat) : (s.flightEnded p).ports = s.ports := by rw [State.flightEnded_eq]

theorem EventsKept.flightEnded (s : State) (p : Nat) : EventsKept s (s.flightEnded p) := by
  refine EventsKept.forEach _ (fun w t => ?_) s
  split
  · exact EventsKept.modWard t w (fun _ _ he => he)
  · exact EventsKept.of_wards rfl

/-- Port `p` forgets its link state. -/
def State.linkDropped (s : State) (p : Nat) : State := (s.modPort p (fun _ => .zero)).flightEnded p

/-- DOWNS counts, and no lane is in use. -/
def State.linkCounted (s : State) (p : Nat) : State :=
  ((s.inc (LNK_PORT_ERR_DOWNS p) 1).p (LN_GRP_STATUS_WIDTH p) 0).p (LN_GRP_STATUS_LANES p) 0

section
variable (s : State) (p : Fin 4)

theorem PortsMoved.linkDropped : PortsMoved s (s.linkDropped p.val) := by
  unfold PortsMoved State.linkDropped
  rw [State.flightEnded_eq, State.modPort_eq]

theorem State.linkDropped_port : (s.linkDropped p.val).port p.val = .zero := by
  unfold State.linkDropped
  rw [State.port_congr (State.flightEnded_ports _ _), State.port_modPort_self _ _ _ (by omega)]

theorem EventsKept.linkDropped : EventsKept s (s.linkDropped p.val) :=
  (EventsKept.of_wards (State.modPort_wards s p.val (fun _ => .zero))).trans (EventsKept.flightEnded _ _)

theorem OnlyRegs.linkCounted : OnlyRegs s (s.linkCounted p.val) :=
  ((OnlyRegs.p s _ _).trans (OnlyRegs.p _ _ _)).trans (OnlyRegs.p _ _ _)

theorem State.linkCounted_state : (s.linkCounted p.val).g (LN_GRP_STATUS_STATE p.val) = s.g (LN_GRP_STATUS_STATE p.val) := by
  have hlanes : (LN_GRP_STATUS_LANES p.val).apart (LN_GRP_STATUS_STATE p.val) := by
    simp [FRef.apart, LN_GRP_STATUS_LANES, LN_GRP_STATUS_STATE]
  have hwidth : (LN_GRP_STATUS_WIDTH p.val).apart (LN_GRP_STATUS_STATE p.val) := by
    simp [FRef.apart, LN_GRP_STATUS_WIDTH, LN_GRP_STATUS_STATE]
  have haddr : (LN_GRP_STATUS_STATE p.val).addr ≠ (LNK_PORT_ERR_DOWNS p.val).addr := by
    simp only [LN_GRP_STATUS_STATE, LN_GRP_STATUS, LNK_PORT_ERR_DOWNS, LNK_PORT_ERR]
    omega
  unfold State.linkCounted State.inc
  rw [State.g_p_apart _ hlanes, State.g_p_apart _ hwidth, State.g_p_addr _ _ _ _ haddr]

end

theorem OnlyRegs.port {s t : State} (h : OnlyRegs s t) (p : Nat) : t.port p = s.port p := State.port_congr (by rw [h]) p

/-- A group that comes DOWN leaves STATE 0 and an event. -/
theorem State.grpState_down {s : State} {p : Fin 4} (h : s.g (LN_GRP_STATUS_STATE p.val) ≠ 0) :
    ((s.grpState p.val 0).g (LN_GRP_STATUS_STATE p.val) = 0 ∧ (s.grpState p.val 0).port p.val = s.port p.val) ∧
      EventsKept s (s.grpState p.val 0) ∧ (s.grpState p.val 0).outs = s.outs := by
  have hzero : (s.p (LN_GRP_STATUS_STATE p.val) 0).g (LN_GRP_STATUS_STATE p.val) = 0 :=
    State.g_p_fits s (by simp [LN_GRP_STATUS_STATE]) (by simp [LN_GRP_STATUS_STATE])
  unfold State.grpState
  rw [if_neg h]
  generalize hr : s.p (LN_GRP_STATUS_STATE p.val) 0 = r at hzero
  have hregs : OnlyRegs s r := hr ▸ OnlyRegs.p s _ _
  refine ⟨⟨?_, ?_⟩, ?_, ?_⟩
  · rw [State.g_eventAll, hzero]
  · rw [State.port_congr (State.eventAll_ports _ _ _), hregs.port]
  · exact (EventsKept.of_wards (by rw [hregs])).trans (EventsKept.eventAll _ _ _)
  · rw [State.eventAll_outs, hregs.outs]

theorem linkHold_downs {s : State} {p : Fin 4} (hhold : (s.port p.val).holding = true) (hstate : s.g (LN_GRP_STATUS_STATE p.val) = 1) :
    Gives (.linkHold ⟨p.val, by omega⟩) s (fun t => t.g (LN_GRP_STATUS_STATE p.val) = 0 ∧ t.port p.val = .zero ∧
      (∀ w : Fin 4, ∀ e ∈ (s.wst w.val).evq, e ∈ (t.wst w.val).evq) ∧ t.outs = s.outs) := by
  have hdown : ¬ (4 ≤ p.val ∨ (!(s.port p.val).holding) = true ∨ s.g (LN_GRP_STATUS_STATE p.val) = 2) := by
    rw [hhold, hstate]
    simp
  have hmoved := PortsMoved.linkDropped s p
  have hcounted := OnlyRegs.linkCounted (s.linkDropped p.val) p
  have hrun : exec (.linkHold ⟨p.val, by omega⟩) s = .next (((s.linkDropped p.val).linkCounted p.val).grpState p.val 0) :=
    congrArg Host.Outcome.next (if_neg hdown)
  have hup : ((s.linkDropped p.val).linkCounted p.val).g (LN_GRP_STATUS_STATE p.val) ≠ 0 := by
    rw [State.linkCounted_state, State.g_congr hmoved.regs, hstate]
    decide
  obtain ⟨⟨hzero, hport⟩, hevents, houts⟩ := State.grpState_down hup
  refine ⟨_, hrun, hzero, ?_, ?_, ?_⟩
  · rw [hport, hcounted.port, s.linkDropped_port]
  · exact (EventsKept.linkDropped s p).trans ((EventsKept.of_wards (by rw [hcounted])).trans hevents)
  · rw [houts, hcounted.outs, hmoved.outs]

/-! ### EVENT frames (R59, R60) -/

/-- One more event record of Ward `w` is in flight. -/
def State.eventInFlight (s : State) (w : Nat) : State := s.modWard w (fun x => { x with flight := x.flight + 1 })

/-- The EVENT frame of one record of Ward `w`. -/
def eventFrame (w : Fin 4) (e : Ev) : TxFrame := ⟨0#16, 0x87#8, 0#8, 0#16, 0#8, e.bytes, some w, 1⟩

theorem State.eventFrame_sent (s : State) {p : Nat} {w : Fin 4} {e : Ev} (hp : p < 4) (h : s.mayFollow p e.bytes.length = true) :
    Sent s (s.sendFrame p (eventFrame w e)) p 0x87 0 0#16 0 e.bytes := by
  rw [s.sendFrame_eq_sendData p (eventFrame w e) hp h]
  obtain ⟨l, x, a, hd, d, c, n, houts⟩ := State.sendData_outs ((s.modPort p (fun q =>
    { q with txq := q.txq ++ [eventFrame w e] })).modPort p (fun q => { q with txq := [] })) p (eventFrame w e)
  rw [State.modPort_outs, State.modPort_outs] at houts
  exact ⟨l, _, a, hd, d, c, n, houts, rfl, rfl, rfl, rfl, rfl⟩

theorem Ev.bytes_length {e : Ev} (h : e.data = []) : e.bytes.length = 32 := by simp [Ev.bytes, h]

theorem State.canSend_of_maySend {s : State} {p : Nat} {f : TxFrame} (h : s.maySend p f.payload.length = true) : s.canSend p f = true := by
  simp only [State.maySend, Bool.and_eq_true, decide_eq_true_eq] at h
  obtain ⟨⟨⟨⟨⟨⟨-, hup⟩, hin⟩, -⟩, hreplay⟩, hhdr⟩, hdata⟩ := h
  simp [State.canSend, State.carries, hup, hin, hreplay, hhdr, hdata]

section
variable {s : State} {w : Fin 4} {e : Ev} (hen : (s.ward w.val).enable = true) (hport : (s.ward w.val).port < 4) (hdata : e.data = [])
  (hsend : s.maySend (s.ward w.val).port 32 = true) (hq : (s.wst w.val).evq = [e]) (hflight : (s.wst w.val).flight = 0)
include hen hport hdata hsend hq hflight

theorem exec_eventFrameSend_one : exec (.eventFrameSend w) s =
    .next ((s.eventInFlight w.val).sendFrame (s.ward w.val).port (eventFrame w e)) := by
  have htx : (s.port (s.ward w.val).port).txq = [] := State.txq_of_maySend (p := ⟨_, hport⟩) hsend
  have hcan : s.canSend (s.ward w.val).port (eventFrame w e) = true := by
    refine State.canSend_of_maySend (f := eventFrame w e) ?_
    rwa [show (eventFrame w e).payload.length = 32 from Ev.bytes_length hdata]
  have hpack : eventPack ((s.wst w.val).evq.drop (s.wst w.val).flight) = [e] := by
    simp [hq, hflight, eventPack, hdata]
  have hflat : [e].flatMap Ev.bytes = e.bytes := by simp
  show execEventFrameSend w s = _
  unfold execEventFrameSend
  dsimp only
  rw [hpack, hflat]
  exact congrArg Host.Outcome.next (if_neg (by simpa [hen, htx, eventFrame] using hcan))

theorem eventFrameSend_one : Gives (.eventFrameSend w) s (fun t => OnlyComm s t ∧ Sent s t (s.ward w.val).port 0x87 0 0#16 0 e.bytes ∧
    (t.wst w.val).evq = [e] ∧ (t.wst w.val).flight = 1) := by
  have hframe : s.eventInFlight w.val = { s with wards := (s.eventInFlight w.val).wards } := State.modWard_eq _ _ _
  have hwst : (s.eventInFlight w.val).wst w.val = { s.wst w.val with flight := (s.wst w.val).flight + 1 } :=
    State.wst_modWard_self _ _ _ w.isLt
  have hcomm : OnlyComm s (s.eventInFlight w.val) := OnlyComm.modWard _ _ _
  have hrun := exec_eventFrameSend_one hen hport hdata hsend hq hflight
  generalize s.eventInFlight w.val = u at hframe hwst hcomm hrun
  have hup : u.portUp (s.ward w.val).port = s.portUp (s.ward w.val).port := by
    rw [hframe]
    rfl
  have hfollow : u.mayFollow (s.ward w.val).port e.bytes.length = true := by
    rw [State.mayFollow_congr (s := s) (by omega) hup (State.port_congr (by rw [hframe]) _) (by rw [hframe]), Ev.bytes_length hdata]
    exact State.mayFollow_of_maySend (p := ⟨_, hport⟩) hsend
  have hsent := u.sendFrame_wards (s.ward w.val).port (eventFrame w e)
  refine ⟨_, hrun, hcomm.trans (OnlyComm.sendFrame _ _ _ (by omega)), ?_, ?_, ?_⟩
  · exact (u.eventFrame_sent hport hfollow).of_outs (by rw [hframe])
  · rw [State.wst_congr hsent, hwst]
    exact hq
  · rw [State.wst_congr hsent, hwst]
    exact congrArg (· + 1) hflight

end

/-- Settles O7. A link frame acts on what its header leaves; what a port sends again leaves its buffer as it is; event records leave
their queue by acknowledgement only. -/
theorem linksCarryFrames : Obligations.LinksCarryFrames := by
  unfold Obligations.LinksCarryFrames
  refine ⟨fun s p f hhears htx => ⟨credit_corrupted hhears, fun hcor => ⟨unknownFrame_counted htx, credit_taken hhears htx hcor,
    nak_resends hhears htx hcor⟩, fun hne hlimit => ackTimeout_resends ?_ hne hlimit⟩, fun s => ⟨fun p => linkHold_downs,
    fun w e hen hport hdata hsend hq hflight => eventFrameSend_one hen hport hdata hsend hq hflight⟩⟩
  simp only [State.portHears, State.carries, Bool.and_eq_true] at hhears
  obtain ⟨⟨hup, -⟩, -⟩ := hhears
  exact hup

end Sys2Proof.Machine
end

section
/-! SUPPORT. Register reads of a host (R49, R52, R53): what a read itself moves, the checks on a run of registers in order, and whose
registers a Ward reads and writes. -/

namespace Sys2Proof.Machine

/-! ### What a read moves (R253, R364) -/

/-- `t` is `s` but for a demand for a clock and the latched reading of the time base. -/
structure ReadMoved (s t : State) : Prop where
  frame : t = { s with pwr := { s.pwr with demand := t.pwr.demand }, tb := t.tb, regs := t.regs }
  rd : ∀ a, a ≠ TB_TIME_LO → a ≠ TB_TIME_HI → t.rd a = s.rd a

theorem ReadMoved.refl (s : State) : ReadMoved s s := ⟨rfl, fun _ _ _ => rfl⟩

theorem ReadMoved.trans {s t u : State} (h : ReadMoved s t) (h' : ReadMoved t u) : ReadMoved s u := by
  refine ⟨?_, fun a hlo hhi => (h'.rd a hlo hhi).trans (h.rd a hlo hhi)⟩
  rw [h'.frame]
  rw [h.frame]

theorem ReadMoved.touch (s : State) (a : Nat) : ReadMoved s (s.touch a) := by
  refine ⟨?_, fun b _ _ => s.rd_touch a b⟩
  obtain ⟨l, h⟩ := s.touch_eq a
  rw [h]

theorem ReadMoved.latched (s : State) (x : TbSt) (lo hi : Nat) :
    ReadMoved s ((({ s with tb := x } : State).p TB_TIME_LO_STAMP lo).p TB_TIME_HI_STAMP hi) := by
  have hregs : OnlyRegs { s with tb := x } ((({ s with tb := x } : State).p TB_TIME_LO_STAMP lo).p TB_TIME_HI_STAMP hi) :=
    (OnlyRegs.p _ _ _).trans (OnlyRegs.p _ _ _)
  refine ⟨by rw [hregs], fun a hlo hhi => ?_⟩
  exact (State.rd_p_ne _ TB_TIME_HI_STAMP _ hhi).trans ((State.rd_p_ne _ TB_TIME_LO_STAMP _ hlo).trans (State.rd_congr rfl a))

theorem ReadMoved.tbLatch (s : State) : ReadMoved s s.tbLatch := ReadMoved.latched s _ _ _

/-- No word of the non-volatile memory is marked, so that a read of it raises nothing. -/
theorem State.nvCe_of_unmarked {s : State} (h : s.nvmEcc = []) (a n : Nat) : s.nvCe a n = s := by
  simp [State.nvCe, State.nvMark, h]

/-- One more register is read, behind those that gave the values so far. -/
def readNext (w : Nat) (acc : State × List Word) (a : Nat) : State × List Word :=
  (acc.1.readEffect a, acc.2 ++ [(acc.1.readEffect a).readReg w a])

section
variable {s : State} (h : s.nvmEcc = [])
include h

theorem ReadMoved.readEffect (a : Nat) : ReadMoved s (s.readEffect a) := by
  have htouch := ReadMoved.touch s a
  have hecc : (s.touch a).nvmEcc = [] := by rw [htouch.frame, h]
  unfold State.readEffect
  dsimp only
  rw [State.nvCe_of_unmarked hecc, ite_self]
  split
  · exact htouch.trans (ReadMoved.tbLatch _)
  · exact htouch

theorem ReadMoved.readFold (w : Nat) (as : List Nat) (vs : List Word) :
    ReadMoved s (as.foldl (readNext w) (s, vs)).1 ∧ (as.foldl (readNext w) (s, vs)).2.length = vs.length + as.length := by
  induction as generalizing s vs with
  | nil => exact ⟨ReadMoved.refl s, rfl⟩
  | cons a as ih =>
    have hread := ReadMoved.readEffect h a
    have hecc : (s.readEffect a).nvmEcc = [] := by rw [hread.frame, h]
    obtain ⟨hmoved, hlen⟩ := ih hecc (vs ++ [(s.readEffect a).readReg w a])
    refine ⟨hread.trans hmoved, hlen.trans ?_⟩
    simp only [List.length_append, List.length_cons, List.length_nil]
    omega

theorem ReadMoved.readMany (w : Nat) (as : List Nat) : ReadMoved s (s.readMany w as).1 ∧ (s.readMany w as).2.length = as.length := by
  have hfold := ReadMoved.readFold h w as []
  rwa [List.length_nil, Nat.zero_add] at hfold

end

/-- A read keeps no frame from leaving. -/
theorem ReadMoved.maySend {s t : State} (h : ReadMoved s t) (p : Fin 4) (n : Nat) : t.maySend p.val n = s.maySend p.val n := by
  have hstate : t.g (LN_GRP_STATUS_STATE p.val) = s.g (LN_GRP_STATUS_STATE p.val) := by
    have hne : LN_GRP_STATUS p.val ≠ TB_TIME_LO ∧ LN_GRP_STATUS p.val ≠ TB_TIME_HI := by
      simp only [LN_GRP_STATUS, TB_TIME_LO, TB_TIME_HI]
      omega
    exact congrArg (fun x => getBits x 1 0) (h.rd _ hne.1 hne.2)
  have hup : t.portUp p.val = s.portUp p.val := by
    unfold State.portUp
    rw [hstate, h.frame]
  unfold State.maySend
  rw [hup, h.frame]
  rfl

theorem length_words (l : List Word) : (l.flatMap (fun v : Word => toLe 8 v.toNat)).length = 8 * l.length := by
  induction l with
  | nil => rfl
  | cons x l ih =>
    rw [List.flatMap_cons, List.length_append, ih, toLe_length, List.length_cons]
    omega

/-! ### The checks on a run of registers (R49) -/

theorem firstBadStatus_eq_zero {n : Nat} {g : Nat → Nat} (h : ∀ i, i < n → g i = 0) : firstBadStatus ((List.range n).map g) = 0 := by
  have hnone : ((List.range n).map g).find? (fun x => decide (x ≠ 0)) = none := by
    simpa using h
  rw [firstBadStatus, hnone, Option.getD_none]

/-- The first address that fails gives the status. -/
theorem firstBadStatus_eq {n i : Nat} {g : Nat → Nat} (hi : i < n) (hbefore : ∀ j, j < i → g j = 0) (hbad : g i ≠ 0) :
    firstBadStatus ((List.range n).map g) = g i := by
  have hfind : (List.range n).find? ((fun x => decide (x ≠ 0)) ∘ g) = some i := by
    rw [List.find?_range_eq_some]
    simpa [hi, hbad] using hbefore
  rw [firstBadStatus, List.find?_map, hfind]
  rfl

section
variable {s : State} {w : Fin 4} {write : Bool} {a n : Nat}

theorem State.regRunCheck_wide (h : 2 ^ 40 ≤ a) : s.regRunCheck w write a n = 2 := if_pos h

theorem State.regRunCheck_misaligned (h : a < 2 ^ 40) (hal : a % 8 ≠ 0) : s.regRunCheck w write a n = 1 := by
  unfold State.regRunCheck
  rw [if_neg (by omega), if_pos hal]

/-- The last register of the run decides whether all lie in the register space. -/
theorem State.regRunCheck_outside (h : a < 2 ^ 40) (hal : a % 8 = 0) (hn : 1 ≤ n) (hend : 0x10000000 < a + 8 * n) :
    s.regRunCheck w write a n = 2 := by
  have hlast : (List.range n).any (fun i => decide (0x10000000 ≤ a + 8 * i)) = true :=
    List.any_eq_true.2 ⟨n - 1, List.mem_range.2 (by omega), decide_eq_true (by omega)⟩
  unfold State.regRunCheck
  rw [if_neg (by omega), if_neg (by omega), if_pos hlast]

theorem State.regRunCheck_inside (hal : a % 8 = 0) (hend : a + 8 * n ≤ 0x10000000) :
    s.regRunCheck w write a n = firstBadStatus ((List.range n).map (fun i => s.regCheck (.ward w) write (a + 8 * i))) := by
  have hin : ¬ (List.range n).any (fun i => decide (0x10000000 ≤ a + 8 * i)) = true := by
    simp only [List.any_eq_true, List.mem_range, decide_eq_true_eq, not_exists, not_and]
    omega
  unfold State.regRunCheck
  rw [if_neg (by omega), if_neg (by omega), if_neg hin]

end

theorem PortsMoved.regRunCheck {s u : State} (h : PortsMoved s u) (w : Fin 4) (write : Bool) (a n : Nat) :
    u.regRunCheck w write a n = s.regRunCheck w write a n := by
  unfold State.regRunCheck
  simp only [h.regCheck]

/-! ### REG_RD -/

theorem exec_regRd_delivered {s : State} {p w : Fin 4} {f : Frame} (hin : s.inOrder p.val f = true) (hw : s.portWard p.val = some w.val)
    (htx : (s.port p.val).txq = []) : exec (.regRd p f) s = .next ((s.delivered p.val f).regRd p w f) :=
  congrArg Host.Outcome.next (State.onHost_delivered 0x81 (fun s w => s.regRd p w f) hin htx hw)

section
variable {s : State} {p w : Fin 4} {f : Frame} {a n : Nat} (hpay : f.payload = toLe 8 a ++ toLe 8 n) (ha : a < 2 ^ 64) (hn : n < 2 ^ 64)
include hpay ha hn

theorem State.regRd_eq : s.regRd p w f = if n = 0 ∨ 256 < n then s.answer p f 0x81 5 []
    else if s.regRunCheck w false a n ≠ 0 then s.answer p f 0x81 (s.regRunCheck w false a n) []
    else (s.readMany w.val ((List.range n).map (fun i => a + 8 * i))).1.answer p f 0x81 0
      ((s.readMany w.val ((List.range n).map (fun i => a + 8 * i))).2.flatMap (fun v => toLe 8 v.toNat)) := by
  have haddr : u f.payload 0 8 = a := by
    rw [hpay, u_front]
    omega
  have hcount : u f.payload 8 8 = n := by
    have h := u_toLe (toLe 8 a) [] 8 n
    rwa [List.append_nil, toLe_length, ← hpay, Nat.mod_eq_of_lt (by omega)] at h
  have hlen : f.payload.length = 16 := by simp [hpay]
  simp only [State.regRd, haddr, hcount, hlen, ne_eq, not_true_eq_false, false_or]

variable (hin : s.inOrder p.val f = true) (hw : s.portWard p.val = some w.val)
include hin hw

/-- A refused read is answered with its status, and nothing else happens. -/
theorem regRd_refused {st : Nat} (hsend : s.maySend p.val 0 = true)
    (hst : (n = 0 ∨ 256 < n) ∧ st = 5 ∨ 1 ≤ n ∧ n ≤ 256 ∧ s.regRunCheck w false a n = st ∧ st ≠ 0) :
    Gives (.regRd p f) s (fun t => OnlyComm s t ∧ Sent s t p.val 0x81 st f.tag 0 []) := by
  have hmoved := PortsMoved.delivered s (p := p.val) f
  have hrun := exec_regRd_delivered hin hw (State.txq_of_maySend hsend)
  have hanswer : (s.delivered p.val f).regRd p w f = (s.delivered p.val f).answer p f 0x81 st [] := by
    rw [State.regRd_eq hpay ha hn, hmoved.regRunCheck]
    rcases hst with ⟨hlen, rfl⟩ | ⟨hlo, hhi, hcheck, hne⟩
    · rw [if_pos hlen]
    · rw [if_neg (by omega), hcheck, if_pos hne]
  obtain ⟨hcomm, hsent⟩ := State.answer_sent (f := f) (ty := 0x81) (b := []) st (s.maySend_delivered f p.isLt hsend) hmoved.outs
  exact ⟨_, hrun.trans (congrArg Host.Outcome.next hanswer), hmoved.onlyComm.trans hcomm, hsent⟩

/-- A read that passes every check returns the values, as they stand when the frame is delivered. -/
theorem regRd_values (hecc : s.nvmEcc = []) (hsend : s.maySend p.val (8 * n) = true) (hlo : 1 ≤ n) (hhi : n ≤ 256)
    (hcheck : s.regRunCheck w false a n = 0) : Gives (.regRd p f) s (fun t => ∃ u : State,
      u = { s with ports := u.ports, wards := u.wards } ∧
      u.wards = t.wards ∧ OnlyComm (u.readMany w.val ((List.range n).map (fun i => a + 8 * i))).1 t ∧
      Sent s t p.val 0x81 0 f.tag 0
        ((u.readMany w.val ((List.range n).map (fun i => a + 8 * i))).2.flatMap (fun v : Word => toLe 8 v.toNat))) := by
  have hmoved := PortsMoved.delivered s (p := p.val) f
  have hrun := exec_regRd_delivered hin hw (State.txq_of_maySend hsend)
  have hmay := s.maySend_delivered f p.isLt hsend
  rw [State.regRd_eq hpay ha hn, hmoved.regRunCheck, hcheck, if_neg (by omega), if_neg (not_not_intro rfl)] at hrun
  generalize s.delivered p.val f = u at hmoved hrun hmay
  obtain ⟨hread, hlen⟩ := ReadMoved.readMany (s := u) (by rw [hmoved, hecc]) w.val ((List.range n).map (fun i => a + 8 * i))
  rw [List.length_map, List.length_range] at hlen
  obtain ⟨r, hr⟩ : ∃ r, u.readMany w.val ((List.range n).map (fun i => a + 8 * i)) = r := ⟨_, rfl⟩
  rw [hr] at hread hlen hrun
  obtain ⟨hcomm, hsent⟩ := State.answer_sent (s := s) (p := p) (t := r.1) (f := f) (ty := 0x81)
    (b := r.2.flatMap (fun v : Word => toLe 8 v.toNat)) 0
    (by rw [hread.maySend, length_words, hlen]; exact hmay) (by rw [hread.frame, hmoved.outs])
  refine ⟨_, hrun, u, hmoved, ?_, hr ▸ hcomm, hr ▸ hsent⟩
  rw [State.answer, State.respond_wards, hread.frame]

end

/-! ### Whose registers a Ward reads and writes (R52) -/

/-- A port's Ward is enabled (R53). -/
theorem State.enable_of_portWard {s : State} {p w : Nat} (h : s.portWard p = some w) : (s.ward w).enable = true := by
  have hfound := List.find?_some h
  simp only [Bool.and_eq_true] at hfound
  obtain ⟨hen, -⟩ := hfound
  exact hen

section
variable {s : State} {w : Fin 4} {d : RegDesc} {ix : List Nat}

theorem State.mayRead_of_unit {o : Option Nat} (h : s.unitWard d ix = some o) (hne : o ≠ some w.val) :
    s.mayRead w.val d ix = true ↔ w = 0 ∧ (o = none ∨ d.own = .ward ∧ d.name ≠ .DSP_WARD) := by
  simp [State.mayRead, h, hne]

theorem State.mayWrite_of_unit {o : Option Nat} (h : s.unitWard d ix = some o) (hne : o ≠ some w.val) : s.mayWrite w.val d ix = false := by
  simp [State.mayWrite, h, hne]

theorem State.mayRead_of_device (h : s.unitWard d ix = none) : s.mayRead w.val d ix = true := by simp [State.mayRead, h]

theorem State.mayWrite_of_device (h : s.unitWard d ix = none) (hacq : d.own ≠ .acq) (hbits : d.own.isBits = false) :
    s.mayWrite w.val d ix = true ↔ w = 0 := by
  simp [State.mayWrite, h, hacq, hbits]

/-- The access is allowed. -/
abbrev State.mayAccess (s : State) (w : Nat) (write : Bool) (d : RegDesc) (ix : List Nat) : Prop :=
  (if write then s.mayWrite w d ix else s.mayRead w d ix) = true

variable {write : Bool}

theorem State.mayAccess_own (h : s.unitWard d ix = some (some w.val)) : s.mayAccess w.val write d ix := by
  cases write <;> simp [State.mayAccess, State.mayWrite, State.mayRead, h]

/-- Of what another Ward has, the Plan Ward alone reads what no Ward has and the registers of the Wards. -/
theorem State.mayAccess_other {o : Option Nat} (h : s.unitWard d ix = some o) (hne : o ≠ some w.val) :
    s.mayAccess w.val write d ix ↔ write = false ∧ w = 0 ∧ (o = none ∨ d.own = .ward ∧ d.name ≠ .DSP_WARD) := by
  cases write with
  | true => simp [State.mayAccess, State.mayWrite_of_unit h hne]
  | false => simpa [State.mayAccess] using State.mayRead_of_unit h hne

end

/-- Settles O1. The first check that fails gives the status; the values are read behind the delivery of the frame. -/
theorem registerReadAnswers : Obligations.RegisterReadAnswers := by
  unfold Obligations.RegisterReadAnswers
  intro s p w f a n hin hw hecc hpay ha hn
  refine ⟨fun hlo hhi hal hend hsend hfree => ?_, fun hsend => ⟨fun hlen => ?_, fun hlo hhi => ⟨fun hwide => ?_, fun hlow hal => ?_,
    fun hlow hal hend => ?_, fun hal hend i hi hbefore hbad => ?_⟩⟩, fun write d ix hal hlt hc hr => ?_⟩
  · exact regRd_values hpay ha hn hin hw hecc hsend hlo hhi
      ((State.regRunCheck_inside hal hend).trans (firstBadStatus_eq_zero hfree))
  · exact regRd_refused hpay ha hn hin hw hsend (Or.inl ⟨hlen, rfl⟩)
  · exact regRd_refused hpay ha hn hin hw hsend (Or.inr ⟨hlo, hhi, State.regRunCheck_wide hwide, by decide⟩)
  · exact regRd_refused hpay ha hn hin hw hsend (Or.inr ⟨hlo, hhi, State.regRunCheck_misaligned hlow hal, by decide⟩)
  · exact regRd_refused hpay ha hn hin hw hsend (Or.inr ⟨hlo, hhi, State.regRunCheck_outside hlow hal hlo hend, by decide⟩)
  · exact regRd_refused hpay ha hn hin hw hsend (Or.inr ⟨hlo, hhi, (State.regRunCheck_inside hal hend).trans
      (firstBadStatus_eq (g := fun i => s.regCheck (.ward w) false (a + 8 * i)) hi hbefore hbad), hbad⟩)
  · have hcheck : s.regCheck (.ward w) write a = if s.mayAccess w.val write d ix then 0 else 3 :=
      State.regCheck_of_regAt hc hr (State.enable_of_portWard hw) hal hlt write
    rw [hcheck]
    refine ⟨fun hown => if_pos (State.mayAccess_own hown), fun o ho hne hkind => if_congr ?_ rfl rfl,
      fun o ho hne hward hname => if_congr ?_ rfl rfl, fun ho hread => if_pos ?_, fun ho hwrite hacq hbits => if_congr ?_ rfl rfl⟩
    · rw [State.mayAccess_other ho hne]
      tauto
    · rw [State.mayAccess_other ho hne]
      tauto
    · subst hread
      exact State.mayRead_of_device ho
    · subst hwrite
      exact State.mayWrite_of_device ho hacq hbits

end Sys2Proof.Machine
end

section
/-! SUPPORT. Memory accesses of a host without errors (R50, R211, R217, R221): what a byte string leaves in memory, word by word and burst by
burst, and the requests that enter the queues of the DRAM channels. -/

namespace Sys2Proof.Machine

/-! ### Bytes stored -/

/-- The bytes `b` stand at address `a`, and every other byte is as it was. -/
structure Stored (a : Nat) (b : List Byte) (s t : State) : Prop where
  inside : ∀ i (h : i < b.length), t.ldB (a + i) = b[i]
  outside : ∀ x, x < a ∨ a + b.length ≤ x → t.ldB x = s.ldB x

theorem Stored.nil (a : Nat) (s : State) : Stored a [] s s := ⟨fun _ h => absurd h (Nat.not_lt_zero _), fun _ _ => rfl⟩

theorem Stored.append {a : Nat} {b c : List Byte} {s t u : State} (h : Stored a b s t) (h' : Stored (a + b.length) c t u) :
    Stored a (b ++ c) s u := by
  refine ⟨fun i hi => ?_, fun x hx => ?_⟩
  · rw [List.length_append] at hi
    by_cases hb : i < b.length
    · rw [h'.outside _ (Or.inl (by omega)), h.inside i hb, List.getElem_append_left hb]
    · rw [List.getElem_append_right (by omega), ← h'.inside (i - b.length) (by omega)]
      congr 1
      omega
  · rw [List.length_append] at hx
    rw [h'.outside x (by omega), h.outside x (by omega)]

theorem Stored.ld {a : Nat} {b : List Byte} {s t : State} (h : Stored a b s t) : t.ld a b.length = b :=
  List.ext_getElem (by simp [State.ld]) fun i _ hi => by
    simp only [State.ld, List.getElem_map, List.getElem_range]
    exact h.inside i hi

theorem Stored.congr {a : Nat} {b : List Byte} {s s' t t' : State} (h : Stored a b s t) (hs : s'.mem = s.mem) (ht : t'.mem = t.mem) :
    Stored a b s' t' :=
  ⟨fun i hi => (State.ldB_congr ht _).trans (h.inside i hi),
    fun x hx => (State.ldB_congr ht _).trans ((h.outside x hx).trans (State.ldB_congr hs _).symm)⟩

theorem State.st_eq (s : State) (a : Nat) (l : List Byte) : s.st a l = { s with mem := (s.st a l).mem } := by
  induction l generalizing s a with
  | nil => rfl
  | cons b t ih =>
    rw [State.st, ih]
    rfl

/-- Nothing but memory, its check bits and the DRAM channels differs. -/
def OnlyDram (s t : State) : Prop := t = { s with mem := t.mem, ecc := t.ecc, drcs := t.drcs }

theorem OnlyDram.refl (s : State) : OnlyDram s s := rfl

theorem OnlyDram.trans {s t u : State} (h : OnlyDram s t) (h' : OnlyDram t u) : OnlyDram s u := by
  unfold OnlyDram at *
  rw [h', h]

theorem OnlyDram.regs {s t : State} (h : OnlyDram s t) : t.regs = s.regs := by rw [h]

/-! ### Words (R219) -/

/-- A word written whole is stored with fresh check bits. -/
theorem State.writeWord_whole (s : State) (master m o : Nat) {b : List Byte} (h : b.length = 8) :
    s.writeWord master m o b = ((s.st (memBase m + o) b).eccClear (memBase m + o), false) := by
  simp [State.writeWord, State.lmWord, h]

theorem Stored.writeWord (s : State) (master m o : Nat) {b : List Byte} (h : b.length = 8) :
    Stored (memBase m + o) b s (s.writeWord master m o b).1 := by
  rw [State.writeWord_whole s master m o h]
  exact ⟨fun i hi => State.ldB_st_in s b _ i hi, fun x hx => State.ldB_st_out s b _ x hx⟩

/-- Only memory and its check bits differ. -/
def OnlyMem (s t : State) : Prop := t = { s with mem := t.mem, ecc := t.ecc }

theorem OnlyMem.trans {s t u : State} (h : OnlyMem s t) (h' : OnlyMem t u) : OnlyMem s u := by
  unfold OnlyMem at *
  rw [h', h]

theorem OnlyMem.onlyDram {s t : State} (h : OnlyMem s t) : OnlyDram s t := by
  unfold OnlyMem OnlyDram at *
  rw [h]

theorem OnlyMem.writeWord (s : State) (master m o : Nat) {b : List Byte} (h : b.length = 8) :
    OnlyMem s (s.writeWord master m o b).1 := by
  rw [State.writeWord_whole s master m o h]
  unfold OnlyMem
  rw [State.st_eq]
  rfl

/-- One piece of a byte string that is performed word by word on a state `s`. -/
def State.wordStep (s : State) (master m : Nat) (acc : State × Bool) (w : Nat × List Byte) : State × Bool :=
  if m = 0 ∧ s.rangeBad w.1 then acc
  else ((acc.1.writeWord master m w.1 w.2).1, acc.2 || (acc.1.writeWord master m w.1 w.2).2)

theorem State.writeWords_eq (s : State) (master m o : Nat) (b : List Byte) :
    s.writeWords master m o b = (cutWords (b.length + 1) o b).foldl (s.wordStep master m) (s, false) := rfl

theorem cutWords_cons {n o : Nat} {b : List Byte} (ho : o % 8 = 0) (hb : b ≠ []) :
    cutWords (n + 1) o b = (o, b.take 8) :: cutWords n (o + 8) (b.drop 8) := by
  have hne : b.isEmpty = false := by simpa using hb
  simp [cutWords, ho, hne]

/-- A byte string of whole words leaves its bytes. -/
theorem wordFold_stored {s : State} (master m n o : Nat) (b : List Byte) (acc : State × Bool) (ho : o % 8 = 0) (hlen : b.length % 8 = 0)
    (hn : b.length ≤ n) (hgood : m = 0 → ∀ i, i < b.length → s.rangeBad (o + i) = false) :
    Stored (memBase m + o) b acc.1 ((cutWords n o b).foldl (s.wordStep master m) acc).1 ∧
      OnlyMem acc.1 ((cutWords n o b).foldl (s.wordStep master m) acc).1 := by
  induction n generalizing o b acc with
  | zero =>
    have hb : b = [] := List.eq_nil_of_length_eq_zero (by omega)
    subst hb
    exact ⟨Stored.nil _ _, rfl⟩
  | succ n ih =>
    by_cases hb : b = []
    · subst hb
      exact ⟨Stored.nil _ _, rfl⟩
    · have hpos : 8 ≤ b.length := by
        have := List.length_pos_iff.2 hb
        omega
      have htake : (b.take 8).length = 8 := by rw [List.length_take]; omega
      have hdrop : (b.drop 8).length = b.length - 8 := List.length_drop
      obtain ⟨hfirst, hword⟩ : Stored (memBase m + o) (b.take 8) acc.1 (s.wordStep master m acc (o, b.take 8)).1 ∧
          OnlyMem acc.1 (s.wordStep master m acc (o, b.take 8)).1 := by
        have hin : ¬ (m = 0 ∧ s.rangeBad o = true) := fun ⟨hm, hbad⟩ => by
          have hok := hgood hm 0 (by omega)
          rw [Nat.add_zero, hbad] at hok
          cases hok
        rw [State.wordStep, if_neg hin]
        exact ⟨Stored.writeWord acc.1 master m o htake, OnlyMem.writeWord acc.1 master m o htake⟩
      rw [cutWords_cons ho hb, List.foldl_cons]
      generalize s.wordStep master m acc (o, b.take 8) = acc' at hfirst hword
      obtain ⟨hrest, honly⟩ := ih (o + 8) (b.drop 8) acc' (by omega) (by omega) (by omega)
        (fun hm i hi => by rw [Nat.add_assoc]; exact hgood hm _ (by omega))
      refine ⟨?_, hword.trans honly⟩
      have happend := hfirst.append (c := b.drop 8) (by rw [htake, Nat.add_assoc]; exact hrest)
      rwa [List.take_append_drop] at happend

theorem writeWords_stored (s : State) (master m : Nat) {o : Nat} {b : List Byte} (ho : o % 8 = 0) (hlen : b.length % 8 = 0)
    (hgood : m = 0 → ∀ i, i < b.length → s.rangeBad (o + i) = false) :
    Stored (memBase m + o) b s (s.writeWords master m o b).1 ∧ OnlyMem s (s.writeWords master m o b).1 := by
  rw [State.writeWords_eq]
  exact wordFold_stored master m _ o b (s, false) ho hlen (Nat.le_succ _) hgood

/-! ### DRAM addresses (R214, R215, R217) -/

theorem State.dramCh_congr {s t : State} (h : t.regs = s.regs) (o : Nat) : t.dramCh o = s.dramCh o := by
  have hg : t.g = s.g := funext (State.g_congr h)
  simp only [State.dramCh, State.grain, State.chN, hg]

theorem State.rangeBad_congr {s t : State} (h : t.regs = s.regs) (o : Nat) : t.rangeBad o = s.rangeBad o := by
  have hg : t.g = s.g := funext (State.g_congr h)
  have hmib : t.chMib = s.chMib := by
    unfold State.chMib
    rw [hg]
  unfold State.rangeBad State.dramF State.chN State.chReady
  rw [hg, hmib, State.dramCh_congr h]

/-- Where an offset is in range a channel is fitted, so that every offset has one of the four. -/
theorem State.dramCh_lt {s : State} {o : Nat} (h : s.rangeBad o = false) (x : Nat) : s.dramCh x < 4 := by
  have hfour : s.chN ≤ 4 := by
    unfold State.chN popN bitsOf
    exact (List.length_filter_le _ _).trans (by simp)
  have hpos : 0 < s.chN := by
    by_contra hzero
    have hnone : s.chN = 0 := by omega
    simp [State.rangeBad, State.dramF, hnone] at h
  exact (Nat.mod_lt _ hpos).trans_le hfour

theorem State.firstBad_of_good {s : State} {o n : Nat} (h : ∀ j, j < n → s.rangeBad (o + j) = false) : s.firstBad o n = none := by
  simpa [State.firstBad] using h

theorem State.firstBad_of_bad {s : State} {o n : Nat} (h : ∃ j, j < n ∧ s.rangeBad (o + j) = true) : ∃ x, s.firstBad o n = some x := by
  rw [← Option.isSome_iff_exists]
  simpa [State.firstBad] using h

/-! ### Queues of the channels (R221) -/

/-- Up to `n` requests have entered each best-effort queue, and what waits is as it was. -/
structure Queued (n : Nat) (s t : State) : Prop where
  be : ∀ d, d < 4 → (t.drc d).be.length ≤ (s.drc d).be.length + n
  waits : ∀ d, d < 4 → (t.drc d).rtWait = (s.drc d).rtWait ∧ (t.drc d).beWait = (s.drc d).beWait

theorem Queued.of_drcs {s t : State} (h : t.drcs = s.drcs) : Queued 0 s t :=
  ⟨fun d _ => by rw [State.drc_congr h]; exact Nat.le_refl _, fun d _ => by rw [State.drc_congr h]; exact ⟨rfl, rfl⟩⟩

theorem Queued.trans {n m : Nat} {s t u : State} (h : Queued n s t) (h' : Queued m t u) : Queued (n + m) s u := by
  refine ⟨fun d hd => ?_, fun d hd => ⟨(h'.waits d hd).1.trans (h.waits d hd).1, (h'.waits d hd).2.trans (h.waits d hd).2⟩⟩
  have := h.be d hd
  have := h'.be d hd
  omega

theorem State.waitingReqs_eq_nil {s : State} : s.waitingReqs = [] ↔ ∀ d, d < 4 → (s.drc d).rtWait = [] ∧ (s.drc d).beWait = [] := by
  simp [State.waitingReqs]

theorem Queued.waitingReqs {n : Nat} {s t : State} (h : Queued n s t) (hs : s.waitingReqs = []) : t.waitingReqs = [] := by
  rw [State.waitingReqs_eq_nil] at hs ⊢
  intro d hd
  obtain ⟨hrt, hbe⟩ := h.waits d hd
  rw [hrt, hbe]
  exact hs d hd

/-- A host is a master of the best-effort port (Table 10.11). -/
theorem rtMaster_host (p : Fin 4) : rtMaster p.val = false := by
  have : ∀ p : Fin 4, rtMaster p.val = false := by decide
  exact this p

theorem OnlyDram.dramQueue (s : State) (master o : Nat) (w pn r : Bool) (data : List (Nat × Byte)) (tok : Nat) :
    OnlyDram s (s.dramQueue master o w pn r data tok) := by
  unfold State.dramQueue State.modDrc OnlyDram
  split <;> rfl

section
variable {s : State} (p : Fin 4) {o : Nat} (w pn r : Bool) (data : List (Nat × Byte)) (tok : Nat) (hd : s.dramCh o < 4)
include hd

/-- A request of a host enters its channel's queue while that has room and nothing waits. -/
theorem Queued.dramQueue (hroom : (s.drc (s.dramCh o)).be.length < 32) (hwait : (s.drc (s.dramCh o)).beWait = []) :
    Queued 1 s (s.dramQueue p.val o w pn r data tok) := by
  have hself : (s.dramQueue p.val o w pn r data tok).drc (s.dramCh o) = { s.drc (s.dramCh o) with
      ord := (s.drc (s.dramCh o)).ord + 1, be := (s.drc (s.dramCh o)).be ++
        [DramReq.accepted ⟨p.val, s.dramL o / 64 * 64, w, pn, r, (s.drc (s.dramCh o)).ord, data, tok⟩] } := by
    unfold State.dramQueue
    rw [State.drc_modDrc_self _ _ _ hd, rtMaster_host]
    simp [Drc.enter, Drc.room, hroom, hwait]
  have hother {d : Nat} (hne : d ≠ s.dramCh o) : (s.dramQueue p.val o w pn r data tok).drc d = s.drc d := State.drc_modDrc_ne _ _ hne
  refine ⟨fun d _ => ?_, fun d _ => ?_⟩
  · by_cases hdc : d = s.dramCh o
    · subst hdc
      rw [hself]
      simp
    · rw [hother hdc]
      omega
  · by_cases hdc : d = s.dramCh o
    · subst hdc
      rw [hself]
      exact ⟨rfl, rfl⟩
    · rw [hother hdc]
      exact ⟨rfl, rfl⟩

/-- A request of a host waits while the queue is full. -/
theorem State.waitingReqs_dramQueue_full (hfull : 32 ≤ (s.drc (s.dramCh o)).be.length) :
    (s.dramQueue p.val o w pn r data tok).waitingReqs.any (fun r => decide (r.tok = tok)) = true := by
  have hself : ⟨p.val, s.dramL o / 64 * 64, w, pn, r, (s.drc (s.dramCh o)).ord, data, tok⟩ ∈
      ((s.dramQueue p.val o w pn r data tok).drc (s.dramCh o)).beWait := by
    unfold State.dramQueue
    rw [State.drc_modDrc_self _ _ _ hd, rtMaster_host]
    have hno : ¬ (s.drc (s.dramCh o)).be.length < 32 := by omega
    simp [Drc.enter, Drc.room, hno]
  refine List.any_eq_true.2 ⟨_, List.mem_flatMap.2 ⟨s.dramCh o, List.mem_range.2 hd, List.mem_append_right _ hself⟩, ?_⟩
  exact decide_eq_true rfl

end

/-! ### Bursts -/

/-- One burst of a byte string that is written to DRAM by a host. -/
def burstStep (p : Fin 4) (tok : Nat) (acc : State × Bool) (w : Nat × List Byte) : State × Bool :=
  ((acc.1.writeBurst p.val w.1 w.2 tok).1, acc.2 || (acc.1.writeBurst p.val w.1 w.2 tok).2)

theorem cutBursts_cons {n o : Nat} {b : List Byte} (hb : b ≠ []) :
    cutBursts (n + 1) o b = (o, b.take (64 - o % 64)) :: cutBursts n (o + (64 - o % 64)) (b.drop (64 - o % 64)) := by
  have hne : b.isEmpty = false := by simpa using hb
  simp [cutBursts, hne]

theorem cutBursts_nil (n o : Nat) : cutBursts n o [] = [] := by
  cases n <;> rfl

/-- A burst for which its queue has room is performed at once. -/
theorem writeBurst_stored {s : State} (p : Fin 4) (tok : Nat) {o : Nat} {b : List Byte} (ho : o % 8 = 0) (hlen : b.length % 8 = 0)
    (hb : b ≠ []) (hgood : ∀ i, i < b.length → s.rangeBad (o + i) = false) (hwait : s.waitingReqs = [])
    (hroom : ∀ d, d < 4 → (s.drc d).be.length < 32) : Stored (memBase 0 + o) b s (s.writeBurst p.val o b tok).1 ∧
      OnlyDram s (s.writeBurst p.val o b tok).1 ∧ Queued 1 s (s.writeBurst p.val o b tok).1 := by
  have hd : s.dramCh o < 4 := State.dramCh_lt (hgood 0 (List.length_pos_iff.2 hb)) o
  have hbe : (s.drc (s.dramCh o)).beWait = [] := (State.waitingReqs_eq_nil.1 hwait _ hd).2
  have hnow : s.dramRoom p.val o = true := by
    simp [State.dramRoom, rtMaster_host, Drc.room, hroom _ hd, hbe]
  unfold State.writeBurst
  extract_lets rmw t
  rw [if_pos hnow]
  have hdram : OnlyDram s t := OnlyDram.dramQueue s _ _ _ _ _ _ _
  have hqueued : Queued 1 s t := Queued.dramQueue p _ _ _ _ _ hd (hroom _ hd) hbe
  obtain ⟨hstored, honly⟩ := writeWords_stored t p.val 0 ho hlen fun _ i hi => (State.rangeBad_congr hdram.regs _).trans (hgood i hi)
  exact ⟨hstored.congr (State.modDrc_mem _ _ _).symm rfl, hdram.trans honly.onlyDram, hqueued.trans (Queued.of_drcs (by rw [honly]))⟩

/-- The bursts of a byte string, while the queues have room for all of them. -/
theorem burstFold_stored (p : Fin 4) (tok n o : Nat) (b : List Byte) (acc : State × Bool) (ho : o % 8 = 0) (hlen : b.length % 8 = 0)
    (hn : b.length ≤ n) (hgood : ∀ i, i < b.length → acc.1.rangeBad (o + i) = false) (hwait : acc.1.waitingReqs = [])
    (hroom : b ≠ [] → ∀ d, d < 4 → (acc.1.drc d).be.length + ((o + b.length - 1) / 64 - o / 64 + 1) ≤ 32) :
    Stored (memBase 0 + o) b acc.1 ((cutBursts n o b).foldl (burstStep p tok) acc).1 ∧
      OnlyDram acc.1 ((cutBursts n o b).foldl (burstStep p tok) acc).1 ∧
      ((cutBursts n o b).foldl (burstStep p tok) acc).1.waitingReqs = [] := by
  induction n generalizing o b acc with
  | zero =>
    have hb : b = [] := List.eq_nil_of_length_eq_zero (by omega)
    subst hb
    exact ⟨Stored.nil _ _, OnlyDram.refl _, hwait⟩
  | succ n ih =>
    by_cases hb : b = []
    · subst hb
      exact ⟨Stored.nil _ _, OnlyDram.refl _, hwait⟩
    · have hpos := List.length_pos_iff.2 hb
      rw [cutBursts_cons hb, List.foldl_cons]
      generalize hk : 64 - o % 64 = k
      have htake : (b.take k).length = min k b.length := List.length_take
      have hdrop : (b.drop k).length = b.length - k := List.length_drop
      have hne : b.take k ≠ [] := fun h => by
        rw [h, List.length_nil] at htake
        omega
      obtain ⟨hfirst, hdram, hqueued⟩ : Stored (memBase 0 + o) (b.take k) acc.1 (burstStep p tok acc (o, b.take k)).1 ∧
          OnlyDram acc.1 (burstStep p tok acc (o, b.take k)).1 ∧ Queued 1 acc.1 (burstStep p tok acc (o, b.take k)).1 :=
        writeBurst_stored p tok ho (by omega) hne (fun i hi => hgood i (by omega)) hwait
          (fun d hd => by have := hroom hb d hd; omega)
      generalize burstStep p tok acc (o, b.take k) = acc' at hfirst hdram hqueued
      obtain ⟨hrest, hdram', hwait'⟩ := ih (o + k) (b.drop k) acc' (by omega) (by omega) (by omega)
        (fun i hi => by rw [State.rangeBad_congr hdram.regs, Nat.add_assoc]; exact hgood _ (by omega)) (hqueued.waitingReqs hwait)
        (fun hrest d hd => by
          have hmore := List.length_pos_iff.2 hrest
          have hbefore := hroom hb d hd
          have hone := hqueued.be d hd
          omega)
      refine ⟨?_, hdram.trans hdram', hwait'⟩
      by_cases hlast : k ≤ b.length
      · have happend := hfirst.append (c := b.drop k) (by rw [htake, Nat.min_eq_left hlast, Nat.add_assoc]; exact hrest)
        rwa [List.take_append_drop] at happend
      · rw [List.drop_eq_nil_of_le (by omega), cutBursts_nil] at hrest ⊢
        rwa [List.take_of_length_le (by omega)] at hfirst

end Sys2Proof.Machine
end

section
/-! SUPPORT. MEM_RD and MEM_WR (R49, R50, R62, R217): the checks in order, the refusals that both frames share, and the accesses. -/

namespace Sys2Proof.Machine

/-! ### Addresses (Table 10.1) -/

theorem memBase_of_memOf {a m o : Nat} (h : memOf a = some (m, o)) : memBase m + o = a := by
  unfold memOf at h
  split_ifs at h with h0 h1 h2 h3 h4 h5 <;> obtain ⟨rfl, rfl⟩ := Prod.mk.inj (Option.some.inj h) <;> simp only [memBase] <;> omega

theorem memOf_aligned {a m o : Nat} (h : memOf a = some (m, o)) (hal : a % 8 = 0) : o % 8 = 0 := by
  have hsum := memBase_of_memOf h
  have hbase : memBase m % 8 = 0 := by
    unfold memBase
    split <;> rfl
  omega

/-! ### The checks -/

section
variable {t : State} {p w : Fin 4} {a n m o : Nat} (ha : a < 2 ^ 40)
include ha

theorem State.memCheck_misaligned (h : a % 8 ≠ 0 ∨ n % 8 ≠ 0) : t.memCheck p w a n = (t, 1) := by
  unfold State.memCheck
  rw [if_neg (by omega), if_pos h]

variable (hal : a % 8 = 0) (hnl : n % 8 = 0)
include hal hnl

theorem State.memCheck_outside (h : memOf a = none ∨ memOf (a + n - 1) = none ∨ (memOf a).map (·.1) ≠ (memOf (a + n - 1)).map (·.1)) :
    t.memCheck p w a n = (t, 2) := by
  unfold State.memCheck
  rw [if_neg (by omega), if_neg (by omega)]
  cases hfirst : memOf a with
  | none => rfl
  | some x =>
    cases hlast : memOf (a + n - 1) with
    | none => rfl
    | some y =>
      have hne : x.1 ≠ y.1 := by simpa [hfirst, hlast] using h
      exact if_pos hne

variable (hfirst : memOf a = some (m, o)) (hlast : memOf (a + n - 1) = some (m, o + n - 1))
include hfirst hlast

theorem State.memCheck_fenced (h : t.memOwned w.val m o n = false) : t.memCheck p w a n = (t, 3) := by
  unfold State.memCheck
  rw [if_neg (by omega), if_neg (by omega)]
  simp [hfirst, hlast, h]

theorem State.memCheck_bad (h : t.memOwned w.val m o n = true) (hm : m = 0) (hbad : ∃ j, j < n ∧ t.rangeBad (o + j) = true) :
    ∃ x, t.memCheck p w a n = (t.rangeErr p.val x, 2) := by
  obtain ⟨x, hx⟩ := State.firstBad_of_bad hbad
  subst hm
  refine ⟨x, ?_⟩
  unfold State.memCheck
  rw [if_neg (by omega), if_neg (by omega)]
  simp [hfirst, hlast, h, hx]

theorem State.memCheck_good (h : t.memOwned w.val m o n = true) (hgood : m = 0 → ∀ j, j < n → t.rangeBad (o + j) = false) :
    t.memCheck p w a n = (t, 0) := by
  have hnone : (if m = 0 then t.firstBad o n else none) = none := by
    split
    · next hm => exact State.firstBad_of_good (hgood hm)
    · rfl
  unfold State.memCheck
  rw [if_neg (by omega), if_neg (by omega)]
  simp [hfirst, hlast, h, hnone]

end

/-! ### The two frames -/

section
variable {t : State} {p w : Fin 4} {f : Frame} {a n : Nat} {b : List Byte} (ha : a < 2 ^ 40) (hlo : 8 ≤ n)
include ha hlo

theorem State.memRd_eq (hpay : f.payload = toLe 8 a ++ toLe 8 n) (hhi : n ≤ 2048) : t.memRd p w f =
    if (t.memCheck p w a n).2 ≠ 0 then (t.memCheck p w a n).1.answer p f 0x83 (t.memCheck p w a n).2 []
    else ((t.memCheck p w a n).1.busRead p.val a n false (memTok p f)).1.answerMem p f 0x83
      ((t.memCheck p w a n).1.busRead p.val a n false (memTok p f)).2.1 (memTok p f) := by
  have haddr : u f.payload 0 8 = a := by
    rw [hpay, u_front]
    omega
  have hcount : u f.payload 8 8 = n := by
    have h := u_toLe (toLe 8 a) [] 8 n
    rwa [List.append_nil, toLe_length, ← hpay, Nat.mod_eq_of_lt (by omega)] at h
  have hlen : f.payload.length = 16 := by simp [hpay]
  unfold State.memRd
  simp only [haddr, hcount, hlen]
  rw [if_neg (by omega)]

theorem State.memWr_eq (hpay : f.payload = toLe 8 a ++ b) (hb : b.length = n) (hhi : n ≤ 2040) (hrole : t.role ≠ 2) : t.memWr p w f =
    if (t.memCheck p w a n).2 ≠ 0 then (t.memCheck p w a n).1.answer p f 0x84 (t.memCheck p w a n).2 []
    else (((t.memCheck p w a n).1.busWrite p.val a b (memTok p f)).1.mirror 0x55 f.payload).answerMem p f 0x84 [] (memTok p f) := by
  have haddr : u f.payload 0 8 = a := by
    rw [hpay, u_front]
    omega
  have hdata : f.payload.drop 8 = b := by
    rw [hpay]
    exact List.drop_left' (toLe_length 8 a)
  have hlen : f.payload.length = 8 + n := by simp [hpay, hb]
  unfold State.memWr
  simp only [haddr, hdata, hlen, hb]
  rw [if_neg (by omega), if_neg hrole]

end

/-- The instruction gives a frame of type `ty` its answer where a check of the range fails. -/
def MemChecked (i : Instr) (ty : Nat) (s : State) (p w : Fin 4) (f : Frame) (a n : Nat) : Prop :=
  ∀ c st, (s.delivered p.val f).memCheck p w a n = (c, st) → st ≠ 0 → exec i s = .next (c.answer p f ty st [])

section
variable {s : State} {p w : Fin 4} {f : Frame} {a n : Nat} {b : List Byte} (hin : s.inOrder p.val f = true)
  (htx : (s.port p.val).txq = []) (hw : s.portWard p.val = some w.val) (ha : a < 2 ^ 40) (hlo : 8 ≤ n)
include hin htx hw

theorem exec_memRd_delivered : exec (.memRd p f) s = .next ((s.delivered p.val f).memRd p w f) :=
  congrArg Host.Outcome.next (State.onHost_delivered 0x83 (fun s w => s.memRd p w f) hin htx hw)

theorem exec_memWr_delivered : exec (.memWr p f) s = .next ((s.delivered p.val f).memWr p w f) :=
  congrArg Host.Outcome.next (State.onHost_delivered 0x84 (fun s w => s.memWr p w f) hin htx hw)

include ha hlo

theorem MemChecked.memRd (hpay : f.payload = toLe 8 a ++ toLe 8 n) (hhi : n ≤ 2048) : MemChecked (.memRd p f) 0x83 s p w f a n :=
  fun c st hcheck hst => by
    rw [exec_memRd_delivered hin htx hw, State.memRd_eq ha hlo hpay hhi, hcheck, if_pos hst]

theorem MemChecked.memWr (hpay : f.payload = toLe 8 a ++ b) (hb : b.length = n) (hhi : n ≤ 2040) (hrole : s.role ≠ 2) :
    MemChecked (.memWr p f) 0x84 s p w f a n := fun c st hcheck hst => by
  have hrole' := (PortsMoved.delivered s (p := p.val) f).role.trans_ne hrole
  rw [exec_memWr_delivered hin htx hw, State.memWr_eq ha hlo hpay hb hhi hrole', hcheck, if_pos hst]

end

/-! ### Refusals -/

/-- A range error is counted, and the first since the last write is recorded (R217). -/
def State.rangeNoted (s : State) (master x : Nat) : State :=
  if s.rangeArmed then
    { (((s.inc MEM_RANGE_ERR_COUNT 1).p MEM_RANGE_ERR_MASTER master).p MEM_RANGE_ERR_OFFSET x) with rangeArmed := false }
  else s.inc MEM_RANGE_ERR_COUNT 1

section
variable (s : State) (master x : Nat)

theorem State.rangeErr_eq : s.rangeErr master x = (s.rangeNoted master x).assertFlt 260 := rfl

theorem State.rangeNoted_eq : s.rangeNoted master x =
    { s with regs := (s.rangeNoted master x).regs, rangeArmed := (s.rangeNoted master x).rangeArmed } := by
  unfold State.rangeNoted
  split <;> rfl

theorem RegsKept.rangeNoted : RegsKept [MEM_RANGE_ERR] s (s.rangeNoted master x) := fun a ha => by
  have hne : a ≠ MEM_RANGE_ERR := by simpa using ha
  have hcount : (s.inc MEM_RANGE_ERR_COUNT 1).rd a = s.rd a := State.rd_p_ne s MEM_RANGE_ERR_COUNT _ hne
  unfold State.rangeNoted
  split
  · exact (State.rd_p_ne _ MEM_RANGE_ERR_OFFSET _ hne).trans ((State.rd_p_ne _ MEM_RANGE_ERR_MASTER _ hne).trans hcount)
  · exact hcount

theorem State.rangeNoted_count : (s.rangeNoted master x).g MEM_RANGE_ERR_COUNT = satAdd 16 (s.g MEM_RANGE_ERR_COUNT) 1 := by
  have hcount : (s.inc MEM_RANGE_ERR_COUNT 1).g MEM_RANGE_ERR_COUNT = satAdd 16 (s.g MEM_RANGE_ERR_COUNT) 1 :=
    State.g_p_fits s (f := MEM_RANGE_ERR_COUNT) (by decide) (satAdd_lt _ _ _)
  have hmaster : MEM_RANGE_ERR_MASTER.apart MEM_RANGE_ERR_COUNT := by decide
  have hoffset : MEM_RANGE_ERR_OFFSET.apart MEM_RANGE_ERR_COUNT := by decide
  unfold State.rangeNoted
  split
  · exact (State.g_p_apart _ hoffset _).trans ((State.g_p_apart _ hmaster _).trans hcount)
  · exact hcount

theorem State.rangeErr_g {f : FRef} (h : f.addr ≠ MEM_RANGE_ERR) : (s.rangeErr master x).g f = s.g f := by
  rw [State.rangeErr_eq, State.g_congr (State.assertFlt_regs _ _)]
  exact (RegsKept.rangeNoted s master x).g (by simpa using h)

theorem State.rangeErr_pend : 260 ∈ (s.rangeErr master x).flt.pend := by
  rw [State.rangeErr_eq]
  unfold State.assertFlt
  split
  · next h => simpa using h
  · simp

end

section
variable {i : Instr} {ty : Nat} {s : State} {p w : Fin 4} {f : Frame} {a n m o : Nat} (h : MemChecked i ty s p w f a n)
  (hsend : s.maySend p.val 0 = true)
include h hsend

theorem MemChecked.refused {st : Nat} (hcheck : (s.delivered p.val f).memCheck p w a n = (s.delivered p.val f, st)) (hst : st ≠ 0) :
    Gives i s (fun t => OnlyComm s t ∧ Sent s t p.val ty st f.tag 0 []) := by
  have hmoved := PortsMoved.delivered s (p := p.val) f
  obtain ⟨hcomm, hsent⟩ := State.answer_sent (f := f) (ty := ty) (b := []) st (s.maySend_delivered f p.isLt hsend) hmoved.outs
  exact ⟨_, h _ st hcheck hst, hmoved.onlyComm.trans hcomm, hsent⟩

/-- R217: a range error refuses the access whole. -/
theorem MemChecked.rangeErr {x : Nat} (hcheck : (s.delivered p.val f).memCheck p w a n = ((s.delivered p.val f).rangeErr p.val x, 2)) :
    Gives i s (fun t => Sent s t p.val ty 2 f.tag 0 [] ∧ t.mem = s.mem ∧ t.drcs = s.drcs ∧ 260 ∈ t.flt.pend ∧
      t.g MEM_RANGE_ERR_COUNT = satAdd 16 (s.g MEM_RANGE_ERR_COUNT) 1) := by
  have hmoved := PortsMoved.delivered s (p := p.val) f
  have hmay := s.maySend_delivered f p.isLt hsend
  have hrun := h _ 2 hcheck (by decide)
  generalize s.delivered p.val f = u at hmoved hmay hrun
  have hnoted := u.rangeNoted_eq p.val x
  have hpend := u.rangeErr_pend p.val x
  have hcount : (u.rangeErr p.val x).g MEM_RANGE_ERR_COUNT = satAdd 16 (u.g MEM_RANGE_ERR_COUNT) 1 := by
    rw [State.rangeErr_eq, State.g_congr (State.assertFlt_regs _ _), State.rangeNoted_count]
  have hstate : (u.rangeErr p.val x).g (LN_GRP_STATUS_STATE p.val) = u.g (LN_GRP_STATUS_STATE p.val) := by
    refine State.rangeErr_g _ _ _ ?_
    simp only [LN_GRP_STATUS_STATE, LN_GRP_STATUS, MEM_RANGE_ERR]
    omega
  rw [State.rangeErr_eq] at hpend hcount hstate hrun
  generalize u.rangeNoted p.val x = r at hnoted hpend hcount hstate hrun
  have hports : (r.assertFlt 260).ports = u.ports := by rw [State.assertFlt_ports, hnoted]
  have hpwr : (r.assertFlt 260).pwr = u.pwr := by rw [State.assertFlt_pwr, hnoted]
  have houts : (r.assertFlt 260).outs = s.outs := by rw [State.assertFlt_outs, hnoted, hmoved.outs]
  obtain ⟨hcomm, hsent⟩ := State.answer_sent (f := f) (ty := ty) (b := []) 2
    ((State.maySend_congr hstate hports hpwr _).trans hmay) houts
  refine ⟨_, hrun, hsent, ?_, ?_, ?_, ?_⟩
  · rw [hcomm.1]
    exact (State.assertFlt_mem _ _).trans (by rw [hnoted, hmoved])
  · rw [hcomm.1]
    exact (State.assertFlt_drcs _ _).trans (by rw [hnoted, hmoved])
  · rw [hcomm.1]
    exact hpend
  · rw [hcomm.g (LN_TEST_ne (by decide)), hcount, State.g_congr hmoved.regs]

end

end Sys2Proof.Machine
end

section
/-! SUPPORT. What MEM_WR stores and MEM_RD returns where the checks pass (R50, R211, R221). -/

namespace Sys2Proof.Machine

/-! ### What an access leaves beside memory -/

theorem PortsMoved.memOwned {s u : State} (h : PortsMoved s u) (w m o n : Nat) : u.memOwned w m o n = s.memOwned w m o n := by
  rw [h]
  rfl

theorem State.answerMem_of_none {t : State} (h : t.waitingReqs = []) (p : Fin 4) (f : Frame) (ty : Nat) (b : List Byte) (tok : Nat) :
    t.answerMem p f ty b tok = t.answer p f ty 0 b := by
  simp [State.answerMem, State.answer, h]

/-- A delivered frame of which memory, the DRAM channels and then the communication are all that changes. -/
theorem OnlyComm.setDram {s u v t : State} (h : OnlyComm v t) (hmoved : PortsMoved s u) (hdram : OnlyDram u v) :
    OnlyComm { s with mem := t.mem, ecc := t.ecc, drcs := t.drcs } t := by
  refine ⟨?_, fun a ha => (h.2 a ha).trans (State.rd_congr (hdram.regs.trans hmoved.regs) a)⟩
  have hframe := h.1
  unfold PortsMoved OnlyDram at *
  rw [hframe, hdram, hmoved]

theorem OnlyDram.port {s t : State} (h : OnlyDram s t) (p : Nat) : t.port p = s.port p := State.port_congr (by rw [h]) p

theorem PortsMoved.waitingReqs {s u : State} (h : PortsMoved s u) : u.waitingReqs = s.waitingReqs := by
  rw [h]
  rfl

theorem PortsMoved.drc {s u : State} (h : PortsMoved s u) (d : Nat) : u.drc d = s.drc d := State.drc_congr (by rw [h]) d

theorem OnlyDram.maySend {s t : State} (h : OnlyDram s t) (p n : Nat) : t.maySend p n = s.maySend p n :=
  State.maySend_congr (State.g_congr h.regs _) (by rw [h]) (by rw [h]) n

/-! ### What is written -/

section
variable {t : State} {p : Fin 4} {a m o tok : Nat} {b : List Byte}

theorem State.busWrite_sram (hfirst : memOf a = some (m, o)) (hm : m ≠ 0) (master : Nat) :
    (t.busWrite master a b tok).1 = (t.writeWords master m o b).1 := by
  simp [State.busWrite, hfirst, hm]

theorem State.busWrite_dram (hfirst : memOf a = some (0, o)) (hgood : ∀ j, j < b.length → t.rangeBad (o + j) = false) :
    (t.busWrite p.val a b tok).1 = ((cutBursts (b.length + 1) o b).foldl (burstStep p tok) (t, false)).1 := by
  simp only [State.busWrite, hfirst, if_true, State.firstBad_of_good hgood]
  rfl

/-- A byte string within one burst. -/
theorem cutBursts_one {n : Nat} (hb : b ≠ []) (hone : o / 64 = (o + b.length - 1) / 64) : cutBursts (n + 1) o b = [(o, b)] := by
  have hpos := List.length_pos_iff.2 hb
  rw [cutBursts_cons hb, List.take_of_length_le (by omega), List.drop_eq_nil_of_le (by omega), cutBursts_nil]

/-- A burst for which its queue has no room waits, and nothing is stored. -/
theorem writeBurst_waits (hd : t.dramCh o < 4) (hfull : 32 ≤ (t.drc (t.dramCh o)).be.length) :
    OnlyDram t (t.writeBurst p.val o b tok).1 ∧ (t.writeBurst p.val o b tok).1.mem = t.mem ∧
      (t.writeBurst p.val o b tok).1.waitingReqs.any (fun r => decide (r.tok = tok)) = true := by
  have hno : ¬ t.dramRoom p.val o = true := by
    have hlen : ¬ (t.drc (t.dramCh o)).be.length < 32 := by omega
    simp [State.dramRoom, rtMaster_host, Drc.room, hlen]
  unfold State.writeBurst
  extract_lets rmw t'
  rw [if_neg hno]
  exact ⟨OnlyDram.dramQueue _ _ _ _ _ _ _ _, State.modDrc_mem _ _ _, State.waitingReqs_dramQueue_full p _ _ _ _ _ hd hfull⟩

end

/-! ### What is read -/

/-- Words without a mark are read as they are (R210). -/
theorem State.eccRead_of_none {s : State} {m o : Nat} (h : s.eccAt (memBase m + o) = none) (master : Nat) :
    s.eccRead master m o = (s, false) := by
  unfold State.eccRead State.lmRead
  rw [h]
  exact ite_self _

/-- One word of a range that is read from a state `s`. -/
def State.readStep (s : State) (master m : Nat) (acc : State × Bool) (w : Nat) : State × Bool :=
  if m = 0 ∧ s.rangeBad w then acc else ((acc.1.eccRead master m w).1, acc.2 || (acc.1.eccRead master m w).2)

theorem readFold_clean {s : State} (master m : Nat) (l : List Nat) (x : State) (h : ∀ w ∈ l, x.eccAt (memBase m + w) = none) (ue : Bool) :
    (l.foldl (s.readStep master m) (x, ue)).1 = x := by
  induction l generalizing ue with
  | nil => rfl
  | cons w l ih =>
    rw [List.forall_mem_cons] at h
    obtain ⟨hw, hl⟩ := h
    rw [List.foldl_cons, State.readStep, State.eccRead_of_none hw]
    split
    · exact ih hl ue
    · exact ih hl _

/-- No word of the range is marked. -/
theorem wordsOf_unmarked {s : State} {a m o n : Nat} (hbase : memBase m + o = a) (ho : o % 8 = 0) (hn : 1 ≤ n)
    (hecc : ∀ x, x < n → s.eccAt (a + x) = none) : ∀ w ∈ wordsOf o n, s.eccAt (memBase m + w) = none := by
  intro w hw
  obtain ⟨i, hi, rfl⟩ := List.mem_map.1 hw
  have hlt := List.mem_range.1 hi
  have hx := hecc ((o / 8 + i) * 8 - o) (by omega)
  rwa [show a + ((o / 8 + i) * 8 - o) = memBase m + (o / 8 + i) * 8 by omega] at hx

/-- The requests of a read enter the queues while these have room for all of them. -/
theorem Queued.dramRequests (p : Fin 4) (tok : Nat) (offset : Nat → Nat) (l : List Nat) (s : State) (hd : ∀ x, s.dramCh x < 4)
    (hwait : s.waitingReqs = []) (hroom : ∀ d, d < 4 → (s.drc d).be.length + l.length ≤ 32) :
    let t := forEach l s (fun i t => t.dramQueue p.val (offset i) false false false [] tok)
    OnlyDram s t ∧ t.mem = s.mem ∧ t.ecc = s.ecc ∧ t.waitingReqs = [] := by
  induction l generalizing s with
  | nil => exact ⟨OnlyDram.refl s, rfl, rfl, hwait⟩
  | cons i l ih =>
    have hbe : (s.drc (s.dramCh (offset i))).beWait = [] := (State.waitingReqs_eq_nil.1 hwait _ (hd _)).2
    have hlen := hroom _ (hd (offset i))
    rw [List.length_cons] at hlen
    have hqueued := Queued.dramQueue p false false false [] tok (hd (offset i)) (by omega) hbe
    have hdram := OnlyDram.dramQueue s p.val (offset i) false false false [] tok
    obtain ⟨hdram', hmem, hecc, hwait'⟩ := ih (s.dramQueue p.val (offset i) false false false [] tok)
      (fun x => by rw [State.dramCh_congr hdram.regs]; exact hd x) (hqueued.waitingReqs hwait)
      (fun d hd => by
        have hone := hqueued.be d hd
        have hall := hroom d hd
        rw [List.length_cons] at hall
        omega)
    exact ⟨hdram.trans hdram', hmem.trans (State.modDrc_mem _ _ _), hecc.trans (State.modDrc_ecc _ _ _), hwait'⟩

/-- The state in which the requests of a read have been queued. -/
def State.readQueued (s : State) (master m o n tok : Nat) : State := if m = 0 then s.dramBursts master o n false tok else s

section
variable {s : State} (p : Fin 4) {a n m o : Nat} (tok : Nat) (hwait : s.waitingReqs = [])
  (hgood : m = 0 → ∀ j, j < n → s.rangeBad (o + j) = false)
include hwait hgood

theorem Queued.readQueued (hn : 1 ≤ n) (hroom : m = 0 → ∀ d, d < 4 → (s.drc d).be.length + ((o + n - 1) / 64 - o / 64 + 1) ≤ 32) :
    OnlyDram s (s.readQueued p.val m o n tok) ∧ (s.readQueued p.val m o n tok).mem = s.mem ∧ (s.readQueued p.val m o n tok).ecc = s.ecc ∧
      (s.readQueued p.val m o n tok).waitingReqs = [] := by
  unfold State.readQueued
  split
  · next hm =>
    have hd : ∀ x, s.dramCh x < 4 := State.dramCh_lt (hgood hm 0 (by omega))
    exact Queued.dramRequests p tok (fun i => (o / 64 + i) * 64) _ s hd hwait (by simpa using hroom hm)
  · exact ⟨OnlyDram.refl s, rfl, rfl, hwait⟩

variable (hfirst : memOf a = some (m, o))
include hfirst

/-- A read in range gives the bytes and then looks at the words. -/
theorem State.busRead_eq : (s.busRead p.val a n false tok).1 =
      ((wordsOf o n).foldl ((s.readQueued p.val m o n tok).readStep p.val m) (s.readQueued p.val m o n tok, false)).1 ∧
    (s.busRead p.val a n false tok).2.1 = s.ld a n := by
  have hbad : (if m = 0 then s.firstBad o n else none) = none := by
    split
    · next hm => exact State.firstBad_of_good (hgood hm)
    · rfl
  have hown (i : Nat) : (if m = 0 then s.waitingByte p.val (o + i) else none) = none := by
    simp [State.waitingByte, hwait]
  simp only [State.busRead, hfirst, hbad, hown]
  refine ⟨rfl, List.map_congr_left fun i hi => if_neg fun ⟨hm, h⟩ => ?_⟩
  rw [hgood hm i (List.mem_range.1 hi)] at h
  cases h

/-- A read without errors returns the bytes; in DRAM its requests enter the queues. -/
theorem busRead_bytes (ho : o % 8 = 0) (hn : 1 ≤ n) (hecc : ∀ x, x < n → s.eccAt (a + x) = none)
    (hroom : m = 0 → ∀ d, d < 4 → (s.drc d).be.length + ((o + n - 1) / 64 - o / 64 + 1) ≤ 32) :
    (s.busRead p.val a n false tok).1 = s.readQueued p.val m o n tok ∧ (s.busRead p.val a n false tok).2.1 = s.ld a n := by
  obtain ⟨hstate, hbytes⟩ := State.busRead_eq p tok hwait hgood hfirst
  obtain ⟨-, -, hmarks, -⟩ := Queued.readQueued p tok hwait hgood hn hroom
  have hunmarked (x : Nat) : (s.readQueued p.val m o n tok).eccAt x = s.eccAt x := by
    unfold State.eccAt
    rw [hmarks]
  refine ⟨hstate.trans (readFold_clean _ _ _ _ (fun w hw => ?_) _), hbytes⟩
  rw [hunmarked]
  exact wordsOf_unmarked (memBase_of_memOf hfirst) ho hn hecc w hw

end

/-! ### MEM_WR and MEM_RD where the checks pass -/

section
variable {s : State} {p w : Fin 4} {f : Frame} {a n : Nat} {b : List Byte} (hin : s.inOrder p.val f = true)
  (hw : s.portWard p.val = some w.val) (ha : a < 2 ^ 40) (hlo : 8 ≤ n)
  (hchecked : (s.delivered p.val f).memCheck p w a n = (s.delivered p.val f, 0))
include hin hw ha hlo hchecked

section
variable (htx : (s.port p.val).txq = []) (hpay : f.payload = toLe 8 a ++ b) (hb : b.length = n) (hhi : n ≤ 2040) (hrole : s.role ≠ 2)
  (hpair : s.paired = false) (hcopy : s.twin.copying = false) {v : State}
  (hbus : ((s.delivered p.val f).busWrite p.val a b (memTok p f)).1 = v) (hdram : OnlyDram (s.delivered p.val f) v)
include htx hpay hb hhi hrole hpair hcopy hbus hdram

theorem exec_memWr_written : exec (.memWr p f) s = .next (v.answerMem p f 0x84 [] (memTok p f)) := by
  have hmoved := PortsMoved.delivered s (p := p.val) f
  have hmirror : v.mirror 0x55 f.payload = v :=
    State.mirror_unpaired ((State.paired_congr (hdram.regs.trans hmoved.regs)).trans hpair) (by rw [hdram, hmoved, hcopy]) _ _
  rw [exec_memWr_delivered hin htx hw, State.memWr_eq ha hlo hpay hb hhi (hmoved.role.trans_ne hrole), hchecked,
    if_neg (not_not_intro rfl), hbus, hmirror]

theorem memWr_answered (hsend : s.maySend p.val 0 = true) (hwait : v.waitingReqs = []) : Gives (.memWr p f) s (fun t =>
    t.mem = v.mem ∧ t.drcs = v.drcs ∧ OnlyComm { s with mem := t.mem, ecc := t.ecc, drcs := t.drcs } t ∧
      Sent s t p.val 0x84 0 f.tag 0 []) := by
  have hmoved := PortsMoved.delivered s (p := p.val) f
  have hrun := exec_memWr_written hin hw ha hlo hchecked htx hpay hb hhi hrole hpair hcopy hbus hdram
  rw [State.answerMem_of_none hwait] at hrun
  obtain ⟨hcomm, hsent⟩ := State.answer_sent (s := s) (p := p) (f := f) (ty := 0x84) (b := []) 0
    ((hdram.maySend _ _).trans (s.maySend_delivered f p.isLt hsend)) (by rw [hdram, hmoved.outs])
  exact ⟨_, hrun, by rw [hcomm.1], by rw [hcomm.1], hcomm.setDram hmoved hdram, hsent⟩

/-- The response of a write that waits for its queue waits with it. -/
theorem memWr_waits (hresps : (s.port p.val).resps = []) (hmem : v.mem = s.mem)
    (hwait : v.waitingReqs.any (fun r => decide (r.tok = memTok p f)) = true) : Gives (.memWr p f) s (fun t =>
    t.mem = s.mem ∧ t.outs = s.outs ∧
      (t.port p.val).resps = (s.port p.val).resps ++ [⟨some (memTok p f), dataFrame 0x84 0 f.tag 0 []⟩]) := by
  have hmoved := PortsMoved.delivered s (p := p.val) f
  have hrun := exec_memWr_written hin hw ha hlo hchecked htx hpay hb hhi hrole hpair hcopy hbus hdram
  have hnone : (v.port p.val).resps = [] := by
    rw [hdram.port, s.delivered_port f p.isLt, s.headed_port f p.isLt, hresps]
  rw [State.answerMem, hwait, if_pos rfl, State.respond_waits _ (by omega) _ (by rw [hnone]; rfl)] at hrun
  refine ⟨_, hrun, ?_, ?_, ?_⟩
  · rw [State.modPort_mem, hmem]
  · rw [State.modPort_outs, hdram, hmoved.outs]
  · rw [State.port_modPort_self _ _ _ (by omega), hresps]
    exact congrArg (· ++ _) hnone

end

theorem memRd_answered (hsend : s.maySend p.val n = true) (hpay : f.payload = toLe 8 a ++ toLe 8 n) (hhi : n ≤ 2048) {v : State}
    (hbus : ((s.delivered p.val f).busRead p.val a n false (memTok p f)).1 = v)
    (hbytes : ((s.delivered p.val f).busRead p.val a n false (memTok p f)).2.1 = s.ld a n) (hdram : OnlyDram (s.delivered p.val f) v)
    (hwait : v.waitingReqs = []) : Gives (.memRd p f) s (fun t => t.mem = v.mem ∧ t.ecc = v.ecc ∧ t.drcs = v.drcs ∧
      OnlyComm { s with mem := t.mem, ecc := t.ecc, drcs := t.drcs } t ∧ Sent s t p.val 0x83 0 f.tag 0 (s.ld a n)) := by
  have hmoved := PortsMoved.delivered s (p := p.val) f
  have hrun : exec (.memRd p f) s = .next (v.answer p f 0x83 0 (s.ld a n)) := by
    rw [exec_memRd_delivered hin (State.txq_of_maySend hsend) hw, State.memRd_eq ha hlo hpay hhi, hchecked, if_neg (not_not_intro rfl),
      hbus, hbytes, State.answerMem_of_none hwait]
  have hlen : (s.ld a n).length = n := by simp [State.ld]
  obtain ⟨hcomm, hsent⟩ := State.answer_sent (s := s) (p := p) (f := f) (ty := 0x83) (b := s.ld a n) 0
    (by rw [hdram.maySend, hlen]; exact s.maySend_delivered f p.isLt hsend) (by rw [hdram, hmoved.outs])
  exact ⟨_, hrun, by rw [hcomm.1], by rw [hcomm.1], by rw [hcomm.1], hcomm.setDram hmoved hdram, hsent⟩

end

/-! ### MEM_WR and MEM_RD of a range that the Ward owns -/

section
variable {s : State} {p w : Fin 4} {f : Frame} {a n m o : Nat} {b : List Byte} (hin : s.inOrder p.val f = true)
  (hsend : s.maySend p.val n = true) (hw : s.portWard p.val = some w.val) (hwait : s.waitingReqs = []) (ha : a < 2 ^ 40) (hlo : 8 ≤ n)
  (hal : a % 8 = 0) (hnl : n % 8 = 0) (hfirst : memOf a = some (m, o)) (hlast : memOf (a + n - 1) = some (m, o + n - 1))
  (hown : s.memOwned w.val m o n = true) (hgood : m = 0 → ∀ j, j < n → s.rangeBad (o + j) = false)

include ha hal hnl hfirst hlast hown hgood in
theorem State.memCheck_delivered : (s.delivered p.val f).memCheck p w a n = (s.delivered p.val f, 0) := by
  have hmoved := PortsMoved.delivered s (p := p.val) f
  exact State.memCheck_good ha hal hnl hfirst hlast ((hmoved.memOwned _ _ _ _).trans hown)
    fun hm j hj => (State.rangeBad_congr hmoved.regs _).trans (hgood hm j hj)

include hin hsend hw hwait ha hlo hal hnl hfirst hlast hown hgood

section
variable (hpay : f.payload = toLe 8 a ++ b) (hb : b.length = n) (hhi : n ≤ 2040) (hrole : s.role ≠ 2) (hpair : s.paired = false)
  (hcopy : s.twin.copying = false)
include hpay hb hhi hrole hpair hcopy

/-- A window of SRAM (R209). -/
theorem memWr_sram (hm : m ≠ 0) : Gives (.memWr p f) s (fun t => t.ld a n = b ∧ (∀ x, x < a ∨ a + n ≤ x → t.ldB x = s.ldB x) ∧
    OnlyComm { s with mem := t.mem, ecc := t.ecc } t ∧ Sent s t p.val 0x84 0 f.tag 0 []) := by
  have hmoved := PortsMoved.delivered s (p := p.val) f
  have hchecked := State.memCheck_delivered (p := p) (f := f) ha hal hnl hfirst hlast hown hgood
  obtain ⟨hstored, honly⟩ := writeWords_stored (s.delivered p.val f) p.val m (o := o) (b := b) (memOf_aligned hfirst hal) (by omega)
    (fun h => absurd h hm)
  rw [memBase_of_memOf hfirst] at hstored
  have hdrcs : ((s.delivered p.val f).writeWords p.val m o b).1.drcs = s.drcs := by rw [honly, hmoved]
  have hqueues : ((s.delivered p.val f).writeWords p.val m o b).1.waitingReqs = [] :=
    (Queued.of_drcs hdrcs).waitingReqs hwait
  obtain ⟨t, ht, hmem, hdrcs', hcomm, hsent⟩ := memWr_answered hin hw ha hlo hchecked (State.txq_of_maySend hsend) hpay hb hhi hrole hpair
    hcopy (State.busWrite_sram hfirst hm _) honly.onlyDram (State.maySend_zero hsend) hqueues
  have hfinal : Stored a b s t := hstored.congr (by rw [hmoved]) hmem
  subst hb
  refine ⟨t, ht, hfinal.ld, hfinal.outside, ?_, hsent⟩
  rwa [hdrcs', hdrcs] at hcomm

/-- DRAM, while the queues have room for every burst. -/
theorem memWr_dram (hm : m = 0) (hroom : ∀ d, d < 4 → (s.drc d).be.length + ((o + n - 1) / 64 - o / 64 + 1) ≤ 32) :
    Gives (.memWr p f) s (fun t => t.ld a n = b ∧ (∀ x, x < a ∨ a + n ≤ x → t.ldB x = s.ldB x) ∧
      OnlyComm { s with mem := t.mem, ecc := t.ecc, drcs := t.drcs } t ∧ Sent s t p.val 0x84 0 f.tag 0 []) := by
  subst hm hb
  have hmoved := PortsMoved.delivered s (p := p.val) f
  have hchecked := State.memCheck_delivered (p := p) (f := f) ha hal hnl hfirst hlast hown hgood
  have hgood' : ∀ j, j < b.length → (s.delivered p.val f).rangeBad (o + j) = false := fun j hj =>
    (State.rangeBad_congr hmoved.regs _).trans (hgood rfl j hj)
  obtain ⟨hstored, hdram, hqueues⟩ := burstFold_stored p (memTok p f) (b.length + 1) o b (s.delivered p.val f, false)
    (memOf_aligned hfirst hal) hnl (by omega) hgood' (hmoved.waitingReqs.trans hwait)
    (fun _ d hd => by rw [hmoved.drc]; exact hroom d hd)
  rw [memBase_of_memOf hfirst] at hstored
  obtain ⟨t, ht, hmem, -, hcomm, hsent⟩ := memWr_answered hin hw ha hlo hchecked (State.txq_of_maySend hsend) hpay rfl hhi hrole hpair
    hcopy (State.busWrite_dram hfirst hgood') hdram (State.maySend_zero hsend) hqueues
  have hfinal : Stored a b s t := hstored.congr (by rw [hmoved]) hmem
  exact ⟨t, ht, hfinal.ld, hfinal.outside, hcomm, hsent⟩

omit hwait in
/-- One burst of DRAM whose channel has no room. -/
theorem memWr_dram_waits (hm : m = 0) (hone : o / 64 = (o + n - 1) / 64) (hfull : 32 ≤ (s.drc (s.dramCh o)).be.length)
    (hd : s.dramCh o < 4) : Gives (.memWr p f) s (fun t => t.mem = s.mem ∧ t.outs = s.outs ∧
      (t.port p.val).resps = (s.port p.val).resps ++ [⟨some (memTok p f), dataFrame 0x84 0 f.tag 0 []⟩]) := by
  subst hm hb
  have hmoved := PortsMoved.delivered s (p := p.val) f
  have hchecked := State.memCheck_delivered (p := p) (f := f) ha hal hnl hfirst hlast hown hgood
  have hgood' : ∀ j, j < b.length → (s.delivered p.val f).rangeBad (o + j) = false := fun j hj =>
    (State.rangeBad_congr hmoved.regs _).trans (hgood rfl j hj)
  have hne : b ≠ [] := List.ne_nil_of_length_pos (by omega)
  have hch := State.dramCh_congr hmoved.regs o
  obtain ⟨hdram, hmem, hqueued⟩ := writeBurst_waits (t := s.delivered p.val f) (p := p) (o := o) (b := b) (tok := memTok p f)
    (by rwa [hch]) (by rwa [hch, hmoved.drc])
  have hbus := State.busWrite_dram (p := p) (tok := memTok p f) hfirst hgood'
  rw [cutBursts_one hne hone] at hbus
  exact memWr_waits hin hw ha hlo hchecked (State.txq_of_maySend hsend) hpay rfl hhi hrole hpair hcopy hbus hdram
    (State.owes_nothing_of_maySend hsend).1 (hmem.trans (by rw [hmoved])) hqueued

end

theorem memRd_returns (hpay : f.payload = toLe 8 a ++ toLe 8 n) (hhi : n ≤ 2048) (hecc : ∀ x, x < n → s.eccAt (a + x) = none)
    (hroom : m = 0 → ∀ d, d < 4 → (s.drc d).be.length + ((o + n - 1) / 64 - o / 64 + 1) ≤ 32) : Gives (.memRd p f) s (fun t =>
      OnlyComm { s with drcs := t.drcs } t ∧ Sent s t p.val 0x83 0 f.tag 0 (s.ld a n) ∧ (m ≠ 0 → t.drcs = s.drcs)) := by
  have hmoved := PortsMoved.delivered s (p := p.val) f
  have hchecked := State.memCheck_delivered (p := p) (f := f) ha hal hnl hfirst hlast hown hgood
  have hgood' : m = 0 → ∀ j, j < n → (s.delivered p.val f).rangeBad (o + j) = false := fun hm j hj =>
    (State.rangeBad_congr hmoved.regs _).trans (hgood hm j hj)
  have hwait' := hmoved.waitingReqs.trans hwait
  have hroom' : m = 0 → ∀ d, d < 4 → ((s.delivered p.val f).drc d).be.length + ((o + n - 1) / 64 - o / 64 + 1) ≤ 32 := fun hm d hd => by
    rw [hmoved.drc]
    exact hroom hm d hd
  have hecc' : ∀ x, x < n → (s.delivered p.val f).eccAt (a + x) = none := fun x hx => by
    rw [hmoved]
    exact hecc x hx
  obtain ⟨hbus, hbytes⟩ := busRead_bytes p (memTok p f) hwait' hgood' hfirst (memOf_aligned hfirst hal) (by omega) hecc' hroom'
  obtain ⟨hdram, hmem, hmarks, hqueues⟩ := Queued.readQueued p (memTok p f) hwait' hgood' (by omega) hroom'
  have hsram (hm : m ≠ 0) : ((s.delivered p.val f).readQueued p.val m o n (memTok p f)).drcs = s.drcs := by
    rw [State.readQueued, if_neg hm, hmoved]
  obtain ⟨t, ht, htmem, htecc, htdrcs, hcomm, hsent⟩ := memRd_answered hin hw ha hlo hchecked hsend hpay hhi hbus
    (hbytes.trans (by rw [hmoved]; rfl)) hdram hqueues
  refine ⟨t, ht, ?_, hsent, fun hm => htdrcs.trans (hsram hm)⟩
  rwa [htmem, htecc, hmem, hmarks, hmoved] at hcomm

end

/-- Settles O3. A refusal is the same for both frames; a write is performed word by word, in DRAM burst by burst, and a read returns what
stands there. -/
theorem memoryFramesAct : Obligations.MemoryFramesAct := by
  unfold Obligations.MemoryFramesAct
  intro s p w f a n m o b hin hsend hw hpair hcopy hrole hwait ha hlo hb hn
  have hshort (hpay : f.payload = toLe 8 a ++ b) : n ≤ 2040 := by
    rcases hn with hn | ⟨-, hpay'⟩
    · exact hn
    · have hsame := List.append_cancel_left (hpay.symm.trans hpay')
      rw [hsame, toLe_length] at hb
      omega
  have hlong : n ≤ 2048 := by omega
  refine ⟨fun hpay => ?_,
    fun hpay hal hnl hfirst hlast hown => ⟨fun hm => ?_, fun hm hgood => ⟨fun hroom => ?_, fun hone hfull hd => ?_⟩⟩,
    fun hpay hal hnl hfirst hlast hown hecc => ⟨fun hm => ?_, fun hm hgood hroom => ?_⟩⟩
  · intro wr i ty
    have hchecked : MemChecked i ty s p w f a n := by
      by_cases hwr : f.payload = toLe 8 a ++ b
      · simpa only [i, ty, wr, hwr, decide_true, if_true] using
          MemChecked.memWr hin (State.txq_of_maySend hsend) hw ha hlo hwr hb (hshort hwr) hrole
      · simpa only [i, ty, wr, hwr, decide_false, Bool.false_eq_true, if_false] using
          MemChecked.memRd hin (State.txq_of_maySend hsend) hw ha hlo (hpay.resolve_left hwr) hlong
    have hmoved := PortsMoved.delivered s (p := p.val) f
    have hzero := State.maySend_zero hsend
    refine ⟨fun hbad => ?_, fun hal hnl => ⟨fun hout => ?_, fun hfirst hlast => ⟨fun hfence => ?_, fun hown hm hbad => ?_⟩⟩⟩
    · exact hchecked.refused hzero (State.memCheck_misaligned ha hbad) (by decide)
    · exact hchecked.refused hzero (State.memCheck_outside ha hal hnl hout) (by decide)
    · exact hchecked.refused hzero (State.memCheck_fenced ha hal hnl hfirst hlast ((hmoved.memOwned _ _ _ _).trans hfence)) (by decide)
    · obtain ⟨j, hj, hjbad⟩ := hbad
      obtain ⟨x, hx⟩ := State.memCheck_bad (t := s.delivered p.val f) (p := p) ha hal hnl hfirst hlast
        ((hmoved.memOwned _ _ _ _).trans hown) hm ⟨j, hj, (State.rangeBad_congr hmoved.regs _).trans hjbad⟩
      exact hchecked.rangeErr hzero hx
  · exact memWr_sram hin hsend hw hwait ha hlo hal hnl hfirst hlast hown (fun h => absurd h hm) hpay hb (hshort hpay) hrole hpair hcopy hm
  · exact memWr_dram hin hsend hw hwait ha hlo hal hnl hfirst hlast hown (fun _ => hgood) hpay hb (hshort hpay) hrole hpair hcopy hm hroom
  · exact memWr_dram_waits hin hsend hw ha hlo hal hnl hfirst hlast hown (fun _ => hgood) hpay hb (hshort hpay) hrole hpair hcopy hm
      hone hfull hd
  · obtain ⟨t, ht, hcomm, hsent, hsram⟩ := memRd_returns hin hsend hw hwait ha hlo hal hnl hfirst hlast hown
      (fun h => absurd h hm) hpay hlong hecc (fun h => absurd h hm)
    rw [hsram hm] at hcomm
    exact ⟨t, ht, hcomm, hsent⟩
  · obtain ⟨t, ht, hcomm, hsent, -⟩ := memRd_returns hin hsend hw hwait ha hlo hal hnl hfirst hlast hown (fun _ => hgood) hpay hlong hecc
      (fun _ => hroom)
    exact ⟨t, ht, hcomm, hsent⟩

end Sys2Proof.Machine
end

section
/-! SUPPORT. The control-store code (R395): syndrome and parity are linear, so an error is told by its own syndrome and parity. -/

namespace Sys2Proof.Machine

/-! ### Positions -/

theorem dpos_lt_succ (i : Nat) : dpos i < dpos (i + 1) := by
  unfold dpos
  split_ifs <;> omega

theorem dpos_strictMono : StrictMono dpos := strictMono_nat_of_lt_succ dpos_lt_succ

theorem dpos_bounds {i : Nat} (h : i < 160) : 3 ≤ dpos i ∧ dpos i ≤ 168 :=
  ⟨dpos_strictMono.monotone (Nat.zero_le i), dpos_strictMono.monotone (Nat.le_of_lt_succ h : i ≤ 159)⟩

/-- No data bit stands at a power of two. -/
theorem dpos_ne_two_pow : ∀ k < 8, ∀ i < 160, dpos i ≠ 2 ^ k := by decide +kernel

/-- The positions from 3 that are no powers of two, in order, are those of the data bits. -/
theorem positions_eq : (List.range 169).filter (fun n => decide (3 ≤ n) && !([4, 8, 16, 32, 64, 128].contains n)) =
    (List.range 160).map dpos := by decide +kernel

theorem dpos_of_getD {i : Nat} (h : i < 160) : ((List.range 160).map dpos).getD i 0 = dpos i := by
  simp [List.getD_eq_getElem?_getD, h]

/-! ### Exclusive or of the bits of a string -/

/-- The number of the places below `n` where `f` holds is odd. -/
def oddCount (n : Nat) (f : Nat → Bool) : Bool := decide (((List.range n).filter f).length % 2 = 1)

theorem oddCount_succ (n : Nat) (f : Nat → Bool) : oddCount (n + 1) f = (oddCount n f ^^ f n) := by
  unfold oddCount
  rw [List.range_succ, List.filter_append, List.length_append]
  cases h : f n
  · simp [h]
  · have hone : ([n].filter f).length = 1 := by simp [h]
    rw [hone, Bool.xor_true, ← decide_not, decide_eq_decide]
    omega

theorem oddCount_congr {n : Nat} {f g : Nat → Bool} (h : ∀ i < n, f i = g i) : oddCount n f = oddCount n g := by
  unfold oddCount
  rw [List.filter_congr fun i hi => h i (List.mem_range.1 hi)]

theorem parUpTo_eq_oddCount {k : Nat} (w : BitVec k) (n : Nat) : parUpTo w n = oddCount n w.getLsbD := by
  induction n with
  | zero => rfl
  | succ n ih => rw [oddCount_succ, parUpTo, ih]

/-- Bit `k` of the check bits is the exclusive or of the data bits whose position has bit `k` set. -/
theorem synUpTo_getLsbD (d : Micro) {k : Nat} (hk : k < 8) (n : Nat) :
    (synUpTo d n).getLsbD k = oddCount n (fun i => nbit (dpos i) k && d.getLsbD i) := by
  induction n with
  | zero => simp [synUpTo, oddCount]
  | succ n ih =>
    rw [oddCount_succ, synUpTo, BitVec.getLsbD_xor, ih]
    cases d.getLsbD n
    · simp
    · rw [if_pos rfl, BitVec.getLsbD_ofNat]
      simp [hk, nbit]

theorem synUpTo_xor (a b : Micro) (n : Nat) : synUpTo (a ^^^ b) n = synUpTo a n ^^^ synUpTo b n := by
  refine BitVec.eq_of_getLsbD_eq fun k hk => ?_
  rw [BitVec.getLsbD_xor, synUpTo_getLsbD _ hk, synUpTo_getLsbD _ hk, synUpTo_getLsbD _ hk]
  induction n with
  | zero => rfl
  | succ n ih =>
    rw [oddCount_succ, oddCount_succ, oddCount_succ, ih, BitVec.getLsbD_xor, Bool.and_xor_distrib_left]
    simp only [Bool.xor_assoc, Bool.xor_left_comm]

theorem parUpTo_xor {k : Nat} (a b : BitVec k) (n : Nat) : parUpTo (a ^^^ b) n = (parUpTo a n ^^ parUpTo b n) := by
  induction n with
  | zero => rfl
  | succ n ih =>
    simp only [parUpTo, ih, BitVec.getLsbD_xor, Bool.xor_assoc, Bool.xor_left_comm]

theorem parUpTo_congr {k l : Nat} {a : BitVec k} {b : BitVec l} {n : Nat} (h : ∀ i < n, a.getLsbD i = b.getLsbD i) :
    parUpTo a n = parUpTo b n := by
  rw [parUpTo_eq_oddCount, parUpTo_eq_oddCount]
  exact oddCount_congr h

/-- The parity of a string is that of its low bits and that of its high ones. -/
theorem parUpTo_add {k l m : Nat} {a : BitVec k} {b : BitVec l} (n : Nat) (h : ∀ i < n, a.getLsbD (m + i) = b.getLsbD i) :
    parUpTo a (m + n) = (parUpTo a m ^^ parUpTo b n) := by
  induction n with
  | zero => simp [parUpTo]
  | succ n ih =>
    rw [← Nat.add_assoc, parUpTo, ih fun i hi => h i (Nat.lt_succ_of_lt hi), h n (Nat.lt_succ_self n), parUpTo, Bool.xor_assoc]

/-! ### One bit -/

theorem getLsbD_oneBit {k i : Nat} (hi : i < k) (j : Nat) : (1#k <<< i).getLsbD j = decide (j = i) := by
  rw [BitVec.getLsbD_shiftLeft, BitVec.getLsbD_one]
  by_cases h : j = i
  · subst h; simp [hi]; omega
  · simp [h]; omega

theorem parUpTo_oneBit {k i : Nat} (hi : i < k) (n : Nat) : parUpTo (1#k <<< i) n = decide (i < n) := by
  induction n with
  | zero => simp [parUpTo]
  | succ n ih =>
    rw [parUpTo, ih, getLsbD_oneBit hi]
    by_cases h : n = i
    · simp [h]
    · simp [h]; omega

theorem synUpTo_oneBit {i : Nat} (hi : i < 160) (n : Nat) :
    synUpTo (1#160 <<< i) n = if i < n then BitVec.ofNat 8 (dpos i) else 0#8 := by
  induction n with
  | zero => rfl
  | succ n ih =>
    rw [synUpTo, ih, getLsbD_oneBit hi]
    by_cases h : n = i
    · simp [h]
    · have : (i < n + 1) = (i < n) := by simp only [eq_iff_iff]; omega
      simp [h, this]

theorem synUpTo_zero (n : Nat) : synUpTo 0#160 n = 0#8 := by
  induction n with
  | zero => rfl
  | succ n ih => simp [synUpTo, ih]

/-! ### Stored words -/

/-- The data bits of a stored word. -/
def csData (w : CsWord) : Micro := w.extractLsb' 0 160

/-- The syndrome of a stored word. -/
def csSyndrome (w : CsWord) : BitVec 8 := w.extractLsb' 160 8 ^^^ synUpTo (csData w) 160

theorem csData_xor (a b : CsWord) : csData (a ^^^ b) = csData a ^^^ csData b := BitVec.extractLsb'_xor

theorem csSyndrome_xor (a b : CsWord) : csSyndrome (a ^^^ b) = csSyndrome a ^^^ csSyndrome b := by
  unfold csSyndrome
  rw [csData_xor, synUpTo_xor, BitVec.extractLsb'_xor]
  ac_rfl

theorem csData_getLsbD (w : CsWord) {i : Nat} (h : i < 160) : (csData w).getLsbD i = w.getLsbD i := by
  simp [csData, h]

theorem csData_eq_ofNat (w : CsWord) : csData w = BitVec.ofNat 160 w.toNat := by
  simp [csData, BitVec.extractLsb']

theorem csEncode_getLsbD (d : Micro) {i : Nat} (h : i < 160) : (csEncode d).getLsbD i = d.getLsbD i := by
  rw [csEncode, BitVec.getLsbD_append, if_pos h]

theorem csEncode_check (d : Micro) {k : Nat} (h : k < 8) : (csEncode d).getLsbD (160 + k) = (synUpTo d 160).getLsbD k := by
  rw [csEncode, BitVec.getLsbD_append, if_neg (by omega), Nat.add_sub_cancel_left, BitVec.getLsbD_append, if_pos h]

theorem csEncode_parity (d : Micro) : (csEncode d).getLsbD 168 = (parUpTo d 160 ^^ parUpTo (synUpTo d 160) 8) := by
  rw [csEncode, BitVec.getLsbD_append, if_neg (by decide), BitVec.getLsbD_append, if_neg (by decide)]
  simp

theorem csData_csEncode (d : Micro) : csData (csEncode d) = d :=
  BitVec.eq_of_getLsbD_eq fun i hi => by rw [csData_getLsbD _ hi, csEncode_getLsbD d hi]

theorem csSyndrome_csEncode (d : Micro) : csSyndrome (csEncode d) = 0#8 := by
  have hcheck : (csEncode d).extractLsb' 160 8 = synUpTo d 160 :=
    BitVec.eq_of_getLsbD_eq fun i hi => by
      rw [BitVec.getLsbD_extractLsb', csEncode_check d hi]
      simp [hi]
  rw [csSyndrome, csData_csEncode, hcheck, BitVec.xor_self]

theorem parUpTo_csEncode (d : Micro) : parUpTo (csEncode d) 169 = false := by
  have hlow : parUpTo (csEncode d) 160 = parUpTo d 160 := parUpTo_congr fun i hi => csEncode_getLsbD d hi
  have hchecks : parUpTo (csEncode d) 168 = (parUpTo d 160 ^^ parUpTo (synUpTo d 160) 8) := by
    rw [← hlow]
    exact parUpTo_add (m := 160) 8 fun i hi => csEncode_check d hi
  rw [parUpTo, hchecks, csEncode_parity, Bool.xor_self]

/-! ### What a fetch decides -/

theorem csDecode_even {w : CsWord} (h : parUpTo w 169 = false) :
    csDecode w = if (csSyndrome w).toNat = 0 then some (csData w, false) else none := by
  unfold csDecode
  simp only [h, Bool.false_eq_true, if_false]
  rfl

section
variable {w : CsWord} (h : parUpTo w 169 = true)
include h

theorem csDecode_odd : csDecode w = if (csSyndrome w).toNat = 0 then some (csData w, true) else if (csSyndrome w).toNat ≤ 168 then
    match (List.range 160).find? (fun i => decide (dpos i = (csSyndrome w).toNat)) with
    | some i => some (csData w ^^^ (1#160 <<< i), true)
    | none => some (csData w, true)
    else none := by
  unfold csDecode
  simp only [h, if_true]
  rfl

/-- The parity bit alone is wrong. -/
theorem csDecode_odd_zero (hs : (csSyndrome w).toNat = 0) : csDecode w = some (csData w, true) := by
  rw [csDecode_odd h, if_pos hs]

theorem csDecode_odd_outside (hs : 168 < (csSyndrome w).toNat) : csDecode w = none := by
  rw [csDecode_odd h, if_neg (by omega), if_neg (by omega)]

/-- Data bit `i` is wrong. -/
theorem csDecode_odd_data {i : Nat} (hi : i < 160) (hs : dpos i = (csSyndrome w).toNat) :
    csDecode w = some (csData w ^^^ (1#160 <<< i), true) := by
  have hb := dpos_bounds hi
  have hfind : (List.range 160).find? (fun j => decide (dpos j = (csSyndrome w).toNat)) = some i := by
    rw [List.find?_range_eq_some]
    refine ⟨by simp [hs], List.mem_range.2 hi, fun j hj => ?_⟩
    have := dpos_strictMono hj
    simp; omega
  rw [csDecode_odd h, if_neg (by omega), if_pos (by omega), hfind]

/-- A check bit is wrong. -/
theorem csDecode_odd_check (h1 : 1 ≤ (csSyndrome w).toNat) (h2 : (csSyndrome w).toNat ≤ 168)
    (hs : ∀ i < 160, dpos i ≠ (csSyndrome w).toNat) : csDecode w = some (csData w, true) := by
  have hfind : (List.range 160).find? (fun j => decide (dpos j = (csSyndrome w).toNat)) = none :=
    List.find?_eq_none.2 fun i hi => by simpa using hs i (List.mem_range.1 hi)
  rw [csDecode_odd h, if_neg (by omega), if_pos h2, hfind]

end

theorem csDecode_csEncode (d : Micro) : csDecode (csEncode d) = some (d, false) := by
  rw [csDecode_even (parUpTo_csEncode d), csSyndrome_csEncode, csData_csEncode]
  rfl

/-! ### Wrong bits -/

/-- The syndrome of a single wrong bit: its position, where a check bit stands at a power of two and the parity bit nowhere. -/
def bitPos (i : Nat) : Nat := if i < 160 then dpos i else if i < 168 then 2 ^ (i - 160) else 0

theorem bitPos_data {i : Nat} (h : i < 160) : bitPos i = dpos i := if_pos h

theorem bitPos_check {i : Nat} (h : 160 ≤ i) (h' : i < 168) : bitPos i = 2 ^ (i - 160) := by
  rw [bitPos, if_neg (by omega), if_pos h']

theorem bitPos_parity : bitPos 168 = 0 := rfl

theorem two_pow_check_bounds {i : Nat} (h' : i < 168) : 1 ≤ 2 ^ (i - 160) ∧ 2 ^ (i - 160) ≤ 128 :=
  ⟨Nat.one_le_two_pow, Nat.pow_le_pow_right (n := 2) (by decide) (by omega : i - 160 ≤ 7)⟩

/-- Different bits have different positions. -/
theorem bitPos_lt_ne {i j : Nat} (h : i < j) (hj : j < 169) : bitPos i ≠ bitPos j := by
  rcases Nat.lt_or_ge j 160 with hd | hc
  · rw [bitPos_data hd, bitPos_data (h.trans hd)]
    exact (dpos_strictMono h).ne
  · rcases Nat.lt_or_ge i 160 with hid | hic
    · rw [bitPos_data hid]
      rcases Nat.lt_or_ge j 168 with hj' | hj'
      · rw [bitPos_check hc hj']
        exact dpos_ne_two_pow _ (by omega) i hid
      · obtain rfl : j = 168 := by omega
        have := dpos_bounds hid
        rw [bitPos_parity]; omega
    · rw [bitPos_check hic (by omega)]
      rcases Nat.lt_or_ge j 168 with hj' | hj'
      · rw [bitPos_check hc hj']
        exact (Nat.pow_lt_pow_right (by decide) (by omega)).ne
      · obtain rfl : j = 168 := by omega
        exact (Nat.two_pow_pos _).ne'

theorem csData_oneBit {i : Nat} (hi : i < 169) : csData (1#169 <<< i) = if i < 160 then 1#160 <<< i else 0#160 := by
  refine BitVec.eq_of_getLsbD_eq fun j hj => ?_
  rw [csData_getLsbD _ hj, getLsbD_oneBit hi]
  split
  · next h => rw [getLsbD_oneBit h]
  · simp; omega

theorem csSyndrome_oneBit {i : Nat} (hi : i < 169) : (csSyndrome (1#169 <<< i)).toNat = bitPos i := by
  have hcheck (v : BitVec 8) (h : ∀ j < 8, v.getLsbD j = decide (160 + j = i)) : (1#169 <<< i).extractLsb' 160 8 = v :=
    BitVec.eq_of_getLsbD_eq fun j hj => by
      rw [BitVec.getLsbD_extractLsb', getLsbD_oneBit hi, h j hj]
      simp [hj]
  rw [csSyndrome, csData_oneBit hi]
  rcases Nat.lt_or_ge i 160 with hd | hc
  · have hb := dpos_bounds hd
    rw [if_pos hd, synUpTo_oneBit hd, if_pos hd, bitPos_data hd, hcheck 0#8 fun j hj => by simp; omega, BitVec.zero_xor,
      BitVec.toNat_ofNat, Nat.mod_eq_of_lt (by omega)]
  · rw [if_neg (by omega), synUpTo_zero, BitVec.xor_zero]
    rcases Nat.lt_or_ge i 168 with hk | hk
    · have hb := two_pow_check_bounds hk
      rw [hcheck (1#8 <<< (i - 160)) fun j hj => by rw [getLsbD_oneBit (by omega)]; simp; omega, bitPos_check hc hk,
        BitVec.toNat_shiftLeft, Nat.shiftLeft_eq, BitVec.toNat_ofNat, Nat.mod_eq_of_lt (by omega)]
      simp
    · rw [hcheck 0#8 fun j hj => by simp; omega]
      obtain rfl : i = 168 := by omega
      rfl

/-- Every single wrong bit is corrected. -/
theorem csDecode_oneWrong (d : Micro) {i : Nat} (hi : i < 169) : csDecode (csEncode d ^^^ (1#169 <<< i)) = some (d, true) := by
  have hpar : parUpTo (csEncode d ^^^ (1#169 <<< i)) 169 = true := by
    rw [parUpTo_xor, parUpTo_csEncode, parUpTo_oneBit hi]
    simpa using hi
  have hsyn : (csSyndrome (csEncode d ^^^ (1#169 <<< i))).toNat = bitPos i := by
    rw [csSyndrome_xor, csSyndrome_csEncode, BitVec.zero_xor, csSyndrome_oneBit hi]
  have hdata : csData (csEncode d ^^^ (1#169 <<< i)) = d ^^^ (if i < 160 then 1#160 <<< i else 0#160) := by
    rw [csData_xor, csData_csEncode, csData_oneBit hi]
  rcases Nat.lt_or_ge i 160 with hd | hc
  · rw [csDecode_odd_data hpar hd (by rw [hsyn, bitPos_data hd]), hdata, if_pos hd, BitVec.xor_assoc, BitVec.xor_self, BitVec.xor_zero]
  · rw [if_neg (by omega), BitVec.xor_zero] at hdata
    rcases Nat.lt_or_ge i 168 with hk | hk
    · rw [bitPos_check hc hk] at hsyn
      have hb := two_pow_check_bounds hk
      rw [csDecode_odd_check hpar (by omega) (by omega) fun j hj => by rw [hsyn]; exact dpos_ne_two_pow _ (by omega) j hj, hdata]
    · obtain rfl : i = 168 := by omega
      rw [csDecode_odd_zero hpar hsyn, hdata]

/-- Every pair of wrong bits is found. -/
theorem csDecode_twoWrong (d : Micro) {i j : Nat} (hi : i < 169) (hj : j < 169) (h : i ≠ j) :
    csDecode (csEncode d ^^^ (1#169 <<< i) ^^^ (1#169 <<< j)) = none := by
  have hpar : parUpTo (csEncode d ^^^ (1#169 <<< i) ^^^ (1#169 <<< j)) 169 = false := by
    rw [parUpTo_xor, parUpTo_xor, parUpTo_csEncode, parUpTo_oneBit hi, parUpTo_oneBit hj]
    simp [hi, hj]
  have hpos : bitPos i ≠ bitPos j := by
    rcases Nat.lt_or_gt_of_ne h with h | h
    · exact bitPos_lt_ne h hj
    · exact (bitPos_lt_ne h hi).symm
  rw [csDecode_even hpar, if_neg]
  intro hzero
  have hzero : csSyndrome (csEncode d ^^^ (1#169 <<< i) ^^^ (1#169 <<< j)) = 0#8 := BitVec.eq_of_toNat_eq hzero
  rw [csSyndrome_xor, csSyndrome_xor, csSyndrome_csEncode, BitVec.zero_xor, BitVec.xor_eq_zero_iff] at hzero
  rw [← csSyndrome_oneBit hi, ← csSyndrome_oneBit hj, hzero] at hpos
  exact hpos rfl

/-! ### In the words of the rule -/

/-- The syndrome, bit by bit. -/
theorem maskOf_csSyndrome (w : CsWord) (f : Nat → Bool) (h : ∀ k < 8, f k = (csSyndrome w).getLsbD k) :
    maskOf 8 f = (csSyndrome w).toNat := by
  refine Nat.eq_of_testBit_eq fun k => ?_
  rw [maskOf_testBit]
  by_cases hk : k < 8
  · rw [h k hk, decide_eq_true hk, Bool.true_and, BitVec.testBit_toNat]
  · have hlt : (csSyndrome w).toNat < 2 ^ k := lt_of_lt_of_le (csSyndrome w).isLt (Nat.pow_le_pow_right (by decide) (by omega))
    simp [hk, Nat.testBit_lt_two_pow hlt]

/-- Qword 3 of a word of the window. -/
theorem csWindow_checks (k : Fin 32) {n : Nat} (h : n < 0x2000) :
    csWindow (0x02080000 + k.val * 0x100000 + 32 * n + 24) = some (k.val, n, 3) := by
  have hword : n < 8192 := h
  have haddr : 0x02080000 + k.val * 0x100000 + 32 * n + 24 = csAddr k.val n 3 := by
    unfold csAddr
    omega
  rw [haddr]
  exact csWindow_csAddr k ⟨n, hword⟩ (by decide)

theorem State.csQword_checks (s : State) (k n : Nat) :
    s.csQword k n 3 = BitVec.ofNat 64 ((csRead (s.csWord k n)).toNat / 2 ^ 160) := by
  unfold State.csQword State.csWord
  generalize csRead (csAt (s.seq k).cs n) = w
  rfl

theorem State.readReg_checks (s : State) (w : Nat) {a k n : Nat} (h : csWindow a = some (k, n, 3)) :
    s.readReg w a = BitVec.ofNat 64 ((csRead (s.csWord k n)).toNat / 2 ^ 160) := by
  rw [← State.csQword_checks]
  simp only [State.readReg, h]

/-- Settles O15. The syndrome of a stored word is the exclusive or of those of its wrong bits, and no two bits have the same. -/
theorem controlStoreCodeCorrects : Obligations.ControlStoreCodeCorrects := by
  unfold Obligations.ControlStoreCodeCorrects
  intro positions ones check
  have hpos : positions = (List.range 160).map dpos := positions_eq
  have hget {i : Nat} (hi : i < 160) : positions.getD i 0 = dpos i := by rw [hpos, dpos_of_getD hi]
  have hones {k : Nat} (w : BitVec k) (n : Nat) : ones n w.getLsbD = parUpTo w n := (parUpTo_eq_oddCount w n).symm
  have hcheck (d : Micro) (f : Nat → Bool) (hf : ∀ i < 160, f i = d.getLsbD i) {k : Nat} (hk : k < 8) :
      check f k = (synUpTo d 160).getLsbD k := by
    rw [synUpTo_getLsbD d hk]
    exact oddCount_congr fun i hi => by rw [hget hi, hf i hi]
  refine ⟨fun d => ⟨fun i => csEncode_getLsbD d, fun k hk => ?_, ?_, csDecode_csEncode d⟩, fun w => ?_,
    fun d i => csDecode_oneWrong d i.isLt, fun d i j h => csDecode_twoWrong d i.isLt j.isLt (Fin.val_ne_of_ne h), fun s w k n _ hn => ?_⟩
  · rw [csEncode_check d hk, hcheck d d.getLsbD (fun _ _ => rfl) hk]
  · rw [hones, parUpTo_csEncode]
  · intro d s
    have hd : d = csData w := (csData_eq_ofNat w).symm
    have hs : s = (csSyndrome w).toNat := maskOf_csSyndrome w _ fun k hk => by
      rw [hcheck (csData w) w.getLsbD (fun i hi => (csData_getLsbD w hi).symm) hk, csSyndrome, BitVec.getLsbD_xor,
        BitVec.getLsbD_extractLsb', decide_eq_true hk, Bool.true_and]
    rw [hones, hd, hs]
    refine ⟨csDecode_even, fun hodd => ⟨csDecode_odd_zero hodd, csDecode_odd_outside hodd, fun i hi hp => ?_, fun h1 h2 hnot => ?_⟩⟩
    · exact csDecode_odd_data hodd hi ((hget hi).symm.trans hp)
    · refine csDecode_odd_check hodd h1 h2 fun i hi he => hnot ?_
      rw [hpos, ← he]
      exact List.mem_map_of_mem (List.mem_range.2 hi)
  · rw [State.readReg_checks s w (csWindow_checks k hn)]
    have hlt : (csRead (s.csWord k.val n)).toNat / 2 ^ 160 < 512 :=
      Nat.div_lt_of_lt_mul (csRead (s.csWord k.val n)).isLt
    refine ⟨lt_of_le_of_lt (Nat.mod_le _ _) hlt, fun j hj => ?_⟩
    rw [BitVec.getLsbD_ofNat, Nat.testBit_div_two_pow, BitVec.testBit_toNat, Nat.add_comm, decide_eq_true (by omega), Bool.true_and]

end Sys2Proof.Machine
end

section
/-! SUPPORT. Microwords of SETUP mode (R72, R74): a control word issues without an effect beside that of its SEQ. -/

namespace Sys2Proof.Machine

/-! ### Control words -/

/-- The fields of a microword of which only SEQ, COND, TARGET, LCSEL and IMM are not 0. -/
structure IsControl (w : Micro) (seq cond target lc imm : Nat) : Prop where
  seq : uSeq w = seq
  cond : uCond w = cond
  target : uTarget w = target
  lcsel : uLcsel w = lc
  imm : uImm w = imm
  tset : uTset w = 0
  xop : uXop w = 0
  yop : uYop w = 0
  zop : uZop w = 0
  dop : uDop w = 0
  cmp : uCmp w = 0
  vs : uVs w = 0
  sq : uSq w = 0
  reg : uReg w = 0
  commit : uCommit w = false
  yield : uYield w = false

section
variable {seq cond target lc imm : Nat} (hseq : seq < 2 ^ 6) (hcond : cond < 2 ^ 6) (htarget : target < 2 ^ 13) (hlc : lc < 2 ^ 3)
  (himm : imm < 2 ^ 32)
include hseq hcond htarget hlc himm

theorem ctlWord_toNat : (ctlWord seq cond target lc imm).toNat =
    seq * 2 ^ 154 + cond * 2 ^ 148 + target * 2 ^ 135 + lc * 2 ^ 132 + imm * 2 ^ 32 := by
  rw [ctlWord, BitVec.toNat_ofNat]
  exact Nat.mod_eq_of_lt (by omega)

theorem ctlWord_isControl : IsControl (ctlWord seq cond target lc imm) seq cond target lc imm := by
  have hmf (hi lo : Nat) : mf (ctlWord seq cond target lc imm) hi lo =
      (seq * 2 ^ 154 + cond * 2 ^ 148 + target * 2 ^ 135 + lc * 2 ^ 132 + imm * 2 ^ 32) / 2 ^ lo % 2 ^ (hi + 1 - lo) := by
    rw [mf, nbits, Nat.shiftRight_eq_div_pow, ctlWord_toNat hseq hcond htarget hlc himm]
  have hbit (i : Nat) : nbit (ctlWord seq cond target lc imm).toNat i =
      decide ((seq * 2 ^ 154 + cond * 2 ^ 148 + target * 2 ^ 135 + lc * 2 ^ 132 + imm * 2 ^ 32) / 2 ^ i % 2 = 1) := by
    rw [nbit, Nat.testBit_eq_decide_div_mod_eq, ctlWord_toNat hseq hcond htarget hlc himm]
  constructor
  case commit => rw [uCommit, hbit, decide_eq_false_iff_not]; omega
  case yield => rw [uYield, hbit, decide_eq_false_iff_not]; omega
  all_goals
    simp only [uSeq, uCond, uTarget, uLcsel, uImm, uTset, uXop, uYop, uZop, uDop, uCmp, uVs, uSq, uReg, hmf]
    omega

end

section
variable {w : Micro} {seq cond target lc imm : Nat} (h : IsControl w seq cond target lc imm)
include h

theorem IsControl.sqAct : sqAct w = 0 := by rw [Machine.sqAct, h.sq]

theorem IsControl.vsSrc : vsSrc w = 0 := by rw [Machine.vsSrc, h.vs]

theorem IsControl.uDraws : uDraws w = false := by simp [Machine.uDraws, h.vsSrc]

theorem IsControl.uReserved (hs : seq ≤ 0xB) (hc : cond % 32 = 0) (chain : Nat) : uReserved w chain = false := by
  have hseq : ¬ 0x0B < seq := by omega
  simp [Machine.uReserved, h.seq, h.cond, h.xop, h.yop, h.zop, h.dop, h.cmp, h.vs, h.vsSrc, h.reg, hc, hseq]

/-- COND true, or inverted, false. -/
theorem IsControl.cond_eq (s : State) (k : Nat) {c : Bool} (hc : cond = if c then 0 else 32) : s.cond k w = c := by
  have hbase : s.condBase k w = true := by
    unfold State.condBase
    rw [h.cond, hc]
    cases c <;> rfl
  rw [State.cond, hbase, h.cond, hc]
  cases c <;> rfl

theorem IsControl.uIllegal {s : State} {k : Nat} (hmode : (s.seq k).arch.beatMode = false) (hs : seq ≤ 0xB) (hc : cond % 32 = 0) :
    s.uIllegal k w = false := by
  simp [State.uIllegal, h.uReserved hs hc, h.sqAct, h.vs, h.commit, hmode]

/-- The generators stand still. -/
theorem IsControl.genOps (s : State) (k : Nat) (a : Arch) (hdr : a.dr.toNat < 2 ^ s.dwidth k) : s.genOps k w a = a := by
  have hdfn (dw i : Nat) (db : Nat → Nat) (poly x y dr : Nat) : dfn 0 dw i db poly x y dr = dr % 2 ^ dw := rfl
  have hop (g : AddrGen) (c : GenCfg) (i : Nat) (cin : Bool) : g.op c 0 i cin = (g, false) := rfl
  have hkeep : BitVec.ofNat 64 a.dr.toNat = a.dr := by simp
  unfold State.genOps
  simp only [h.xop, h.yop, h.zop, h.dop, Nat.zero_mod, hop, hdfn, Nat.mod_eq_of_lt hdr, hkeep]
  split <;> rfl

theorem IsControl.regop (a : Arch) (dw i : Nat) (fv : Bool) : a.regop dw (uReg w) i fv = a := by
  rw [h.reg]
  rfl

theorem IsControl.regopFree : regopFree (uReg w) (uImm w) = false := by
  rw [h.reg]
  rfl

/-- Outside BEAT mode a word that is no BEGIN leaves what its SEQ has made of the architectural state. -/
theorem IsControl.uArch_silent {s : State} {k : Nat} {a : Arch} (hmode : (s.seq k).arch.beatMode = false) (hs : seq ≠ 7)
    (hdr : a.dr.toNat < 2 ^ s.dwidth k) : (s.uArch k w a).1 = a := by
  unfold State.uArch
  simp only [h.genOps s k a hdr, h.regop, hmode, h.seq, hs, decide_false, Bool.or_false, Bool.false_eq_true, if_false]

end

/-! ### SEQ (Table 4.4) -/

theorem Arch.setLc_dr (a : Arch) (i v : Nat) : (a.setLc i v).dr = a.dr := by
  unfold Arch.setLc
  split <;> rfl

theorem Arch.setRl_dr (a : Arch) (i v : Nat) : (a.setRl i v).dr = a.dr := by
  unfold Arch.setRl
  split <;> rfl

section
variable {w : Micro} {cond target lc imm : Nat} {c : Bool} {a : Arch}

theorem IsControl.seqNext_step {seq : Nat} (h : IsControl w seq cond target lc imm) (hs : seq ∈ [0, 7, 9, 0xA]) :
    seqNext w c a = some { a with pc := a.pc + 1 } := by
  simp only [List.mem_cons, List.not_mem_nil, or_false] at hs
  unfold seqNext
  rw [h.seq]
  rcases hs with rfl | rfl | rfl | rfl <;> rfl

/-- A branch whose condition is false. -/
theorem IsControl.seqNext_skip {seq : Nat} (h : IsControl w seq cond target lc imm) (hs : seq ∈ [2, 3, 0xB]) :
    seqNext w false a = some { a with pc := a.pc + 1 } := by
  simp only [List.mem_cons, List.not_mem_nil, or_false] at hs
  unfold seqNext
  rw [h.seq]
  rcases hs with rfl | rfl | rfl <;> rfl

theorem IsControl.seqNext_jump (h : IsControl w 1 cond target lc imm) :
    seqNext w c a = some { a with pc := if c then target else a.pc + 1 } := by
  unfold seqNext
  rw [h.seq, h.target]
  cases c <;> rfl

theorem IsControl.seqNext_call (h : IsControl w 2 cond target lc imm) (hsp : a.sp < 16) (hpc : a.pc + 1 < 2 ^ 13) :
    seqNext w true a = some { a with stack := a.stack.set a.sp (a.pc + 1), sp := a.sp + 1, pc := target } := by
  unfold seqNext
  rw [h.seq, h.target, Nat.mod_eq_of_lt hpc]
  exact dif_pos hsp

theorem IsControl.seqNext_ret (h : IsControl w 3 cond target lc imm) (hsp : 0 < a.sp) :
    seqNext w true a = some { a with sp := a.sp - 1, pc := a.stack.toList.getD (a.sp - 1) 0 } := by
  unfold seqNext
  rw [h.seq]
  exact if_neg hsp.ne'

theorem IsControl.seqNext_loop (h : IsControl w 4 cond target lc imm) (hc : a.lcv lc ≠ 0) :
    seqNext w true a = some { a.setLc lc (a.lcv lc - 1) with pc := target } := by
  unfold seqNext
  rw [h.seq, h.target, h.lcsel]
  exact if_pos ⟨hc, rfl⟩

theorem IsControl.seqNext_loopEnd (h : IsControl w 4 cond target lc imm) (hc : c = false ∨ a.lcv lc = 0) :
    seqNext w c a = some { a.setLc lc (a.rlv lc) with pc := a.pc + 1 } := by
  unfold seqNext
  rw [h.seq, h.target, h.lcsel]
  refine if_neg ?_
  rcases hc with hc | hc <;> simp [hc]

theorem IsControl.seqNext_ldlc (h : IsControl w 5 cond target lc imm) :
    seqNext w c a = some { (a.setLc lc (imm % 2 ^ 24)).setRl lc (imm % 2 ^ 24) with pc := a.pc + 1 } := by
  unfold seqNext
  rw [h.seq, h.lcsel, h.imm]
  rfl

theorem IsControl.seqNext_repeatFirst (h : IsControl w 6 cond target lc imm) (hr : a.rep = none) (hi : 0 < imm % 2 ^ 24) :
    seqNext w c a = some { a with rep := some (imm % 2 ^ 24) } := by
  unfold seqNext
  rw [h.seq, h.imm, hr]
  exact congrArg some (if_neg hi.ne')

theorem IsControl.seqNext_repeat (h : IsControl w 6 cond target lc imm) {r : Nat} (hr : a.rep = some r) :
    seqNext w c a = some (if r ≤ 1 then { a with rep := none, pc := a.pc + 1 } else { a with rep := some (r - 1) }) := by
  unfold seqNext
  rw [h.seq, hr]
  rfl

/-- An END whose condition holds stays where it is. -/
theorem IsControl.seqNext_end (h : IsControl w 8 cond target lc imm) : seqNext w true a = some a := by
  unfold seqNext
  rw [h.seq]
  rfl

theorem IsControl.seqNext_jumpi (h : IsControl w 0xB cond target lc imm) :
    seqNext w true a = some { a with pc := (a.grv (target % 16)).toNat % 2 ^ 13 } := by
  unfold seqNext
  rw [h.seq, h.target]
  rfl

end

/-! ### A sequencer in SETUP mode -/

/-- What `State.setupPlain` says of the sequencer. -/
structure SetupPlain (s : State) (k : Nat) : Prop where
  ready : s.uReady k = true
  st : (s.seq k).st = .setup
  mode : (s.seq k).arch.beatMode = false
  bp : s.gb (PS_DBG_BP_EN k) = false
  trace : s.gb (PS_DBG_TRACE_EN k) = false
  step : (s.seq k).step = false
  stop : (s.seq k).pendStop = false
  pause : (s.seq k).pendPause = false
  urWait : (s.seq k).urWait = false
  dr : (s.seq k).arch.dr.toNat < 2 ^ s.dwidth k

theorem SetupPlain.of {s : State} {k : Nat} (h : s.setupPlain k = true) : SetupPlain s k := by
  simp only [State.setupPlain, Bool.and_eq_true, Bool.not_eq_true', decide_eq_true_eq] at h
  obtain ⟨⟨⟨⟨⟨⟨⟨⟨⟨hready, hst⟩, hmode⟩, hbp⟩, htrace⟩, hstep⟩, hstop⟩, hpause⟩, hur⟩, hdr⟩ := h
  exact ⟨hready, hst, hmode, hbp, htrace, hstep, hstop, hpause, hur, hdr⟩

/-- The architectural state of a sequencer is replaced. -/
def State.setArch (s : State) (k : Nat) (a : Arch) : State := s.modSeq k (fun x => { x with arch := a })

section
variable {s : State} {k : Nat} (hp : SetupPlain s k) {w : Micro} {seq cond target lc imm : Nat}
  (h : IsControl w seq cond target lc imm) {c : Bool} (hc : cond = if c then 0 else 32) {a : Arch}
include hp h

include hc in
/-- A control word at PC that its SEQ leads to a word of the program issues. -/
theorem SetupPlain.uStep (hw : s.csWord k (s.seq k).arch.pc = csEncode w) (hs : seq ≤ 0xB) (holds : seq = 7 → (s.seq k).olds = [])
    (hnext : seqNext w c (s.seq k).arch = some a) (hlo : 0x800 ≤ a.pc) (hhi : a.pc < 2 ^ 13) : s.uStep k seq = s.uIssue k w c a := by
  have hc32 : cond % 32 = 0 := by rw [hc]; cases c <;> rfl
  have hpc : ¬ (a.pc < 0x800 ∨ 0x1FFF < a.pc) := by omega
  have hwait : ¬ (seq = 7 ∧ (!(s.seq k).olds.isEmpty) = true) := by
    rintro ⟨h7, hne⟩
    simp [holds h7] at hne
  have hexec : s.uExec k w = s.uIssue k w c a := by
    unfold State.uExec
    simp only [h.uIllegal hp.mode hs hc32, hp.mode, h.cond_eq s k hc, hnext, hpc, h.uDraws, Bool.false_eq_true, false_and, and_false,
      if_false]
  unfold State.uStep
  simp only [hp.ready, hw, csDecode_csEncode, h.seq, hwait, hp.bp, hexec, Bool.not_true, Bool.false_and, Bool.false_eq_true, ne_eq,
    not_true_eq_false, false_and, if_false]

/-- A silent control word that issues leaves the state that its SEQ has made. -/
theorem SetupPlain.uIssue_silent (hs : seq ≠ 7) (hdr : a.dr = (s.seq k).arch.dr) (hk : k < 32) :
    s.uIssue k w c a = (s.setArch k a).uAfter k w c := by
  obtain ⟨e, he⟩ : ∃ e, s.uArch k w a = (a, e) := ⟨_, Prod.ext (h.uArch_silent hp.mode hs (by rw [hdr]; exact hp.dr)) rfl⟩
  have hburst : (s.setArch k a).bursting k = true := by
    simp [State.bursting, State.setArch, State.seq_modSeq_self _ _ _ hk, hp.st]
  have htrace (pc : Nat) (x y : Bool) : s.trace k w pc x y = s := by simp [State.trace, hp.trace]
  unfold State.uIssue
  simp only [he, hp.mode, h.seq, hs, h.sqAct, h.commit, h.uDraws, h.regopFree, decide_false, Bool.or_false, Bool.false_and, Bool.false_eq_true, if_false,
    htrace, ite_self, false_and, and_false, show ¬ (0 : Nat) = 2 by decide, show ¬ (0 : Nat) = 3 by decide, show ¬ (0 : Nat) = 1 by decide, or_self]
  exact if_pos hburst

/-- Nothing waits to be taken behind a word that ends no burst. -/
theorem SetupPlain.uAfter_plain (hs : seq ≠ 8) (hbrk : seq ≠ 0xA ∨ s.gb (PS_DBG_BRK_EN k) = false) (hk : k < 32) :
    (s.setArch k a).uAfter k w c = s.setArch k a := by
  have hseq : (s.setArch k a).seq k = { s.seq k with arch := a } := State.seq_modSeq_self _ _ _ hk
  have hb : (decide (seq = 0xA) && (s.setArch k a).gb (PS_DBG_BRK_EN k)) = false := by
    rw [State.setArch, State.gb_modSeq]
    rcases hbrk with hbrk | hbrk <;> simp [hbrk]
  unfold State.uAfter
  simp [hseq, h.seq, hs, hb, h.yield, hp.st, hp.stop, hp.pause, hp.step]

/-- SEQ neither begins nor ends the beats of a burst. -/
abbrev SilentSeq (q : Nat) : Prop := q ≤ 0xB ∧ q ≠ 7 ∧ q ≠ 8

include hc in
/-- A control word that neither begins nor ends a burst executes as its SEQ says, and nothing else changes. -/
theorem SetupPlain.uStep_silent (hw : s.csWord k (s.seq k).arch.pc = csEncode w) (hs : SilentSeq seq)
    (hbrk : seq ≠ 0xA ∨ s.gb (PS_DBG_BRK_EN k) = false) (hk : k < 32) (hnext : seqNext w c (s.seq k).arch = some a)
    (hdr : a.dr = (s.seq k).arch.dr) (hpc : 0x800 ≤ a.pc ∧ a.pc < 2 ^ 13) : s.uStep k seq = s.setArch k a := by
  obtain ⟨hle, h7, h8⟩ := hs
  rw [hp.uStep h hc hw hle (fun e => absurd e h7) hnext hpc.1 hpc.2, hp.uIssue_silent h h7 hdr hk, hp.uAfter_plain h h8 hbrk hk]

end

/-- Settles O12. Each word is one case of SEQ; what its generators, REGOP and flags leave alone is the same for all of them. -/
theorem controlMicrowords : Obligations.ControlMicrowords := by
  unfold Obligations.ControlMicrowords
  intro s k c target imm lc hplain htarget himm hlc a is gets hhi hlo
  have hp := SetupPlain.of hplain
  have hctl {q : Nat} (hq : q < 2 ^ 6) : IsControl (ctlWord q (if c then 0 else 32) target lc imm) q (if c then 0 else 32) target lc imm :=
    ctlWord_isControl hq (by split <;> decide) htarget hlc himm
  have hrun {q : Nat} {i : Instr} {b : Arch} (hi : exec i s = .next (s.uStep k.val q)) (hw : is q) (hq : SilentSeq q)
      (hbrk : q ≠ 0xA ∨ s.gb (PS_DBG_BRK_EN k.val) = false)
      (hnext : IsControl (ctlWord q (if c then 0 else 32) target lc imm) q (if c then 0 else 32) target lc imm →
        seqNext (ctlWord q (if c then 0 else 32) target lc imm) c a = some b)
      (hdr : b.dr = a.dr) (hpc : 0x800 ≤ b.pc ∧ b.pc < 2 ^ 13) : Gives i s (gets b) := by
    have h := hctl (q := q) (lt_of_le_of_lt hq.1 (by decide))
    exact ⟨_, hi.trans (congrArg Host.Outcome.next (hp.uStep_silent h rfl hw hq hbrk k.isLt (hnext h) hdr hpc)), rfl⟩
  have hpc : 0x800 ≤ a.pc + 1 ∧ a.pc + 1 < 2 ^ 13 := ⟨by omega, hhi⟩
  have hstay : 0x800 ≤ a.pc ∧ a.pc < 2 ^ 13 := ⟨hlo, by omega⟩
  refine ⟨fun hw => ?_, fun hw ht => ?_, fun hw hc => ?_, fun hw hc => ?_, fun hw hc => ?_, fun hw hc ht hsp => ?_, fun hw hc hsp hlo' hhi' => ?_,
    fun hw ht => ⟨fun hc hl => ?_, fun hl => ?_⟩, fun hw => ?_, fun hw hr hi => ?_, fun r hw hr => ?_, fun hw hr => ?_, fun hw hb => ?_,
    fun hw hc hlo' => ?_⟩
  · exact hrun rfl hw (by decide) (.inl (by decide)) (fun h => h.seqNext_step (by decide)) rfl hpc
  · refine hrun rfl hw (by decide) (.inl (by decide)) (fun h => h.seqNext_jump) rfl ?_
    cases c
    · exact hpc
    · exact ⟨ht rfl, htarget⟩
  · subst hc
    exact hrun rfl hw (by decide) (.inl (by decide)) (fun h => h.seqNext_skip (by decide)) rfl hpc
  · subst hc
    exact hrun rfl hw (by decide) (.inl (by decide)) (fun h => h.seqNext_skip (by decide)) rfl hpc
  · subst hc
    exact hrun rfl hw (by decide) (.inl (by decide)) (fun h => h.seqNext_skip (by decide)) rfl hpc
  · subst hc
    exact hrun rfl hw (by decide) (.inl (by decide)) (fun h => h.seqNext_call hsp hhi) rfl ⟨ht, htarget⟩
  · subst hc
    exact hrun rfl hw (by decide) (.inl (by decide)) (fun h => h.seqNext_ret hsp) rfl ⟨hlo', hhi'⟩
  · subst hc
    exact hrun rfl hw (by decide) (.inl (by decide)) (fun h => h.seqNext_loop hl) (a.setLc_dr _ _) ⟨ht, htarget⟩
  · exact hrun rfl hw (by decide) (.inl (by decide)) (fun h => h.seqNext_loopEnd hl) (a.setLc_dr _ _) hpc
  · exact hrun rfl hw (by decide) (.inl (by decide)) (fun h => h.seqNext_ldlc)
      ((Arch.setRl_dr _ _ _).trans (a.setLc_dr _ _)) hpc
  · exact hrun rfl hw (by decide) (.inl (by decide)) (fun h => h.seqNext_repeatFirst hr hi) rfl hstay
  · refine hrun rfl hw (by decide) (.inl (by decide)) (fun h => h.seqNext_repeat hr) ?_ ?_
    · split <;> rfl
    · split
      · exact hpc
      · exact hstay
  · exact hrun rfl hw (by decide) (.inl (by decide)) (fun h => h.seqNext_step (by decide)) rfl hpc
  · exact hrun rfl hw (by decide) (.inr hb) (fun h => h.seqNext_step (by decide)) rfl hpc
  · subst hc
    exact hrun rfl hw (by decide) (.inl (by decide)) (fun h => h.seqNext_jumpi) rfl ⟨hlo', Nat.mod_lt _ (by decide)⟩

end Sys2Proof.Machine
end

section
/-! SUPPORT. The end of a burst (R87, R90, R94): the sequencer it leaves, the registers it keeps, and the commands it completes or keeps,
in any role. -/

namespace Sys2Proof.Machine

/-! ### Commands that end one after the other -/

theorem HaltMoved.mem {s t : State} (h : HaltMoved s t) : t.mem = s.mem := by rw [h.frame]

theorem HaltMoved.copying {s t : State} (h : HaltMoved s t) : t.twin.copying = s.twin.copying := by rw [h.frame]

theorem HaltMoved.holdsDue {s t : State} (h : HaltMoved s t) {k : RecKind} {id : Nat} {f : List Byte → Prop} (hd : s.holdsDue k id f) :
    t.holdsDue k id f := by
  obtain ⟨d, haw, hrec⟩ := hd
  exact ⟨d, h.awaits d haw, hrec⟩

/-- A command that ends leaves those of other names open, in any role. -/
theorem State.cmdOpen_finish_ne {s : State} {id x : Nat} (h : s.cmdOpen id = true) (hne : id ≠ x) (st arg : Nat) :
    (s.finish x st arg).cmdOpen id = true := by
  obtain ⟨c, hc, hkey⟩ := List.any_eq_true.1 h
  simp only [Bool.and_eq_true, decide_eq_true_eq] at hkey
  obtain ⟨hid, hst⟩ := hkey
  have hmem : c.unnumbered ∈ (s.finish x st arg).cmds.map Cmd.unnumbered := by
    unfold State.finish State.finishData
    split
    · rw [State.record_cmds]
      exact List.mem_map_of_mem (mem_updFirst_of_not hc (by simp [hid, hne]))
    · exact List.mem_map_of_mem hc
  obtain ⟨y, hy, hyc⟩ := List.mem_map.1 hmem
  exact List.any_eq_true.2 ⟨y, hy, by simp [Cmd.id_of_unnumbered hyc, Cmd.st_of_unnumbered hyc, hid, hst]⟩

theorem State.ends_finish_any {s : State} {id : Nat} (ho : s.cmdOpen id = true) (st arg : Nat) : (s.finish id st arg).ends id st arg :=
  ⟨_, s.awaits_finishData ho st arg [], rfl, rfl, rfl⟩

/-- Each of the commands that end one after the other, and was open, ends. -/
theorem State.ends_finishEach {s : State} {id : Nat} {l : List Nat} (hl : id ∈ l) (ho : s.cmdOpen id = true) (st arg : Nat) :
    (forEach l s (fun id s => s.finish id st arg)).ends id st arg := by
  induction l generalizing s with
  | nil => cases hl
  | cons x l ih =>
    show (forEach l (s.finish x st arg) _).ends id st arg
    by_cases hx : id = x
    · subst hx
      exact (forEach_rel HaltMoved.refl HaltMoved.trans l _ _ fun x t => HaltMoved.finish t x st arg).holdsDue
        (State.ends_finish_any ho st arg)
    · exact ih ((List.mem_cons.1 hl).resolve_left hx) (State.cmdOpen_finish_ne ho hx st arg)

/-! ### Registers -/

/-- A register of the sequencers or of the pair, which no part of a burst's end writes but to show its cause and PC. -/
structure FarFromEnd (a : Nat) : Prop where
  unit : a < 0x04000000 ∨ 0x0E000000 ≤ a
  square : ∀ q, q < 64 → a ≠ PS_SQ_STATUS q
  test : ∀ l, a ≠ LN_TEST l

theorem FarFromEnd.twn : FarFromEnd TWN_STATUS := ⟨Or.inr (by decide), TWN_STATUS_far.1, LN_TEST_ne (by decide)⟩

theorem FarFromEnd.burstEnd (k : Nat) (hk : k < 32) : FarFromEnd (PS_BURST_END k) := by
  unfold PS_BURST_END
  exact ⟨Or.inl (by omega), fun q _ => by unfold PS_SQ_STATUS; omega, LN_TEST_ne (by omega)⟩

section
variable (s : State) {k a : Nat} (h : FarFromEnd a)
include h

theorem State.finishOpt_rd (id : Option Nat) (st arg : Nat) : (s.finishOpt id st arg).rd a = s.rd a := by
  cases id with
  | none => rfl
  | some id => exact (RecordsMoved.finish s id st arg).rd a h.test

theorem State.burstShown_rd (stops : List Nat) (cause pc : Nat) (hk : a ≠ PS_BURST_END k) : (s.burstShown stops k cause pc).rd a = s.rd a := by
  unfold State.burstShown
  rw [State.rd_p_ne _ _ _ hk, State.rd_p_ne _ _ _ hk, State.sqWithdraw_rd _ _ h.square]
  exact forEach_keeps (fun t : State => t.rd a) _ s _ fun id t => (RecordsMoved.finish t id 0 cause).rd a h.test

theorem State.streamEnds_rd : (s.streamEnds k).rd a = s.rd a := by
  have hfar := h.unit
  cases hv : s.seqVs k with
  | none => rw [s.streamEnds_of_none hv]
  | some v =>
    have hlt : v < 16 := List.mem_range.1 (List.mem_of_find?_eq_some hv)
    rw [s.streamEnds_of_some hv]
    split
    · rw [State.finishOpt_rd _ h, State.vsUnbind_rd _ (by unfold VS_STATUS; omega) (by unfold VS_LEVEL; omega),
        State.sqWithdraw_rd _ _ h.square]
    · rfl

theorem State.timEnd_rd {x : Nat} (hx : x < 8) (cause : Nat) : (s.timEnd x cause).rd a = s.rd a := by
  have hfar := h.unit
  have hmean : a ≠ TIM_MEAN x := by unfold TIM_MEAN; omega
  have hsd : a ≠ TIM_SD x := by unfold TIM_SD; omega
  have hstat : a ≠ TIM_STATUS x := by unfold TIM_STATUS; omega
  unfold State.timEnd
  extract_lets n sum sq mean sd y t₁ t₂ t₃ t₄
  have ht₂ : t₂.rd a = s.rd a := by
    simp only [t₂, t₁]
    rw [State.rd_p_ne _ _ _ hstat, State.rd_p_ne _ _ _ hstat, State.rd_p_ne _ _ _ hstat, State.rd_p_ne _ _ _ hsd, State.rd_p_ne _ _ _ hmean]
  rw [State.finishOpt_rd _ h]
  simp only [t₄, t₃]
  split <;> simp [ht₂]

theorem State.timBoundEnd_rd : (s.timBoundEnd k).rd a = s.rd a :=
  forEach_keeps_of_mem (fun t : State => t.rd a) _ s _ fun x hx t => by
    split
    · exact t.timEnd_rd h (List.mem_range.1 hx) 4
    · rfl

theorem State.afterDrain_rd : (s.afterDrain k).rd a = s.rd a := by
  have hfar := h.unit
  have hshut : a ≠ CAP_SHUT_STATUS := by unfold CAP_SHUT_STATUS; omega
  have hend (t : State) (cause : Nat) : (t.shutEnd cause).rd a = t.rd a := by
    unfold State.shutEnd
    rw [State.rd_eventTo, State.rd_p_ne _ _ _ hshut]
    rfl
  unfold State.afterDrain State.closeBatch
  split
  · dsimp only
    split <;> split <;> simp [hend]
  · rfl

end

section
variable {s : State} {k : Nat} (h : s.bursting k = true) (cause pc : Nat) (fault : Bool)
include h

theorem State.seqEnd_rd {a : Nat} (ha : FarFromEnd a) (hk : a ≠ PS_BURST_END k) : (s.seqEnd k cause pc fault).rd a = s.rd a := by
  rw [State.seqEnd_eq h, State.afterDrain_rd _ ha, State.timBoundEnd_rd _ ha, State.streamEnds_rd _ ha, State.burstShown_rd _ ha _ _ _ hk]
  exact State.rd_modSeq ..

theorem State.seqEnd_paired : (s.seqEnd k cause pc fault).paired = s.paired :=
  State.paired_of_twn (State.seqEnd_rd h cause pc fault .twn (by
    have := State.bursting_lt h
    unfold TWN_STATUS PS_BURST_END
    omega))

/-- PS_BURST_END shows the cause. -/
theorem State.seqEnd_cause (hc : cause < 8) : (s.seqEnd k cause pc fault).g (PS_BURST_END_CAUSE k) = cause := by
  have ha := FarFromEnd.burstEnd k (State.bursting_lt h)
  have hrd : (s.seqEnd k cause pc fault).rd (PS_BURST_END k) =
      ((s.burstMarked k cause pc fault).burstShown (((s.seq k).burst.map (·.stops)).getD []) k cause pc).rd (PS_BURST_END k) := by
    rw [State.seqEnd_eq h, State.afterDrain_rd _ ha, State.timBoundEnd_rd _ ha, State.streamEnds_rd _ ha]
  have hshown (t : State) (l : List Nat) : (t.burstShown l k cause pc).g (PS_BURST_END_CAUSE k) = cause := by
    unfold State.burstShown
    rw [State.g_p_apart _ (by simp [FRef.apart, PS_BURST_END_PC, PS_BURST_END_CAUSE]),
      State.g_p_fits _ (by simp [PS_BURST_END_CAUSE]) (by simpa [PS_BURST_END_CAUSE] using hc)]
  exact (congrArg (fun w => getBits w _ _) hrd).trans (hshown _ _)

end

/-! ### Commands that are kept -/

/-- No command waits for a time-interval unit. -/
def State.timFree (s : State) : Prop := ∀ x, (s.tim x).cmd = none

theorem State.timFree_of_units {s : State} (h : ∀ x, x < 8 → (s.tim x).cmd = none) : s.timFree := fun x => by
  by_cases hx : x < 8
  · exact h x hx
  · unfold State.tim
    rw [List.getD_eq_default _ _ (by simpa using hx)]
    rfl

/-- The command table stands, and no command waits for a unit, if none did. -/
def CmdsStand (s t : State) : Prop := s.timFree → t.timFree ∧ t.cmds = s.cmds

theorem CmdsStand.refl (s : State) : CmdsStand s s := fun h => ⟨h, rfl⟩

theorem CmdsStand.trans {s t u : State} (h : CmdsStand s t) (h' : CmdsStand t u) : CmdsStand s u := fun hs =>
  ⟨(h' (h hs).1).1, (h' (h hs).1).2.trans (h hs).2⟩

theorem CmdsStand.timEnd (s : State) (x cause : Nat) : CmdsStand s (s.timEnd x cause) := by
  intro hs
  have hfree (t : State) (ht : t.tims = s.tims) (b : Bool) (w : Option Nat) (c v : Nat) :
      let m := t.modTim x (fun y => { y with start := none, stops := [], cmd := none, bound := false, deadline := none })
      (if b then m.eventTo w c v else m).timFree := by
    intro m y
    have hm : (m.tim y).cmd = none := by
      by_cases hy : y = x
      · subst hy
        by_cases hlt : y < 8
        · rw [State.tim_modTim_self _ _ _ hlt]
        · have hid : m = t := by simp only [m, State.modTim, hlt, dite_false]
          rw [hid, State.tim_congr ht]
          exact hs y
      · rw [State.tim_modTim_ne _ _ hy, State.tim_congr ht]
        exact hs y
    cases b with
    | false => exact hm
    | true => exact (congrArg TimU.cmd (State.tim_congr (State.eventTo_tims m w c v) y)).trans hm
  unfold State.timEnd
  extract_lets n sum sq mean sd y t₁ t₂ t₃ t₄
  have hnone : y.cmd = none := hs x
  rw [hnone]
  refine ⟨hfree t₂ rfl y.bound _ _ _, ?_⟩
  simp only [State.finishOpt, t₄, t₃, t₂, t₁]
  split <;> simp

theorem CmdsStand.timBoundEnd (s : State) (k : Nat) : CmdsStand s (s.timBoundEnd k) :=
  forEach_rel CmdsStand.refl CmdsStand.trans _ s _ fun x t => by
    split
    · exact CmdsStand.timEnd t x 4
    · exact CmdsStand.refl t

theorem State.afterDrain_cmds (s : State) (k : Nat) : (s.afterDrain k).cmds = s.cmds := by
  unfold State.afterDrain State.closeBatch State.shutEnd
  split
  · dsimp only
    split <;> split <;> simp
  · rfl

theorem State.seqVs_of_rd {s t : State} {k : Nat} (h : ∀ v, v < 16 → t.rd (VS_STATUS v) = s.rd (VS_STATUS v)) : t.seqVs k = s.seqVs k := by
  unfold State.seqVs State.gb State.g
  refine List.find?_congr fun v hv => ?_
  rw [show (VS_STATUS_BOUND v).addr = VS_STATUS v from rfl, show (VS_STATUS_SEQ v).addr = VS_STATUS v from rfl, h v (List.mem_range.1 hv)]

theorem State.sqWithdraw_kept {γ : Type} (g : State → γ) (hsq : ∀ (t : State) q f, g (t.modSq q f) = g t)
    (hp : ∀ (t : State) f v, g (t.p f v) = g t) (s : State) (m : Nat) : g (s.sqWithdraw m) = g s :=
  forEach_keeps g _ s _ fun q t => by
    split
    · simp [State.sqRemove, State.sqShow, State.pb, hsq, hp]
    · rfl

/-- Where no stream is bound, no command stops the burst and none waits for a unit, the end completes no command. -/
theorem State.seqEnd_cmds {s : State} {k : Nat} (h : s.bursting k = true) (hvs : s.seqVs k = none) (htim : ∀ x, x < 8 → (s.tim x).cmd = none)
    (hstops : ∀ b, (s.seq k).burst = some b → b.stops = []) (cause pc : Nat) (fault : Bool) : (s.seqEnd k cause pc fault).cmds = s.cmds := by
  have hnil : ((s.seq k).burst.map (·.stops)).getD [] = [] := by
    cases hb : (s.seq k).burst with
    | none => rfl
    | some b => exact hstops b hb
  have hk := State.bursting_lt h
  rw [State.seqEnd_eq h, hnil, State.afterDrain_cmds]
  generalize hm : s.burstMarked k cause pc fault = m
  have hmrd (a : Nat) : m.rd a = s.rd a := by rw [← hm]; exact State.rd_modSeq ..
  have hmtims : m.tims = s.tims := by rw [← hm]; exact State.modSeq_tims ..
  have hmcmds : m.cmds = s.cmds := by rw [← hm]; exact State.modSeq_cmds ..
  have hstream : (m.burstShown [] k cause pc).seqVs k = none := by
    refine (State.seqVs_of_rd fun v hv => ?_).trans hvs
    unfold State.burstShown
    rw [State.rd_p_ne _ _ _ (by unfold VS_STATUS PS_BURST_END_PC PS_BURST_END; dsimp only; omega),
      State.rd_p_ne _ _ _ (by unfold VS_STATUS PS_BURST_END_CAUSE PS_BURST_END; dsimp only; omega),
      State.sqWithdraw_rd _ _ (by unfold VS_STATUS PS_SQ_STATUS; omega)]
    exact hmrd _
  have htims : (m.burstShown [] k cause pc).tims = s.tims := by
    rw [State.burstShown, State.p_tims, State.p_tims]
    exact (State.sqWithdraw_kept State.tims (by simp) (by simp) _ k).trans hmtims
  have hcmds : (m.burstShown [] k cause pc).cmds = s.cmds := by
    rw [State.burstShown, State.p_cmds, State.p_cmds]
    exact (State.sqWithdraw_kept State.cmds (by simp) (by simp) _ k).trans hmcmds
  rw [State.streamEnds_of_none _ hstream]
  have hfree : (m.burstShown [] k cause pc).timFree := State.timFree_of_units fun x hx => by
    rw [State.tim_congr htims]
    exact htim x hx
  exact ((CmdsStand.timBoundEnd _ k) hfree).2.trans hcmds

/-! ### The end of a burst -/

/-- In `t` the burst that ran on sequencer `k` in `s` has ended with a cause and left the sequencer IDLE. -/
structure BurstEnded (s t : State) (k cause : Nat) : Prop where
  idle : (t.seq k).st = .idle
  burst : (t.seq k).burst.map (fun b => { b with stream := none }) =
    (s.seq k).burst.map (fun b => { b with ended := some cause, stops := [], stream := none })
  shown : t.g (PS_BURST_END_CAUSE k) = cause
  stops : ∀ b i, (s.seq k).burst = some b → i ∈ b.stops → s.cmdOpen i = true → t.ends i 0 cause
  cmds : s.seqVs k = none → (∀ x, x < 8 → (s.tim x).cmd = none) → (∀ b, (s.seq k).burst = some b → b.stops = []) → t.cmds = s.cmds
  others : ∀ j, j ≠ k → t.seq j = s.seq j
  moved : HaltMoved s t

theorem State.seqEnd_ended {s : State} {k cause : Nat} (h : s.bursting k = true) (hc : cause < 8) (pc : Nat) :
    BurstEnded s (s.seqEnd k cause pc false) k cause where
  idle := by
    rw [State.seq_congr (State.seqEnd_seqs h _ _ _)]
    unfold State.burstMarked
    rw [State.seq_modSeq_self _ _ _ (State.bursting_lt h)]
    rfl
  burst := by
    rw [State.seq_congr (State.seqEnd_seqs h _ _ _)]
    unfold State.burstMarked
    rw [State.seq_modSeq_self _ _ _ (State.bursting_lt h), Option.map_map]
    rfl
  shown := State.seqEnd_cause h cause pc false hc
  stops b i hb hi ho := by
    have hends : ((s.burstMarked k cause pc false).burstShown b.stops k cause pc).ends i 0 cause :=
      (((HaltMoved.of_unitsErased (State.sqWithdraw_unitsErased _ k)).trans (HaltMoved.of_unitsErased (State.p_unitsErased _ _ _))).trans
        (HaltMoved.of_unitsErased (State.p_unitsErased _ _ _))).holdsDue
          (State.ends_finishEach hi (by
            unfold State.cmdOpen State.burstMarked
            rw [State.modSeq_cmds]
            exact ho) 0 cause)
    have hrest := ((HaltMoved.streamEnds ((s.burstMarked k cause pc false).burstShown b.stops k cause pc) k).trans
      (HaltMoved.timBoundEnd _ k)).trans (HaltMoved.of_unitsErased (State.afterDrain_unitsErased _ k))
    rw [State.seqEnd_eq h, show ((s.seq k).burst.map (·.stops)).getD [] = b.stops by rw [hb]; rfl]
    exact hrest.holdsDue hends
  cmds hvs htim hstops := State.seqEnd_cmds h hvs htim hstops cause pc false
  others j hj := by
    rw [State.seq_congr (State.seqEnd_seqs h _ _ _)]
    exact State.seq_modSeq_ne _ _ hj
  moved := HaltMoved.seqEnd s k cause pc false

end Sys2Proof.Machine
end

section
/-! SUPPORT. BEGIN and END (R72, R91, R92): the record of the first beat, the Channel Blocks made ready for it, and the end of the burst. -/

namespace Sys2Proof.Machine

/-! ### Issuing a record -/

/-- The record as it enters the beat FIFO. -/
def State.recIssued (s : State) (k : Nat) (r : BeatRec) (start len : Nat) : BeatRec :=
  { s.timed k r start len (s.seq k).lastD with beat := s.g (PS_BEATS_BEATS k) }

/-- The sequencer with one more record in flight, whose beat ends at `e`. -/
def Seq.issued (x : Seq) (keep : Bool) (r : BeatRec) (e : Nat) : Seq :=
  { x with
    fifo := if keep then x.fifo ++ [r] else x.fifo, inFlight := x.inFlight ++ [r],
    tEnd := some e, lastD := r.deliv, holdRec := if r.hold then x.holdRec else some r }

/-- A record without an event changes its sequencer and PS_BEATS only. -/
theorem State.issue_eq (s : State) (k : Nat) {r : BeatRec} (h : r.event = none) (start len : Nat) :
    ∃ keep, s.issue k r start len =
      (s.p (PS_BEATS_BEATS k) (s.g (PS_BEATS_BEATS k) + 1)).modSeq k (·.issued keep (s.recIssued k r start len) (start + len)) := by
  refine ⟨!((s.p (PS_BEATS_BEATS k) (s.g (PS_BEATS_BEATS k) + 1)).liveCbs k).isEmpty, ?_⟩
  unfold State.issue
  extract_lets r' t keep u
  have he : r'.event = none := h
  rw [he]
  rfl

/-! ### The Channel Blocks before the first beat -/

/-- Only Channel Blocks and registers of theirs differ. -/
structure CbsRenewed (s t : State) : Prop where
  frame : t = { s with regs := t.regs, cbs := t.cbs, chans := t.chans }
  rd : ∀ a, (a < 0x05000000 ∨ 0x06000000 ≤ a) → t.rd a = s.rd a

theorem CbsRenewed.refl (s : State) : CbsRenewed s s := ⟨rfl, fun _ _ => rfl⟩

theorem CbsRenewed.trans {s t u : State} (h : CbsRenewed s t) (h' : CbsRenewed t u) : CbsRenewed s u := by
  refine ⟨?_, fun a ha => (h'.rd a ha).trans (h.rd a ha)⟩
  rw [h'.frame]; rw [h.frame]

theorem CbsRenewed.modCb (s : State) (c : Nat) (f : Cblk → Cblk) : CbsRenewed s (s.modCb c f) :=
  ⟨by unfold State.modCb; split <;> rfl, fun _ _ => State.rd_modCb ..⟩

theorem CbsRenewed.modCh (s : State) (n : Nat) (f : Chan → Chan) : CbsRenewed s (s.modCh n f) :=
  ⟨by unfold State.modCh; split <;> rfl, fun _ _ => State.rd_modCh ..⟩

theorem CbsRenewed.p (s : State) {f : FRef} (v : Nat) (h : 0x05000000 ≤ f.addr ∧ f.addr < 0x06000000) : CbsRenewed s (s.p f v) :=
  ⟨rfl, fun _ _ => State.rd_p_ne _ _ _ (by omega)⟩

/-- A loop stands in a relation in which its rounds stand. -/
theorem forEach_rel_of_mem {α β : Type} {R : β → β → Prop} (hrefl : ∀ b, R b b) (htrans : ∀ {a b c}, R a b → R b c → R a c) (l : List α)
    (b : β) (f : α → β → β) (h : ∀ x ∈ l, ∀ c, R c (f x c)) : R b (forEach l b f) := by
  unfold forEach
  induction l generalizing b with
  | nil => exact hrefl b
  | cons x t ih => exact htrans (h x List.mem_cons_self b) (ih _ fun y hy => h y (List.mem_cons_of_mem _ hy))

theorem State.seqCbs_lt {s : State} {k c : Nat} (h : c ∈ s.seqCbs k) : c < 32 := List.mem_range.1 (List.mem_of_mem_filter h)

theorem CbsRenewed.cbClear (s : State) (k : Nat) : CbsRenewed s (s.cbClear k) :=
  forEach_rel_of_mem CbsRenewed.refl CbsRenewed.trans _ s _ fun c hc t => by
    have hlt := State.seqCbs_lt hc
    exact ((CbsRenewed.modCb t c _).trans (CbsRenewed.p _ _ (by unfold CH_CB_STATUS_PERIOD_MIN CH_CB_STATUS; dsimp only; omega))).trans
      (CbsRenewed.p _ _ (by unfold CH_CB_BEATS_BEATS CH_CB_BEATS; dsimp only; omega))

theorem CbsRenewed.cbFresh (s : State) (k b : Nat) : CbsRenewed s (s.cbFresh k b) :=
  forEach_rel CbsRenewed.refl CbsRenewed.trans _ s _ fun c t =>
    (CbsRenewed.modCb t c _).trans (forEach_rel CbsRenewed.refl CbsRenewed.trans _ _ _ fun n u => CbsRenewed.modCh u n _)

section
variable {s t : State} (h : CbsRenewed s t)
include h

theorem CbsRenewed.seqs : t.seqs = s.seqs := by rw [h.frame]

theorem CbsRenewed.g {f : FRef} (hf : f.addr < 0x05000000 ∨ 0x06000000 ≤ f.addr) : t.g f = s.g f := by
  unfold State.g
  rw [h.rd _ hf]

/-- The first start depends on the time base alone. -/
theorem CbsRenewed.firstStart : t.firstStart = s.firstStart := by
  have htb : t.tb = s.tb := by rw [h.frame]
  have hinc : t.tbInc = s.tbInc := by
    unfold State.tbInc State.gi
    rw [h.g (Or.inr (by decide))]
  unfold State.firstStart State.instantOf State.fineAt
  rw [htb, hinc]

end

theorem State.firstStart_modSeq (s : State) (k : Nat) (f : Seq → Seq) : (s.modSeq k f).firstStart = s.firstStart := by
  simp [State.firstStart, State.instantOf, State.fineAt, State.tbInc, State.gi]

/-! ### BEGIN -/

/-- The sequencer enters BEAT mode with the architectural state `a`. -/
def Seq.begun (x : Seq) (a : Arch) : Seq := { x with arch := a, shadow := none, st := .beat, clearBeat := 0 }

/-- BEAT mode is entered over renewed Channel Blocks. -/
def State.beatEntered (s : State) (k : Nat) (b : Arch) : State := ((s.cbClear k).cbFresh k 0).modSeq k (·.begun b)

theorem State.cbsRenewed (s : State) (k : Nat) : CbsRenewed s ((s.cbClear k).cbFresh k 0) := (CbsRenewed.cbClear s k).trans (.cbFresh _ k 0)

theorem State.beatEntered_seq (s : State) {k : Nat} (hk : k < 32) (b : Arch) : (s.beatEntered k b).seq k = (s.seq k).begun b := by
  rw [State.beatEntered, State.seq_modSeq_self _ _ _ hk, State.seq_congr (s.cbsRenewed k).seqs]

/-- No request is held and no STEP runs. -/
structure Calm (x : Seq) : Prop where
  stop : x.pendStop = false
  pause : x.pendPause = false
  step : x.step = false

/-- Behind a word that neither ends a burst nor breaks, a sequencer without requests goes on. -/
theorem IsControl.uAfter_calm {w : Micro} {seq cond target lc imm : Nat} (h : IsControl w seq cond target lc imm) (hs : seq ≠ 8 ∧ seq ≠ 0xA)
    {t : State} {k : Nat} (hx : Calm (t.seq k)) (c : Bool) : t.uAfter k w c = t := by
  obtain ⟨h8, hA⟩ := hs
  unfold State.uAfter
  simp [h.seq, h8, hA, h.yield, hx.stop, hx.pause, hx.step]

theorem IsControl.uArch_begin {w : Micro} {cond target lc imm : Nat} (h : IsControl w 7 cond target lc imm) {s : State} {k : Nat} {a : Arch}
    (hdr : a.dr.toNat < 2 ^ s.dwidth k) : ∃ l, (s.uArch k w a).1 = { a with line := l, beatMode := true } := by
  unfold State.uArch
  simp only [h.genOps s k a hdr, h.regop, h.seq, decide_true, Bool.or_true, if_true]
  exact ⟨_, rfl⟩

section
variable {s : State} {k : Nat} (hp : SetupPlain s k) {w : Micro} {cond target lc imm : Nat} {a : Arch}
include hp

/-- Behind the issue of the first record nothing is left to do. -/
theorem SetupPlain.uAfter_begun (h : IsControl w 7 cond target lc imm) (hk : k < 32) (b : Arch) {r : BeatRec} (hr : r.event = none)
    (start len : Nat) (c : Bool) :
    (if ((s.beatEntered k b).issue k r start len).bursting k then ((s.beatEntered k b).issue k r start len).uAfter k w c
      else (s.beatEntered k b).issue k r start len) = (s.beatEntered k b).issue k r start len := by
  obtain ⟨keep, hissue⟩ := (s.beatEntered k b).issue_eq k hr start len
  have hcalm : Calm (((s.beatEntered k b).issue k r start len).seq k) := by
    rw [hissue, State.seq_modSeq_self _ _ _ hk, State.seq_congr (State.p_seqs ..), s.beatEntered_seq hk]
    exact ⟨hp.stop, hp.pause, hp.step⟩
  rw [h.uAfter_calm (by decide) hcalm, ite_self]

/-- A BEGIN without WAIT makes the Channel Blocks ready and issues the first beat, with no event. -/
theorem SetupPlain.uIssue_begin (h : IsControl w 7 cond target lc imm) (hdr : a.dr = (s.seq k).arch.dr) (hk : k < 32) (c : Bool) :
    ∃ (l : List DataSide) (r : BeatRec), r.period = s.g (PS_PERIOD_PERIOD k 0) ∧ r.hold = false ∧ r.event = none ∧
      s.uIssue k w c a = (s.beatEntered k { a with line := l, beatMode := true }).issue k r
        (s.beatEntered k { a with line := l, beatMode := true }).firstStart (effPeriod (s.g (PS_PERIOD_PERIOD k 0))) := by
  obtain ⟨l, hl⟩ := h.uArch_begin (a := a) (by rw [hdr]; exact hp.dr)
  obtain ⟨e, he⟩ : ∃ e, s.uArch k w a = ({ a with line := l, beatMode := true }, e) := ⟨_, Prod.ext hl rfl⟩
  have htrace (pc : Nat) (x y : Bool) : s.trace k w pc x y = s := by simp [State.trace, hp.trace]
  have hfclr : nbit (uCmp w) 5 = false := by rw [h.cmp]; rfl
  unfold State.uIssue
  simp only [he, hp.mode, h.seq, h.sqAct, h.commit, h.uDraws, h.regopFree, h.tset, hfclr, htrace, decide_true, Bool.or_true, Bool.true_or,
    Bool.and_false, Bool.not_false, Bool.not_true, Bool.and_true, Bool.false_eq_true, if_true, if_false, ite_self, decide_false,
    and_false, and_true, show ¬ (0 : Nat) = 2 by decide, show ¬ (0 : Nat) = 3 by decide, show ¬ (0 : Nat) = 1 by decide, or_self,
    show ¬ (7 : Nat) = 9 by decide]
  exact ⟨l, _, rfl, rfl, rfl, hp.uAfter_begun h hk _ rfl _ _ c⟩

end

/-- Only sequencers, Channel Blocks and registers differ. -/
def BeatsMoved (s t : State) : Prop := t = { s with regs := t.regs, seqs := t.seqs, cbs := t.cbs, chans := t.chans }

theorem BeatsMoved.trans {s t u : State} (h : BeatsMoved s t) (h' : BeatsMoved t u) : BeatsMoved s u := by
  unfold BeatsMoved at *
  rw [h']; rw [h]

theorem BeatsMoved.modSeq (s : State) (k : Nat) (f : Seq → Seq) : BeatsMoved s (s.modSeq k f) := by
  unfold BeatsMoved State.modSeq
  split <;> rfl

theorem BeatsMoved.p (s : State) (f : FRef) (v : Nat) : BeatsMoved s (s.p f v) := rfl

theorem CbsRenewed.beatsMoved {s t : State} (h : CbsRenewed s t) : BeatsMoved s t := by
  unfold BeatsMoved
  rw [h.frame]

/-- The first record of a burst enters BEAT mode with the architectural state `b`. -/
theorem State.firstBeat (s : State) {k : Nat} (b : Arch) {r : BeatRec} (hr : r.event = none) (len : Nat) (hk : k < 32) :
    let v := s.beatEntered k b
    let t := v.issue k r v.firstStart len
    ∃ keep e r', t.seq k = ((s.seq k).begun b).issued keep r' e ∧
      r' = { v.timed k r s.firstStart len (s.seq k).lastD with beat := s.g (PS_BEATS_BEATS k) } ∧
      t.g (PS_BEATS_BEATS k) = (s.g (PS_BEATS_BEATS k) + 1) % 2 ^ 64 ∧ (∀ j, j ≠ k → t.seq j = s.seq j) ∧ BeatsMoved s t := by
  intro v t
  have h := s.cbsRenewed k
  have hbeat : v.g (PS_BEATS_BEATS k) = s.g (PS_BEATS_BEATS k) :=
    (State.g_modSeq ..).trans (h.g (Or.inl (by unfold PS_BEATS_BEATS PS_BEATS; dsimp only; omega)))
  have hfirst : v.firstStart = s.firstStart := (State.firstStart_modSeq _ k _).trans h.firstStart
  have hself : v.seq k = (s.seq k).begun b := s.beatEntered_seq hk b
  obtain ⟨keep, heq⟩ := v.issue_eq k hr v.firstStart len
  have ht : t = (v.p (PS_BEATS_BEATS k) (s.g (PS_BEATS_BEATS k) + 1)).modSeq k
      (·.issued keep (v.recIssued k r s.firstStart len) (s.firstStart + len)) := by
    rw [← hbeat, ← hfirst]
    exact heq
  refine ⟨keep, s.firstStart + len, v.recIssued k r s.firstStart len, ?_, ?_, ?_, fun j hj => ?_, ?_⟩
  · rw [ht, State.seq_modSeq_self _ _ _ hk, State.seq_congr (State.p_seqs ..), hself]
  · rw [State.recIssued, hbeat, hself]
    rfl
  · rw [ht, State.g_modSeq]
    exact State.g_p_self _ _ _ (by decide : 63 < 64) (by decide : 0 ≤ 63)
  · rw [ht, State.seq_modSeq_ne _ _ hj, State.seq_congr (State.p_seqs ..)]
    exact (State.seq_modSeq_ne _ _ hj).trans (State.seq_congr h.seqs j)
  · rw [ht]
    exact ((h.beatsMoved.trans (.modSeq _ k _)).trans (.p v _ _)).trans (.modSeq _ k _)

/-! ### The words that begin and end the beats of a burst -/

theorem State.modSeq_of_fixed (s : State) (k : Nat) {f : Seq → Seq} (h : f (s.seq k) = s.seq k) : s.modSeq k f = s := by
  unfold State.modSeq
  split
  · next hk =>
    have hseq : s.seq k = s.seqs[k] := by simp [State.seq, List.getD_eq_getElem?_getD, hk]
    have hvec : modv s.seqs ⟨k, hk⟩ f = s.seqs := by
      show s.seqs.set k (f s.seqs[k]) = s.seqs
      rw [← hseq, h, hseq, Vector.set_getElem_self]
    rw [hvec]
  · rfl

/-- An unconditional END without a held request ends the burst. -/
theorem SetupPlain.uStep_end {s : State} {k : Nat} (hp : SetupPlain s k) {w : Micro} {target lc imm : Nat}
    (h : IsControl w 8 0 target lc imm) (hw : s.csWord k (s.seq k).arch.pc = csEncode w)
    (hpc : 0x800 ≤ (s.seq k).arch.pc ∧ (s.seq k).arch.pc < 2 ^ 13) (hk : k < 32) :
    s.uStep k 8 = s.seqEnd k 1 (s.seq k).arch.pc false := by
  have hkeep : s.setArch k (s.seq k).arch = s := State.modSeq_of_fixed s k rfl
  rw [hp.uStep h (c := true) rfl hw (by decide) (fun e => absurd e (by decide)) h.seqNext_end hpc.1 hpc.2, hp.uIssue_silent h (by decide) rfl hk, hkeep]
  unfold State.uAfter
  simp [h.seq, hp.pause, hp.stop]

theorem SetupPlain.bursting {s : State} {k : Nat} (hp : SetupPlain s k) : s.bursting k = true := by
  unfold State.bursting
  rw [hp.st]

/-- Settles O13. BEGIN is its issue of the first record over the renewed Channel Blocks; END is the end of a burst as every other. -/
theorem burstsBeginAndEnd : Obligations.BurstsBeginAndEnd := by
  unfold Obligations.BurstsBeginAndEnd
  intro s k hplain hrep holds a hhi hlo
  have hp := SetupPlain.of hplain
  have hctl {q : Nat} (hq : q < 2 ^ 6) : IsControl (ctlWord q 0 0 0 0) q 0 0 0 0 :=
    ctlWord_isControl hq (by decide) (by decide) (by decide) (by decide)
  refine ⟨fun hw hbeats => ?_, fun hw => ?_⟩
  · have h := hctl (q := 7) (by decide)
    have hstep : s.uStep k.val 7 = s.uIssue k.val (ctlWord 7 0 0 0 0) true { a with pc := a.pc + 1 } :=
      hp.uStep h (c := true) rfl hw (by decide) (fun _ => holds) (h.seqNext_step (by decide)) (by show 0x800 ≤ a.pc + 1; omega) hhi
    obtain ⟨l, r, hperiod, hhold, hevent, hissue⟩ := hp.uIssue_begin h (a := { a with pc := a.pc + 1 }) rfl k.isLt true
    obtain ⟨keep, e, r', hseq, hrec, hshown, hothers, hframe⟩ := s.firstBeat { a with pc := a.pc + 1, line := l, beatMode := true } hevent
      (effPeriod (s.g (PS_PERIOD_PERIOD k.val 0))) k.isLt
    refine ⟨_, congrArg Host.Outcome.next (hstep.trans hissue), ?_⟩
    dsimp only
    rw [hseq]
    refine ⟨rfl, rfl, rfl, rfl, hshown.trans (Nat.mod_eq_of_lt (by omega)), ⟨r', rfl, ?_⟩, hothers, hframe⟩
    rw [hrec]
    exact ⟨rfl, rfl, rfl, hhold, hevent⟩
  · have h := hctl (q := 8) (by decide)
    have hended := State.seqEnd_ended (cause := 1) hp.bursting (by decide) a.pc
    exact ⟨_, congrArg Host.Outcome.next (hp.uStep_end h hw ⟨hlo, Nat.lt_of_succ_lt hhi⟩ k.isLt),
      hended.idle, hended.burst, hended.cmds, hended.shown, hended.others, hended.moved.mem⟩

end Sys2Proof.Machine
end

section
/-! SUPPORT. Hold beats, checkpoints and the release of a Square (R81, R85, R89). -/

namespace Sys2Proof.Machine

/-! ### Frames -/

/-- Only sequencers and registers differ. -/
def SeqsMoved (s t : State) : Prop := t = { s with regs := t.regs, seqs := t.seqs }

theorem SeqsMoved.trans {s t u : State} (h : SeqsMoved s t) (h' : SeqsMoved t u) : SeqsMoved s u := by
  unfold SeqsMoved at *
  rw [h']; rw [h]

theorem SeqsMoved.modSeq (s : State) (k : Nat) (f : Seq → Seq) : SeqsMoved s (s.modSeq k f) := by
  unfold SeqsMoved State.modSeq
  split <;> rfl

theorem SeqsMoved.p (s : State) (f : FRef) (v : Nat) : SeqsMoved s (s.p f v) := rfl

theorem SeqsMoved.pb (s : State) (f : FRef) (b : Bool) : SeqsMoved s (s.pb f b) := rfl

theorem SeqsMoved.sqShow (s : State) (q : Nat) : SeqsMoved s (s.sqShow q) :=
  ((((SeqsMoved.p s _ _).trans (.p _ _ _)).trans (.pb _ _ _)).trans (.pb _ _ _)).trans (.pb _ _ _)

/-! ### Hold beats (R67, R89) -/

/-- A hold beat repeats the last record, comparing nothing, from the end of the last beat. -/
theorem State.issueHold_eq {s : State} {k e : Nat} {r : BeatRec} (hr : (s.seq k).holdRec = some r) (he : (s.seq k).tEnd = some e) :
    s.issueHold k none = s.issue k { r with cmp := 0, event := none, hold := true } e (effPeriod r.period) := by
  have hhold : (s.seq k).holdBeat = some { r with cmp := 0, event := none, hold := true } := by rw [Seq.holdBeat, hr]; rfl
  unfold State.issueHold
  rw [hhold, he]
  rfl

/-- A paused sequencer in BEAT mode whose beat FIFO has room issues a hold beat. -/
theorem State.holdBeat_paused {s : State} {k : Nat} (hrun : s.running = true) (hdom : s.domOn (psDom k) = true)
    (hst : (s.seq k).st = .paused) (hmode : (s.seq k).arch.beatMode = true) (hroom : s.fifoRoom k = true) :
    s.holdBeat k = (s.issueHold k none).modSeq k (fun x => { x with holdLeft := x.holdLeft - 1 }) := by
  unfold State.holdBeat
  simp only [hrun, hdom, hmode, hroom, hst, Bool.not_true, Bool.false_eq_true, or_self, if_false]

/-! ### Checkpoints (R85) -/

/-- The checkpoint that sequencer `k` takes at a Square, or on entry. -/
def State.ckptOf (s : State) (k : Nat) (sq : Option Nat) (trel : Nat) : Ckpt :=
  ⟨(s.seq k).shown, sq, (sq.map s.sqRound).getD 0, trel, s.g (PS_BEATS_BEATS k), s.siteSnaps k⟩

section
variable (s : State) (k : Nat) (sq : Option Nat) (trel : Nat)

theorem State.takeCkpt_seqs : (s.takeCkpt k sq trel).seqs = (s.modSeq k (fun x => { x with ckpt := some (s.ckptOf k sq trel) })).seqs := by
  unfold State.takeCkpt
  dsimp only
  rw [State.p_seqs, State.pb_seqs, State.pb_seqs, State.p_seqs]
  rfl

theorem State.takeCkpt_rd {a : Nat} (h : a ≠ PS_CKPT k) : (s.takeCkpt k sq trel).rd a = s.rd a := by
  unfold State.takeCkpt
  dsimp only
  rw [State.rd_p_ne _ _ _ h, State.rd_pb_ne _ _ _ h, State.rd_pb_ne _ _ _ h, State.rd_p_ne _ _ _ h, State.rd_modSeq]

theorem SeqsMoved.takeCkpt : SeqsMoved s (s.takeCkpt k sq trel) :=
  ((((SeqsMoved.modSeq s k (fun x => { x with ckpt := some (s.ckptOf k sq trel) })).trans (.p _ _ _)).trans (.pb _ _ _)).trans
    (.pb _ _ _)).trans (.p _ _ _)

end

/-! ### Release (R80, R85) -/

/-- The sequencer goes on behind its WAIT at Square `q`. -/
def Seq.released (x : Seq) (q : Nat) : Seq :=
  { x with sqRel := x.sqRel ||| (1 <<< q), wait := none, st := if x.arch.beatMode then .beat else .setup }

theorem State.modSeq_modSeq (s : State) (k : Nat) (f g : Seq → Seq) : (s.modSeq k f).modSeq k g = s.modSeq k (fun x => g (f x)) := by
  unfold State.modSeq
  split <;> simp [modv]

/-- A member that waits without a BEGIN, and has no request to take, is released with a checkpoint. -/
theorem State.releaseSeq_waiting {s : State} {k q : Nat} {w : Wait} (hk : k < 32) (hw : (s.seq k).wait = some w) (hq : w.sq = q)
    (hb : w.begin_ = none) (hx : Calm (s.seq k)) (trel rel : Nat) :
    s.releaseSeq k q trel rel = ((s.modSeq k (·.released q)).takeCkpt k (some q) trel).boundary k := by
  have hwait : (s.seq k).wait.filter (fun w => decide (w.sq = q)) = some w := by
    rw [hw]
    exact Option.filter_some_pos (decide_eq_true hq)
  have hcalm : Calm ((((s.modSeq k (·.released q)).takeCkpt k (some q) trel).boundary k).seq k) := by
    rw [State.boundary, State.seq_modSeq_self _ _ _ hk, State.seq_congr (State.takeCkpt_seqs ..),
      State.seq_modSeq_self _ _ _ hk, State.seq_modSeq_self _ _ _ hk]
    exact ⟨hx.stop, hx.pause, hx.step⟩
  unfold State.releaseSeq
  simp only [hwait, hb, State.modSeq_modSeq]
  change (if _ then _ else (((s.modSeq k (·.released q)).takeCkpt k (some q) trel).boundary k).takeIntr k) = _
  rw [if_neg (fun h => absurd (hcalm.step.symm.trans h.1) (by decide))]
  unfold State.takeIntr
  simp [hcalm.stop, hcalm.pause]

theorem State.sqShow_seqs (s : State) (q : Nat) : (s.sqShow q).seqs = s.seqs := by simp [State.sqShow]

theorem filter_range_one : ∀ k : Fin 32, (List.range 32).filter (fun m => decide (k.val = m)) = [k.val] := by decide

theorem Sq.has_one {x : Sq} {k a : Nat} (h : x.arr = [(k, a)]) (m : Nat) : x.has m = decide (k = m) := by
  unfold Sq.has
  rw [h]
  simp

theorem State.mirrorCkpts_unpaired {s : State} (h : s.paired = false) (sq round : Nat) (seqs vs : List Nat) :
    s.mirrorCkpts sq round seqs vs = s := by
  unfold State.mirrorCkpts
  rw [h]
  rfl

/-- The Square's round is over and its one member released, with a checkpoint. -/
def State.oneReleased (s : State) (k q trel : Nat) : State :=
  ((((s.modSq q (fun _ => .zero)).sqShow q).modSeq k (·.released q)).takeCkpt k (some q) trel).boundary k

theorem State.oneReleased_rd (s : State) {k q a : Nat} (hq : a ≠ PS_SQ_STATUS q) (hk : a ≠ PS_CKPT k) (trel : Nat) :
    (s.oneReleased k q trel).rd a = s.rd a := by
  unfold State.oneReleased State.boundary
  rw [State.rd_modSeq, State.takeCkpt_rd _ _ _ _ hk, State.rd_modSeq, State.sqShow_rd _ hq, State.rd_modSq]

/-- The sequencer behind a checkpoint, at a routine boundary. -/
def Seq.resumedAt (x : Seq) (c : Ckpt) : Seq :=
  { x with ckpt := some c, entry := x.arch.pc, shadow := if x.arch.beatMode then none else some x.arch }

theorem State.oneReleased_seq (s : State) {k : Nat} (hk : k < 32) (q trel : Nat) :
    ∃ c, (s.oneReleased k q trel).seq k = ((s.seq k).released q).resumedAt c ∧ c.sq = some q ∧ c.trel = trel ∧ c.beats = s.g (PS_BEATS_BEATS k) := by
  have hbeats : (((s.modSq q (fun _ => .zero)).sqShow q).modSeq k (·.released q)).rd (PS_BEATS k) = s.rd (PS_BEATS k) := by
    rw [State.rd_modSeq, State.sqShow_rd _ (by unfold PS_BEATS PS_SQ_STATUS; omega), State.rd_modSq]
  refine ⟨(((s.modSq q (fun _ => .zero)).sqShow q).modSeq k (·.released q)).ckptOf k (some q) trel, ?_, rfl, rfl,
    congrArg (fun w => getBits w _ _) hbeats⟩
  rw [State.oneReleased, State.boundary, State.seq_modSeq_self _ _ _ hk, State.seq_congr (State.takeCkpt_seqs ..),
    State.seq_modSeq_self _ _ _ hk, State.seq_modSeq_self _ _ _ hk, State.seq_congr (State.sqShow_seqs ..), State.seq_congr (State.modSq_seqs ..)]
  rfl

theorem State.oneReleased_seq_ne (s : State) {j k : Nat} (hj : j ≠ k) (q trel : Nat) : (s.oneReleased k q trel).seq j = s.seq j := by
  rw [State.oneReleased, State.boundary, State.seq_modSeq_ne _ _ hj, State.seq_congr (State.takeCkpt_seqs ..), State.seq_modSeq_ne _ _ hj,
    State.seq_modSeq_ne _ _ hj, State.seq_congr (State.sqShow_seqs ..), State.seq_congr (State.modSq_seqs ..)]

theorem State.oneReleased_seqsMoved (s : State) (k q trel : Nat) : SeqsMoved (s.modSq q (fun _ => .zero)) (s.oneReleased k q trel) :=
  (((SeqsMoved.sqShow _ q).trans (.modSeq _ k (·.released q))).trans (.takeCkpt _ k (some q) trel)).trans (.modSeq _ k _)

theorem SeqsMoved.sqs {s t : State} (h : SeqsMoved s t) : t.sqs = s.sqs := by rw [h]

/-- Beside sequencers and registers only Square `q` differs. -/
theorem SeqsMoved.of_modSq {s t : State} {q : Nat} {f : Sq → Sq} (h : SeqsMoved (s.modSq q f) t) :
    t = { s with regs := t.regs, seqs := t.seqs, sqs := t.sqs } := by
  have hframe : s.modSq q f = { s with sqs := (s.modSq q f).sqs } := by
    unfold State.modSq
    split <;> rfl
  rw [h]; rw [hframe]

/-- A Square with one arrival, whose member waits in SETUP, releases it and counts up, when nothing is mirrored and no Ward is notified. -/
theorem State.squareRelease_one {s : State} {k : Fin 32} {q : Fin 64} {a trel : Nat} {w : Wait} (htrel : (s.sq q).trel = some trel)
    (hrel : (s.sq q).relAt ≤ s.tb.tm) (harr : (s.sq q).arr = [(k.val, a)]) (hone : ∀ j, j ≠ k.val → (s.seq j).wait = none)
    (hw : (s.seq k).wait = some w) (hq : w.sq = q) (hb : w.begin_ = none) (hmode : (s.seq k).arch.beatMode = false)
    (hx : Calm (s.seq k)) (hpair : s.paired = false) (hnotify : s.gb (PS_SQ_ENROL_NOTIFY q) = false) :
    s.squareRelease q = (s.oneReleased k q trel).p (PS_SQ_COUNT_RELEASES q) (s.g (PS_SQ_COUNT_RELEASES q) + 1) := by
  have hhas := Sq.has_one harr
  have hseqs : (List.range 32).filter (s.sq q).has = [k.val] := by
    rw [List.filter_congr fun m _ => hhas m]
    exact filter_range_one k
  have hvs : (List.range 16).filter (fun v => (s.sq q).has (32 + v)) = [] := by
    refine List.filter_eq_nil_iff.2 fun v _ => ?_
    rw [hhas]
    simp only [decide_eq_true_eq]
    omega
  have hout : s.holdsOut q = true := by
    refine List.all_eq_true.2 fun j _ => ?_
    by_cases hj : j = k.val
    · rw [hj, hw]
      simp [hmode]
    · rw [hone j hj]
  have hseq : ((s.modSq q (fun _ => .zero)).sqShow q).seq k = s.seq k :=
    State.seq_congr (by rw [State.sqShow_seqs, State.modSq_seqs]) k
  have hrelease : ((s.modSq q (fun _ => .zero)).sqShow q).releaseSeq k q trel (s.sq q).relAt = s.oneReleased k q trel :=
    State.releaseSeq_waiting k.isLt (hseq ▸ hw) hq hb (hseq.symm ▸ hx) trel (s.sq q).relAt
  have hunpaired : (s.oneReleased k q trel).paired = false :=
    (State.paired_of_twn (s.oneReleased_rd (TWN_STATUS_far.1 q q.isLt) (by unfold TWN_STATUS PS_CKPT; omega) trel)).trans hpair
  have hquiet : ((s.oneReleased k q trel).p (PS_SQ_COUNT_RELEASES q) (s.g (PS_SQ_COUNT_RELEASES q) + 1)).gb (PS_SQ_ENROL_NOTIFY q) = false := by
    have hrd : ((s.oneReleased k q trel).p (PS_SQ_COUNT_RELEASES q) (s.g (PS_SQ_COUNT_RELEASES q) + 1)).rd (PS_SQ_ENROL q) =
        s.rd (PS_SQ_ENROL q) := by
      rw [State.rd_p_ne _ _ _ (by unfold PS_SQ_ENROL PS_SQ_COUNT_RELEASES PS_SQ_COUNT; dsimp only; omega)]
      exact s.oneReleased_rd (by unfold PS_SQ_ENROL PS_SQ_STATUS; omega) (by unfold PS_SQ_ENROL PS_CKPT; omega) trel
    exact (congrArg (fun w => decide (getBits w _ _ ≠ 0)) hrd).trans hnotify
  unfold State.squareRelease
  rw [htrel]
  simp only [hout, hseqs, hvs, Nat.not_lt.2 hrel, forEach, List.foldl_nil, List.foldl_cons, Bool.not_true, Bool.false_eq_true, or_self, if_false]
  rw [hrelease, State.mirrorCkpts_unpaired hunpaired]
  exact if_neg (by rw [show s.sqRound q = s.g (PS_SQ_COUNT_RELEASES q) from rfl, hquiet]; decide)

/-! ### A hold beat and a release -/

theorem State.ticks_of_running {s : State} (h : s.running = true) : s.ticks = true := by
  unfold State.running at h
  simp only [Bool.and_eq_true, decide_eq_true_eq, Bool.not_eq_true'] at h
  obtain ⟨⟨⟨-, hreset⟩, hgated⟩, -⟩ := h
  unfold State.ticks
  rw [hreset, hgated]
  rfl

/-- Without a LEAVE that waits for it a Square's release is all that happens. -/
theorem squareRelease_noHandoff {s : State} (hrun : s.running = true) (hhand : s.twin.handoff = none) (q : Fin 64)
    (hkeep : (s.squareRelease q).twin = s.twin) : exec (.squareRelease q) s = .next (s.squareRelease q) := by
  show Host.Outcome.next _ = _
  rw [State.ticks_of_running hrun]
  simp only [hkeep, hhand, Bool.not_true, Bool.false_eq_true, if_false]

/-- Settles O14. Both are the issue or the release as such; what else they might do, an event, hold beats owed, a request, a handoff, is ruled out. -/
theorem holdsAndReleases : Obligations.HoldsAndReleases := by
  unfold Obligations.HoldsAndReleases
  intro s k hrun hdom
  refine ⟨fun r e hst hmode hroom hrec hend _ => ?_, fun q a trel arr p h prev rel htrel hrel harr hone hw hst hmode hstep hstop hpause hpair
    hhand hnotify => ?_⟩
  · obtain ⟨keep, hissue⟩ := s.issue_eq k.val (r := { r with cmp := 0, event := none, hold := true }) rfl e (effPeriod r.period)
    have hself : ((s.p (PS_BEATS_BEATS k.val) (s.g (PS_BEATS_BEATS k.val) + 1)).modSeq k.val
        (·.issued keep (s.recIssued k.val { r with cmp := 0, event := none, hold := true } e (effPeriod r.period)) (e + effPeriod r.period))).seq
          k.val = (s.seq k.val).issued keep (s.recIssued k.val { r with cmp := 0, event := none, hold := true } e (effPeriod r.period))
            (e + effPeriod r.period) := by
      rw [State.seq_modSeq_self _ _ _ k.isLt, State.seq_congr (State.p_seqs ..)]
    refine ⟨_, congrArg Host.Outcome.next (State.holdBeat_paused hrun hdom hst hmode hroom), ?_⟩
    dsimp only
    rw [State.issueHold_eq hrec hend, hissue, State.seq_modSeq_self _ _ _ k.isLt, hself]
    refine ⟨⟨_, rfl, rfl, rfl, rfl, rfl, rfl, rfl, rfl, rfl, rfl⟩, rfl, hst, fun j hj => ?_, ?_⟩
    · rw [State.seq_modSeq_ne _ _ hj, State.seq_modSeq_ne _ _ hj, State.seq_congr (State.p_seqs ..)]
    · exact ((SeqsMoved.p s _ _).trans (.modSeq _ _ _)).trans (.modSeq _ _ _)
  · have heq := State.squareRelease_one htrel hrel harr hone hw rfl rfl hmode ⟨hstop, hpause, hstep⟩ hpair hnotify
    obtain ⟨c, hseq, hsq, hct, hbeats⟩ := s.oneReleased_seq k.isLt q trel
    have hmoved := (s.oneReleased_seqsMoved k q trel).trans (.p _ (PS_SQ_COUNT_RELEASES q) (s.g (PS_SQ_COUNT_RELEASES q) + 1))
    refine ⟨_, (squareRelease_noHandoff hrun hhand q (by rw [heq]; rw [hmoved.of_modSq])).trans (congrArg Host.Outcome.next heq), ?_⟩
    dsimp only
    rw [State.seq_congr (State.p_seqs ..), hseq, State.sq_congr hmoved.sqs]
    refine ⟨rfl, by simp [Seq.resumedAt, Seq.released, hmode], State.sq_modSq_self _ _ _ q.isLt, ⟨c, rfl, hsq, hct, hbeats⟩,
      State.g_p_self _ _ _ (by decide : 31 < 64) (by decide : 0 ≤ 31), fun j hj => ?_, fun j hj => ?_, hmoved.of_modSq⟩
    · rw [State.seq_congr (State.p_seqs ..), s.oneReleased_seq_ne hj]
    · rw [State.sq_congr hmoved.sqs, State.sq_modSq_ne _ _ hj]

end Sys2Proof.Machine
end

section
/-! SUPPORT. The start of a burst (R85, R91): what its Channel Blocks, engine, time-interval units and Shutter take part in, and what it leaves
of the sequencers, the registers of the sequencers and the device. -/

namespace Sys2Proof.Machine

/-! ### What takes part in a burst's start -/

/-- A register that what is bound to a sequencer does not write: one of the sequencers, of the capture arms or of the pair. -/
def FarFromStart (a : Nat) : Prop := a < 0x04000000 ∨ (0x06000000 ≤ a ∧ a < 0x06004000) ∨ 0x0E000000 ≤ a

/-- `t` is `s` but for Channel Blocks, engines, time-interval units, Shutter, corrections, marks, event queues and their registers. -/
structure StartMoved (s t : State) : Prop where
  frame : t = { s with
    regs := t.regs, wards := t.wards, sqs := t.sqs, vs := t.vs, chans := t.chans, cbs := t.cbs, tims := t.tims, shut := t.shut,
    cal := t.cal, flt := t.flt, fresh := t.fresh, pwr := t.pwr }
  rd : ∀ a, FarFromStart a → t.rd a = s.rd a

theorem StartMoved.refl (s : State) : StartMoved s s := ⟨rfl, fun _ _ => rfl⟩

theorem StartMoved.trans {s t u : State} (h : StartMoved s t) (h' : StartMoved t u) : StartMoved s u := by
  refine ⟨?_, fun a ha => (h'.rd a ha).trans (h.rd a ha)⟩
  rw [h'.frame]; rw [h.frame]

section
variable {s t : State} (h : StartMoved s t)
include h

theorem StartMoved.seqs : t.seqs = s.seqs := by rw [h.frame]

theorem StartMoved.jnl : t.jnl = s.jnl := by rw [h.frame]

theorem StartMoved.mem : t.mem = s.mem := by rw [h.frame]

theorem StartMoved.plan : t.plan = s.plan := by rw [h.frame]

theorem StartMoved.ctxs : t.ctxs = s.ctxs := by rw [h.frame]

theorem StartMoved.g {f : FRef} (hf : FarFromStart f.addr) : t.g f = s.g f := by
  unfold State.g
  rw [h.rd _ hf]

theorem StartMoved.gb {f : FRef} (hf : FarFromStart f.addr) : t.gb f = s.gb f := by
  unfold State.gb
  rw [h.g hf]

end

theorem CbsRenewed.startMoved {s t : State} (h : CbsRenewed s t) : StartMoved s t := by
  refine ⟨?_, fun a ha => h.rd a (by unfold FarFromStart at ha; omega)⟩
  rw [h.frame]

theorem StartMoved.of_marksErased {s t : State} (h : t.marksErased = s.marksErased) (hrd : ∀ a, FarFromStart a → t.rd a = s.rd a) :
    StartMoved s t := by
  have hframe : t = { s with regs := t.regs, flt := t.flt, wards := t.wards, sqs := t.sqs, cal := t.cal, fresh := t.fresh } :=
    congrArg (fun x : State => { x with
      regs := t.regs, flt := t.flt, wards := t.wards, sqs := t.sqs, cal := t.cal, fresh := t.fresh }) h
  refine ⟨?_, hrd⟩
  rw [hframe]

section
variable (s : State)

theorem StartMoved.wr {a : Nat} (w : Word) (h : ¬ FarFromStart a) : StartMoved s (s.wr a w) :=
  ⟨rfl, fun _ hb => State.rd_wr_ne _ _ fun e => h (e ▸ hb)⟩

theorem StartMoved.p {f : FRef} (v : Nat) (h : ¬ FarFromStart f.addr) : StartMoved s (s.p f v) := .wr s _ h

theorem StartMoved.pb {f : FRef} (b : Bool) (h : ¬ FarFromStart f.addr) : StartMoved s (s.pb f b) := .p s _ h

theorem StartMoved.rst {a : Nat} (h : ¬ FarFromStart a) : StartMoved s (s.rst a) := .wr s _ h

theorem StartMoved.rstRange {lo hi : Nat} (h : ∀ a, lo ≤ a → a < hi → ¬ FarFromStart a) : StartMoved s (s.rstRange lo hi) :=
  ⟨rfl, fun a ha => s.rd_rstRange_out (by by_contra hin; exact h a (by omega) (by omega) ha)⟩

theorem StartMoved.modVs (v : Nat) (f : VsEng → VsEng) : StartMoved s (s.modVs v f) :=
  ⟨by unfold State.modVs; split <;> rfl, fun _ _ => State.rd_modVs ..⟩

theorem StartMoved.modTim (x : Nat) (f : TimU → TimU) : StartMoved s (s.modTim x f) :=
  ⟨by unfold State.modTim; split <;> rfl, fun _ _ => State.rd_modTim ..⟩

theorem StartMoved.eventTo (w : Option Nat) (c x : Nat) : StartMoved s (s.eventTo w c x) := by
  refine ⟨?_, fun _ _ => State.rd_eventTo ..⟩
  unfold State.eventTo State.event State.post State.modWard
  split
  · split
    · split <;> rfl
    · rfl
  · rfl

theorem StartMoved.useFree : StartMoved s s.useFree := ⟨rfl, fun _ _ => rfl⟩

theorem StartMoved.setShut (x : Shut) : StartMoved s { s with shut := x } := ⟨rfl, fun _ _ => rfl⟩

theorem StartMoved.demandWork (d : Nat) : StartMoved s (s.demandWork d) := by
  unfold State.demandWork
  split
  · refine ⟨?_, fun _ _ => State.rd_congr (s.demand_regs d) _⟩
    obtain ⟨l, hl⟩ := s.demand_eq d
    rw [hl]
  · exact .refl s

theorem StartMoved.cbIdle {c : Nat} (hc : c < 32) : StartMoved s (s.cbIdle c) :=
  .of_marksErased (s.cbIdle_marksErased c) fun a ha => by
    unfold FarFromStart at ha
    exact s.cbIdle_rd hc (by unfold CH_CB_STATUS; omega) (by omega)

/-! ### Each of them -/

theorem StartMoved.takeVsCkpt {v : Nat} (hv : v < 16) (sq : Option Nat) : StartMoved s (s.takeVsCkpt v sq) := by
  have hck : ¬ FarFromStart (VS_CKPT v) := by unfold FarFromStart VS_CKPT; omega
  unfold State.takeVsCkpt
  extract_lets x c t₁ t₂ t₃
  have ht₃ : StartMoved s t₃ :=
    ((((((StartMoved.modVs s v _).trans (.p _ _ hck)).trans (.pb _ _ hck)).trans (.pb _ _ hck)).trans (.p _ _ hck)).trans (.p _ _ hck))
  refine ht₃.trans (forEach_rel_of_mem StartMoved.refl StartMoved.trans _ _ _ fun i hi t => ?_)
  have hlt := List.mem_range.1 hi
  have hloop : ¬ FarFromStart (VS_CKPT_LOOP v i) := by unfold FarFromStart VS_CKPT_LOOP; omega
  exact (StartMoved.p t _ hloop).trans (.p _ _ hloop)

theorem StartMoved.timClear {x : Nat} (hx : x < 8) : StartMoved s (s.timClear x) := by
  have hrst (t : State) (n : Nat) (hn : n < 0x100) : StartMoved t (t.rst (0x0A004000 + n + x * 0x100)) :=
    .rst t (by unfold FarFromStart; omega)
  unfold State.timClear
  dsimp only
  exact (((((((((hrst s 0x10 (by decide)).trans (hrst _ 0x18 (by decide))).trans (hrst _ 0x20 (by decide))).trans
    (hrst _ 0x28 (by decide))).trans (hrst _ 0x30 (by decide))).trans (hrst _ 0x38 (by decide))).trans (hrst _ 0x40 (by decide))).trans
    (hrst _ 0x48 (by decide))).trans (hrst _ 0x50 (by decide))).trans (hrst _ 0x08 (by decide))

theorem StartMoved.timArmUnit {x : Nat} (hx : x < 8) (count : Nat) (cmd : Option Nat) (bound : Bool) (timeout : Nat) :
    StartMoved s (s.timArmUnit x count cmd bound timeout) :=
  ((StartMoved.timClear s hx).trans (.modTim _ x _)).trans
    (.p _ _ (by unfold FarFromStart TIM_STATUS_STATE TIM_STATUS; dsimp only; omega))

theorem StartMoved.timBoundArm (k : Nat) : StartMoved s (s.timBoundArm k) :=
  forEach_rel_of_mem StartMoved.refl StartMoved.trans _ s _ fun x hx t => by
    split
    · exact .timArmUnit t (List.mem_range.1 hx) _ _ _ _
    · exact .refl t

theorem StartMoved.shutArm (k count : Nat) (keep : Bool) : StartMoved s (s.shutArm k count keep) := by
  have hstat : ¬ FarFromStart CAP_SHUT_STATUS := by unfold FarFromStart CAP_SHUT_STATUS; omega
  unfold State.shutArm
  extract_lets x t₁ t₂ t₃ t₄
  have ht₁ : StartMoved s t₁ := .setShut s _
  have ht₂ : StartMoved t₁ t₂ := (StartMoved.rst t₁ hstat).trans (.p _ _ hstat)
  have ht₃ : StartMoved t₂ t₃ := .p _ _ hstat
  have ht₄ : StartMoved t₃ t₄ := forEach_rel_of_mem StartMoved.refl StartMoved.trans _ _ _ fun i hi t =>
    .rst t (by have := List.mem_range.1 hi; unfold FarFromStart CAP_SHUT_SUM; omega)
  have h := ((ht₁.trans ht₂).trans ht₃).trans ht₄
  clear_value t₄
  split
  · exact h
  · exact h.trans (.rstRange t₄ (by unfold FarFromStart CAP_SHUT_HIST; omega))

theorem StartMoved.shutBurst (k : Nat) : StartMoved s (s.shutBurst k) := by
  have hstat : ¬ FarFromStart CAP_SHUT_STATUS := by unfold FarFromStart CAP_SHUT_STATUS; omega
  have hmark (t : State) : StartMoved t (if t.g CAP_SHUT_STATUS_STATE = 1 ∧ t.g CAP_SHUT_STATUS_SEQ = k then
      { t with shut := { t.shut with inBurst := true } } else t) := by
    split
    · exact .setShut t _
    · exact .refl t
  unfold State.shutBurst
  refine StartMoved.trans ?_ (hmark _)
  split
  · split
    · exact .shutArm s k _ _
    · exact ((StartMoved.pb (f := CAP_SHUT_STATUS_ARM_ERR) s _ hstat).trans (.eventTo _ _ _ _)).trans (.useFree _)
  · exact .refl s

end

/-! ### A burst begins (R85, R91) -/

/-- The Channel Blocks of a sequencer whose burst begins. -/
theorem StartMoved.blocksReady (s : State) (k issued : Nat) : StartMoved s (forEach (s.seqCbs k) s (fun c s =>
    let s := if s.g (CH_CB_STATUS_STATE c) = 3 then (s.modCb c (fun x => { x with nextTake := issued })).cbIdle c else s
    forEach (cbChans c) s (fun n s => s.rst (CH_VIOL_FIRST n)))) :=
  forEach_rel_of_mem StartMoved.refl StartMoved.trans _ _ _ fun c hc t => by
    have hlt := State.seqCbs_lt hc
    refine StartMoved.trans (t := if t.g (CH_CB_STATUS_STATE c) = 3 then (t.modCb c (fun x => { x with nextTake := issued })).cbIdle c else t) ?_
      (forEach_rel_of_mem StartMoved.refl StartMoved.trans _ _ _ fun n hn u => .rst u ?_)
    · split
      · exact (CbsRenewed.modCb t c _).startMoved.trans (.cbIdle _ hlt)
      · exact .refl t
    · simp only [cbChans, List.mem_cons, List.not_mem_nil, or_false] at hn
      unfold FarFromStart CH_VIOL_FIRST
      omega

/-- The registers that show a new burst of sequencer `k`, before its first beat. -/
def State.countsCleared (s : State) (k : Nat) : State := ((s.rst (PS_BURST_END k)).p (PS_BEATS_BEATS k) 0).pb (CAP_DELIV_VALID k) false

/-- What a burst before this one has left is cleared, but for the architectural state. -/
theorem State.burstClear_moved (s : State) (k : Nat) :
    ∃ f : Seq → Seq, (∀ x, (f x).arch = x.arch) ∧ StartMoved ((s.modSeq k f).countsCleared k) (s.burstClear k 0) := by
  unfold State.burstClear
  extract_lets issued t₁ t₂ t₃
  have hready : StartMoved t₂ t₃ := .blocksReady t₂ k issued
  refine ⟨_, fun x => ?_, show StartMoved t₂ _ from hready.trans ?_⟩
  · rfl
  · split
    · exact ((CbsRenewed.cbClear t₃ k).trans (.cbFresh _ k 0)).startMoved
    · exact .refl t₃

/-- A burst stands at its entry in SETUP mode. -/
def Seq.launched (x : Seq) (entry : Nat) (b : Burst) : Seq :=
  { x with st := .setup, arch := { x.arch with pc := entry, beatMode := false, rep := none }, burst := some b }

/-- The burst `b` enters sequencer `k`, with its entry checkpoint. -/
def State.burstEntered (s : State) (k jseq entry : Nat) (b : Burst) : State :=
  ((((s.p (PS_BURST_JSEQ k) jseq).modSeq k (·.launched entry b)).pb (PS_STATUS_RESTARTABLE k) b.restartable).boundary k).takeCkpt k none 0

section
variable (s : State) {k a : Nat}

theorem State.countsCleared_rd (he : a ≠ PS_BURST_END k) (hb : a ≠ PS_BEATS k) (hd : a ≠ CAP_DELIV k) : (s.countsCleared k).rd a = s.rd a := by
  unfold State.countsCleared
  rw [State.rd_pb_ne _ _ _ hd, State.rd_p_ne _ _ _ hb]
  exact State.rd_wr_ne _ _ he

theorem State.burstEntered_rd (jseq entry : Nat) (b : Burst) (hj : a ≠ PS_BURST k) (hs : a ≠ PS_STATUS k) (hc : a ≠ PS_CKPT k) :
    (s.burstEntered k jseq entry b).rd a = s.rd a := by
  unfold State.burstEntered State.boundary
  rw [State.takeCkpt_rd _ _ _ _ hc, State.rd_modSeq, State.rd_pb_ne _ _ _ hs, State.rd_modSeq, State.rd_p_ne _ _ _ hj]

end

/-- What is bound to the sequencer takes part in its burst, outside a pair. -/
theorem State.burstBegin_moved {s : State} (hp : s.paired = false) {k : Nat} (hk : k < 32) (cmd : Option Nat) (jseq entry : Nat)
    (restartable : Bool) :
    ∃ (f : Seq → Seq) (u : State), (∀ x, (f x).arch = x.arch) ∧ StartMoved ((s.modSeq k f).countsCleared k) u ∧
      StartMoved (u.burstEntered k jseq entry ⟨cmd, jseq, [], restartable, false, false, none, none⟩)
        (s.burstBegin k cmd jseq entry restartable false) := by
  obtain ⟨f, hf, hclear⟩ := (s.modSeq k (fun x => { x with olds := x.olds ++ x.burst.toList })).burstClear_moved k
  rw [State.modSeq_modSeq] at hclear
  refine ⟨fun x => f { x with olds := x.olds ++ x.burst.toList }, _, fun x => hf _, hclear, ?_⟩
  unfold State.burstBegin
  extract_lets t₁ t₂ t₃ t₄ z vs z₁ z₂ z₃
  have htwn : z.rd TWN_STATUS = s.rd TWN_STATUS := by
    refine (State.burstEntered_rd (t₁.burstClear k 0) jseq entry ⟨cmd, jseq, [], restartable, false, false, none, none⟩
      (by unfold TWN_STATUS PS_BURST; omega) (by unfold TWN_STATUS PS_STATUS; omega) (by unfold TWN_STATUS PS_CKPT; omega)).trans ?_
    rw [hclear.rd _ (Or.inr (Or.inr (by decide))), State.countsCleared_rd _ (by unfold TWN_STATUS PS_BURST_END; omega)
      (by unfold TWN_STATUS PS_BEATS; omega) (by unfold TWN_STATUS CAP_DELIV; omega), State.rd_modSeq]
  have hvs : ∀ v ∈ vs, v < 16 := fun v hv => List.mem_range.1 (List.mem_of_find?_eq_some (Option.mem_toList.1 hv))
  have hz₁ : StartMoved z z₁ :=
    forEach_rel_of_mem StartMoved.refl StartMoved.trans _ _ _ fun v hv t => (StartMoved.modVs t v _).trans (.takeVsCkpt _ (hvs v hv) none)
  have hpair : z₁.paired = false := (State.paired_of_twn ((hz₁.rd _ (Or.inr (Or.inr (by decide)))).trans htwn)).trans hp
  have hz₂ : StartMoved z₁ z₂ := by
    simp only [z₂, State.mirrorCkpts_unpaired hpair]
    exact .timBoundArm z₁ k
  have hz₃ : StartMoved z₂ z₃ := by
    simp only [z₃]
    split
    · exact .shutBurst z₂ k
    · exact .refl z₂
  have hclocks : StartMoved z₃ (forEach ((z₃.seqCbs k).map cbDom ++ vs.map vsDom) (z₃.demandWork (psDom k)) fun d s => s.demandWork d) :=
    (StartMoved.demandWork z₃ _).trans (forEach_rel StartMoved.refl StartMoved.trans _ _ _ fun d t => .demandWork t d)
  exact ((hz₁.trans hz₂).trans hz₃).trans hclocks

end Sys2Proof.Machine
end

section
/-! SUPPORT. BURST_START (R91): its checks, and what it makes of the sequencer and its registers. -/

namespace Sys2Proof.Machine

/-! ### The command at the front of a queue -/

/-- A command that may start is one of its Ward. -/
theorem State.takes.ward {s : State} {w : Fin 4} {q : Fin 8} {op : Nat} {c : Cmd} (h : s.takes w q op c) : c.ward = w := by
  obtain ⟨hgo, -⟩ := h
  unfold State.startable at hgo
  split at hgo
  · cases hgo
  · next x hx =>
    have hkey := List.find?_some hx
    simp only [Bool.and_eq_true, decide_eq_true_eq] at hkey
    obtain ⟨⟨⟨-, hw⟩, -⟩, -⟩ := hkey
    dsimp only at hgo
    split at hgo
    · split at hgo
      · cases hgo
      · cases hgo
        exact Fin.ext hw
    · cases hgo

/-- The arguments of BURST_START. -/
theorem burstStart_args {b : List Byte} {k entry : Nat} {r : Bool} (h : b = toLe 1 k ++ toLe 1 (b2n r) ++ toLe 2 entry ++ toLe 4 0)
    (hk : k < 256) (he : entry < 65536) :
    b.length = 8 ∧ u b 0 1 = k ∧ u b 1 1 = b2n r ∧ u b 2 2 = entry ∧ zeros b 4 4 = true := by
  subst h
  refine ⟨by simp, ?_, ?_, ?_, ?_⟩
  · rw [List.append_assoc, List.append_assoc, u_front]
    omega
  · have := u_toLe (toLe 1 k) (toLe 2 entry ++ toLe 4 0) 1 (b2n r)
    rw [toLe_length] at this
    rw [List.append_assoc (_ ++ _), this]
    cases r <;> rfl
  · have := u_toLe (toLe 1 k ++ toLe 1 (b2n r)) (toLe 4 0) 2 entry
    rw [List.length_append, toLe_length, toLe_length] at this
    rw [this]
    omega
  · have := zeros_middle (toLe 1 k ++ toLe 1 (b2n r) ++ toLe 2 entry) [] 4
    rw [List.append_nil, List.length_append, List.length_append, toLe_length, toLe_length, toLe_length] at this
    exact this

/-! ### A burst that has begun -/

theorem burstEnd_reset : ∀ k : Fin 32, getBits (resetAt (PS_BURST_END k)) 2 0 = 0 := by decide

theorem State.countsCleared_seqs (s : State) (k : Nat) : (s.countsCleared k).seqs = s.seqs := by
  rw [State.countsCleared, State.pb_seqs, State.p_seqs, State.rst_seqs]

theorem SeqsMoved.rst (s : State) (a : Nat) : SeqsMoved s (s.rst a) := rfl

theorem SeqsMoved.countsCleared (s : State) (k : Nat) : SeqsMoved s (s.countsCleared k) :=
  ((SeqsMoved.rst s _).trans (.p _ _ _)).trans (.pb _ _ _)

theorem SeqsMoved.burstEntered (s : State) (k jseq entry : Nat) (b : Burst) : SeqsMoved s (s.burstEntered k jseq entry b) :=
  ((((SeqsMoved.p s _ _).trans (.modSeq _ k _)).trans (.pb _ _ _)).trans (.modSeq _ k _)).trans (.takeCkpt _ k none 0)

section
variable {s t : State} (h : SeqsMoved s t)
include h

theorem SeqsMoved.jnl : t.jnl = s.jnl := by rw [h]

theorem SeqsMoved.mem : t.mem = s.mem := by rw [h]

theorem SeqsMoved.plan : t.plan = s.plan := by rw [h]

theorem SeqsMoved.ctxs : t.ctxs = s.ctxs := by rw [h]

end

section
variable (s : State) {k : Nat} (hk : k < 32) (jseq entry : Nat) (b : Burst)

include hk in
/-- The sequencer at the entry of its burst, and its entry checkpoint. -/
theorem State.burstEntered_seq : ∃ c, (s.burstEntered k jseq entry b).seq k = ((s.seq k).launched entry b).resumedAt c ∧
    c.sq = none ∧ c.beats = s.g (PS_BEATS_BEATS k) ∧ c.arch = ((s.seq k).launched entry b).arch := by
  generalize hv : (((s.p (PS_BURST_JSEQ k) jseq).modSeq k (·.launched entry b)).pb (PS_STATUS_RESTARTABLE k) b.restartable).boundary k = v
  have hseq : v.seq k = { (s.seq k).launched entry b with entry := entry, shadow := some ((s.seq k).launched entry b).arch } := by
    rw [← hv, State.boundary, State.seq_modSeq_self _ _ _ hk, State.seq_congr (State.pb_seqs ..), State.seq_modSeq_self _ _ _ hk,
      State.seq_congr (State.p_seqs ..)]
    rfl
  have hrd : v.rd (PS_BEATS k) = s.rd (PS_BEATS k) := by
    rw [← hv, State.boundary, State.rd_modSeq,
      State.rd_pb_ne _ _ _ (by unfold PS_BEATS PS_STATUS_RESTARTABLE PS_STATUS; dsimp only; omega), State.rd_modSeq,
      State.rd_p_ne _ _ _ (by unfold PS_BEATS PS_BURST_JSEQ PS_BURST; dsimp only; omega)]
  refine ⟨v.ckptOf k none 0, ?_, rfl, congrArg (fun w => getBits w _ _) hrd, ?_⟩
  · rw [State.burstEntered, hv, State.seq_congr (State.takeCkpt_seqs ..), State.seq_modSeq_self _ _ _ hk, hseq]
    rfl
  · show (v.seq k).shown = _
    rw [hseq]
    rfl

theorem State.burstEntered_seq_ne {j : Nat} (hj : j ≠ k) : (s.burstEntered k jseq entry b).seq j = s.seq j := by
  rw [State.burstEntered, State.seq_congr (State.takeCkpt_seqs ..), State.seq_modSeq_ne _ _ hj, State.boundary, State.seq_modSeq_ne _ _ hj,
    State.seq_congr (State.pb_seqs ..), State.seq_modSeq_ne _ _ hj, State.seq_congr (State.p_seqs ..)]

theorem State.burstEntered_jseq : (s.burstEntered k jseq entry b).g (PS_BURST_JSEQ k) = jseq % 2 ^ 64 := by
  have hrd : (s.burstEntered k jseq entry b).rd (PS_BURST k) = (s.p (PS_BURST_JSEQ k) jseq).rd (PS_BURST k) := by
    rw [State.burstEntered, State.takeCkpt_rd _ _ _ _ (by unfold PS_BURST PS_CKPT; omega), State.boundary, State.rd_modSeq,
      State.rd_pb_ne _ _ _ (by unfold PS_BURST PS_STATUS_RESTARTABLE PS_STATUS; dsimp only; omega), State.rd_modSeq]
  exact (congrArg (fun w => getBits w _ _) hrd).trans (s.g_p_self (PS_BURST_JSEQ k) jseq (by decide : 63 < 64) (by decide : 0 ≤ 63))

theorem State.burstEntered_restartable : (s.burstEntered k jseq entry b).gb (PS_STATUS_RESTARTABLE k) = b.restartable := by
  have hrd : (s.burstEntered k jseq entry b).rd (PS_STATUS k) =
      (((s.p (PS_BURST_JSEQ k) jseq).modSeq k (·.launched entry b)).pb (PS_STATUS_RESTARTABLE k) b.restartable).rd (PS_STATUS k) := by
    rw [State.burstEntered, State.takeCkpt_rd _ _ _ _ (by unfold PS_STATUS PS_CKPT; omega), State.boundary, State.rd_modSeq]
  exact (congrArg (fun w => decide (getBits w _ _ ≠ 0)) hrd).trans
    (State.gb_pb_self _ (PS_STATUS_RESTARTABLE k) _ (by decide : 5 < 64) (by decide : 5 ≤ 5))

end

/-- The registers behind `countsCleared` read 0. -/
theorem State.countsCleared_zero (s : State) (k : Fin 32) : (s.countsCleared k).g (PS_BEATS_BEATS k) = 0 ∧
    (s.countsCleared k).g (PS_BURST_END_CAUSE k) = 0 ∧ (s.countsCleared k).gb (CAP_DELIV_VALID k) = false := by
  refine ⟨?_, ?_, ?_⟩
  · have hrd : (s.countsCleared k).rd (PS_BEATS k) = ((s.rst (PS_BURST_END k)).p (PS_BEATS_BEATS k) 0).rd (PS_BEATS k) :=
      State.rd_pb_ne _ _ _ (by unfold PS_BEATS CAP_DELIV_VALID CAP_DELIV; dsimp only; omega)
    exact (congrArg (fun w => getBits w _ _) hrd).trans
      (State.g_p_self _ (PS_BEATS_BEATS k) 0 (by decide : 63 < 64) (by decide : 0 ≤ 63))
  · have hrd : (s.countsCleared k).rd (PS_BURST_END k) = resetAt (PS_BURST_END k) := by
      rw [State.countsCleared, State.rd_pb_ne _ _ _ (by unfold PS_BURST_END CAP_DELIV_VALID CAP_DELIV; dsimp only; omega),
        State.rd_p_ne _ _ _ (by unfold PS_BURST_END PS_BEATS_BEATS PS_BEATS; dsimp only; omega), State.rst, State.rd_wr_self]
    exact (congrArg (fun w => getBits w _ _) hrd).trans (burstEnd_reset k)
  · exact State.gb_pb_self _ (CAP_DELIV_VALID k) false (by decide : 48 < 64) (by decide : 48 ≤ 48)

/-- In `t` the burst `b` has begun on sequencer `k` at `entry`. -/
structure BurstBegun (s t : State) (k jseq entry : Nat) (b : Burst) : Prop where
  st : (t.seq k).st = .setup
  arch : (t.seq k).arch = { (s.seq k).arch with pc := entry, beatMode := false, rep := none }
  burst : (t.seq k).burst = some b
  ckpt : ∃ e : Ckpt, (t.seq k).ckpt = some e ∧ e.sq = none ∧ e.beats = 0 ∧ e.arch = (t.seq k).arch
  jseq : t.g (PS_BURST_JSEQ k) = jseq % 2 ^ 64
  beats : t.g (PS_BEATS_BEATS k) = 0
  cause : t.g (PS_BURST_END_CAUSE k) = 0
  restartable : t.gb (PS_STATUS_RESTARTABLE k) = b.restartable
  deliv : t.gb (CAP_DELIV_VALID k) = false
  others : ∀ j, j ≠ k → t.seq j = s.seq j
  jnl : t.jnl = s.jnl
  mem : t.mem = s.mem
  plan : t.plan = s.plan
  ctxs : t.ctxs = s.ctxs

theorem State.burstBegin_begun {s : State} (hp : s.paired = false) (k : Fin 32) (cmd : Option Nat) (jseq entry : Nat) (restartable : Bool) :
    BurstBegun s (s.burstBegin k cmd jseq entry restartable false) k jseq entry
      ⟨cmd, jseq, [], restartable, false, false, none, none⟩ := by
  obtain ⟨f, u, hf, hu, ht⟩ := State.burstBegin_moved hp k.isLt cmd jseq entry restartable
  generalize hb : (⟨cmd, jseq, [], restartable, false, false, none, none⟩ : Burst) = b at ht ⊢
  generalize s.burstBegin k cmd jseq entry restartable false = t at ht
  obtain ⟨c, hseq, hsq, hbeats, harch⟩ := u.burstEntered_seq k.isLt jseq entry b
  obtain ⟨hzero, hcause, hdeliv⟩ := (s.modSeq k f).countsCleared_zero k
  have huseq (j : Nat) : u.seq j = (s.modSeq k f).seq j := by rw [State.seq_congr hu.seqs, State.seq_congr (State.countsCleared_seqs ..)]
  have huarch : (u.seq k).arch = (s.seq k).arch := by rw [huseq, State.seq_modSeq_self _ _ _ k.isLt, hf]
  have htseq : t.seq k = ((u.seq k).launched entry b).resumedAt c := (State.seq_congr ht.seqs _).trans hseq
  have hub : u.g (PS_BEATS_BEATS k) = 0 :=
    (hu.g (Or.inl (by unfold PS_BEATS_BEATS PS_BEATS; dsimp only; omega))).trans hzero
  have hkept : SeqsMoved s ((s.modSeq k f).countsCleared k) := (SeqsMoved.modSeq s k f).trans (.countsCleared _ k)
  have henter := SeqsMoved.burstEntered u k jseq entry b
  have hrd (a : Nat) (ha : FarFromStart a) (hj : a ≠ PS_BURST k) (hs : a ≠ PS_STATUS k) (hc : a ≠ PS_CKPT k) :
      t.rd a = ((s.modSeq k f).countsCleared k).rd a :=
    (ht.rd a ha).trans ((u.burstEntered_rd jseq entry b hj hs hc).trans (hu.rd a ha))
  constructor
  case st => rw [htseq]; rfl
  case arch => rw [htseq, ← huarch]; rfl
  case burst => rw [htseq]; rfl
  case ckpt => exact ⟨c, by rw [htseq]; rfl, hsq, hbeats.trans hub, by rw [harch, htseq]; rfl⟩
  case jseq => exact (ht.g (Or.inl (by unfold PS_BURST_JSEQ PS_BURST; dsimp only; omega))).trans (u.burstEntered_jseq jseq entry b)
  case beats =>
    exact (congrArg (fun w => getBits w _ _) (hrd (PS_BEATS k) (Or.inl (by unfold PS_BEATS; omega)) (by unfold PS_BEATS PS_BURST; omega)
      (by unfold PS_BEATS PS_STATUS; omega) (by unfold PS_BEATS PS_CKPT; omega))).trans hzero
  case cause =>
    exact (congrArg (fun w => getBits w _ _) (hrd (PS_BURST_END k) (Or.inl (by unfold PS_BURST_END; omega))
      (by unfold PS_BURST_END PS_BURST; omega) (by unfold PS_BURST_END PS_STATUS; omega) (by unfold PS_BURST_END PS_CKPT; omega))).trans hcause
  case restartable =>
    exact (ht.gb (Or.inl (by unfold PS_STATUS_RESTARTABLE PS_STATUS; dsimp only; omega))).trans (u.burstEntered_restartable jseq entry b)
  case deliv =>
    exact (congrArg (fun w => decide (getBits w _ _ ≠ 0)) (hrd (CAP_DELIV k) (Or.inr (Or.inl (by unfold CAP_DELIV; omega)))
      (by unfold CAP_DELIV PS_BURST; omega) (by unfold CAP_DELIV PS_STATUS; omega) (by unfold CAP_DELIV PS_CKPT; omega))).trans hdeliv
  case others =>
    intro j hj
    rw [State.seq_congr ht.seqs, u.burstEntered_seq_ne jseq entry b hj, huseq, State.seq_modSeq_ne _ _ hj]
  case jnl => rw [ht.jnl, henter.jnl, hu.jnl, hkept.jnl]
  case mem => rw [ht.mem, henter.mem, hu.mem, hkept.mem]
  case plan => rw [ht.plan, henter.plan, hu.plan, hkept.plan]
  case ctxs => rw [ht.ctxs, henter.ctxs, hu.ctxs, hkept.ctxs]

/-- BURST_START on an idle sequencer of its Ward passes its checks. -/
theorem burstStart_go {s : State} {c : Cmd} {k entry : Nat} {r : Bool} (ha : c.args = toLe 1 k ++ toLe 1 (b2n r) ++ toLe 2 entry ++ toLe 4 0)
    (hk : k < 32) (hlo : 0x800 ≤ entry) (hhi : entry ≤ 0x1FFF) (hseal : s.plan.sealed = true) (hward : s.seqWard k = some c.ward.val)
    (hidle : (s.seq k).st = .idle) (hcal : s.calHolds k = false) :
    burstStart c s = (s.started c).burstBegin k (some c.id) c.jseqN entry r false := by
  obtain ⟨hlen, hu0, hu1, hu2, hz⟩ := burstStart_args ha (by omega) (by omega)
  have hr : b2n r ≤ 1 := by cases r <;> decide
  have hbit : decide (b2n r = 1) = r := by cases r <;> rfl
  unfold burstStart
  simp only [hlen, hu0, hu1, hu2, hz, hseal, hward, hidle, hcal, hbit, Nat.not_lt.2 hr, Nat.not_lt.2 hlo, Nat.not_lt.2 hhi, Bool.not_true,
    Bool.false_eq_true, ne_eq, not_true_eq_false, or_self, if_false]

/-- Settles O21. The command begins the burst behind its STARTED record, which stays due. -/
theorem burstsStart : Obligations.BurstsStart := by
  unfold Obligations.BurstsStart
  intro s w q c k entry r htakes ha hlo hhi hseal hward hidle hcal
  have hgo := burstStart_go (s := s.modCmd c.id (fun c => { c with marked := true })) (c := { c with marked := true }) ha k.isLt hlo hhi
    hseal (by rw [htakes.ward]; exact hward) hidle hcal
  have hj := htakes.begun_onlyJournal
  have h := State.burstBegin_begun htakes.begun_alone.1 k (some c.id) c.jseqN entry r
  have hseq (j : Nat) : (s.begun c).seq j = s.seq j := State.seq_congr (by rw [hj]) j
  refine ⟨_, congrArg Host.Outcome.next ((htakes.runCmd burstStart).trans hgo), State.holdsDue_congr h.jnl htakes.begun_starts, h.st,
    h.arch.trans (by rw [hseq]), h.burst, h.ckpt, h.jseq, h.beats, h.cause, h.restartable, h.deliv, fun j hne => (h.others j hne).trans (hseq j),
    h.mem.trans (by rw [hj]), h.plan.trans (by rw [hj]), h.ctxs.trans (by rw [hj])⟩

end Sys2Proof.Machine
end

section
/-! SUPPORT. BURST_STOP and the DONE of a burst (R87, R90, R92, R94). -/

namespace Sys2Proof.Machine

/-! ### BURST_STOP -/

/-- The arguments of BURST_STOP. -/
theorem burstStop_args {b : List Byte} {k : Nat} {kill : Bool} (h : b = toLe 1 k ++ toLe 1 (b2n kill) ++ toLe 6 0) (hk : k < 256) :
    b.length = 8 ∧ u b 0 1 = k ∧ u b 1 1 = b2n kill ∧ zeros b 2 6 = true := by
  subst h
  refine ⟨by simp, ?_, ?_, ?_⟩
  · rw [List.append_assoc, u_front]
    omega
  · have := u_toLe (toLe 1 k) (toLe 6 0) 1 (b2n kill)
    rw [toLe_length] at this
    rw [this]
    cases kill <;> rfl
  · have := zeros_middle (toLe 1 k ++ toLe 1 (b2n kill)) [] 6
    rw [List.append_nil, List.length_append, toLe_length, toLe_length] at this
    exact this

/-- The command `id` waits for the end of the burst. -/
def Seq.stopBy (x : Seq) (id : Nat) : Seq := { x with burst := x.burst.map (fun b => { b with stops := b.stops ++ [id] }) }

section
variable {s : State} {c : Cmd} {k : Nat} {kill : Bool} (ha : c.args = toLe 1 k ++ toLe 1 (b2n kill) ++ toLe 6 0) (hk : k < 32)
  (hward : s.seqWard k = some c.ward.val)
include ha hk hward

theorem burstStop_idle (hst : (s.seq k).st = .idle ∨ (s.seq k).st = .fault) : burstStop c s = s.completeArg c 0 := by
  obtain ⟨hlen, hu0, hu1, hz⟩ := burstStop_args ha (by omega)
  have hkill : ¬ 1 < b2n kill := by cases kill <;> decide
  unfold burstStop
  simp only [hlen, hu0, hu1, hz, hward, hkill, hst, Bool.not_true, Bool.false_eq_true, ne_eq, not_true_eq_false, or_self, if_true, if_false]

theorem burstStop_running (hst : (s.seq k).st = .beat) :
    burstStop c s = if kill then ((s.started c).modSeq k (·.stopBy c.id)).reqKill k else ((s.started c).modSeq k (·.stopBy c.id)).reqStop k := by
  obtain ⟨hlen, hu0, hu1, hz⟩ := burstStop_args ha (by omega)
  have hkill : ¬ 1 < b2n kill := by cases kill <;> decide
  have hone : (b2n kill = 1) = (kill = true) := by cases kill <;> simp [b2n]
  unfold burstStop
  simp only [hlen, hu0, hu1, hz, hward, hkill, hst, hone, Bool.not_true, Bool.false_eq_true, ne_eq, not_true_eq_false, or_self, if_false,
    reduceCtorEq]
  rfl

end

/-- A STOP of a burst in BEAT mode is held. -/
theorem State.reqStop_beat {s : State} {k : Nat} (hk : k < 32) (hst : (s.seq k).st = .beat) :
    s.reqStop k = s.modSeq k (fun x => { x with pendStop := true }) := by
  have hburst : s.bursting k = true := by unfold State.bursting; rw [hst]
  unfold State.reqStop State.intr
  rw [if_pos hburst]
  dsimp only
  rw [State.seq_modSeq_self _ _ _ hk, hst]

theorem State.reqPause_beat {s : State} {k : Nat} (hk : k < 32) (hst : (s.seq k).st = .beat) :
    s.reqPause k = s.modSeq k (fun x => { x with pendPause := true }) := by
  have hburst : s.bursting k = true := by unfold State.bursting; rw [hst]
  unfold State.reqPause State.intr
  rw [if_pos hburst]
  dsimp only
  rw [State.seq_modSeq_self _ _ _ hk, hst]

/-! ### DONE -/

theorem State.modSeq_seqs_eq (s : State) (k : Nat) (f : Seq → Seq) : s.modSeq k f = { s with seqs := (s.modSeq k f).seqs } := by
  unfold State.modSeq
  split <;> rfl

/-- What the DONE of a burst needs of the Channel Blocks and of the arm. -/
def State.burstOver (s : State) (k : Nat) : Prop := s.drained k = true ∧
  (s.batching k = true → s.capIdle k = true ∧ (s.arm k).cur = none ∧ (s.arm k).closed = [])

/-- Samples that are due to the Shutter end its arm with the last of them. -/
def State.shutSpent (s : State) (k : Nat) : State := { s with shut := { s.shut with spent := s.shut.spent || s.shutDueOf k } }

/-- The sequencer without its ended bursts. -/
def Seq.burstsDone (x : Seq) : Seq := { x with olds := [], burst := x.burst.filter (fun b => b.ended.isNone) }

/-- An ended burst reaches DONE: its command completes with the end cause. -/
theorem State.burstDone_eq {s : State} {k : Nat} (ho : s.burstOver k) {b : Burst} {i cause : Nat}
    (hb : (s.seq k).endedBursts = [b]) (hi : b.cmd = some i) (hc : b.ended = some cause) :
    s.burstDone k =
      let t := ((s.shutSpent k).modSeq k Seq.burstsDone).finish i 0 cause
      if (s.seq k).olds.isEmpty then t else (t.shutBurst k).afterDrain k := by
  have hover : (s.drained k && (!s.batching k || (s.capIdle k && (s.arm k).cur.isNone && (s.arm k).closed.isEmpty))) = true := by
    obtain ⟨hd, hbatch⟩ := ho
    cases hbt : s.batching k with
    | false => simp [hd]
    | true =>
      obtain ⟨hidle, hcur, hclosed⟩ := hbatch hbt
      simp [hd, hidle, hcur, hclosed]
  have hspent : (if s.shutDueOf k = true then { s with shut := { s.shut with spent := true } } else s) = s.shutSpent k := by
    unfold State.shutSpent
    cases s.shutDueOf k <;> simp
  unfold State.burstDone
  simp only [hb, hover, hspent, forEach, List.foldl_cons, List.foldl_nil, hi, hc, State.finishOpt, Option.getD_some, List.isEmpty_cons,
    Bool.false_eq_true, if_false, if_true]
  rfl

/-- The ended bursts are gone. -/
def State.burstsCleared (s : State) (k : Nat) : State := (s.shutSpent k).modSeq k Seq.burstsDone

theorem State.burstsCleared_finish {s : State} (h : s.alone) (i k cause : Nat) :
    OnlyJournal (s.burstsCleared k) ((s.burstsCleared k).finish i 0 cause) :=
  OnlyJournal.finish _ _ _ _ ((State.alone_congr (by rw [State.burstsCleared, State.modSeq_regs]; rfl)).2 h)

theorem State.burstsCleared_ends {s : State} {i : Nat} (ho : s.cmdOpen i = true) (k cause : Nat) :
    ((s.burstsCleared k).finish i 0 cause).ends i 0 cause :=
  State.ends_finish_any (by unfold State.cmdOpen State.burstsCleared; rw [State.modSeq_cmds]; exact ho) 0 cause

theorem State.burstsCleared_frame (s : State) (k : Nat) :
    s.burstsCleared k = { s with seqs := (s.burstsCleared k).seqs, shut := (s.shutSpent k).shut } :=
  State.modSeq_seqs_eq (s.shutSpent k) k Seq.burstsDone

/-! ### Frames -/

theorem OnlyJournal.setSeqs {s u : State} (h : OnlyJournal s u) (x : Vector Seq 32) : OnlyJournal { s with seqs := x } { u with seqs := x } := by
  unfold OnlyJournal at *
  rw [h]

/-- What a sequencer's change and the Journal make of a state. -/
theorem OnlyJournal.modSeq {s u : State} (h : OnlyJournal s u) (k : Nat) (f : Seq → Seq) :
    OnlyJournal { s with seqs := (u.modSeq k f).seqs } (u.modSeq k f) := by
  conv => arg 2; rw [State.modSeq_seqs_eq]
  exact h.setSeqs _

section
variable {s : State} {w : Fin 4} {q : Fin 8} {c : Cmd} {k : Fin 32} {kill : Bool} (h : s.takes w q 0x21 c)
  (ha : c.args = toLe 1 k.val ++ toLe 1 (b2n kill) ++ toLe 6 0) (hward : s.seqWard k.val = some w.val)
include h ha hward

theorem State.takes.burstStop_idle (hst : (s.seq k).st = .idle ∨ (s.seq k).st = .fault) :
    exec (.burstStop w q) s = .next ((s.begun c).finish c.id 0 0) := by
  have hgo := Machine.burstStop_idle (s := s.modCmd c.id (fun c => { c with marked := true })) (c := { c with marked := true }) ha k.isLt
    (by rw [h.ward]; exact hward) hst
  exact congrArg Host.Outcome.next ((h.runCmd burstStop).trans hgo)

theorem State.takes.burstStop_running (hst : (s.seq k).st = .beat) : exec (.burstStop w q) s =
    .next (if kill then ((s.begun c).modSeq k (·.stopBy c.id)).reqKill k else ((s.begun c).modSeq k (·.stopBy c.id)).reqStop k) := by
  have hgo := Machine.burstStop_running (s := s.modCmd c.id (fun c => { c with marked := true })) (c := { c with marked := true }) ha k.isLt
    (by rw [h.ward]; exact hward) hst
  exact congrArg Host.Outcome.next ((h.runCmd burstStop).trans hgo)

end

/-- A KILL is requested. -/
theorem State.takes.burstStop_kill {s : State} {w : Fin 4} {q : Fin 8} {c : Cmd} {k : Fin 32} (h : s.takes w q 0x21 c)
    (ha : c.args = toLe 1 k.val ++ toLe 1 (b2n true) ++ toLe 6 0) (hward : s.seqWard k.val = some w.val) (hst : (s.seq k).st = .beat) :
    exec (.burstStop w q) s = .next (((s.begun c).modSeq k (·.stopBy c.id)).reqKill k) :=
  (h.burstStop_running ha hward hst).trans (congrArg Host.Outcome.next (if_pos rfl))

section
variable {s : State} {w : Fin 4} {q : Fin 8} {op : Nat} {c : Cmd} (h : s.takes w q op c)
include h

theorem State.takes.begun_seq (j : Nat) : (s.begun c).seq j = s.seq j := State.seq_congr (by rw [h.begun_onlyJournal]) j

theorem State.takes.stopBy_seq (k : Fin 32) : ((s.begun c).modSeq k (·.stopBy c.id)).seq k = (s.seq k).stopBy c.id := by
  rw [State.seq_modSeq_self _ _ _ k.isLt, h.begun_seq]

/-- The burst that a KILL ends has its command among those that stop it. -/
theorem State.takes.kill_ended {k : Fin 32} (hst : (s.seq k).st = .beat) :
    BurstEnded ((s.begun c).modSeq k (·.stopBy c.id)) (((s.begun c).modSeq k (·.stopBy c.id)).reqKill k) k 3 := by
  have hrun : (((s.begun c).modSeq k (·.stopBy c.id)).seq k).st = .beat := by
    rw [h.stopBy_seq]
    exact hst
  exact State.seqEnd_ended (by rw [State.bursting, hrun]) (by decide) _

end

theorem burstDone_exec {s : State} (h : s.ticks = true) (k : Fin 32) : exec (.burstDone k) s = .next (s.burstDone k) := by
  show Host.Outcome.next _ = _
  rw [h]
  rfl

/-- Settles O22. A STOP waits with the burst, a KILL is the end of a burst as every other, and DONE completes the command of the one that
has ended. -/
theorem burstsStop : Obligations.BurstsStop := by
  unfold Obligations.BurstsStop
  intro s w q c k
  refine ⟨fun kill h ha hward => ⟨fun hst => ?_, fun hst hkill => ?_, fun hst hkill => ?_⟩,
    fun b cause i hticks halone hc hi hopen hd hbatch => ⟨fun holds hb => ?_, fun b' holds hb hrun => ?_⟩⟩
  · exact ⟨_, h.burstStop_idle ha hward hst, State.starts_finish h.begun_alone h.begun_starts _ _ _,
      State.ends_finish h.begun_alone h.begun_cmdOpen 0 0, h.begun_onlyJournal.trans (.finish _ _ _ _ h.begun_alone)⟩
  · subst hkill
    have hheld : ((s.begun c).modSeq k (·.stopBy c.id)).reqStop k = (s.begun c).modSeq k (fun x => { x.stopBy c.id with pendStop := true }) := by
      rw [State.reqStop_beat k.isLt (by rw [h.stopBy_seq]; exact hst), State.modSeq_modSeq]
    refine ⟨_, (h.burstStop_running ha hward hst).trans (congrArg Host.Outcome.next ((if_neg Bool.false_ne_true).trans hheld)),
      State.holdsDue_congr (State.modSeq_jnl ..) h.begun_starts, ?_, fun j hne => ?_, h.begun_onlyJournal.modSeq k _⟩
    · rw [State.seq_modSeq_self _ _ _ k.isLt, h.begun_seq]
      rfl
    · rw [State.seq_modSeq_ne _ _ hne, h.begun_seq]
  · subst hkill
    have hend := h.kill_ended hst
    refine ⟨_, h.burstStop_kill ha hward hst, hend.moved.holdsDue (State.holdsDue_congr (State.modSeq_jnl ..) h.begun_starts), hend.idle,
      ?_, fun hsome => ?_, hend.shown, fun j hne => ?_, ?_⟩
    · refine hend.burst.trans ?_
      rw [h.stopBy_seq, Seq.stopBy, Option.map_map]
      rfl
    · obtain ⟨b, hb⟩ := Option.isSome_iff_exists.1 hsome
      refine hend.stops { b with stops := b.stops ++ [c.id] } c.id (by rw [h.stopBy_seq, Seq.stopBy, hb]; rfl) (by simp) ?_
      unfold State.cmdOpen
      rw [State.modSeq_cmds]
      exact h.begun_cmdOpen
    · exact (hend.others j hne).trans ((State.seq_modSeq_ne _ _ hne).trans (h.begun_seq j))
    · refine hend.moved.mem.trans ?_
      rw [State.modSeq_mem, h.begun_onlyJournal]
  · have hended : (s.seq k).endedBursts = [b] := by simp [Seq.endedBursts, holds, hb, hc]
    have hdone : s.burstDone k = (s.burstsCleared k).finish i 0 cause := by
      rw [State.burstDone_eq ⟨hd, hbatch⟩ hended hi hc, holds]
      rfl
    have hj := State.burstsCleared_finish halone i k cause
    have hseqs : ((s.burstsCleared k).finish i 0 cause).seqs = (s.burstsCleared k).seqs := State.finish_seqs ..
    have hshut : ((s.burstsCleared k).finish i 0 cause).shut = (s.shutSpent k).shut := by
      rw [hj, s.burstsCleared_frame]
    refine ⟨_, (burstDone_exec hticks k).trans (congrArg Host.Outcome.next hdone), State.burstsCleared_ends hopen k cause, ?_,
      fun j hne => ?_, hshut, ?_⟩
    · rw [State.seq_congr hseqs, State.burstsCleared, State.seq_modSeq_self _ _ _ k.isLt]
      show (s.seq k).burstsDone = _
      simp [Seq.burstsDone, holds, hb, hc]
    · rw [State.seq_congr hseqs, State.burstsCleared, State.seq_modSeq_ne _ _ hne]
      rfl
    · rw [hseqs, hshut, ← s.burstsCleared_frame]
      exact hj
  · have hended : (s.seq k).endedBursts = [b] := by simp [Seq.endedBursts, holds, hb, hrun]
    have hdone : s.burstDone k = ((((s.burstsCleared k).finish i 0 cause).shutBurst k).afterDrain k) := by
      rw [State.burstDone_eq ⟨hd, hbatch⟩ hended hi hc, holds]
      rfl
    have hshut := StartMoved.shutBurst ((s.burstsCleared k).finish i 0 cause) k
    have hdrain := HaltMoved.of_unitsErased (State.afterDrain_unitsErased (((s.burstsCleared k).finish i 0 cause).shutBurst k) k)
    have hseqs : ((((s.burstsCleared k).finish i 0 cause).shutBurst k).afterDrain k).seqs = (s.burstsCleared k).seqs := by
      rw [State.afterDrain_seqs, hshut.seqs, State.finish_seqs]
    refine ⟨_, (burstDone_exec hticks k).trans (congrArg Host.Outcome.next hdone),
      hdrain.holdsDue (State.holdsDue_congr hshut.jnl (State.burstsCleared_ends hopen k cause)), ?_, fun j hne => ?_, ?_⟩
    · rw [State.seq_congr hseqs, State.burstsCleared, State.seq_modSeq_self _ _ _ k.isLt]
      show (s.seq k).burstsDone = _
      simp [Seq.burstsDone, hb, hrun]
    · rw [State.seq_congr hseqs, State.burstsCleared, State.seq_modSeq_ne _ _ hne]
      rfl
    · rw [hdrain.mem, hshut.mem, State.burstsCleared_finish halone i k cause, s.burstsCleared_frame]

end Sys2Proof.Machine
end

section
/-! SUPPORT. PS_CTRL (R87, R89, R90, R364): the register keeps its value, and the one request of the write acts. -/

namespace Sys2Proof.Machine

/-! ### The register -/

/-- PS_CTRL as the register table gives it. -/
def ctrlDesc : RegDesc := ⟨.PS_CTRL, 0x02000008, [(32, 0x100000)], .seq,
  [fld 0 0 .w1s 0, fld 1 1 .w1s 0, fld 2 2 .w1s 0, fld 3 3 .w1s 0, fld 4 4 .w1s 0, fld 11 8 .rw 0]⟩

theorem regAt_ctrl : ∀ k : Fin 32, regAt (PS_CTRL k.val) = some (ctrlDesc, [k.val]) := by decide

theorem regDom_of_seq {a : Nat} {d : RegDesc} {ix : List Nat} (hc : csWindow a = none) (hr : regAt a = some (d, ix)) (hown : d.own = .seq)
    (hblock : blockOf a = 2) : regDom a = some (psDom (ix.headD 0)) := by
  simp only [regDom, hc, hr, hown, hblock]

section
variable (k : Fin 32)

theorem csWindow_ctrl : csWindow (PS_CTRL k.val) = none := by
  unfold csWindow PS_CTRL
  dsimp only
  rw [if_neg (by omega)]

theorem State.touch_ctrl (s : State) : s.touch (PS_CTRL k.val) = s.demand (psDom k.val) := by
  have hblock : ∀ k : Fin 32, blockOf (PS_CTRL k.val) = 2 := by decide
  exact State.touch_of_regDom_some (regDom_of_seq (csWindow_ctrl k) (regAt_ctrl k) rfl (hblock k))

/-- The Ward of the sequencer writes its register. -/
theorem State.regCheck_ctrl {s : State} {w : Fin 4} (hen : (s.ward w.val).enable = true) (hward : s.seqWard k.val = some w.val) :
    s.regCheck (.ward w) true (PS_CTRL k.val) = 0 :=
  State.regCheck_of_unitWard (csWindow_ctrl k) (regAt_ctrl k) hen (by unfold PS_CTRL; omega) (by unfold PS_CTRL; omega) (congrArg some hward)

/-- Of what software writes back only HOSTF is kept, the requests are 0. -/
theorem State.writeBack_ctrl (s : State) : s.writeBack (PS_CTRL k.val) = putAll (s.rd (PS_CTRL k.val))
    [(PS_CTRL_STOP k.val, b2n (s.seq k.val).pendStop), (PS_CTRL_PAUSE k.val, b2n (s.seq k.val).pendPause)] &&& 0xF00#64 := by
  have hmask : BitVec.ofNat 64 (fldMask (ctrlDesc.flds.filter (fun f => decide (f.acc = .rw) || decide (f.acc = .rwp)))) = 0xF00#64 := by
    decide
  rw [State.writeBack_of_regAt (regAt_ctrl k), hmask]
  rfl

/-- What software writes for request `n`: its bit, and HOSTF as it stands. -/
def State.ctrlWord (s : State) (k n : Nat) : Word := setBits (s.writeBack (PS_CTRL k)) n n 1

theorem hostf_masked (x : Word) : getBits (x &&& 0xF00#64) 11 8 = getBits x 11 8 := by
  apply Nat.eq_of_testBit_eq
  intro i
  rw [getBits_testBit, getBits_testBit, BitVec.toNat_and, Nat.testBit_and]
  by_cases hi : i < 4
  · have hmask : ∀ i : Fin 4, (0xF00#64).toNat.testBit (8 + i.val) = true := by decide
    rw [hmask ⟨i, hi⟩, Bool.and_true]
  · simp [hi]

theorem request_masked (x : Word) {i : Nat} (hi : i < 5) : (x &&& 0xF00#64).toNat.testBit i = false := by
  have hmask : ∀ i : Fin 5, (0xF00#64).toNat.testBit i.val = false := by decide
  rw [BitVec.toNat_and, Nat.testBit_and, hmask ⟨i, hi⟩, Bool.and_false]

section
variable (s : State) {n : Nat} (hn : n < 5)
include hn

theorem State.ctrlWord_hostf : getBits (s.ctrlWord k n) 11 8 = getBits (s.rd (PS_CTRL k)) 11 8 := by
  rw [State.ctrlWord, getBits_setBits_ne _ _ _ _ _ _ (by omega) (Nat.le_refl n) (by decide) (by omega), s.writeBack_ctrl, hostf_masked]
  show getBits (setBits (setBits (s.rd (PS_CTRL k)) 0 0 _) 2 2 _) 11 8 = _
  rw [getBits_setBits_ne _ _ _ _ _ _ (by decide) (by decide) (by decide) (by decide),
    getBits_setBits_ne _ _ _ _ _ _ (by decide) (by decide) (by decide) (by decide)]

/-- The request's bit is the only one of the five. -/
theorem State.ctrlWord_bit {i : Nat} (hi : i < 5) : nbit (s.ctrlWord k n).toNat i = decide (i = n) := by
  rw [nbit, State.ctrlWord, setBits_testBit _ _ _ _ _ (by omega) (Nat.le_refl n) (by omega), s.writeBack_ctrl, request_masked _ hi]
  by_cases h : i = n
  · subst h
    simp
  · rw [if_neg (by omega)]
    simp [h]

end

end

section
variable (s : State) {a : Nat} {v : Word} (h : getBits v 11 8 = getBits (s.rd a) 11 8)
include h

/-- HOSTF is written as it stands and no request is stored, so the register keeps its value. -/
theorem State.fieldsWrite_ctrl (ix : List Nat) : (s.fieldsWrite ctrlDesc ix (fun _ => true) (s.rd a) v).1 = s.rd a := by
  have hhostf : (s.fieldWrite ctrlDesc ix (fun _ => true) (s.rd a) v (fld 11 8 .rw 0)).1 = getBits (s.rd a) 11 8 := by
    rw [State.fieldWrite_rw _ _ _ _ _ _ rfl]
    show (if _ then getBits v 11 8 else getBits (s.rd a) 11 8) = _
    rw [h, ite_self]
  have hreq (b : Nat) : (s.fieldWrite ctrlDesc ix (fun _ => true) (s.rd a) v (fld b b .w1s 0)).1 = getBits (s.rd a) b b := rfl
  show setBits (setBits (setBits (setBits (setBits (setBits (s.rd a) 0 0 _) 1 1 _) 2 2 _) 3 3 _) 4 4 _) 11 8 _ = _
  rw [hreq, hreq, hreq, hreq, hreq, hhostf]
  rw [setBits_getBits _ (by decide) (by decide), setBits_getBits _ (by decide) (by decide), setBits_getBits _ (by decide) (by decide),
    setBits_getBits _ (by decide) (by decide), setBits_getBits _ (by decide) (by decide), setBits_getBits _ (by decide) (by decide)]

/-- The write keeps the register's value and makes its request. -/
theorem State.descWrite_ctrl (k : Nat) : (s.descWrite ctrlDesc [k] (fun _ => true) a v).1 = (s.wr a (s.rd a)).psCtrl k v := by
  have hkeep (x y : Word) : (x &&& ~~~0#64) ||| (y &&& 0#64) = x := by
    rw [BitVec.not_zero, BitVec.and_allOnes, BitVec.and_zero, BitVec.or_zero]
  have hbusy : s.writeBusy ctrlDesc [k] v = false := rfl
  have hvoid : writeVoid ctrlDesc v = false := rfl
  have heff : effectOnly ctrlDesc.name = false := rfl
  have hmask : effectMask ctrlDesc.name = 0#64 := rfl
  simp only [State.descWrite, hbusy, hvoid, heff, hmask, Bool.false_eq_true, if_false, hkeep, s.fieldsWrite_ctrl h]
  rfl

end

/-! ### The write -/

/-- The clock of the sequencer is asked for, and its PS_CTRL has been written with the value it holds. -/
def State.ctrlKept (s : State) (k : Nat) : State := (s.demand (psDom k)).wr (PS_CTRL k) (s.rd (PS_CTRL k))

theorem SeqsMoved.wr (s : State) (a : Nat) (w : Word) : SeqsMoved s (s.wr a w) := rfl

section
variable (s : State) (k : Nat)

theorem State.ctrlKept_rd (a : Nat) : (s.ctrlKept k).rd a = s.rd a := by
  have h := (s.demand (psDom k)).rd_wr_rd (PS_CTRL k) a
  rw [State.rd_congr (s.demand_regs _) (PS_CTRL k), State.rd_congr (s.demand_regs _) a] at h
  exact h

theorem State.ctrlKept_seq (j : Nat) : (s.ctrlKept k).seq j = s.seq j :=
  State.seq_congr (by rw [State.ctrlKept, State.wr_seqs, State.demand_seqs]) j

theorem State.ctrlKept_paired : (s.ctrlKept k).paired = s.paired := State.paired_of_twn (s.ctrlKept_rd k _)

theorem State.ctrlKept_copying : (s.ctrlKept k).twin.copying = s.twin.copying := by
  rw [State.ctrlKept, State.wr_twin, State.demand_twin]

end

section
variable (s : State) (k : Nat)

theorem State.ctrlKept_cmds : (s.ctrlKept k).cmds = s.cmds := by
  obtain ⟨l, h⟩ := s.demand_eq (psDom k)
  rw [State.ctrlKept, State.wr_cmds, h]

theorem State.ctrlKept_tims : (s.ctrlKept k).tims = s.tims := by
  obtain ⟨l, h⟩ := s.demand_eq (psDom k)
  rw [State.ctrlKept, State.wr_tims, h]

theorem State.ctrlKept_mem : (s.ctrlKept k).mem = s.mem := by
  obtain ⟨l, h⟩ := s.demand_eq (psDom k)
  rw [State.ctrlKept, State.wr_mem, h]

end

/-- A request by the sequencer's Ward, where its effect leaves the twin alone. -/
theorem State.writeBy_ctrl {s : State} {w : Fin 4} {k : Fin 32} {v : Word} (hen : (s.ward w.val).enable = true)
    (hward : s.seqWard k.val = some w.val) (hv : getBits v 11 8 = getBits (s.rd (PS_CTRL k)) 11 8)
    (hp : ((s.ctrlKept k).psCtrl k v).paired = false) (hc : ((s.ctrlKept k).psCtrl k v).twin.copying = false) :
    s.writeBy (.ward w) (PS_CTRL k) v = (s.ctrlKept k).psCtrl k v := by
  have hrd : (s.demand (psDom k)).rd (PS_CTRL k) = s.rd (PS_CTRL k) := State.rd_congr (s.demand_regs _) _
  have hwrite : (s.regWrite (s.ownBit w.val (PS_CTRL k)) (PS_CTRL k) v).1 = (s.ctrlKept k).psCtrl k v := by
    rw [State.ownBit_whole (regAt_ctrl k) rfl w.val, State.regWrite_of_regAt (csWindow_ctrl k) (regAt_ctrl k), State.touch_ctrl,
      State.descWrite_ctrl _ (by rw [hrd]; exact hv), hrd]
    rfl
  have hstore := State.storeReg_alone (State.masterWard_of_enable hen) (v := v) (a := PS_CTRL k) (by rw [hwrite]; exact hp)
    (by rw [hwrite]; exact hc)
  simp only [State.writeBy, State.regCheck_ctrl k hen hward, if_true, hstore, hwrite]

/-! ### The requests (Table 4.13) -/

/-- Request `n` of PS_CTRL: STOP, KILL, PAUSE, RESUME, STEP. -/
def State.request (s : State) (k : Nat) : Nat → State
  | 0 => s.reqStop k
  | 1 => if s.bursting k then s.reqKill k else s
  | 2 => s.reqPause k
  | 3 => s.seqResume k false
  | _ => s.seqResume k true

/-- A write with one request makes that one. -/
theorem State.psCtrl_request (s : State) (k : Nat) {v : Word} {n : Nat} (hn : n < 5) (hv : ∀ i, i < 5 → nbit v.toNat i = decide (i = n)) :
    s.psCtrl k v = s.request k n := by
  unfold State.psCtrl
  simp only [hv 0 (by decide), hv 1 (by decide), hv 2 (by decide), hv 3 (by decide), hv 4 (by decide)]
  match n, hn with
  | 0, _ => rfl
  | 1, _ => rfl
  | 2, _ => rfl
  | 3, _ => rfl
  | 4, _ => rfl

section
variable {s : State} {w : Fin 4} {k : Fin 32} (hen : (s.ward w.val).enable = true) (hward : s.seqWard k.val = some w.val)
  {n : Nat} (hn : n < 5)
include hen hward hn

theorem State.writeBits_ctrl (hp : ((s.ctrlKept k).request k n).paired = false) (hc : ((s.ctrlKept k).request k n).twin.copying = false) :
    s.writeBits (.ward w) ⟨PS_CTRL k.val, n, n⟩ 1 = (s.ctrlKept k).request k n := by
  have hreq := (s.ctrlKept k).psCtrl_request k (v := s.ctrlWord k n) hn fun i hi => s.ctrlWord_bit k hn hi
  rw [← hreq] at hp hc ⊢
  exact State.writeBy_ctrl hen hward (s.ctrlWord_hostf k hn) hp hc

/-- A request that changes the sequencer alone. -/
theorem gives_request {i : Instr} {f : Seq → Seq} (hi : exec i s = .next (s.writeBits (.ward w) ⟨PS_CTRL k.val, n, n⟩ 1))
    (hp : s.paired = false) (hc : s.twin.copying = false) (hreq : (s.ctrlKept k).request k n = (s.ctrlKept k).modSeq k f) :
    Gives i s (fun t => t.seq k.val = f (s.seq k.val) ∧ RegsKept [] s t ∧ (∀ j, j ≠ k.val → t.seq j = s.seq j) ∧
      t = { s.demand (psDom k.val) with regs := t.regs, seqs := t.seqs }) := by
  have hwrite := State.writeBits_ctrl hen hward hn (by rw [hreq, State.paired_congr (State.modSeq_regs ..), State.ctrlKept_paired, hp])
    (by rw [hreq, State.modSeq_twin, State.ctrlKept_copying, hc])
  have hmoved : SeqsMoved (s.demand (psDom k)) ((s.ctrlKept k).modSeq k f) := (SeqsMoved.wr _ _ _).trans (.modSeq _ k f)
  refine ⟨_, hi.trans (congrArg Host.Outcome.next (hwrite.trans hreq)), ?_, fun a _ => ?_, fun j hj => ?_, hmoved⟩
  · rw [State.seq_modSeq_self _ _ _ k.isLt, State.ctrlKept_seq]
  · rw [State.rd_modSeq, State.ctrlKept_rd]
  · rw [State.seq_modSeq_ne _ _ hj, State.ctrlKept_seq]

end

/-- A paused sequencer whose END has not issued goes on. -/
theorem State.seqResume_paused {s : State} {k : Nat} (hst : (s.seq k).st = .paused) (hend : (s.seq k).ending = false) (step : Bool) :
    s.seqResume k step = s.modSeq k (fun x => { x with st := if x.arch.beatMode then .beat else .setup, step := step }) := by
  unfold State.seqResume
  rw [if_pos hst, if_neg (by simp [hend])]

theorem State.ctrlKept_request_kill {s : State} {k : Nat} (hst : (s.seq k).st = .beat) :
    (s.ctrlKept k).request k 1 = (s.ctrlKept k).reqKill k ∧ BurstEnded (s.ctrlKept k) ((s.ctrlKept k).reqKill k) k 3 := by
  have hburst : (s.ctrlKept k).bursting k = true := by rw [State.bursting, State.ctrlKept_seq, hst]
  exact ⟨if_pos hburst, State.seqEnd_ended hburst (by decide) _⟩

/-- KILL ends the burst that ran before the write. -/
theorem gives_kill {s : State} {w : Fin 4} {k : Fin 32} (hen : (s.ward w.val).enable = true) (hward : s.seqWard k.val = some w.val)
    (hp : s.paired = false) (hc : s.twin.copying = false) (hst : (s.seq k).st = .beat) :
    ∃ t, exec (.psCtrlKill (.ward w) k) s = .next t ∧ BurstEnded (s.ctrlKept k) t k 3 := by
  obtain ⟨hreq, hend⟩ := State.ctrlKept_request_kill hst
  have hpair : ((s.ctrlKept k).reqKill k).paired = false := by
    rw [State.reqKill, State.seqHalt, State.seqEnd_paired (by rw [State.bursting, State.ctrlKept_seq, hst]), State.ctrlKept_paired, hp]
  have hcopy : ((s.ctrlKept k).reqKill k).twin.copying = false := by rw [hend.moved.copying, State.ctrlKept_copying, hc]
  have hwrite := State.writeBits_ctrl hen hward (n := 1) (by decide) (by rw [hreq]; exact hpair) (by rw [hreq]; exact hcopy)
  exact ⟨_, congrArg Host.Outcome.next (hwrite.trans hreq), hend⟩

/-- Settles O11. STOP and PAUSE are held, RESUME and STEP lead on, KILL is the end of a burst as every other. -/
theorem sequencerControls : Obligations.SequencerControls := by
  unfold Obligations.SequencerControls
  intro s w k hen hward hp hc
  refine ⟨fun hst => ⟨?_, ?_, ?_⟩, fun hst hend => ⟨?_, ?_⟩⟩
  · exact gives_request hen hward (n := 0) (by decide) rfl hp hc (State.reqStop_beat k.isLt (by rw [State.ctrlKept_seq, hst]))
  · exact gives_request hen hward (n := 2) (by decide) rfl hp hc (State.reqPause_beat k.isLt (by rw [State.ctrlKept_seq, hst]))
  · obtain ⟨t, hexec, h⟩ := gives_kill hen hward hp hc hst
    have hseq (j : Nat) := s.ctrlKept_seq k j
    refine ⟨t, hexec, h.idle, h.shown, h.burst.trans (by rw [hseq]), fun b i hb hi ho => h.stops b i (by rw [hseq, hb]) hi ?_,
      fun hvs htim hstops => (h.cmds ?_ (fun x hx => ?_) fun b hb => hstops b (by rw [← hseq, hb])).trans (s.ctrlKept_cmds k),
      fun j hj => (h.others j hj).trans (hseq j), h.moved.mem.trans (s.ctrlKept_mem k)⟩
    · unfold State.cmdOpen
      rw [s.ctrlKept_cmds]
      exact ho
    · exact (State.seqVs_of_rd fun v _ => s.ctrlKept_rd k _).trans hvs
    · rw [State.tim_congr (s.ctrlKept_tims k)]
      exact htim x hx
  · exact gives_request hen hward (n := 3) (by decide) rfl hp hc
      (State.seqResume_paused (by rw [State.ctrlKept_seq, hst]) (by rw [State.ctrlKept_seq, hend]) false)
  · exact gives_request hen hward (n := 4) (by decide) rfl hp hc
      (State.seqResume_paused (by rw [State.ctrlKept_seq, hst]) (by rw [State.ctrlKept_seq, hend]) true)

end Sys2Proof.Machine
end

section
/-! SUPPORT. Vector streams (R121, R122; Table 6.2): what the decoder reads of a stream held in the Vector Buffer, and a record that is passed.
Where no stored word is in error a read leaves the state as it is, and what a record makes of its engine is one new engine at one new offset. -/

namespace Sys2Proof.Machine

/-! ### Byte strings -/

theorem u_cons_succ (h : Byte) (l : List Byte) (o n : Nat) : u (h :: l) (o + 1) n = u l o n := rfl

theorem u_cons_zero (h : Byte) (l : List Byte) : u (h :: l) 0 1 = h.toNat := by
  simp [u, sub, leNat]

theorem u_toLe_whole {n v : Nat} (h : v < 256 ^ n) : u (toLe n v) 0 n = v := by
  have hfront := u_front [] n v
  rwa [List.append_nil, Nat.mod_eq_of_lt h] at hfront

theorem State.ld_length (s : State) (a n : Nat) : (s.ld a n).length = n := by simp [State.ld]

theorem State.ld_append (s : State) (a n m : Nat) : s.ld a (n + m) = s.ld a n ++ s.ld (a + n) m := by
  simp [State.ld, List.range_add, Nat.add_assoc]

/-! ### Reads without errors -/

theorem memOf_vectorBuffer {o : Nat} (h : o < 0xF00000) : memOf (memBase 1 + o) = some (1, o) := by
  have hbase : memBase 1 = 0x0100000000 := rfl
  rw [hbase, memOf, if_neg (by omega), if_pos (by omega), Nat.add_sub_cancel_left]

/-- The end of the Vector Buffer lies in no memory. -/
theorem memOf_vectorBuffer_end : memOf (memBase 1 + 0xF00000) = none := by decide

theorem State.eccAt_of_nil {s : State} (h : s.ecc = []) (a : Nat) : s.eccAt a = none := by
  unfold State.eccAt
  rw [h]
  rfl

theorem readFold_quiet {s x : State} (hecc : x.ecc = []) (master m : Nat) (l : List Nat) (ue : Bool) :
    l.foldl (s.readStep master m) (x, ue) = (x, ue) := by
  induction l with
  | nil => rfl
  | cons w l ih =>
    rw [List.foldl_cons, State.readStep, State.eccRead_of_none (x.eccAt_of_nil hecc _), Bool.or_false, ite_self]
    exact ih

/-- A read of a range of the Vector Buffer, also of an empty one at its end. -/
theorem State.busRead_vectorBuffer {s : State} (hecc : s.ecc = []) {o n : Nat} (h : o + n ≤ 0xF00000) (master : Nat) :
    (s.busRead master (memBase 1 + o) n).1 = s ∧ (s.busRead master (memBase 1 + o) n).2.1 = s.ld (memBase 1 + o) n ∧
      (s.busRead master (memBase 1 + o) n).2.2.ue = false := by
  by_cases ho : o < 0xF00000
  · have hfold := readFold_quiet (s := s) hecc master 1 (wordsOf o n) false
    unfold State.busRead
    rw [memOf_vectorBuffer ho]
    exact ⟨congrArg Prod.fst hfold, List.map_congr_left fun i _ => if_neg fun hm => absurd hm.1 (by decide), congrArg Prod.snd hfold⟩
  · obtain rfl : o = 0xF00000 := by omega
    obtain rfl : n = 0 := by omega
    unfold State.busRead
    rw [memOf_vectorBuffer_end]
    exact ⟨rfl, rfl, rfl⟩

/-- The bytes of a stream held in the Vector Buffer. -/
theorem State.vsRead_vectorBuffer {s : State} {v o n : Nat} (hecc : s.ecc = []) (hvb : s.vsVb v = true)
    (h : s.g (VS_ARM_SRC_STREAM_OFF v) + o + n ≤ 0xF00000) :
    s.vsRead v o n = (s, s.ld (memBase 1 + s.g (VS_ARM_SRC_STREAM_OFF v) + o) n, false) := by
  unfold State.vsRead
  by_cases hn : n = 0
  · rw [if_pos hn, hn]
    rfl
  · obtain ⟨hstate, hbytes, hue⟩ := State.busRead_vectorBuffer hecc h (0x30 + v)
    rw [← Nat.add_assoc] at hstate hbytes hue
    rw [if_neg hn, if_pos hvb]
    exact Prod.ext hstate (Prod.ext hbytes hue)

/-! ### The record at the engine's position -/

/-- Engine `v` decodes a stream in the Vector Buffer, no stored word is in error, and `b` stands next in the stream, within it. -/
structure State.DecodesNext (s : State) (v : Nat) (b : List Byte) : Prop where
  ticks : s.ticksOf (vsDom v) = true
  decodes : s.vsDecodes v = true
  vb : s.vsVb v = true
  ecc : s.ecc = []
  within : s.vsPos v + b.length ≤ s.vsLen v
  fits : s.g (VS_ARM_SRC_STREAM_OFF v) + s.vsLen v ≤ 0xF00000
  bytes : s.ld (memBase 1 + s.g (VS_ARM_SRC_STREAM_OFF v) + s.vsPos v) b.length = b

theorem State.decodesNext_of_streamAt {s : State} {v : Nat} {b : List Byte} (h : s.streamAt v b = true) : s.DecodesNext v b := by
  simp only [State.streamAt, Bool.and_eq_true, decide_eq_true_eq] at h
  obtain ⟨⟨⟨⟨⟨⟨hticks, hdecodes⟩, hvb⟩, hecc⟩, hwithin⟩, hfits⟩, hbytes⟩ := h
  exact ⟨hticks, hdecodes, hvb, hecc, hwithin, hfits, hbytes⟩

section
variable {s : State} {v : Nat}

theorem State.DecodesNext.has {b : List Byte} (h : s.DecodesNext v b) (o : Nat) : s.vsHas v o = true := by
  simp [State.vsHas, h.vb]

/-- A part of the bytes that stand next is read as it is. -/
theorem State.DecodesNext.vsRead {l m r : List Byte} (h : s.DecodesNext v (l ++ m ++ r)) :
    s.vsRead v (s.vsPos v + l.length) m.length = (s, m, false) := by
  have hwithin := h.within
  have hfits := h.fits
  have hbytes := h.bytes
  rw [List.length_append, List.length_append] at hwithin hbytes
  rw [State.ld_append, State.ld_append] at hbytes
  obtain ⟨hfront, -⟩ := List.append_inj' hbytes (s.ld_length _ _)
  obtain ⟨-, hm⟩ := List.append_inj' hfront (s.ld_length _ _)
  rw [State.vsRead_vectorBuffer h.ecc h.vb (by omega), ← Nat.add_assoc, hm]

/-- A record of type `ty`, whose fixed bytes are `hd :: f`, does what `act` says of it. -/
theorem State.DecodesNext.vsRow {hd : Byte} {f r : List Byte} {ty : Nat} (h : s.DecodesNext v (hd :: f ++ r)) (hty : hd.toNat / 16 = ty)
    (hdefined : ty ≤ 0xB) (hfix : (hd :: f).length = recFix ty) (hgood : recBad ty (hd :: f) = false)
    (hvar : (s.vse v).varUpTo (s.vsW v) ty (hd :: f) (recSets ty (hd :: f)) ≤ r.length) (act : List Byte → State → State) :
    s.vsRow v ty act = (act (hd :: f) s).vsShow v := by
  have hhead : s.vsRead v (s.vsPos v) 1 = (s, [hd], false) := State.DecodesNext.vsRead (l := []) (m := [hd]) (r := f ++ r) h
  have hfixed : s.vsRead v (s.vsPos v) (recFix ty) = (s, hd :: f, false) := by
    rw [← hfix]
    exact State.DecodesNext.vsRead (l := []) (m := hd :: f) (r := r) h
  have hwithin := h.within
  rw [List.length_append, hfix] at hwithin
  have hpos : 1 ≤ recFix ty := by rw [← hfix, List.length_cons]; omega
  simp only [State.vsRow, hhead, hfixed, h.ticks, h.decodes, h.has, hgood, List.getD_cons_zero, hty, Bool.not_true, Bool.or_self, Bool.false_eq_true, if_false, ne_eq,
    not_true_eq_false, false_and, Nat.not_lt.2 hdefined]
  rw [if_neg (by omega), if_neg (by omega), if_neg (by omega)]

/-- A record without a variable part. -/
theorem State.DecodesNext.vsRow_fixed {hd : Byte} {f : List Byte} {ty : Nat} (h : s.DecodesNext v (hd :: f)) (hty : hd.toNat / 16 = ty)
    (hdefined : ty ≤ 0xB) (hfix : (hd :: f).length = recFix ty) (hgood : recBad ty (hd :: f) = false)
    (hvar : (s.vse v).varUpTo (s.vsW v) ty (hd :: f) (recSets ty (hd :: f)) = 0) (act : List Byte → State → State) :
    s.vsRow v ty act = (act (hd :: f) s).vsShow v :=
  State.DecodesNext.vsRow (r := []) (by rw [List.append_nil]; exact h) hty hdefined hfix hgood hvar.le act

end

/-! ### An engine at an offset -/

/-- Engine `v` is `x` and stands at offset `o`. -/
def State.vsPut (s : State) (v : Nat) (x : VsEng) (o : Nat) : State := (s.modVs v (fun _ => x)).p (VS_POS_OFFSET v) o

theorem State.modVs_modVs (s : State) (v : Nat) (f g : VsEng → VsEng) : (s.modVs v f).modVs v g = s.modVs v (fun x => g (f x)) := by
  unfold State.modVs
  split <;> simp [modv]

theorem State.modVs_eq (s : State) (v : Nat) (f : VsEng → VsEng) : s.modVs v f = { s with vs := (s.modVs v f).vs } := by
  unfold State.modVs
  split <;> rfl

theorem State.modVs_const (s : State) {v : Nat} (hv : v < 16) (f : VsEng → VsEng) : s.modVs v f = s.modVs v (fun _ => f (s.vse v)) := by
  unfold State.modVs State.vse
  simp [hv, modv, List.getD_eq_getElem?_getD]

/-- A record of `n` bytes that changes its engine by `f` is passed. -/
theorem State.vsSkip_modVs (s : State) {v : Nat} (hv : v < 16) (f : VsEng → VsEng) (n : Nat) :
    (s.modVs v f).vsSkip v n = s.vsPut v { f (s.vse v) with part := 0 } (s.vsPos v + n) := by
  unfold State.vsSkip State.vsPut State.vsPos
  rw [State.modVs_modVs, State.modVs_const s hv, State.g_modVs]

/-- The same of a record that leaves no set of itself counted. -/
theorem State.vsSkip_of_part (s : State) {v : Nat} (hv : v < 16) {f : VsEng → VsEng} (hpart : (f (s.vse v)).part = 0) (n : Nat) :
    (s.modVs v f).vsSkip v n = s.vsPut v (f (s.vse v)) (s.vsPos v + n) := by
  rw [s.vsSkip_modVs hv, ← hpart]

theorem State.vsSkip_eq (s : State) {v : Nat} (hv : v < 16) (hpart : (s.vse v).part = 0) (n : Nat) :
    s.vsSkip v n = s.vsPut v (s.vse v) (s.vsPos v + n) := by
  unfold State.vsSkip State.vsPut
  rw [State.modVs_const s hv, ← hpart]

theorem State.vse_vsPut (s : State) {v : Nat} (hv : v < 16) (x : VsEng) (o : Nat) : (s.vsPut v x o).vse v = x := by
  rw [State.vsPut, State.vse_congr (State.p_vs ..), State.vse_modVs_self _ _ _ hv]

theorem State.vse_vsPut_ne (s : State) {v j : Nat} (h : j ≠ v) (x : VsEng) (o : Nat) : (s.vsPut v x o).vse j = s.vse j := by
  rw [State.vsPut, State.vse_congr (State.p_vs ..), State.vse_modVs_ne _ _ h]

theorem State.rd_vsPut (s : State) {v a : Nat} (h : a ≠ VS_POS v) (x : VsEng) (o : Nat) : (s.vsPut v x o).rd a = s.rd a := by
  rw [State.vsPut, State.rd_p_ne _ _ _ h, State.rd_modVs]

theorem State.g_vsPut (s : State) {v : Nat} {f : FRef} (h : f.addr ≠ VS_POS v) (x : VsEng) (o : Nat) : (s.vsPut v x o).g f = s.g f := by
  unfold State.g
  rw [s.rd_vsPut h]

theorem State.vsPos_vsPut (s : State) (v : Nat) (x : VsEng) {o : Nat} (h : o < 2 ^ 40) : (s.vsPut v x o).vsPos v = o :=
  State.g_p_fits _ (f := VS_POS_OFFSET v) ⟨(by decide : 39 < 64), (by decide : 0 ≤ 39)⟩ h

theorem State.vsPut_eq (s : State) (v : Nat) (x : VsEng) (o : Nat) :
    s.vsPut v x o = { s with regs := (s.vsPut v x o).regs, vs := (s.vsPut v x o).vs } := by
  unfold State.vsPut
  rw [State.modVs_eq]
  rfl

/-! ### What VS_LEVEL and VS_STATUS show -/

/-- The fields that follow the engine. -/
abbrev vsShowFields (v : Nat) : List FRef := [VS_LEVEL_RING v, VS_LEVEL_QUEUE v, VS_STATUS_LOOP_DEPTH v]

theorem State.vsShow_moved (s : State) (v : Nat) : RegsMoved [VS_LEVEL v, VS_STATUS v] s (s.vsShow v) :=
  (((RegsMoved.refl _ s).p (VS_LEVEL_RING v) _ (by simp [VS_LEVEL_RING])).p (VS_LEVEL_QUEUE v) _ (by simp [VS_LEVEL_QUEUE])).p
    (VS_STATUS_LOOP_DEPTH v) _ (by simp [VS_STATUS_LOOP_DEPTH])

theorem State.vsShow_vs (s : State) (v : Nat) : (s.vsShow v).vs = s.vs := by
  rw [(s.vsShow_moved v).frame]

theorem State.vse_vsShow (s : State) (v j : Nat) : (s.vsShow v).vse j = s.vse j := State.vse_congr (s.vsShow_vs v) j

theorem State.g_vsShow (s : State) {v : Nat} {f : FRef} (h : ∀ x ∈ vsShowFields v, x.apart f) : (s.vsShow v).g f = s.g f := by
  simp only [List.forall_mem_cons] at h
  obtain ⟨hring, hqueue, hdepth, -⟩ := h
  unfold State.vsShow
  rw [State.g_p_apart _ hdepth, State.g_p_apart _ hqueue, State.g_p_apart _ hring]

theorem State.vsShow_depth (s : State) (v : Nat) : (s.vsShow v).g (VS_STATUS_LOOP_DEPTH v) = (s.vse v).loops.length % 8 :=
  State.g_p_self _ (VS_STATUS_LOOP_DEPTH v) _ (by decide : 18 < 64) (by decide : 16 ≤ 18)

theorem vsShow_apart : ∀ v : Fin 16, ∀ f ∈ [VS_POS_OFFSET v, VS_STATUS_SEQ v, VS_STATUS_STATE v, VS_STATUS_SQ v, VS_STATUS_DICT_REDEF v],
    ∀ x ∈ vsShowFields v, x.apart f := by decide

theorem vsLevelQueue_apart : ∀ v : Fin 16, (VS_STATUS_LOOP_DEPTH v).apart (VS_LEVEL_QUEUE v) := by decide

theorem State.vsShow_queue (s : State) (v : Fin 16) : (s.vsShow v).g (VS_LEVEL_QUEUE v) = (s.vse v).queue.length % 64 := by
  unfold State.vsShow
  rw [State.g_p_apart _ (vsLevelQueue_apart v)]
  exact State.g_p_self _ (VS_LEVEL_QUEUE v) _ (by decide : 37 < 64) (by decide : 32 ≤ 37)

section
variable {s u : State} {v : Fin 16} {o : Nat}

/-- An engine that stands at `o` in `u`, where its binding, the other engines and the other registers are as in `s`, is shown there. -/
theorem StreamMoved.vsShow (hpos : u.vsPos v = o) (hseq : u.g (VS_STATUS_SEQ v) = s.g (VS_STATUS_SEQ v)) (hothers : ∀ j, j ≠ v.val → u.vse j = s.vse j)
    (hregs : RegsKept [VS_POS v, VS_LEVEL v, VS_STATUS v] s u) : StreamMoved v o s (u.vsShow v) := by
  refine ⟨?_, ?_, ?_, ?_, fun j hj => ?_, hregs.trans ((u.vsShow_moved v).kept.mono (by simp))⟩
  · rw [State.vsPos, State.g_vsShow _ (vsShow_apart v _ (by simp))]
    exact hpos
  · rw [State.vsShow_queue, State.vse_vsShow]
  · rw [State.vsShow_depth, State.vse_vsShow]
  · rw [State.g_vsShow _ (vsShow_apart v _ (by simp)), hseq]
  · rw [State.vse_vsShow, hothers j hj]

/-- What is as before behind `u` is as before behind `s`. -/
theorem StreamMoved.of_kept {t : State} (h : StreamMoved v o u t) (hseq : u.g (VS_STATUS_SEQ v) = s.g (VS_STATUS_SEQ v))
    (hothers : ∀ j, j ≠ v.val → u.vse j = s.vse j) (hregs : RegsKept [VS_POS v, VS_LEVEL v, VS_STATUS v] s u) : StreamMoved v o s t := by
  obtain ⟨hpos, hqueue, hdepth, hbound, hengines, hkept⟩ := h
  exact ⟨hpos, hqueue, hdepth, hbound.trans hseq, fun j hj => (hengines j hj).trans (hothers j hj), hregs.trans hkept⟩

/-- An engine put to an offset and shown. -/
theorem State.vsPut_shown (s : State) (v : Fin 16) (x : VsEng) {o : Nat} (ho : o < 2 ^ 40) :
    ((s.vsPut v x o).vsShow v).vse v = x ∧ StreamMoved v o s ((s.vsPut v x o).vsShow v) ∧
      (s.vsPut v x o).vsShow v = { s with regs := ((s.vsPut v x o).vsShow v).regs, vs := ((s.vsPut v x o).vsShow v).vs } := by
  have hst : VS_STATUS v.val ≠ VS_POS v.val := by unfold VS_STATUS VS_POS; omega
  refine ⟨?_, StreamMoved.vsShow (s.vsPos_vsPut v x ho) (s.g_vsPut hst x o) (fun j hj => s.vse_vsPut_ne hj x o)
    (fun a ha => s.rd_vsPut (fun e => ha (by simp [e])) x o), ?_⟩
  · rw [State.vse_vsShow, State.vse_vsPut _ v.isLt]
  · have hframe := ((s.vsPut v x o).vsShow_moved v).frame
    unfold OnlyRegs at hframe
    rw [hframe, s.vsPut_eq]

/-- A record that leaves its engine as `x` at `o`, and does nothing else. -/
theorem gives_vsPut {i : Instr} {x : VsEng} (hi : exec i s = .next ((s.vsPut v x o).vsShow v)) (ho : o < 2 ^ 40) :
    Gives i s (fun t => t.vse v = x ∧ StreamMoved v o s t ∧ t = { s with regs := t.regs, vs := t.vs }) :=
  ⟨_, hi, s.vsPut_shown v x ho⟩

end

end Sys2Proof.Machine
end

section
/-! SUPPORT. The records that emit sets (R121 to R124, R126; Table 6.2): where the output queue has room for all sets of a record, they are
emitted in one step and the record is passed. -/

namespace Sys2Proof.Machine

/-! ### Emission -/

/-- The engine with these sets emitted, in order. -/
def VsEng.withSets (x : VsEng) (l : List (List PinWord)) : VsEng :=
  { x with queue := x.queue ++ l, cur := l.getLastD x.cur, part := x.part + l.length, emitted := x.emitted + l.length }

theorem VsEng.withSets_nil (x : VsEng) : x.withSets [] = x := by simp [VsEng.withSets]

theorem VsEng.withSets_snoc (x : VsEng) (l : List (List PinWord)) (t : List PinWord) :
    x.withSets (l ++ [t]) = { x.withSets l with
      queue := (x.withSets l).queue ++ [t], cur := t, part := (x.withSets l).part + 1, emitted := (x.withSets l).emitted + 1 } := by
  simp [VsEng.withSets, Nat.add_assoc]

theorem VsEng.setsJoin_eq_withSets (x : VsEng) (l : List (List PinWord)) : setsJoin x l = { x.withSets l with part := 0 } := rfl

section
variable {x : VsEng} {n : Nat} {mk : VsEng → List PinWord} {ok : Nat → Bool} {set : Nat → List PinWord} (hpart : x.part = 0)
  (hroom : x.queue.length + n ≤ 32) (hok : ∀ i < n, ok i = true) (hset : ∀ i < n, mk (x.withSets ((List.range i).map set)) = set i)
include hpart hroom hok hset

/-- From `i` sets on, the others follow while the bound `f` allows it. -/
theorem VsEng.emit_from (f i : Nat) (hi : i ≤ n) (hf : n ≤ i + f) :
    (x.withSets ((List.range i).map set)).emit n mk ok f = x.withSets ((List.range n).map set) := by
  have hat (i : Nat) : (x.withSets ((List.range i).map set)).part = i := by simp [VsEng.withSets, hpart]
  induction f generalizing i with
  | zero =>
    obtain rfl : i = n := by omega
    rfl
  | succ f ih =>
    unfold VsEng.emit
    by_cases hlt : i < n
    · have hlen : (x.withSets ((List.range i).map set)).queue.length < 32 := by
        simp only [VsEng.withSets, List.length_append, List.length_map, List.length_range]
        omega
      have hnext := x.withSets_snoc ((List.range i).map set) (set i)
      rw [show (List.range i).map set ++ [set i] = (List.range (i + 1)).map set by rw [List.range_succ, List.map_append]; rfl] at hnext
      rw [if_pos ⟨by rw [hat]; exact hlt, hlen, by rw [hat]; exact hok i hlt⟩, hset i hlt]
      exact (congrArg (VsEng.emit · n mk ok f) hnext.symm).trans (ih (i + 1) hlt (by omega))
    · obtain rfl : i = n := by omega
      rw [if_neg (fun h => hlt (by rw [hat] at h; exact h.1))]

theorem VsEng.emit_all : x.emit n mk ok 32 = x.withSets ((List.range n).map set) := by
  have hfrom := VsEng.emit_from hpart hroom hok hset 32 0 (Nat.zero_le n) (by omega)
  rwa [List.range_zero, List.map_nil, VsEng.withSets_nil] at hfrom

end

/-- A record of `size` bytes whose sets `set i` find room is passed with its last set. -/
theorem State.vsEmit_all {s : State} {v size n : Nat} (hv : v < 16) {mk : VsEng → List PinWord} {ok : Nat → Bool} {set : Nat → List PinWord}
    (hpart : (s.vse v).part = 0) (hroom : (s.vse v).queue.length + n ≤ 32) (hok : ∀ i < n, ok i = true)
    (hset : ∀ i < n, mk ((s.vse v).withSets ((List.range i).map set)) = set i) :
    s.vsEmit v size n mk ok = s.vsPut v (setsJoin (s.vse v) ((List.range n).map set)) (s.vsPos v + size) := by
  have hemit := VsEng.emit_all hpart hroom hok hset
  have hdone : ((s.modVs v (fun x => x.emit n mk ok 32)).vse v).part = n := by
    rw [State.vse_modVs_self _ _ _ hv, hemit]
    simp [VsEng.withSets, hpart]
  unfold State.vsEmit
  simp only [hdone, if_true]
  rw [s.vsSkip_modVs hv, hemit, VsEng.setsJoin_eq_withSets]

/-! ### LIT, RUN and DICT_USE -/

/-- A place behind bytes of a stream in the Vector Buffer is an offset. -/
theorem State.DecodesNext.offset_lt {s : State} {v k : Nat} {b : List Byte} (h : s.DecodesNext v b) (hk : k ≤ b.length) :
    s.vsPos v + k < 2 ^ 40 := by
  have hwithin := h.within
  have hfits := h.fits
  omega

/-- The bytes of a record behind its fixed ones. -/
theorem State.DecodesNext.vsRead_rest {s : State} {v : Nat} {f r : List Byte} (h : s.DecodesNext v (f ++ r)) :
    s.vsRead v (s.vsPos v + f.length) r.length = (s, r, false) :=
  State.DecodesNext.vsRead (r := []) (by rw [List.append_nil]; exact h)

section
variable {s : State} {v : Fin 16} {n : Nat} (hpart : (s.vse v.val).part = 0) (hn : 1 ≤ n) (hroom : (s.vse v.val).queue.length + n ≤ 32)
include hpart hn hroom

theorem exec_sLit {b : List Byte} (hb : b.length = n * setLen (s.vsW v.val)) (h : s.DecodesNext v.val (0x10#8 :: toLe 2 (n - 1) ++ b)) :
    exec (.sLit v) s = .next ((s.vsPut v (setsJoin (s.vse v.val)
      ((List.range n).map (fun i => setWords (s.vsW v.val) (sub b (i * setLen (s.vsW v.val)) (setLen (s.vsW v.val))))))
      (s.vsPos v.val + (3 + n * setLen (s.vsW v.val)))).vsShow v) := by
  have hcount : u (0x10#8 :: toLe 2 (n - 1)) 1 2 + 1 = n := by
    rw [u_cons_succ, u_toLe_whole (by omega)]
    omega
  have hall : min n (32 - (s.vse v.val).queue.length) = n := by omega
  have hread : s.vsRead v.val (s.vsPos v.val + 3) (n * setLen (s.vsW v.val)) = (s, b, false) := by
    rw [← hb]
    exact h.vsRead_rest
  refine (congrArg Host.Outcome.next (h.vsRow (ty := 1) rfl (by decide) rfl (by simp [recBad, u_cons_zero]) ?_ _)).trans ?_
  · show (u _ 1 2 + 1) * _ ≤ _
    rw [hcount, hb]
  · simp only [hcount, hpart, Nat.sub_zero, hall, h.vb, if_true, Nat.zero_mul, Nat.add_zero, hread, Bool.false_eq_true, if_false]
    rw [State.vsEmit_all v.isLt hpart hroom (fun i hi => decide_eq_true (Nat.mul_le_mul_right _ hi)) (fun i _ => ?_)]
    simp [VsEng.withSets, hpart]

theorem exec_sRun (h : s.DecodesNext v.val (0x20#8 :: toLe 3 (n - 1))) :
    exec (.sRun v) s = .next ((s.vsPut v (setsJoin (s.vse v.val) (List.replicate n (s.vse v.val).cur)) (s.vsPos v.val + 4)).vsShow v) := by
  have hcount : u (0x20#8 :: toLe 3 (n - 1)) 1 3 + 1 = n := by
    rw [u_cons_succ, u_toLe_whole (by omega)]
    omega
  refine (congrArg Host.Outcome.next (h.vsRow_fixed (ty := 2) rfl (by decide) rfl (by simp [recBad, u_cons_zero]) rfl _)).trans ?_
  rw [hcount, State.vsEmit_all v.isLt hpart hroom (set := fun _ => (s.vse v.val).cur) (fun _ _ => rfl) (fun i _ => ?_), List.map_const', List.length_range]
  rw [List.map_const', List.length_range]
  cases i <;> simp [VsEng.withSets, List.replicate_succ']

end

end Sys2Proof.Machine
end

section
/-! SUPPORT. PATCH and DICT_USE (R123, R126). -/

namespace Sys2Proof.Machine

/-! ### PATCH -/

/-- The bytes of a PATCH's entries. -/
abbrev patchBytes (es : List (Nat × Nat)) : List Byte := es.flatMap (fun e => toLe 1 e.1 ++ toLe 2 e.2)

theorem patchBytes_length (es : List (Nat × Nat)) : (patchBytes es).length = 3 * es.length := by
  induction es with
  | nil => rfl
  | cons e es ih =>
    rw [patchBytes, List.flatMap_cons, List.length_append, ih, List.length_append, toLe_length, toLe_length, List.length_cons]
    omega

theorem u_append_right (l r : List Byte) (o n : Nat) : u (l ++ r) (l.length + o) n = u r o n := by
  unfold u sub
  rw [List.drop_length_add_append]

theorem patchBytes_entries (es : List (Nat × Nat)) (h : ∀ e ∈ es, e.1 < 256 ∧ e.2 < 65536) :
    (List.range es.length).map (fun i => (u (patchBytes es) (3 * i) 1, u (patchBytes es) (3 * i + 1) 2)) = es := by
  induction es with
  | nil => rfl
  | cons e es ih =>
    rw [List.forall_mem_cons] at h
    obtain ⟨⟨hchan, hword⟩, hes⟩ := h
    have hbytes : patchBytes (e :: es) = (toLe 1 e.1 ++ toLe 2 e.2) ++ patchBytes es := rfl
    have hrest (o n : Nat) : u (patchBytes (e :: es)) (3 + o) n = u (patchBytes es) o n := u_append_right _ _ o n
    have hfirst : u (patchBytes (e :: es)) 0 1 = e.1 := by
      rw [hbytes, List.append_assoc, u_front]
      omega
    have hsecond : u (patchBytes (e :: es)) 1 2 = e.2 := by
      rw [hbytes, List.append_assoc]
      refine (u_append_right (toLe 1 e.1) (toLe 2 e.2 ++ patchBytes es) 0 2).trans ?_
      rw [u_front]
      omega
    rw [List.length_cons, List.range_succ_eq_map, List.map_cons, List.map_map]
    refine congrArg₂ List.cons (Prod.ext hfirst hsecond) (Eq.trans (List.map_congr_left fun i _ => ?_) (ih hes))
    rw [Function.comp_apply, show 3 * i.succ = 3 + 3 * i by omega, show 3 + 3 * i + 1 = 3 + (3 * i + 1) by omega, hrest, hrest]

section
variable {s : State} {v : Fin 16} (hpart : (s.vse v.val).part = 0)
include hpart

theorem exec_sPatch {es : List (Nat × Nat)} (hroom : (s.vse v.val).queue.length + 1 ≤ 32) (hne : es ≠ []) (hlen : es.length ≤ 128)
    (hes : ∀ e ∈ es, e.1 < s.vsW v.val ∧ e.1 < 128 ∧ e.2 < 2048)
    (h : s.DecodesNext v.val (0x30#8 :: toLe 1 (es.length - 1) ++ patchBytes es)) :
    exec (.sPatch v) s = .next ((s.vsPut v (setsJoin (s.vse v.val)
      [es.foldl (fun c e => c.set e.1 (BitVec.ofNat 11 e.2)) (s.vse v.val).cur]) (s.vsPos v.val + (2 + 3 * es.length))).vsShow v) := by
  have hpos := List.length_pos_iff.2 hne
  have hcode : u (0x30#8 :: toLe 1 (es.length - 1)) 1 1 = es.length - 1 := by rw [u_cons_succ, u_toLe_whole (by omega)]
  have hcount : es.length - 1 + 1 = es.length := by omega
  have hread : s.vsRead v.val (s.vsPos v.val + 2) (3 * es.length) = (s, patchBytes es, false) := by
    rw [← patchBytes_length]
    exact h.vsRead_rest
  have hwide : es.any (fun e => decide (127 < e.1) || decide (2047 < e.2)) = false := List.any_eq_false.2 fun e he => by
    have := hes e he
    simp
    omega
  have houtside : es.any (fun e => decide (s.vsW v.val ≤ e.1)) = false := List.any_eq_false.2 fun e he => by
    have := hes e he
    simp
    omega
  refine (congrArg Host.Outcome.next (h.vsRow (ty := 3) rfl (by decide) rfl ?_ ?_ _)).trans ?_
  · simp only [recBad, hcode, u_cons_zero]
    simp
    omega
  · show 3 * (u _ 1 1 + 1) ≤ _
    rw [hcode, hcount, patchBytes_length]
  · simp only [hcode, hcount, h.has, hread, patchBytes_entries es fun e he => ⟨by have := hes e he; omega, by have := hes e he; omega⟩, hwide, houtside,
      Bool.not_true, Bool.false_eq_true, if_false]
    rw [State.vsEmit_all v.isLt hpart hroom (set := fun _ => es.foldl (fun c e => c.set e.1 (BitVec.ofNat 11 e.2)) (s.vse v.val).cur)
      (fun _ _ => rfl) (fun i hi => ?_)]
    · rfl
    · obtain rfl : i = 0 := by omega
      rfl

end

/-! ### DICT_USE -/

theorem setLen_le_dictE (w : Nat) : setLen w ≤ dictE w := by
  unfold dictE roundUp
  omega

/-- A dictionary entry within the Vector Buffer is read as it stands. -/
theorem State.dictRead {s : State} {v i : Nat} (hecc : s.ecc = [])
    (hfit : s.g (VS_ARM_DICT_DICT_OFF v) + (i + 1) * dictE (s.vsW v) ≤ 0xF00000) (master : Nat) :
    (s.busRead master (s.dictAddr v i) (setLen (s.vsW v))).1 = s ∧
      (s.busRead master (s.dictAddr v i) (setLen (s.vsW v))).2.1 = s.ld (s.dictAddr v i) (setLen (s.vsW v)) ∧
      (s.busRead master (s.dictAddr v i) (setLen (s.vsW v))).2.2.ue = false := by
  have hle := setLen_le_dictE (s.vsW v)
  rw [Nat.add_mul, Nat.one_mul] at hfit
  unfold State.dictAddr
  rw [Nat.add_assoc]
  exact State.busRead_vectorBuffer hecc (by omega) master

section
variable {s : State} {v : Fin 16} {i : Nat} (hpart : (s.vse v.val).part = 0) (hin : i < s.g (VS_ARM_DICT_DICT_ENTRIES v.val)) (hi : i < 4096)
  (hvalid : nbit (s.vse v.val).dictValid i = true) (hfit : s.g (VS_ARM_DICT_DICT_OFF v.val) + (i + 1) * dictE (s.vsW v.val) ≤ 0xF00000)
include hpart hin hi hvalid hfit

theorem exec_sDictUse {n : Nat} (hn : 1 ≤ n) (hroom : (s.vse v.val).queue.length + n ≤ 32)
    (h : s.DecodesNext v.val (0x50#8 :: (toLe 2 i ++ toLe 2 (n - 1)))) :
    exec (.sDictUse v) s = .next ((s.vsPut v (setsJoin (s.vse v.val)
      (List.replicate n (setWords (s.vsW v.val) (s.ld (s.dictAddr v.val i) (setLen (s.vsW v.val)))))) (s.vsPos v.val + 5)).vsShow v) := by
  obtain ⟨hstate, hbytes, hue⟩ := State.dictRead h.ecc hfit (0x30 + v.val)
  have hentry : u (0x50#8 :: (toLe 2 i ++ toLe 2 (n - 1))) 1 2 = i := by
    rw [u_cons_succ, u_front]
    omega
  have hcount : u (0x50#8 :: (toLe 2 i ++ toLe 2 (n - 1))) 3 2 + 1 = n := by
    refine (congrArg (· + 1) (u_append_right (0x50#8 :: toLe 2 i) (toLe 2 (n - 1)) 0 2)).trans ?_
    rw [u_toLe_whole (by omega)]
    omega
  refine (congrArg Host.Outcome.next (h.vsRow_fixed (ty := 5) rfl (by decide) rfl (by simp [recBad, u_cons_zero]) rfl _)).trans ?_
  simp only [hentry, hcount, u_cons_zero, hvalid, hstate, hbytes, hue, Bool.not_true, Bool.false_eq_true, if_false]
  rw [if_neg (by omega), if_neg (by decide), State.vsEmit_all v.isLt hpart hroom
    (set := fun _ => setWords (s.vsW v.val) (s.ld (s.dictAddr v.val i) (setLen (s.vsW v.val)))) (fun _ _ => rfl) (fun _ _ => rfl),
    List.map_const', List.length_range]

/-- With SETONLY the entry becomes the current set. -/
theorem exec_sDictUse_setOnly (h : s.DecodesNext v.val (0x51#8 :: (toLe 2 i ++ toLe 2 0))) :
    exec (.sDictUse v) s = .next ((s.vsPut v { s.vse v.val with
      cur := setWords (s.vsW v.val) (s.ld (s.dictAddr v.val i) (setLen (s.vsW v.val))) } (s.vsPos v.val + 5)).vsShow v) := by
  obtain ⟨hstate, hbytes, hue⟩ := State.dictRead h.ecc hfit (0x30 + v.val)
  have hentry : u (0x51#8 :: (toLe 2 i ++ toLe 2 0)) 1 2 = i := by
    rw [u_cons_succ, u_front]
    omega
  have hzero : u (0x51#8 :: (toLe 2 i ++ toLe 2 0)) 3 2 = 0 := u_append_right (0x51#8 :: toLe 2 i) (toLe 2 0) 0 2
  refine (congrArg Host.Outcome.next (h.vsRow_fixed (ty := 5) rfl (by decide) rfl (by simp [recBad, u_cons_zero, hzero]) rfl _)).trans ?_
  simp only [hentry, u_cons_zero, hvalid, hstate, hbytes, hue, Bool.not_true, Bool.false_eq_true, if_false]
  rw [if_neg (by omega), if_pos (by decide), State.vsSkip_of_part _ v.isLt hpart]

end

end Sys2Proof.Machine
end

section
/-! SUPPORT. SCAN (R124): one set, in which each scan channel takes the next bits of the packed string. -/

namespace Sys2Proof.Machine

/-! ### Places of a list set one after the other -/

section
variable {α : Type} (F : Nat → α → α) (d : α)

/-- The places that the list names, each changed by its number. -/
def setEach (ps : List (Nat × Nat)) (l : List α) : List α := ps.foldl (fun l p => l.set p.1 (F p.2 (l.getD p.1 d))) l

theorem setEach_length (ps : List (Nat × Nat)) (l : List α) : (setEach F d ps l).length = l.length := by
  induction ps generalizing l with
  | nil => rfl
  | cons p ps ih => exact (ih _).trans List.length_set

theorem setEach_getD_of_notMem {ps : List (Nat × Nat)} {c : Nat} (h : c ∉ ps.map Prod.fst) (l : List α) :
    (setEach F d ps l).getD c d = l.getD c d := by
  induction ps generalizing l with
  | nil => rfl
  | cons p ps ih =>
    rw [List.map_cons, List.mem_cons, not_or] at h
    obtain ⟨hp, hps⟩ := h
    refine (ih hps _).trans ?_
    simp [List.getD_eq_getElem?_getD, List.getElem?_set_ne (Ne.symm hp)]

theorem setEach_getD_of_mem {ps : List (Nat × Nat)} (hnodup : (ps.map Prod.fst).Nodup) {c n : Nat} (h : (c, n) ∈ ps) {l : List α}
    (hc : c < l.length) : (setEach F d ps l).getD c d = F n (l.getD c d) := by
  induction ps generalizing l with
  | nil => cases h
  | cons p ps ih =>
    rw [List.map_cons, List.nodup_cons] at hnodup
    obtain ⟨hp, hps⟩ := hnodup
    rcases List.mem_cons.1 h with rfl | hmem
    · refine (setEach_getD_of_notMem F d hp _).trans ?_
      simp [List.getD_eq_getElem?_getD, hc]
    · have hne : p.1 ≠ c := fun e => hp (e ▸ List.mem_map_of_mem (f := Prod.fst) hmem)
      refine (ih hps hmem (by rwa [List.length_set])).trans ?_
      simp [List.getD_eq_getElem?_getD, List.getElem?_set_ne hne]

end

/-! ### One pin word -/

/-- The pin word of the scan channel with number `p`: its low `b` bits, and MASK if `m` is 1, from the packed bits. -/
def scanWord (b m bits p : Nat) (old : PinWord) : PinWord :=
  let f := bits / 2 ^ (p * (b + m))
  let data := old.toNat / 2 ^ b * 2 ^ b % 256 + f % 2 ^ b
  let mode := old.toNat / 256 % 4
  let mask := if m = 1 then f / 2 ^ b % 2 else old.toNat / 1024
  BitVec.ofNat 11 (mask * 1024 + mode * 256 + data)

theorem scanSet_eq (x : VsEng) (w b m bits : Nat) : scanSet x w b m bits = setEach (scanWord b m bits) 0#11 (x.scanChans w).zipIdx x.cur := rfl

/-- A number whose bits from `b` to 7 are kept and whose lower ones are taken. -/
theorem scanData_eq {b : Nat} (hb : b ≤ 8) (old f : Nat) :
    old / 2 ^ b * 2 ^ b % 256 + f % 2 ^ b = 2 ^ b * (old / 2 ^ b % 2 ^ (8 - b)) + f % 2 ^ b := by
  have hsplit : (256 : Nat) = 2 ^ b * 2 ^ (8 - b) := by
    rw [← pow_add, Nat.add_sub_cancel' hb]
    rfl
  rw [hsplit, Nat.mul_comm, Nat.mul_mod_mul_left]

theorem scanData_lt {b : Nat} (hb : b ≤ 8) (old f : Nat) : old / 2 ^ b * 2 ^ b % 256 + f % 2 ^ b < 256 := by
  have htaken : f % 2 ^ b < 2 ^ b := Nat.mod_lt _ (Nat.two_pow_pos _)
  have hkept : old / 2 ^ b % 2 ^ (8 - b) < 2 ^ (8 - b) := Nat.mod_lt _ (Nat.two_pow_pos _)
  have hsplit : 2 ^ b * 2 ^ (8 - b) = 256 := by
    rw [← pow_add, Nat.add_sub_cancel' hb]
    rfl
  have hmul := Nat.mul_le_mul_left (2 ^ b) hkept
  rw [Nat.mul_succ] at hmul
  rw [scanData_eq hb]
  omega

theorem scanData_testBit {b : Nat} (hb : b ≤ 8) (old f : Nat) {j : Nat} (hj : j < 8) :
    (old / 2 ^ b * 2 ^ b % 256 + f % 2 ^ b).testBit j = if j < b then f.testBit j else old.testBit j := by
  rw [scanData_eq hb, Nat.testBit_two_pow_mul_add _ (Nat.mod_lt _ (Nat.two_pow_pos _))]
  split
  · next hjb => rw [Nat.testBit_mod_two_pow, decide_eq_true hjb, Bool.true_and]
  · rw [Nat.testBit_mod_two_pow, decide_eq_true (by omega), Bool.true_and, Nat.testBit_div_two_pow, Nat.sub_add_cancel (by omega)]

/-- MASK, MODE and DATA of a pin word (R121). -/
theorem pinWord_testBit {mode data : Nat} (mask : Nat) (hmode : mode < 4) (hdata : data < 256) (j : Nat) :
    (mask * 1024 + mode * 256 + data).testBit j =
      if j < 8 then data.testBit j else if j < 10 then mode.testBit (j - 8) else mask.testBit (j - 10) := by
  have hfields : mask * 1024 + mode * 256 + data = 2 ^ 8 * (2 ^ 2 * mask + mode) + data := by omega
  rw [hfields, Nat.testBit_two_pow_mul_add _ hdata, Nat.testBit_two_pow_mul_add _ hmode]
  by_cases hj : j < 10
  · rw [if_pos hj, if_pos (by omega : j - 8 < 2)]
  · rw [if_neg hj, if_neg (by omega : ¬ j - 8 < 2), Nat.sub_sub]

section
variable {b : Nat} (hb : b ≤ 8) (m bits p : Nat) (old : PinWord) {j : Nat}
include hb

theorem scanWord_testBit (hj : j < 11) : (scanWord b m bits p old).getLsbD j =
    if j < 8 then (if j < b then (bits / 2 ^ (p * (b + m))).testBit j else old.toNat.testBit j)
    else if j < 10 then (old.toNat / 256 % 4).testBit (j - 8)
    else (if m = 1 then bits / 2 ^ (p * (b + m)) / 2 ^ b % 2 else old.toNat / 1024).testBit (j - 10) := by
  unfold scanWord
  rw [BitVec.getLsbD_ofNat, decide_eq_true hj, Bool.true_and, pinWord_testBit _ (Nat.mod_lt _ (by decide)) (scanData_lt hb _ _)]
  by_cases hj8 : j < 8
  · rw [if_pos hj8, if_pos hj8, scanData_testBit hb _ _ hj8]
  · rw [if_neg hj8, if_neg hj8]

theorem scanWord_taken (hj : j < b) : (scanWord b m bits p old).getLsbD j = bits.testBit (p * (b + m) + j) := by
  rw [scanWord_testBit hb m bits p old (by omega), if_pos (by omega), if_pos hj, Nat.testBit_div_two_pow, Nat.add_comm]

theorem scanWord_kept (hlo : b ≤ j) (hj : j < 10) : (scanWord b m bits p old).getLsbD j = old.getLsbD j := by
  rw [scanWord_testBit hb m bits p old (by omega)]
  by_cases hj8 : j < 8
  · rw [if_pos hj8, if_neg (by omega)]
    rfl
  · rw [if_neg hj8, if_pos hj, Nat.testBit_mod_two_pow (j := 2), decide_eq_true (by omega), Bool.true_and]
    exact (Nat.testBit_div_two_pow (n := 8) old.toNat (j - 8)).trans (by rw [Nat.sub_add_cancel (by omega)]; rfl)

theorem scanWord_mask : (scanWord b m bits p old).getLsbD 10 = if m = 1 then bits.testBit (p * (b + m) + b) else old.getLsbD 10 := by
  rw [scanWord_testBit hb m bits p old (by decide), if_neg (by decide), if_neg (by decide)]
  split
  · rw [Nat.testBit_mod_two_pow (j := 1), Nat.testBit_div_two_pow, Nat.testBit_div_two_pow]
    simp [Nat.add_comm]
  · exact Nat.testBit_div_two_pow (n := 10) old.toNat 0

end

/-! ### The set -/

section
variable {x : VsEng} {w b mask : Nat} (hscan : x.scan = some (b, mask))
include hscan

theorem VsEng.scanChans_of_scan : x.scanChans w = bitsOf w mask := by rw [VsEng.scanChans, hscan]

theorem VsEng.scanBits_of_scan (m : Nat) : x.scanBits w m = (bitsOf w mask).length * (b + m) := by
  rw [VsEng.scanBits, VsEng.scanChans_of_scan hscan, hscan]
  rfl

/-- Of the channels only the scan channels change, each by the bits at its number. -/
theorem scanSet_words (hcur : x.cur.length = w) (m bits : Nat) : (scanSet x w b m bits).length = w ∧
    (∀ c, c ∉ bitsOf w mask → (scanSet x w b m bits).getD c 0#11 = x.cur.getD c 0#11) ∧
    ∀ p c, (bitsOf w mask)[p]? = some c → (scanSet x w b m bits).getD c 0#11 = scanWord b m bits p (x.cur.getD c 0#11) := by
  rw [scanSet_eq, VsEng.scanChans_of_scan hscan]
  refine ⟨(setEach_length ..).trans hcur, fun c hc => setEach_getD_of_notMem _ _ (by rwa [List.zipIdx_map_fst]) _, fun p c hpc => ?_⟩
  have hmem := List.mem_of_getElem? hpc
  refine setEach_getD_of_mem _ _ (by rw [List.zipIdx_map_fst]; exact List.nodup_range.filter _) (List.mem_zipIdx_iff_getElem?.2 hpc) ?_
  rw [hcur]
  exact List.mem_range.1 (List.mem_of_mem_filter hmem)

end

/-- A SCAN's fixed bytes name one set. -/
theorem scanHead_fields (m : Bool) : (BitVec.ofNat 8 (0x60 + b2n m)).toNat / 16 = 6 ∧
    recBad 6 (BitVec.ofNat 8 (0x60 + b2n m) :: toLe 3 0) = false ∧ u (BitVec.ofNat 8 (0x60 + b2n m) :: toLe 3 0) 0 1 % 2 = b2n m ∧
    u (BitVec.ofNat 8 (0x60 + b2n m) :: toLe 3 0) 1 3 + 1 = 1 := by
  cases m <;> decide

theorem exec_sScan {s : State} {v : Fin 16} (hpart : (s.vse v.val).part = 0) (hroom : (s.vse v.val).queue.length + 1 ≤ 32) {m : Bool}
    {b mask d k : Nat} (hscan : (s.vse v.val).scan = some (b, mask)) (hne : bitsOf (s.vsW v.val) mask ≠ [])
    (hk : k = ((bitsOf (s.vsW v.val) mask).length * (b + b2n m) + 7) / 8)
    (h : s.DecodesNext v.val (BitVec.ofNat 8 (0x60 + b2n m) :: toLe 3 0 ++ toLe k d)) :
    exec (.sScan v) s = .next ((s.vsPut v (setsJoin (s.vse v.val) [scanSet (s.vse v.val) (s.vsW v.val) b (b2n m) (d % 256 ^ k)])
      (s.vsPos v.val + (4 + k))).vsShow v) := by
  obtain ⟨htype, hgood, hflag, hcount⟩ := scanHead_fields m
  have hper : (s.vse v.val).scanBits (s.vsW v.val) (b2n m) = (bitsOf (s.vsW v.val) mask).length * (b + b2n m) :=
    VsEng.scanBits_of_scan hscan _
  have hone : min 1 (32 - (s.vse v.val).queue.length) = 1 := by omega
  have hread : s.vsRead v.val (s.vsPos v.val + 4) k = (s, toLe k d, false) := by
    have hrest := h.vsRead_rest
    rwa [toLe_length] at hrest
  refine (congrArg Host.Outcome.next (h.vsRow htype (by decide) rfl hgood ?_ _)).trans ?_
  · show ((u _ 1 3 + 1) * VsEng.scanBits _ _ (u _ 0 1 % 2) + 7) / 8 ≤ _
    rw [hcount, hflag, hper, Nat.one_mul, toLe_length, hk]
  · simp only [hcount, hflag, hper, hpart, VsEng.scanChans_of_scan hscan, List.isEmpty_iff, hne, if_false, h.vb, if_true, hone, Nat.zero_mul,
      Nat.zero_div, Nat.zero_add, Nat.add_zero, Nat.sub_zero, Nat.mul_zero, Nat.one_mul, ← hk, hread,
      Bool.false_eq_true, leNat_toLe]
    rw [State.vsEmit_all v.isLt hpart hroom (set := fun _ => scanSet (s.vse v.val) (s.vsW v.val) b (b2n m) (d % 256 ^ k)) (fun i hi => ?_)
      (fun i hi => ?_)]
    · rfl
    · obtain rfl : i = 0 := by omega
      exact decide_eq_true (by omega)
    · obtain rfl : i = 0 := by omega
      rw [List.range_zero, List.map_nil, VsEng.withSets_nil, hpart, Nat.zero_mul, pow_zero, Nat.div_one, hscan]
      rfl

/-- The bits that one set takes lie within its packed string. -/
theorem scanBits_within {C b m k p j d : Nat} (hk : k = (C * (b + m) + 7) / 8) (hp : p < C) (hj : j < b + m) :
    (d % 256 ^ k).testBit (p * (b + m) + j) = nbit d (p * (b + m) + j) := by
  have hrow := Nat.mul_le_mul_right (b + m) hp
  rw [Nat.succ_mul] at hrow
  rw [show 256 ^ k = 2 ^ (8 * k) by rw [pow_mul]; rfl, Nat.testBit_mod_two_pow, decide_eq_true (by omega), Bool.true_and]
  rfl

/-- Settles O38. Each record leaves its engine with the sets joined behind it; of SCAN's one set the bits are read off word by word. -/
theorem streamSetsEmerge : Obligations.StreamSetsEmerge := by
  unfold Obligations.StreamSetsEmerge
  intro s v n hpart hn hroom x w l
  refine ⟨fun b hb hat => ?_, fun hat => ?_, fun es hne hlen hes hat => ?_, fun i hin hi hvalid hfit hat => ?_,
    fun m bw mask d k hscan _ hbw hne hk hcur hat => ?_⟩ <;> have hnext := State.decodesNext_of_streamAt hat
  · rw [Nat.add_assoc]
    refine gives_vsPut (exec_sLit hpart hn hroom hb hnext) (hnext.offset_lt ?_)
    simp [hb]
    omega
  · exact gives_vsPut (exec_sRun hpart hn hroom hnext) (hnext.offset_lt (by simp))
  · rw [Nat.add_assoc]
    refine gives_vsPut (exec_sPatch hpart (by omega) hne hlen hes hnext) (hnext.offset_lt ?_)
    rw [List.length_append, patchBytes_length]
    simp
  · exact gives_vsPut (exec_sDictUse hpart hin hi hvalid hfit hn hroom hnext) (hnext.offset_lt (by simp))
  · obtain ⟨hlength, hothers, hwords⟩ := scanSet_words hscan hcur (b2n m) (d % 256 ^ k)
    obtain ⟨t, hexec, hengine, hmoved, hframe⟩ := gives_vsPut (exec_sScan hpart (by omega) hscan hne hk hnext) (hnext.offset_lt (by simp; omega))
    refine ⟨t, hexec, ⟨_, hengine, hlength, fun c _ hc => hothers c hc, fun p c hpc => ?_⟩, by rwa [Nat.add_assoc], hframe⟩
    have hp : p < (bitsOf w mask).length := (List.getElem?_eq_some_iff.1 hpc).1
    rw [hwords p c hpc]
    refine ⟨fun j hj => ?_, fun j hlo hj => scanWord_kept hbw _ _ _ _ hlo hj, ?_⟩
    · rw [scanWord_taken hbw _ _ _ _ hj]
      exact scanBits_within hk hp (by omega)
    · rw [scanWord_mask hbw]
      cases m
      · rfl
      · exact scanBits_within hk hp (Nat.lt_add_one bw)

end Sys2Proof.Machine
end

section
/-! SUPPORT. DICT_DEF (R126, R135): a write without errors stores its bytes, and the entry is valid. -/

namespace Sys2Proof.Machine

/-! ### Writes without errors -/

theorem State.st_append (s : State) (a : Nat) (b c : List Byte) : s.st a (b ++ c) = (s.st a b).st (a + b.length) c := by
  induction b generalizing s a with
  | nil => rfl
  | cons x b ih =>
    rw [List.cons_append, State.st, State.st, ih, List.length_cons, Nat.add_assoc, Nat.add_comm 1]

theorem State.eccClear_of_nil {s : State} (h : s.ecc = []) (a : Nat) : s.eccClear a = s := by
  unfold State.eccClear
  rw [h, List.filter_nil, ← h]

theorem State.writeWord_quiet {s : State} (h : s.ecc = []) (master : Nat) {m : Nat} (hm : m ≠ 4) (o : Nat) (b : List Byte) :
    s.writeWord master m o b = (s.st (memBase m + o) b, false) := by
  have hread := State.eccRead_of_none (s.eccAt_of_nil h (memBase m + o / 8 * 8)) master
  unfold State.writeWord
  simp only [hread, ite_self, if_neg hm, Bool.false_eq_true, if_false]
  rw [State.eccClear_of_nil ((s.st_ecc _ _).trans h)]

/-- A byte string cut into words is stored as a whole. -/
theorem wordFold_quiet {s x : State} (hecc : x.ecc = []) (master : Nat) {m : Nat} (hm : m ≠ 4) (hsram : m ≠ 0) {n o : Nat} {b : List Byte}
    (hn : b.length ≤ n) : (cutWords n o b).foldl (s.wordStep master m) (x, false) = (x.st (memBase m + o) b, false) := by
  induction n generalizing o b x with
  | zero =>
    obtain rfl : b = [] := List.eq_nil_of_length_eq_zero (by omega)
    rfl
  | succ n ih =>
    by_cases hb : b = []
    · subst hb
      rfl
    · have hpos := List.length_pos_iff.2 hb
      have hcut : cutWords (n + 1) o b = (o, b.take (8 - o % 8)) :: cutWords n (o + (8 - o % 8)) (b.drop (8 - o % 8)) := by
        simp [cutWords, hb]
      have hstep : s.wordStep master m (x, false) (o, b.take (8 - o % 8)) = (x.st (memBase m + o) (b.take (8 - o % 8)), false) := by
        rw [State.wordStep, if_neg (fun h => hsram h.1), State.writeWord_quiet hecc master hm]
        rfl
      rw [hcut, List.foldl_cons, hstep, ih ((State.st_ecc ..).trans hecc) (by rw [List.length_drop]; omega)]
      by_cases hlen : b.length ≤ 8 - o % 8
      · rw [List.drop_eq_nil_of_le hlen, List.take_of_length_le hlen]
        rfl
      · have hsplit := x.st_append (memBase m + o) (b.take (8 - o % 8)) (b.drop (8 - o % 8))
        rw [List.take_append_drop, List.length_take, Nat.min_eq_left (by omega), Nat.add_assoc] at hsplit
        rw [hsplit]

/-- A stream engine's write into the Vector Buffer outside a pair. -/
theorem State.vbWrite_quiet {s : State} (hecc : s.ecc = []) (hp : s.paired = false) (hc : s.twin.copying = false) (v : Nat) {o : Nat} {b : List Byte}
    (h : o + b.length ≤ 0xF00000) : s.vbWrite v (memBase 1 + o) b = (s.st (memBase 1 + o) b, false) := by
  have hwrite : (s.busWrite (0x30 + v) (memBase 1 + o) b).1 = s.st (memBase 1 + o) b ∧
      (s.busWrite (0x30 + v) (memBase 1 + o) b).2.ue = false := by
    by_cases ho : o < 0xF00000
    · have hfold := wordFold_quiet (s := s) hecc (0x30 + v) (m := 1) (by decide) (by decide) (o := o) (Nat.le_succ b.length)
      unfold State.busWrite
      rw [memOf_vectorBuffer ho]
      exact ⟨congrArg Prod.fst hfold, congrArg Prod.snd hfold⟩
    · obtain rfl : o = 0xF00000 := by omega
      obtain rfl : b = [] := List.eq_nil_of_length_eq_zero (by omega)
      unfold State.busWrite
      rw [memOf_vectorBuffer_end]
      exact ⟨rfl, rfl⟩
  obtain ⟨hstate, hue⟩ := hwrite
  unfold State.vbWrite
  simp only [hstate, hue]
  rw [State.mirror_unpaired (by rw [State.paired_congr (s.st_regs _ _), hp]) (by rw [State.st_twin, hc])]

/-! ### DICT_DEF -/

/-- DICT_REDEF where entry `i` was valid. -/
def State.redefShown (s : State) (v i : Nat) : State := if nbit (s.vse v).dictValid i then s.pb (VS_STATUS_DICT_REDEF v) true else s

theorem State.redefShown_moved (s : State) (v i : Nat) : RegsMoved [VS_STATUS v] s (s.redefShown v i) := by
  unfold State.redefShown
  split
  · exact (RegsMoved.refl _ s).pb (VS_STATUS_DICT_REDEF v) true (by simp [VS_STATUS_DICT_REDEF])
  · exact RegsMoved.refl _ s

theorem State.redefShown_redef (s : State) (v i : Nat) :
    (s.redefShown v i).gb (VS_STATUS_DICT_REDEF v) = (nbit (s.vse v).dictValid i || s.gb (VS_STATUS_DICT_REDEF v)) := by
  unfold State.redefShown
  split
  · next h => rw [h, Bool.true_or, State.gb_pb_self _ (VS_STATUS_DICT_REDEF v) true (by decide : 12 < 64) (by decide : 12 ≤ 12)]
  · next h => rw [Bool.eq_false_iff.2 h, Bool.false_or]

theorem vsRedef_apart : ∀ v : Fin 16, (VS_STATUS_DICT_REDEF v).apart (VS_STATUS_SEQ v) := by decide

theorem State.redefShown_seq (s : State) (v : Fin 16) (i : Nat) : (s.redefShown v i).g (VS_STATUS_SEQ v) = s.g (VS_STATUS_SEQ v) := by
  unfold State.redefShown
  split
  · exact State.g_pb_apart _ (vsRedef_apart v) _
  · rfl

/-- The bytes of a DICT_DEF stand in its entry. -/
def State.dictWritten (s : State) (v i : Nat) (b : List Byte) : State := (s.st (s.dictAddr v i) b).redefShown v i

section
variable (s : State) (v : Fin 16) (i : Nat) (b : List Byte)

theorem State.dictWritten_frame : s.dictWritten v i b = { s with regs := (s.dictWritten v i b).regs, mem := (s.st (s.dictAddr v i) b).mem } := by
  have hframe := (State.redefShown_moved (s.st (s.dictAddr v i) b) v i).frame
  unfold OnlyRegs at hframe
  rw [State.dictWritten, hframe, State.st_eq]

theorem State.dictWritten_kept : RegsKept [VS_STATUS v] s (s.dictWritten v i b) := fun a ha => by
  rw [State.dictWritten, (State.redefShown_moved _ _ _).kept a ha, State.rd_st]

theorem State.dictWritten_vse (j : Nat) : (s.dictWritten v i b).vse j = s.vse j := State.vse_congr (by rw [s.dictWritten_frame]) j

theorem State.dictWritten_vsPos : (s.dictWritten v i b).vsPos v = s.vsPos v :=
  (s.dictWritten_kept v i b).g (f := VS_POS_OFFSET v) (by simp [VS_POS_OFFSET, VS_POS, VS_STATUS])

theorem State.dictWritten_redef :
    (s.dictWritten v i b).gb (VS_STATUS_DICT_REDEF v) = (nbit (s.vse v).dictValid i || s.gb (VS_STATUS_DICT_REDEF v)) := by
  rw [State.dictWritten, State.redefShown_redef, State.gb_st, State.vse_congr (State.st_vs ..)]

theorem State.dictWritten_seq : (s.dictWritten v i b).g (VS_STATUS_SEQ v) = s.g (VS_STATUS_SEQ v) := by
  rw [State.dictWritten, State.redefShown_seq, State.g_st]

end

section
variable {s : State} {v : Fin 16} {i : Nat} {b : List Byte} (hpart : (s.vse v.val).part = 0) (hin : i < s.g (VS_ARM_DICT_DICT_ENTRIES v.val))
  (hi : i < 4096) (hfit : s.g (VS_ARM_DICT_DICT_OFF v.val) + (i + 1) * dictE (s.vsW v.val) ≤ 0xF00000) (hp : s.paired = false)
  (hc : s.twin.copying = false) (hb : b.length = setLen (s.vsW v.val)) (h : s.DecodesNext v.val (0x40#8 :: toLe 2 i ++ b))
include hpart hin hi hfit hp hc hb h

theorem exec_sDictDef : exec (.sDictDef v) s = .next (((s.dictWritten v i b).vsPut v { s.vse v.val with
    dictValid := (s.vse v.val).dictValid ||| (1 <<< i) } (s.vsPos v.val + (3 + b.length))).vsShow v) := by
  have hentry : u (0x40#8 :: toLe 2 i) 1 2 = i := by rw [u_cons_succ, u_toLe_whole (by omega)]
  have hread : s.vsRead v.val (s.vsPos v.val + 3) (setLen (s.vsW v.val)) = (s, b, false) := by
    rw [← hb]
    exact h.vsRead_rest
  have hwrite : s.vbWrite v.val (s.dictAddr v.val i) b = (s.st (s.dictAddr v.val i) b, false) := by
    have hle := setLen_le_dictE (s.vsW v.val)
    rw [Nat.add_mul, Nat.one_mul] at hfit
    unfold State.dictAddr
    rw [Nat.add_assoc]
    exact State.vbWrite_quiet h.ecc hp hc v (by omega)
  refine (congrArg Host.Outcome.next (h.vsRow (ty := 4) rfl (by decide) rfl (by simp [recBad, u_cons_zero]) hb.ge _)).trans ?_
  simp only [hentry, h.has, hread, hwrite, Bool.not_true, Bool.false_eq_true, if_false]
  rw [if_neg (by omega)]
  show Host.Outcome.next ((((s.dictWritten v i b).modVs v (fun x => { x with dictValid := x.dictValid ||| (1 <<< i) })).vsSkip v
    (3 + setLen (s.vsW v))).vsShow v) = _
  rw [State.vsSkip_of_part _ v.isLt (by rw [State.dictWritten_vse]; exact hpart), State.dictWritten_vse, State.dictWritten_vsPos, ← hb]

theorem sDictDef_defines : Gives (.sDictDef v) s (fun t => t.ld (s.dictAddr v.val i) b.length = b ∧
    (∀ a, a < s.dictAddr v.val i ∨ s.dictAddr v.val i + b.length ≤ a → t.ldB a = s.ldB a) ∧
    t.vse v.val = { s.vse v.val with dictValid := (s.vse v.val).dictValid ||| (1 <<< i) } ∧
    t.gb (VS_STATUS_DICT_REDEF v.val) = (nbit (s.vse v.val).dictValid i || s.gb (VS_STATUS_DICT_REDEF v.val)) ∧
    StreamMoved v.val (s.vsPos v.val + 3 + b.length) s t ∧ t = { s with regs := t.regs, vs := t.vs, mem := t.mem }) := by
  obtain ⟨hengine, hmoved, hframe⟩ := (s.dictWritten v i b).vsPut_shown v { s.vse v.val with
    dictValid := (s.vse v.val).dictValid ||| (1 <<< i) } (h.offset_lt (k := 3 + b.length) (by simp; omega))
  refine ⟨_, exec_sDictDef hpart hin hi hfit hp hc hb h, ?_⟩
  have hredef : (((s.dictWritten v i b).vsPut v { s.vse v.val with dictValid := (s.vse v.val).dictValid ||| (1 <<< i) }
      (s.vsPos v.val + (3 + b.length))).vsShow v).gb (VS_STATUS_DICT_REDEF v) = (s.dictWritten v i b).gb (VS_STATUS_DICT_REDEF v) := by
    unfold State.gb
    rw [State.g_vsShow _ (vsShow_apart v _ (by simp)), State.g_vsPut _ (by unfold VS_STATUS_DICT_REDEF VS_STATUS VS_POS; dsimp only; omega)]
  generalize ((s.dictWritten v i b).vsPut v _ (s.vsPos v.val + (3 + b.length))).vsShow v = t at hengine hmoved hframe hredef ⊢
  rw [State.dictWritten_frame] at hframe
  have hmem : t.mem = (s.st (s.dictAddr v.val i) b).mem := by rw [hframe]
  refine ⟨(State.ldB_mod_congr hmem _ _).trans (s.ld_st b _), fun a ha => (State.ldB_congr hmem a).trans (s.ldB_st_out b _ a ha), hengine,
    hredef.trans (s.dictWritten_redef v i b), ?_, ?_⟩
  · rw [Nat.add_assoc]
    exact hmoved.of_kept (s.dictWritten_seq v i b) (fun j _ => s.dictWritten_vse v i b j) ((s.dictWritten_kept v i b).mono (by simp))
  · rw [hframe]

end

end Sys2Proof.Machine
end

section
/-! SUPPORT. PAD, SCAN_CFG, LOOP, ENDLOOP, SQUARE and END (R122, R123, R125, R133). -/

namespace Sys2Proof.Machine

/-! ### Records of the decoder alone -/

theorem vsState_apart : ∀ v : Fin 16, ∀ f ∈ [VS_POS_OFFSET v, VS_STATUS_SEQ v, VS_STATUS_SQ v], (VS_STATUS_STATE v).apart f := by decide

section
variable {s : State} {v : Fin 16} (hpart : (s.vse v.val).part = 0)
include hpart

theorem exec_sPad (h : s.DecodesNext v.val [0#8]) : exec (.sPad v) s = .next ((s.vsPut v (s.vse v.val) (s.vsPos v.val + 1)).vsShow v) := by
  refine (congrArg Host.Outcome.next (h.vsRow_fixed (ty := 0) rfl (by decide) rfl (by decide) rfl _)).trans ?_
  rw [State.vsSkip_eq _ v.isLt hpart]

theorem exec_sScanCfg {b m : Nat} (hlo : 1 ≤ b) (hhi : b ≤ 8) (hm : m < 2 ^ 128)
    (h : s.DecodesNext v.val (BitVec.ofNat 8 (0x70 + (b - 1)) :: toLe 16 m)) :
    exec (.sScanCfg v) s = .next ((s.vsPut v { s.vse v.val with scan := some (b, m) } (s.vsPos v.val + 17)).vsShow v) := by
  have hhead : (BitVec.ofNat 8 (0x70 + (b - 1))).toNat = 0x70 + (b - 1) := by
    rw [BitVec.toNat_ofNat]
    omega
  have hbits : u (BitVec.ofNat 8 (0x70 + (b - 1)) :: toLe 16 m) 0 1 % 16 = b - 1 := by
    rw [u_cons_zero, hhead]
    omega
  have hmask : u (BitVec.ofNat 8 (0x70 + (b - 1)) :: toLe 16 m) 1 16 = m := by
    rw [u_cons_succ, u_toLe_whole hm]
  have hgood : recBad 7 (BitVec.ofNat 8 (0x70 + (b - 1)) :: toLe 16 m) = false := by
    simp only [recBad, hbits]
    exact decide_eq_false (by omega)
  refine (congrArg Host.Outcome.next (h.vsRow_fixed (ty := 7) (by rw [hhead]; omega) (by decide) rfl hgood rfl _)).trans ?_
  rw [State.vsSkip_of_part _ v.isLt hpart, hbits, hmask, Nat.sub_add_cancel hlo]

theorem exec_sLoop {n : Nat} (hlo : 1 ≤ n) (hhi : n ≤ 2 ^ 24) (hdepth : (s.vse v.val).loops.length < 4)
    (h : s.DecodesNext v.val (0x80#8 :: toLe 3 (n - 1))) :
    exec (.sLoop v) s = .next ((s.vsPut v { s.vse v.val with loops := (s.vsPos v.val + 4, n) :: (s.vse v.val).loops }
      (s.vsPos v.val + 4)).vsShow v) := by
  have hcount : u (0x80#8 :: toLe 3 (n - 1)) 1 3 + 1 = n := by
    rw [u_cons_succ, u_toLe_whole (by omega)]
    omega
  refine (congrArg Host.Outcome.next (h.vsRow_fixed (ty := 8) rfl (by decide) rfl (by simp [recBad, u_cons_zero]) rfl _)).trans ?_
  rw [if_neg (by omega), State.vsSkip_of_part _ v.isLt hpart, hcount]

/-- ENDLOOP with iterations left. -/
theorem exec_sEndloop_again {a n : Nat} {l : List (Nat × Nat)} (hloops : (s.vse v.val).loops = (a, n) :: l) (hn : 2 ≤ n)
    (h : s.DecodesNext v.val [0x90#8]) :
    exec (.sEndloop v) s = .next ((s.vsPut v { s.vse v.val with loops := (a, n - 1) :: l } a).vsShow v) := by
  refine (congrArg Host.Outcome.next (h.vsRow_fixed (ty := 9) rfl (by decide) rfl (by decide) rfl _)).trans ?_
  dsimp only
  rw [hloops]
  dsimp only
  rw [if_neg (by omega), State.modVs_const _ v.isLt, hpart]
  rfl

/-- ENDLOOP of the last iteration. -/
theorem exec_sEndloop_last {a : Nat} {l : List (Nat × Nat)} (hloops : (s.vse v.val).loops = (a, 1) :: l) (h : s.DecodesNext v.val [0x90#8]) :
    exec (.sEndloop v) s = .next ((s.vsPut v { s.vse v.val with loops := l } (s.vsPos v.val + 1)).vsShow v) := by
  refine (congrArg Host.Outcome.next (h.vsRow_fixed (ty := 9) rfl (by decide) rfl (by decide) rfl _)).trans ?_
  dsimp only
  rw [hloops]
  dsimp only
  rw [if_pos (Nat.le_refl 1), State.vsSkip_of_part _ v.isLt hpart]

theorem exec_sEnd (hloops : (s.vse v.val).loops = []) (h : s.DecodesNext v.val [0xB0#8]) :
    exec (.sEnd v) s = .next (((s.vsPut v { s.vse v.val with ended := true } (s.vsPos v.val + 1)).p (VS_STATUS_STATE v) 5).vsShow v) := by
  refine (congrArg Host.Outcome.next (h.vsRow_fixed (ty := 0xB) rfl (by decide) rfl (by decide) rfl _)).trans ?_
  rw [if_neg (not_not.2 hloops), State.vsSkip_of_part _ v.isLt hpart]

theorem sEnd_ends (hloops : (s.vse v.val).loops = []) (h : s.DecodesNext v.val [0xB0#8]) :
    Gives (.sEnd v) s (fun t => t.vse v.val = { s.vse v.val with ended := true } ∧ t.g (VS_STATUS_STATE v.val) = 5 ∧
      StreamMoved v.val (s.vsPos v.val + 1) s t ∧ t = { s with regs := t.regs, vs := t.vs }) := by
  refine ⟨_, exec_sEnd hpart hloops h, ?_, ?_, StreamMoved.vsShow ?_ ?_ (fun j hj => ?_) (fun a ha => ?_), ?_⟩
  · rw [State.vse_vsShow, State.vse_congr (State.p_vs ..), State.vse_vsPut _ v.isLt]
  · rw [State.g_vsShow _ (vsShow_apart v _ (by simp))]
    exact State.g_p_fits _ (f := VS_STATUS_STATE v) ⟨(by decide : 2 < 64), (by decide : 0 ≤ 2)⟩ (by decide : 5 < 8)
  · rw [State.vsPos, State.g_p_apart _ (vsState_apart v _ (by simp))]
    exact State.vsPos_vsPut _ _ _ (h.offset_lt (by simp))
  · rw [State.g_p_apart _ (vsState_apart v _ (by simp)), State.g_vsPut _ (by unfold VS_STATUS_SEQ VS_STATUS VS_POS; dsimp only; omega)]
  · rw [State.vse_congr (State.p_vs ..), State.vse_vsPut_ne _ hj]
  · rw [State.rd_p_ne _ _ _ (fun e => ha (by simp [e, VS_STATUS_STATE])), State.rd_vsPut _ (fun e => ha (by simp [e]))]
  · generalize hu : (s.vsPut v.val { s.vse v.val with ended := true } (s.vsPos v.val + 1)).p (VS_STATUS_STATE v) 5 = u
    have hframe := (u.vsShow_moved v).frame
    unfold OnlyRegs at hframe
    rw [hframe, ← hu, State.vsPut_eq]
    rfl

end

/-! ### SQUARE -/

section
variable {s : State} {q m a : Nat}

theorem Sq.has_arrived {x : Sq} {k m : Nat} (hk : x.has k = false) (hne : k ≠ m) (a : Nat) : ({ x with arr := x.arr ++ [(m, a)] } : Sq).has k = false := by
  unfold Sq.has at *
  rw [List.any_append, hk]
  simp [Ne.symm hne]

theorem State.sqShow_sqs (s : State) (q : Nat) : (s.sqShow q).sqs = s.sqs := by simp [State.sqShow]

theorem State.sqShow_moved (s : State) (q : Nat) : RegsMoved [PS_SQ_STATUS q] s (s.sqShow q) :=
  (((((RegsMoved.refl _ s).p (PS_SQ_STATUS_SEQ_ARR q) _ (by simp [PS_SQ_STATUS_SEQ_ARR])).p (PS_SQ_STATUS_VS_ARR q) _
    (by simp [PS_SQ_STATUS_VS_ARR])).pb (PS_SQ_STATUS_TRIG_ARR q) _ (by simp [PS_SQ_STATUS_TRIG_ARR])).pb (PS_SQ_STATUS_RING_ARR q) _
    (by simp [PS_SQ_STATUS_RING_ARR])).pb (PS_SQ_STATUS_FIXED q) _ (by simp [PS_SQ_STATUS_FIXED])

/-- A Square where an enrolled sequencer has not arrived is not complete (R79). -/
theorem State.sqLocal_of_missing (h : ∃ k, k < 32 ∧ nbit (s.g (PS_SQ_ENROL_SEQ q)) k = true ∧ (s.sq q).has k = false) : s.sqLocal q = false := by
  obtain ⟨k, hk, henrolled, hmissing⟩ := h
  have hall : (bitsOf 32 (s.g (PS_SQ_ENROL_SEQ q))).all (s.sq q).has = false :=
    List.all_eq_false.2 ⟨k, List.mem_filter.2 ⟨List.mem_range.2 hk, henrolled⟩, by simp [hmissing]⟩
  simp [State.sqLocal, hall]

/-- An arrival at a Square for which others are still missing. -/
theorem State.sqArrive_early (hq : q < 64) (hnew : (s.sq q).has m = false) (hm : 32 ≤ m)
    (hmissing : ∃ k, k < 32 ∧ nbit (s.g (PS_SQ_ENROL_SEQ q)) k = true ∧ (s.sq q).has k = false) :
    s.sqArrive q m a = (s.modSq q (fun x => { x with arr := x.arr ++ [(m, a)] })).sqShow q := by
  obtain ⟨k, hk, henrolled, hk'⟩ := hmissing
  have hlocal : ((s.modSq q (fun x => { x with arr := x.arr ++ [(m, a)] })).sqShow q).sqLocal q = false := by
    refine State.sqLocal_of_missing ⟨k, hk, ?_, ?_⟩
    · unfold State.g at *
      rw [State.sqShow_rd _ (by unfold PS_SQ_ENROL_SEQ PS_SQ_ENROL PS_SQ_STATUS; dsimp only; omega), State.rd_modSq]
      exact henrolled
    · rw [State.sq_congr (State.sqShow_sqs ..), State.sq_modSq_self _ _ _ hq]
      exact Sq.has_arrived hk' (by omega) a
  unfold State.sqArrive State.sqTry
  rw [if_neg (by simp [hnew]), if_pos (Or.inr (by rw [hlocal]; rfl))]

end

/-- The state in which engine `v` arrives at Square `q`. -/
def State.atSquare (s : State) (v q : Nat) : State :=
  ((s.vsPut v (s.vse v) (s.vsPos v + 2)).p (VS_STATUS_SQ v) q).p (VS_STATUS_STATE v) 4

section
variable (s : State) (v : Fin 16) (q : Nat)

theorem State.atSquare_frame : s.atSquare v q = { s with regs := (s.atSquare v q).regs, vs := (s.atSquare v q).vs } := by
  have hregs : OnlyRegs (s.vsPut v (s.vse v) (s.vsPos v + 2)) (s.atSquare v q) := (OnlyRegs.p _ _ _).trans (OnlyRegs.p _ _ _)
  unfold OnlyRegs at hregs
  generalize s.atSquare v q = t at hregs ⊢
  rw [hregs, State.vsPut_eq]

theorem State.atSquare_vse : (s.atSquare v q).vse v = s.vse v := by
  rw [State.atSquare, State.vse_congr (State.p_vs ..), State.vse_congr (State.p_vs ..), State.vse_vsPut _ v.isLt]

theorem State.atSquare_rd {a : Nat} (h : a ≠ VS_STATUS v) (h' : a ≠ VS_POS v) : (s.atSquare v q).rd a = s.rd a := by
  rw [State.atSquare, State.rd_p_ne _ _ _ h, State.rd_p_ne _ _ _ h, State.rd_vsPut _ h']

theorem State.atSquare_state : (s.atSquare v q).g (VS_STATUS_STATE v) = 4 :=
  State.g_p_fits _ (f := VS_STATUS_STATE v) ⟨(by decide : 2 < 64), (by decide : 0 ≤ 2)⟩ (by decide : 4 < 8)

theorem State.atSquare_sq (h : q < 64) : (s.atSquare v q).g (VS_STATUS_SQ v) = q := by
  rw [State.atSquare, State.g_p_apart _ (vsState_apart v _ (by simp))]
  exact State.g_p_fits _ (f := VS_STATUS_SQ v) ⟨(by decide : 29 < 64), (by decide : 24 ≤ 29)⟩ h

theorem State.atSquare_vsPos (h : s.vsPos v + 2 < 2 ^ 40) : (s.atSquare v q).vsPos v = s.vsPos v + 2 := by
  have hsq : (VS_POS_OFFSET v.val).addr ≠ (VS_STATUS_SQ v.val).addr := by unfold VS_POS_OFFSET VS_STATUS_SQ VS_STATUS VS_POS; dsimp only; omega
  rw [State.vsPos, State.atSquare, State.g_p_apart _ (vsState_apart v _ (by simp)), State.g_p_addr _ _ _ _ hsq]
  exact State.vsPos_vsPut _ _ _ h

section
variable {q : Nat} (hq : q < 64) (f : Sq → Sq)
include hq

/-- The registers of the engine, once the arrival is entered at the Square. -/
theorem State.atSquare_shown (hpos : s.vsPos v + 2 < 2 ^ 40) : let t := (((s.atSquare v q).modSq q f).sqShow q).vsShow v
    t.g (VS_STATUS_STATE v) = 4 ∧ t.g (VS_STATUS_SQ v) = q ∧ t.vsPos v = s.vsPos v + 2 := by
  have hfield : ∀ r ∈ [VS_POS_OFFSET v, VS_STATUS_SEQ v, VS_STATUS_STATE v, VS_STATUS_SQ v, VS_STATUS_DICT_REDEF v], r.addr ∉ [PS_SQ_STATUS q] →
      ((((s.atSquare v q).modSq q f).sqShow q).vsShow v).g r = (s.atSquare v q).g r := fun r hr hne => by
    rw [State.g_vsShow _ (vsShow_apart v r hr), (State.sqShow_moved _ q).kept.g hne, State.g_modSq]
  refine ⟨(hfield _ (by simp) ?_).trans (s.atSquare_state v q), (hfield _ (by simp) ?_).trans (s.atSquare_sq v q hq),
    (hfield _ (by simp) ?_).trans (s.atSquare_vsPos v q hpos)⟩ <;> rw [List.mem_singleton]
  · unfold VS_STATUS_STATE VS_STATUS PS_SQ_STATUS
    dsimp only
    omega
  · unfold VS_STATUS_SQ VS_STATUS PS_SQ_STATUS
    dsimp only
    omega
  · unfold VS_POS_OFFSET VS_POS PS_SQ_STATUS
    dsimp only
    omega

/-- What the arrival changes besides registers: Square `q`. -/
theorem State.atSquare_joined : let t := (((s.atSquare v q).modSq q f).sqShow q).vsShow v
    t.sq q = f (s.sq q) ∧ (∀ r, r ≠ q → t.sq r = s.sq r) ∧ t.vse v = s.vse v ∧ t.mem = s.mem ∧ t.seqs = s.seqs := by
  intro t
  have hregs : OnlyRegs ((s.atSquare v q).modSq q f) t := (State.sqShow_moved _ q).frame.trans (State.vsShow_moved _ v).frame
  have hsq : ∀ r, (s.atSquare v q).sq r = s.sq r := State.sq_congr (by rw [State.atSquare_frame])
  have hsqs : t.sqs = ((s.atSquare v q).modSq q f).sqs := by rw [hregs]
  have hvs : t.vs = ((s.atSquare v q).modSq q f).vs := by rw [hregs]
  refine ⟨?_, fun r hr => ?_, ?_, ?_, ?_⟩
  · rw [State.sq_congr hsqs, State.sq_modSq_self _ _ _ hq, hsq]
  · rw [State.sq_congr hsqs, State.sq_modSq_ne _ _ hr, hsq]
  · rw [State.vse_congr hvs, State.vse_congr (State.modSq_vs ..), State.atSquare_vse]
  · rw [hregs.mem, State.modSq_mem, State.atSquare_frame]
  · rw [hregs.seqs, State.modSq_seqs, State.atSquare_frame]

end

end

section
variable {s : State} {v : Fin 16} {q : Nat} (hpart : (s.vse v.val).part = 0) (hq : q < 64)
  (henrolled : nbit (s.g (PS_SQ_ENROL_VS q)) v.val = true) (hnew : (s.sq q).has (32 + v.val) = false)
  (hmissing : ∃ k, k < 32 ∧ nbit (s.g (PS_SQ_ENROL_SEQ q)) k = true ∧ (s.sq q).has k = false) (h : s.DecodesNext v.val (0xA0#8 :: toLe 1 q))
include hpart hq henrolled hnew hmissing h

theorem exec_sSquare : exec (.sSquare v) s = .next ((((s.atSquare v q).modSq q (fun x => { x with
    arr := x.arr ++ [(32 + v.val, s.tb.fine)] })).sqShow q).vsShow v) := by
  have hnumber : u (0xA0#8 :: toLe 1 q) 1 1 = q := by rw [u_cons_succ, u_toLe_whole (by omega)]
  have hgood : recBad 0xA (0xA0#8 :: toLe 1 q) = false := by
    simp only [recBad, hnumber, u_cons_zero]
    simp
    omega
  have hsq : (s.atSquare v q).sq q = s.sq q := State.sq_congr (by rw [State.atSquare_frame]) q
  have htb : (s.atSquare v q).tb = s.tb := by rw [State.atSquare_frame]
  have henrol : (s.atSquare v q).g (PS_SQ_ENROL_SEQ q) = s.g (PS_SQ_ENROL_SEQ q) := by
    unfold State.g
    rw [State.atSquare_rd _ _ _ (by unfold PS_SQ_ENROL_SEQ PS_SQ_ENROL VS_STATUS; dsimp only; omega)
      (by unfold PS_SQ_ENROL_SEQ PS_SQ_ENROL VS_POS; dsimp only; omega)]
  refine (congrArg Host.Outcome.next (h.vsRow_fixed (ty := 0xA) rfl (by decide) rfl hgood rfl _)).trans ?_
  simp only [hnumber, henrolled, Bool.not_true, Bool.false_eq_true, if_false]
  rw [State.vsSkip_eq _ v.isLt hpart]
  change Host.Outcome.next (((s.atSquare v q).sqArrive q (32 + v.val) (s.atSquare v q).tb.fine).vsShow v) = _
  rw [htb]
  refine congrArg (fun t : State => Host.Outcome.next (t.vsShow v)) (State.sqArrive_early hq ?_ (Nat.le_add_right 32 v) ?_)
  · exact (congrArg (fun x : Sq => x.has (32 + v.val)) hsq).trans hnew
  · obtain ⟨k, hk, hbit, hno⟩ := hmissing
    refine ⟨k, hk, ?_, ?_⟩
    · exact (congrArg (fun n => nbit n k) henrol).trans hbit
    · exact (congrArg (fun x : Sq => x.has k) hsq).trans hno

theorem sSquare_arrives (htrel : (s.sq q).trel = none) : Gives (.sSquare v) s (fun t => t.g (VS_STATUS_STATE v.val) = 4 ∧ t.g (VS_STATUS_SQ v.val) = q ∧
    (t.sq q).arr = (s.sq q).arr ++ [(32 + v.val, s.tb.fine)] ∧ (t.sq q).trel = none ∧ (∀ r, r ≠ q → t.sq r = s.sq r) ∧
    t.vse v.val = s.vse v.val ∧ t.vsPos v.val = s.vsPos v.val + 2 ∧ t.mem = s.mem ∧ t.seqs = s.seqs) := by
  refine ⟨_, exec_sSquare hpart hq henrolled hnew hmissing h, ?_⟩
  obtain ⟨hstate, hsq, hpos⟩ := s.atSquare_shown v hq (fun x => { x with arr := x.arr ++ [(32 + v.val, s.tb.fine)] })
    (h.offset_lt (k := 2) (by simp))
  obtain ⟨hself, hothers, hengine, hmem, hseqs⟩ := s.atSquare_joined v hq (fun x => { x with arr := x.arr ++ [(32 + v.val, s.tb.fine)] })
  exact ⟨hstate, hsq, by rw [hself], by rw [hself]; exact htrel, hothers, hengine, hpos, hmem, hseqs⟩

end

/-! ### The records that emit nothing -/

/-- Settles O39, record by record. -/
theorem streamRecordsAct : Obligations.StreamRecordsAct := by
  unfold Obligations.StreamRecordsAct
  intro s v hpart x w o only
  refine ⟨fun hat => ?_, fun i b hin hi hfit hp hc hb hat => ?_, fun i hin hi hvalid hfit hat => ?_, fun b m hlo hhi hm hat => ?_,
    fun n hlo hhi hdepth hat => ?_, fun a n l hloops ha hat => ⟨fun hn => ?_, fun hn => ?_⟩,
    fun q hq henrolled htrel hnew hmissing hat => ?_, fun hloops hat => ?_⟩ <;> have hnext := State.decodesNext_of_streamAt hat
  · exact gives_vsPut (exec_sPad hpart hnext) (hnext.offset_lt (by simp))
  · exact sDictDef_defines hpart hin hi hfit hp hc hb hnext
  · exact gives_vsPut (exec_sDictUse_setOnly hpart hin hi hvalid hfit hnext) (hnext.offset_lt (by simp))
  · exact gives_vsPut (exec_sScanCfg hpart hlo hhi hm hnext) (hnext.offset_lt (by simp))
  · exact gives_vsPut (exec_sLoop hpart hlo hhi hdepth hnext) (hnext.offset_lt (by simp))
  · have hfits := hnext.fits
    exact gives_vsPut (exec_sEndloop_again hpart hloops hn hnext) (by omega)
  · subst hn
    exact gives_vsPut (exec_sEndloop_last hpart hloops hnext) (hnext.offset_lt (by simp))
  · exact sSquare_arrives hpart hq henrolled hnew hmissing hnext htrel
  · exact sEnd_ends hpart hloops hnext

end Sys2Proof.Machine
end

section
/-! SUPPORT. STREAM_PRIMED, and STREAM_ARM with DISARM (R119, R120). -/

namespace Sys2Proof.Machine

/-! ### Arguments packed from numbers -/

/-- The numbers of `fs`, each with its size in bytes, one behind the other. -/
def packed (fs : List (Nat × Nat)) : List Byte := fs.flatMap (fun f => toLe f.1 f.2)

theorem packed_length (fs : List (Nat × Nat)) : (packed fs).length = (fs.map Prod.fst).sum := by
  induction fs with
  | nil => rfl
  | cons f fs ih =>
    rw [packed, List.flatMap_cons, List.length_append, toLe_length, List.map_cons, List.sum_cons, ← ih]
    rfl

theorem packed_split (l : List (Nat × Nat)) (f : Nat × Nat) (r : List (Nat × Nat)) :
    packed (l ++ f :: r) = packed l ++ toLe f.1 f.2 ++ packed r := by simp [packed]

section
variable {fs : List (Nat × Nat)} (i : Nat) {n : Nat}

theorem packed_at {v : Nat} (h : fs[i]? = some (n, v)) : packed fs = packed (fs.take i) ++ toLe n v ++ packed (fs.drop (i + 1)) := by
  obtain ⟨hi, hget⟩ := List.getElem?_eq_some_iff.1 h
  conv_lhs => rw [← List.take_append_drop i fs, List.drop_eq_getElem_cons hi, hget]
  exact packed_split _ _ _

/-- The number at place `i`. -/
theorem u_packed {v : Nat} (h : fs[i]? = some (n, v)) (hv : v < 256 ^ n) : u (packed fs) ((fs.take i).map Prod.fst).sum n = v := by
  rw [packed_at i h, ← packed_length, u_toLe, Nat.mod_eq_of_lt hv]

theorem zeros_packed (h : fs[i]? = some (n, 0)) : zeros (packed fs) ((fs.take i).map Prod.fst).sum n = true := by
  rw [packed_at i h, ← packed_length, zeros_middle]

end

/-! ### An engine's registers and the records of commands -/

theorem State.alone_of_kept {s t : State} {l : List Nat} (h : RegsKept l s t) (hl : TWN_STATUS ∉ l) (hs : s.alone) : t.alone :=
  State.alone_of_g hs (h.g (f := TWN_STATUS_ROLE) hl) (h.g (f := TWN_STATUS_PAIRED) hl)

/-- What the records of commands move, from a state that differs in registers and engines. -/
theorem OnlyJournal.setVs {s u : State} (h : OnlyJournal s u) (r : Tab Word) (x : Vector VsEng 16) :
    OnlyJournal { s with regs := r, vs := x } { u with regs := r, vs := x } := by
  unfold OnlyJournal at h ⊢
  rw [h]

theorem OnlyJournal.of_frame {s e t : State} (he : e = { s with regs := e.regs, vs := e.vs }) (h : OnlyJournal e t) :
    OnlyJournal { s with regs := t.regs, vs := t.vs } t := by
  have hvs : t.vs = e.vs := by rw [h]
  rw [h.regs, hvs, ← he]
  exact h

theorem OnlyJournal.mem {s t : State} (h : OnlyJournal s t) : t.mem = s.mem := by rw [h]

theorem OnlyJournal.seqs {s t : State} (h : OnlyJournal s t) : t.seqs = s.seqs := by rw [h]

theorem twnStatus_notMem_vs (v : Fin 16) : TWN_STATUS ∉ [VS_STATUS v] := by
  unfold VS_STATUS
  rw [List.mem_singleton, TWN_STATUS]
  omega

/-! ### STREAM_PRIMED -/

/-- Engine `v` shows that it is PRIMED and READY, and its STREAM_ARM is no longer noted. -/
def State.primed (s : State) (v : Nat) : State :=
  ((s.pb (VS_STATUS_PRIMED v) true).p (VS_STATUS_STATE v) 2).modVs v (fun x => { x with arm := none })

section
variable {s : State} {v : Fin 16} {i : Nat}

theorem State.primed_frame : s.primed v = { s with regs := (s.primed v).regs, vs := (s.primed v).vs } := by
  have hregs : OnlyRegs s ((s.pb (VS_STATUS_PRIMED v) true).p (VS_STATUS_STATE v) 2) := (OnlyRegs.p _ _ _).trans (OnlyRegs.p _ _ _)
  unfold State.primed
  generalize (s.pb (VS_STATUS_PRIMED v) true).p (VS_STATUS_STATE v) 2 = e at hregs ⊢
  rw [State.modVs_eq, hregs]

theorem State.primed_kept : RegsKept [VS_STATUS v] s (s.primed v) := fun a ha => by
  have hne : a ≠ VS_STATUS v := fun e => ha (by simp [e])
  rw [State.primed, State.rd_modVs, State.rd_p_ne _ _ _ hne, State.rd_pb_ne _ _ _ hne]

theorem State.primed_state : (s.primed v).g (VS_STATUS_STATE v) = 2 :=
  (State.g_modVs ..).trans (State.g_p_fits _ (f := VS_STATUS_STATE v) ⟨(by decide : 2 < 64), (by decide : 0 ≤ 2)⟩ (by decide : 2 < 8))

theorem vsPrimed_apart : ∀ v : Fin 16, (VS_STATUS_STATE v).apart (VS_STATUS_PRIMED v) := by decide

theorem State.primed_primed : (s.primed v).gb (VS_STATUS_PRIMED v) = true := by
  rw [State.primed, State.gb_modVs, State.gb_p_apart _ (vsPrimed_apart v)]
  exact State.gb_pb_self _ (VS_STATUS_PRIMED v) true (by simp [VS_STATUS_PRIMED]) (by simp [VS_STATUS_PRIMED])

theorem State.primed_vse : (s.primed v).vse v = { s.vse v with arm := none } := by
  rw [State.primed, State.vse_modVs_self _ _ _ v.isLt, State.vse_congr (State.p_vs ..), State.vse_congr (State.pb_vs ..)]

theorem State.primed_vse_ne {j : Nat} (h : j ≠ v) : (s.primed v).vse j = s.vse j := by
  rw [State.primed, State.vse_modVs_ne _ _ h, State.vse_congr (State.p_vs ..), State.vse_congr (State.pb_vs ..)]

theorem exec_streamPrimed (hticks : s.ticksOf (vsDom v) = true) (hst : s.g (VS_STATUS_STATE v) = 1) (hprimed : s.gb (VS_STATUS_PRIMED v) = false)
    (hvb : s.vsVb v = true) (hqueue : (s.vse v).queue.length = 32) (harm : (s.vse v).arm = some i) :
    exec (.streamPrimed v) s = .next ((s.primed v).finish i 0 0) := by
  have hexec : exec (.streamPrimed v) s = .next (if !s.ticksOf (vsDom v.val) then s else s.vsPrimed v.val) := rfl
  rw [hexec, hticks]
  simp [State.vsPrimed, State.primed, State.finishOpt, hst, hprimed, hvb, hqueue, harm]

/-- A full queue over a stream in the Vector Buffer meets R120. -/
theorem streamPrimed_completes (hticks : s.ticksOf (vsDom v) = true) (halone : s.alone) (hst : s.g (VS_STATUS_STATE v) = 1)
    (hprimed : s.gb (VS_STATUS_PRIMED v) = false) (hvb : s.vsVb v = true) (hqueue : (s.vse v).queue.length = 32)
    (harm : (s.vse v).arm = some i) (hopen : s.cmdOpen i = true) :
    Gives (.streamPrimed v) s (fun t => t.ends i 0 0 ∧ t.g (VS_STATUS_STATE v.val) = 2 ∧ t.gb (VS_STATUS_PRIMED v.val) = true ∧
      t.vse v.val = { s.vse v.val with arm := none } ∧ (∀ j, j ≠ v.val → t.vse j = s.vse j) ∧ RegsKept [VS_STATUS v.val] s t ∧
      OnlyJournal { s with regs := t.regs, vs := t.vs } t) := by
  have halone' : (s.primed v).alone := State.alone_of_kept State.primed_kept (twnStatus_notMem_vs v) halone
  have hend : OnlyJournal (s.primed v) ((s.primed v).finish i 0 0) := OnlyJournal.finish _ i 0 0 halone'
  have hvs : ((s.primed v).finish i 0 0).vs = (s.primed v).vs := by rw [hend]
  have hopen' : (s.primed v).cmdOpen i = true := by rwa [State.cmdOpen_congr (s := s) (by rw [State.primed_frame])]
  refine ⟨_, exec_streamPrimed hticks hst hprimed hvb hqueue harm, State.ends_finish halone' hopen' 0 0, ?_, ?_, ?_, fun j hj => ?_,
    fun a ha => ?_, OnlyJournal.of_frame State.primed_frame hend⟩
  · rw [State.g_congr hend.regs, State.primed_state]
  · rw [State.gb_congr hend.regs, State.primed_primed]
  · rw [State.vse_congr hvs, State.primed_vse]
  · rw [State.vse_congr hvs, State.primed_vse_ne hj]
  · rw [State.rd_congr hend.regs, State.primed_kept a ha]

end

/-! ### DISARM -/

section
variable {b : List Byte} {v : Fin 16} (hargs : b = packed [(1, v.val), (1, 0), (1, 2), (45, 0)])
include hargs

theorem disarm_args : b.length = 48 ∧ u b 0 1 = v.val ∧ u b 2 1 = 2 ∧ zeros b 1 1 = true ∧ zeros b 3 45 = true := by
  subst hargs
  exact ⟨packed_length _, u_packed 0 rfl (by omega), u_packed 2 rfl (by decide), zeros_packed 1 rfl, zeros_packed 3 rfl⟩

end

/-- Engine `v` is withdrawn from its Squares and its binding ends. -/
abbrev State.withdrawn (s : State) (v : Nat) : State := (s.sqWithdraw (32 + v)).vsUnbind v

section
variable {s : State} {v : Fin 16} {c : Cmd} (hargs : c.args = packed [(1, v.val), (1, 0), (1, 2), (45, 0)])
include hargs

/-- DISARM on a sealed device. -/
theorem streamArm_disarm (hsealed : s.plan.sealed = true) : streamArm c s = streamDisarm c s := by
  obtain ⟨-, -, hflags, -, -⟩ := disarm_args hargs
  unfold streamArm
  dsimp only
  rw [hsealed, hflags]
  rfl

variable (hward : s.vsWard v = some c.ward.val)
include hward

theorem streamDisarm_idle (hst : s.g (VS_STATUS_STATE v) = 0) : streamDisarm c s = s.complete c := by
  obtain ⟨hlen, hv, hflags, hzero, hzeros⟩ := disarm_args hargs
  unfold streamDisarm
  rw [hv, if_neg (not_not.2 hward), hlen, hflags, hzero, hzeros, if_neg (by simp; omega), if_pos hst]

theorem streamDisarm_bound {i : Nat} (hst : s.g (VS_STATUS_STATE v) ≠ 0) (hburst : s.bursting (s.g (VS_STATUS_SEQ v)) = false)
    (harm : (s.vse v).arm = some i) : streamDisarm c s = (((s.started c).withdrawn v).finishF i 0).finishF c.id 0 := by
  obtain ⟨hlen, hv, hflags, hzero, hzeros⟩ := disarm_args hargs
  unfold streamDisarm
  rw [hv, if_neg (not_not.2 hward), hlen, hflags, hzero, hzeros, if_neg (by simp; omega), if_neg hst, hburst, if_neg (by simp), harm]

end

/-- The owner of a unit depends on the plan alone. -/
theorem State.findWard_congr {s t : State} (h : t.plan = s.plan) (f : WardRec → Bool) : t.findWard f = s.findWard f := by
  unfold State.findWard State.ward
  rw [h]

/-! ### The engine withdrawn -/

section
variable (s : State) (v : Fin 16)

theorem State.withdrawn_rd {a : Nat} (hsq : ∀ q, q < 64 → a ≠ PS_SQ_STATUS q) (hst : a ≠ VS_STATUS v) (hlv : a ≠ VS_LEVEL v) :
    (s.withdrawn v).rd a = s.rd a := by
  rw [State.withdrawn, State.vsUnbind_rd _ hst hlv, State.sqWithdraw_rd _ _ hsq]

theorem State.withdrawn_kept {γ : Type} (g : State → γ) (hsq : ∀ (t : State) q f, g (t.modSq q f) = g t)
    (hp : ∀ (t : State) f v, g (t.p f v) = g t) (hvs : ∀ (t : State) v f, g (t.modVs v f) = g t) : g (s.withdrawn v) = g s := by
  simp only [State.withdrawn, State.vsUnbind, State.pb, hp, hvs]
  exact State.sqWithdraw_kept g hsq hp s _

theorem State.withdrawn_alone (h : s.alone) : (s.withdrawn v).alone := by
  have hrd := s.withdrawn_rd v TWN_STATUS_far.1 (by rw [TWN_STATUS]; unfold VS_STATUS; omega) (by rw [TWN_STATUS]; unfold VS_LEVEL; omega)
  exact State.alone_of_g h (congrArg (fun w => getBits w _ _) hrd) (congrArg (fun w => getBits w _ _) hrd)

theorem vsUnbind_apart : ∀ v : Fin 16, ∀ f ∈ [VS_STATUS_LOOP_DEPTH v, VS_LEVEL_RING v, VS_LEVEL_QUEUE v],
    ∀ x ∈ [VS_STATUS_STATE v, VS_STATUS_BOUND v], f.apart x := by decide
theorem vsBound_apart : ∀ v : Fin 16, (VS_STATUS_BOUND v).apart (VS_STATUS_STATE v) := by decide

theorem State.withdrawn_fields : (s.withdrawn v).g (VS_STATUS_STATE v) = 0 ∧ (s.withdrawn v).gb (VS_STATUS_BOUND v) = false := by
  unfold State.withdrawn State.vsUnbind
  generalize (s.sqWithdraw (32 + v)).modVs v _ = u
  constructor
  · rw [State.g_p_apart _ (vsUnbind_apart v _ (by simp) _ (by simp)), State.g_p_apart _ (vsUnbind_apart v _ (by simp) _ (by simp)),
      State.g_p_apart _ (vsUnbind_apart v _ (by simp) _ (by simp)), State.g_pb_apart _ (vsBound_apart v)]
    exact State.g_p_fits _ (f := VS_STATUS_STATE v) ⟨(by decide : 2 < 64), (by decide : 0 ≤ 2)⟩ (by decide : 0 < 8)
  · rw [State.gb_p_apart _ (vsUnbind_apart v _ (by simp) _ (by simp)), State.gb_p_apart _ (vsUnbind_apart v _ (by simp) _ (by simp)),
      State.gb_p_apart _ (vsUnbind_apart v _ (by simp) _ (by simp))]
    exact State.gb_pb_self _ (VS_STATUS_BOUND v) false (by simp [VS_STATUS_BOUND]) (by simp [VS_STATUS_BOUND])

end

/-! ### Commands of other names -/

theorem State.cmdOpen_modCmd_ne {s : State} {i x : Nat} (h : s.cmdOpen i = true) (hne : i ≠ x) (f : Cmd → Cmd) : (s.modCmd x f).cmdOpen i = true := by
  obtain ⟨c, hc, hkey⟩ := List.any_eq_true.1 h
  have hid : c.id = i := by
    simp only [Bool.and_eq_true, decide_eq_true_eq] at hkey
    exact hkey.1
  exact List.any_eq_true.2 ⟨c, mem_updFirst_of_not hc (by simp [hid, hne]), hkey⟩

theorem State.takes.begun_cmdOpen_ne {s : State} {w : Fin 4} {q : Fin 8} {op : Nat} {c : Cmd} (h : s.takes w q op c) {i : Nat}
    (ho : s.cmdOpen i = true) (hne : i ≠ c.id) : (s.begun c).cmdOpen i = true := by
  unfold State.begun State.started
  rw [State.cmdOpen_congr (State.openKeys_record (((OnlyJournal.modCmd _ _ _).trans (OnlyJournal.modCmd _ _ _)).alone h.2) _ _ _ _)]
  exact State.cmdOpen_modCmd_ne (State.cmdOpen_modCmd_ne ho hne _) hne _

/-- From a state that holds the records of the command's start, another command completes, and then this one. -/
theorem State.takes.completes_both {s e : State} {w : Fin 4} {q : Fin 8} {op : Nat} {c : Cmd} (h : s.takes w q op c)
    (hjnl : e.jnl = (s.begun c).jnl) (hcmds : e.cmds = (s.begun c).cmds) (he : e.alone) {i : Nat} (ho : s.cmdOpen i = true) (hne : i ≠ c.id) :
    ((e.finishF i 0).finishF c.id 0).completes c.id 0 ∧ ∃ a, ((e.finishF i 0).finishF c.id 0).ends i 0 a := by
  have hkeys : openKeys e.cmds = openKeys (s.begun c).cmds := by rw [hcmds]
  have hi : e.cmdOpen i = true := (State.cmdOpen_congr hkeys i).trans (h.begun_cmdOpen_ne ho hne)
  have hc : (e.finishF i 0).cmdOpen c.id = true :=
    State.cmdOpen_finish_ne (s := e.useFree) ((State.cmdOpen_congr hkeys c.id).trans h.begun_cmdOpen) hne.symm 0 _
  have halone : (e.finishF i 0).alone := (OnlyJournal.finishF e i 0 he).alone he
  have hstart : (e.finishF i 0).starts c.id := State.starts_finishF he (State.holdsDue_congr hjnl h.begun_starts) i 0
  obtain ⟨d, haw, hrec⟩ := State.ends_finishF he hi 0
  exact ⟨⟨State.starts_finishF halone hstart c.id 0, _, State.ends_finishF halone hc 0⟩, _, d,
    (RecordsMoved.finishF _ c.id 0).awaits d haw, hrec⟩

section
variable {s : State} {v : Fin 16} {w : Fin 4} {q : Fin 8} {c : Cmd} (h : s.takes w q 0x30 c)
include h

/-- The state and the command on which the command at the front of its queue runs. -/
theorem State.takes.streamArm_runs : ∃ m d, exec (.streamArm w q) s = .next (streamArm d m) ∧ d.id = c.id ∧ d.args = c.args ∧ d.ward = w ∧
    m.started d = s.begun c ∧ OnlyJournal s m :=
  ⟨_, _, congrArg Host.Outcome.next (h.runCmd streamArm), rfl, rfl, h.ward, rfl, OnlyJournal.modCmd _ _ _⟩

variable (hargs : c.args = packed [(1, v.val), (1, 0), (1, 2), (45, 0)]) (hsealed : s.plan.sealed = true) (hward : s.vsWard v = some w.val)
include hargs hsealed hward

theorem exec_streamArm_idle (hst : s.g (VS_STATUS_STATE v) = 0) : exec (.streamArm w q) s = .next ((s.begun c).finishF c.id 0) := by
  obtain ⟨m, d, hexec, hid, hargs', hward', hbegun, hm⟩ := h.streamArm_runs
  have hplan : m.plan = s.plan := by rw [hm]
  rw [hexec, streamArm_disarm (hargs'.trans hargs) (by rw [hplan, hsealed]), streamDisarm_idle (hargs'.trans hargs)
    (by rw [State.vsWard, State.findWard_congr hplan, hward']; exact hward) ((State.g_congr hm.regs _).trans hst), State.complete, hbegun, hid]

theorem exec_streamArm_bound {i : Nat} (hst : s.g (VS_STATUS_STATE v) ≠ 0) (hburst : s.bursting (s.g (VS_STATUS_SEQ v)) = false)
    (harm : (s.vse v).arm = some i) : exec (.streamArm w q) s = .next ((((s.begun c).withdrawn v).finishF i 0).finishF c.id 0) := by
  obtain ⟨m, d, hexec, hid, hargs', hward', hbegun, hm⟩ := h.streamArm_runs
  have hplan : m.plan = s.plan := by rw [hm]
  have hvse : m.vse v = s.vse v := State.vse_congr (by rw [hm]) v
  have hbursting : ∀ k, m.bursting k = s.bursting k := State.bursting_congr (by rw [hm])
  rw [hexec, streamArm_disarm (hargs'.trans hargs) (by rw [hplan, hsealed]), streamDisarm_bound (hargs'.trans hargs)
    (by rw [State.vsWard, State.findWard_congr hplan, hward']; exact hward) (by rwa [State.g_congr hm.regs])
    (by rwa [hbursting, State.g_congr hm.regs]) (by rwa [hvse]), hbegun, hid]

theorem disarm_idle_completes (hst : s.g (VS_STATUS_STATE v) = 0) :
    Gives (.streamArm w q) s (fun t => t.completes c.id 0 ∧ OnlyJournal s t) :=
  ⟨_, exec_streamArm_idle h hargs hsealed hward hst, h.completes_finishF rfl rfl h.begun_alone,
    h.begun_onlyJournal.trans (OnlyJournal.finishF _ _ _ h.begun_alone)⟩

theorem disarm_bound_completes {i : Nat} (hst : s.g (VS_STATUS_STATE v) ≠ 0) (hburst : s.bursting (s.g (VS_STATUS_SEQ v)) = false)
    (harm : (s.vse v).arm = some i) (hne : i ≠ c.id) (hopen : s.cmdOpen i = true) :
    Gives (.streamArm w q) s (fun t => t.completes c.id 0 ∧ (∃ a, t.ends i 0 a) ∧
      t.g (VS_STATUS_STATE v.val) = 0 ∧ t.gb (VS_STATUS_BOUND v.val) = false ∧ t.mem = s.mem ∧ t.seqs = s.seqs) := by
  refine ⟨_, exec_streamArm_bound h hargs hsealed hward hst hburst harm, ?_⟩
  have halone : ((s.begun c).withdrawn v).alone := State.withdrawn_alone _ v h.begun_alone
  obtain ⟨hcompletes, hends⟩ := h.completes_both ((s.begun c).withdrawn_kept v State.jnl (by simp) (by simp) (by simp))
    ((s.begun c).withdrawn_kept v State.cmds (by simp) (by simp) (by simp)) halone hopen hne
  have hend : OnlyJournal ((s.begun c).withdrawn v) ((((s.begun c).withdrawn v).finishF i 0).finishF c.id 0) :=
    (OnlyJournal.finishF _ i 0 halone).trans (OnlyJournal.finishF _ _ _ ((OnlyJournal.finishF _ i 0 halone).alone halone))
  obtain ⟨hstate, hbound⟩ := (s.begun c).withdrawn_fields v
  refine ⟨hcompletes, hends, by rw [State.g_congr hend.regs, hstate], by rw [State.gb_congr hend.regs, hbound], ?_, ?_⟩
  · rw [hend.mem, State.withdrawn_kept _ v State.mem (by simp) (by simp) (by simp), h.begun_onlyJournal.mem]
  · rw [hend.seqs, State.withdrawn_kept _ v State.seqs (by simp) (by simp) (by simp), h.begun_onlyJournal.seqs]

end

end Sys2Proof.Machine
end

section
/-! SUPPORT. STREAM_ARM that binds an engine (R117 to R119). -/

namespace Sys2Proof.Machine

/-! ### Several fields written one after the other -/

/-- Each field takes its value, in order. -/
def State.puts (s : State) (l : List (FRef × Nat)) : State := forEach l s (fun p s => s.p p.1 p.2)

theorem State.puts_cons (s : State) (f : FRef) (v : Nat) (l : List (FRef × Nat)) : s.puts ((f, v) :: l) = (s.p f v).puts l := rfl

theorem State.puts_moved (s : State) {l : List (FRef × Nat)} {r : List Nat} (h : ∀ p ∈ l, p.1.addr ∈ r) : RegsMoved r s (s.puts l) :=
  forEach_rel_of_mem (RegsMoved.refl r) RegsMoved.trans l s _ fun p hp t => (RegsMoved.refl r t).p p.1 p.2 (h p hp)

theorem State.g_puts_apart (s : State) {l : List (FRef × Nat)} {f : FRef} (h : ∀ g ∈ l.map Prod.fst, g.apart f) : (s.puts l).g f = s.g f :=
  forEach_keeps_of_mem (fun t : State => t.g f) l s _ fun p hp t => t.g_p_apart (h p.1 (List.mem_map_of_mem hp)) p.2

/-- Fields that share no bit hold what was written. -/
theorem State.g_puts (s : State) {l : List (FRef × Nat)} (hl : (l.map Prod.fst).Pairwise (fun f g => g.apart f)) {f : FRef} {v : Nat}
    (h : (f, v) ∈ l) (hf : f.hi < 64 ∧ f.lo ≤ f.hi) (hv : v < 2 ^ (f.hi + 1 - f.lo)) : (s.puts l).g f = v := by
  induction l generalizing s with
  | nil => cases h
  | cons p l ih =>
    obtain ⟨hp, hrest⟩ := List.pairwise_cons.1 hl
    rw [State.puts_cons]
    rcases List.mem_cons.1 h with rfl | h
    · rw [State.g_puts_apart _ hp, State.g_p_fits s hf hv]
    · exact ih _ hrest h

theorem State.gb_of_g {s : State} {f : FRef} {b : Bool} (h : s.g f = b2n b) : s.gb f = b := by
  rw [State.gb, h]
  cases b <;> rfl

/-! ### Registers that return to reset -/

theorem RegsMoved.rst {l : List Nat} {s t : State} (h : RegsMoved l s t) {a : Nat} (ha : a ∈ l) : RegsMoved l s (t.rst a) :=
  h.trans ⟨rfl, fun _ hb => State.rd_wr_ne _ _ (fun e => hb (e ▸ ha))⟩

theorem State.rd_rstEach (s : State) {l : List Nat} {a : Nat} (h : a ∈ l) : (forEach l s (fun a s => s.rst a)).rd a = resetAt a := by
  induction l generalizing s with
  | nil => cases h
  | cons b l ih =>
    show (forEach l (s.rst b) _).rd a = _
    by_cases ha : a ∈ l
    · exact ih _ ha
    · obtain rfl := (List.mem_cons.1 h).resolve_right ha
      exact (forEach_keeps_of_mem (fun t : State => t.rd a) l _ _ fun b hb t => State.rd_wr_ne _ _ (fun e => ha (e ▸ hb))).trans
        (State.rd_wr_self ..)

/-! ### The engine as STREAM_ARM leaves it -/

/-- The registers of an engine that STREAM_ARM returns to reset. -/
abbrev vsArmReset (v : Nat) : List Nat := [VS_STATUS v, VS_POS v, VS_LEVEL v, VS_COUNT v, VS_UR v, VS_ERR v, VS_CKPT v]

/-- The registers of an engine that STREAM_ARM writes. -/
abbrev vsArmWritten (v : Nat) : List Nat :=
  vsArmReset v ++ [VS_ARM_SRC v, VS_ARM_LEN v, VS_ARM_RING v, VS_ARM_DICT v] ++ (List.range 4).map (VS_CKPT_LOOP v)

/-- Engine `v` holds `x`, and its registers are as after reset. -/
def State.armCleared (s : State) (v : Nat) (x : VsEng) : State :=
  forEach (List.range 4) (forEach (vsArmReset v) (s.modVs v (fun _ => x)) (fun a s => s.rst a)) (fun i s => s.rst (VS_CKPT_LOOP v i))

/-- What STREAM_ARM without a dictionary writes into the registers of engine `v`. -/
def vsArmPuts (v k : Nat) (vb : Bool) (off len roff rsize : Nat) : List (FRef × Nat) :=
  [(VS_STATUS_STATE v, 1), (VS_STATUS_BOUND v, 1), (VS_STATUS_SEQ v, k), (VS_STATUS_SRC_VB v, b2n vb), (VS_ARM_SRC_STREAM_OFF v, off),
    (VS_ARM_LEN_STREAM_LEN v, len), (VS_ARM_RING_RING_OFF v, roff), (VS_ARM_RING_RING_SIZE v, rsize), (VS_ARM_DICT_DICT_OFF v, 0),
    (VS_ARM_DICT_DICT_ENTRIES v, 0)]

/-- The fields that it writes. -/
abbrev vsArmFields (v : Nat) : List FRef := [VS_STATUS_STATE v, VS_STATUS_BOUND v, VS_STATUS_SEQ v, VS_STATUS_SRC_VB v, VS_ARM_SRC_STREAM_OFF v,
  VS_ARM_LEN_STREAM_LEN v, VS_ARM_RING_RING_OFF v, VS_ARM_RING_RING_SIZE v, VS_ARM_DICT_DICT_OFF v, VS_ARM_DICT_DICT_ENTRIES v]

theorem vsArmPuts_fields (v k : Nat) (vb : Bool) (off len roff rsize : Nat) :
    (vsArmPuts v k vb off len roff rsize).map Prod.fst = vsArmFields v := rfl

theorem vsArmFields_apart : ∀ v : Fin 16, (vsArmFields v).Pairwise (fun f g => g.apart f) := by decide

theorem vsStart_apart : ∀ v : Fin 16, ∀ f ∈ [VS_POS_OFFSET v, VS_COUNT_SETS v], ∀ g ∈ vsArmFields v, g.apart f := by decide

theorem vsArm_reset : ∀ v : Fin 16, getBits (resetAt (VS_POS v)) 39 0 = 0 ∧ getBits (resetAt (VS_COUNT v)) 47 0 = 0 := by decide

section
variable (s : State) (v : Fin 16) (x : VsEng)

theorem State.armCleared_moved : RegsMoved (vsArmWritten v) (s.modVs v (fun _ => x)) (s.armCleared v x) :=
  (forEach_rel_of_mem (RegsMoved.refl _) RegsMoved.trans _ _ _ fun _ ha t => (RegsMoved.refl _ t).rst
    (List.mem_append_left _ (List.mem_append_left _ ha))).trans
  (forEach_rel_of_mem (RegsMoved.refl _) RegsMoved.trans _ _ _ fun _ hi t => (RegsMoved.refl _ t).rst
    (List.mem_append_right _ (List.mem_map_of_mem hi)))

theorem State.armCleared_reset {a : Nat} (h : a ∈ vsArmReset v) (hloop : ∀ i, i < 4 → a ≠ VS_CKPT_LOOP v i) :
    (s.armCleared v x).rd a = resetAt a :=
  (forEach_keeps_of_mem (fun t : State => t.rd a) _ _ _ fun i hi _ => State.rd_wr_ne _ _ (hloop i (List.mem_range.1 hi))).trans
    (State.rd_rstEach _ h)

end

/-- The state of engine `v` in which STREAM_ARM, which binds it to sequencer `k`, leaves it PRIMING. -/
def State.bound (s : State) (v k : Nat) (vb : Bool) (off len roff rsize : Nat) (x : VsEng) : State :=
  (s.armCleared v x).puts (vsArmPuts v k vb off len roff rsize)

section
variable (s : State) (v : Fin 16) (k : Fin 32) (vb : Bool) (off len roff rsize : Nat) (x : VsEng)

theorem State.bound_moved : RegsMoved (vsArmWritten v) (s.modVs v (fun _ => x)) (s.bound v k vb off len roff rsize x) :=
  (s.armCleared_moved v x).trans ((s.armCleared v x).puts_moved (by simp [vsArmPuts, vsArmWritten, VS_STATUS_STATE, VS_STATUS_BOUND,
    VS_STATUS_SEQ, VS_STATUS_SRC_VB, VS_ARM_SRC_STREAM_OFF, VS_ARM_LEN_STREAM_LEN, VS_ARM_RING_RING_OFF, VS_ARM_RING_RING_SIZE,
    VS_ARM_DICT_DICT_OFF, VS_ARM_DICT_DICT_ENTRIES]))

theorem State.bound_frame : s.bound v k vb off len roff rsize x = { s with
    regs := (s.bound v k vb off len roff rsize x).regs, vs := (s.bound v k vb off len roff rsize x).vs } := by
  have hregs := (s.bound_moved v k vb off len roff rsize x).frame
  unfold OnlyRegs at hregs
  generalize s.bound v k vb off len roff rsize x = t at hregs ⊢
  rw [hregs, State.modVs_eq]

theorem State.bound_vs : (s.bound v k vb off len roff rsize x).vs = (s.modVs v (fun _ => x)).vs := by
  rw [(s.bound_moved v k vb off len roff rsize x).frame]

theorem State.bound_kept : RegsKept (vsArmWritten v) s (s.bound v k vb off len roff rsize x) := fun a ha => by
  rw [(s.bound_moved v k vb off len roff rsize x).kept a ha, State.rd_modVs]

/-- The position and the count of sets are as after reset. -/
theorem State.bound_start : (s.bound v k vb off len roff rsize x).g (VS_POS_OFFSET v) = 0 ∧
    (s.bound v k vb off len roff rsize x).g (VS_COUNT_SETS v) = 0 := by
  have hfield : ∀ f ∈ [VS_POS_OFFSET v, VS_COUNT_SETS v], (s.bound v k vb off len roff rsize x).g f = (s.armCleared v x).g f :=
    fun f hf => State.g_puts_apart _ (l := vsArmPuts v k vb off len roff rsize) (vsStart_apart v f hf)
  obtain ⟨hpos, hcount⟩ := vsArm_reset v
  constructor
  · refine (hfield _ (by simp)).trans ((congrArg (fun w => getBits w 39 0) (s.armCleared_reset v x (a := VS_POS v) (by simp) fun i _ => ?_)).trans hpos)
    unfold VS_POS VS_CKPT_LOOP
    omega
  · refine (hfield _ (by simp)).trans ((congrArg (fun w => getBits w 47 0) (s.armCleared_reset v x (a := VS_COUNT v) (by simp) fun i _ => ?_)).trans hcount)
    unfold VS_COUNT VS_CKPT_LOOP
    omega

/-- The fields read what STREAM_ARM wrote. -/
theorem State.bound_field {f : FRef} {n : Nat} (h : (f, n) ∈ vsArmPuts v k vb off len roff rsize) (hf : f.hi < 64 ∧ f.lo ≤ f.hi)
    (hn : n < 2 ^ (f.hi + 1 - f.lo)) : (s.bound v k vb off len roff rsize x).g f = n :=
  State.g_puts _ (l := vsArmPuts v k vb off len roff rsize) (vsArmFields_apart v) h hf hn

end

/-! ### The checks -/

/-- STREAM_ARM of engine `v` for sequencer `k` of Ward `w`, without a dictionary, meets its conditions. -/
structure State.armable (s : State) (w v k : Nat) (vb : Bool) (n off len roff rsize : Nat) : Prop where
  ready : s.plan.sealed = true
  engine : s.vsWard v = some w
  sequencer : s.seqWard k = some w
  blocks : n = (s.seqCbs k).length
  nonempty : n ≠ 0
  offset : off < 2 ^ 36
  length : len < 2 ^ 36
  offsetUnit : off % 64 = 0
  lengthUnit : len % 64 = 0
  lengthPos : len ≠ 0
  source : s.ownsRange w (if vb then 1 else 0) off len = true
  bare : vb = true → roff = 0 ∧ rsize = 0
  ring : vb = false → roff < 2 ^ 24 ∧ roff % 4096 = 0 ∧ rsize % 4096 = 0 ∧ 16384 ≤ rsize ∧ rsize ≤ 4194304 ∧ s.ownsRange w 1 roff rsize = true
  idle : s.g (VS_STATUS_STATE v) = 0
  unbound : s.seqVs k = none
  stopped : (s.seq k).st = .idle

/-- The arguments of STREAM_ARM without a dictionary. -/
def armArgs (v k : Nat) (vb pre : Bool) (n off len roff rsize : Nat) : List (Nat × Nat) :=
  [(1, v), (1, k), (1, b2n vb + 4 * b2n pre), (1, n), (4, 0), (8, off), (8, len), (8, roff), (4, rsize), (4, 0), (8, 0)]

theorem armFlags (vb pre : Bool) : nbit (b2n vb + 4 * b2n pre) 0 = vb ∧ nbit (b2n vb + 4 * b2n pre) 1 = false ∧ b2n vb + 4 * b2n pre ≤ 7 := by
  cases vb <;> cases pre <;> decide

section
variable {b : List Byte} {v k : Nat} {vb pre : Bool} {n off len roff rsize : Nat} (hb : b = packed (armArgs v k vb pre n off len roff rsize))
include hb

theorem armArgs_read (hv : v < 16) (hk : k < 32) (hn : n ≤ 32) (hoff : off < 2 ^ 36) (hlen : len < 2 ^ 36) (hring : roff < 2 ^ 24 ∧ rsize < 2 ^ 24) :
    b.length = 48 ∧ u b 0 1 = v ∧ u b 1 1 = k ∧ u b 2 1 = b2n vb + 4 * b2n pre ∧ u b 3 1 = n ∧ zeros b 4 4 = true ∧ u b 8 8 = off ∧
      u b 0x10 8 = len ∧ u b 0x18 8 = roff ∧ u b 0x20 4 = rsize ∧ u b 0x24 4 = 0 ∧ u b 0x28 8 = 0 := by
  obtain ⟨-, -, hflags⟩ := armFlags vb pre
  subst hb
  exact ⟨packed_length _, u_packed 0 rfl (by omega), u_packed 1 rfl (by omega), u_packed 2 rfl (by omega), u_packed 3 rfl (by omega),
    zeros_packed 4 rfl, u_packed 5 rfl (by omega), u_packed 6 rfl (by omega), u_packed 7 rfl (by omega), u_packed 8 rfl (by omega),
    u_packed 9 rfl (by decide), u_packed 10 rfl (by decide)⟩

end

/-- What an engine holds that is bound for `cbs` Channel Blocks by the command `i`. -/
def VsEng.priming (cbs i : Nat) : VsEng := { VsEng.zero with cur := List.replicate (4 * cbs) 0#11, arm := some i }

section
variable {s : State} {w v k : Nat} {vb : Bool} {n off len roff rsize : Nat} (h : s.armable w v k vb n off len roff rsize)
include h

theorem State.armable.blocks_le : n ≤ 32 := by
  rw [h.blocks, State.seqCbs]
  exact (List.length_filter_le _ _).trans (by simp)

theorem State.armable.ring_fits : roff < 2 ^ 24 ∧ rsize < 2 ^ 24 := by
  have hbare := h.bare
  have hring := h.ring
  cases vb
  · have := hring rfl
    omega
  · have := hbare rfl
    omega

end

section
variable {s : State} {c : Cmd} {v : Fin 16} {k : Fin 32} {vb pre : Bool} {n off len roff rsize : Nat}
  (h : s.armable c.ward v k vb n off len roff rsize) (hargs : c.args = packed (armArgs v k vb pre n off len roff rsize))
include h hargs

theorem streamArm_binds : streamArm c s = (s.started c).bound v k vb off len roff rsize (VsEng.priming n c.id) := by
  obtain ⟨hlength, hv, hk, hfl, hn, hzero, hoff, hlen, hroff, hrsize, hde, hdoff⟩ := armArgs_read hargs v.isLt k.isLt h.blocks_le
    h.offset h.length h.ring_fits
  obtain ⟨hsource, hdisarm, hflags⟩ := armFlags vb pre
  have hown : ¬(some c.ward.val ≠ some c.ward.val ∨ some c.ward.val ≠ some c.ward.val ∨ !true ∨
      (!vb ∧ !s.ownsRange c.ward 1 roff rsize) ∨ (0 ≠ 0 ∧ !s.ownsRange c.ward 1 0 (0 * dictE (4 * n)))) := by
    cases hvb : vb
    · obtain ⟨-, -, -, -, -, hring⟩ := h.ring hvb
      simp [hring]
    · simp
  unfold streamArm
  dsimp only
  rw [hlength, hv, hk, hfl, hn, hzero, hoff, hlen, hroff, hrsize, hde, hdoff, hsource, hdisarm, h.ready, ← h.blocks, h.engine, h.sequencer, h.idle,
    h.unbound, h.stopped, h.source, if_neg (by decide), if_neg (by decide), if_neg hown, if_neg ?_, if_neg (by simp)]
  · have hvalid : (if nbit (b2n vb + 4 * b2n pre) 2 then 2 ^ 0 - 1 else 0) = 0 := by split <;> rfl
    rw [hvalid]
    rfl
  · have hbare := h.bare
    have hring := h.ring
    have hunits := And.intro h.offsetUnit h.lengthUnit
    have hpos := And.intro h.nonempty h.lengthPos
    have hdict : ∀ a m, overlap a m 0 (0 * dictE (4 * n)) = false := by simp [overlap]
    rw [hdict, hdict]
    cases vb
    · have := hring rfl
      simp
      omega
    · have := hbare rfl
      simp
      omega

end

/-- The checks ask for nothing that the records of commands move. -/
theorem State.armable.of_onlyJournal {s m : State} {w v k : Nat} {vb : Bool} {n off len roff rsize : Nat} (hm : OnlyJournal s m)
    (h : s.armable w v k vb n off len roff rsize) : m.armable w v k vb n off len roff rsize := by
  unfold OnlyJournal at hm
  rw [hm]
  exact ⟨h.ready, h.engine, h.sequencer, h.blocks, h.nonempty, h.offset, h.length, h.offsetUnit, h.lengthUnit, h.lengthPos, h.source, h.bare, h.ring,
    h.idle, h.unbound, h.stopped⟩

section
variable {s : State} {w : Fin 4} {q : Fin 8} {c : Cmd} (h : s.takes w q 0x30 c) {v : Fin 16} {k : Fin 32} {vb pre : Bool}
  {n off len roff rsize : Nat} (hargs : c.args = packed (armArgs v k vb pre n off len roff rsize)) (hmay : s.armable w v k vb n off len roff rsize)
include h hargs hmay

theorem exec_streamArm_binds : exec (.streamArm w q) s = .next ((s.begun c).bound v k vb off len roff rsize (VsEng.priming n c.id)) := by
  obtain ⟨m, d, hexec, hid, hargs', hward, hbegun, hm⟩ := h.streamArm_runs
  have hmay' : m.armable d.ward v k vb n off len roff rsize := by
    rw [hward]
    exact hmay.of_onlyJournal hm
  rw [hexec, streamArm_binds hmay' (hargs'.trans hargs), hbegun, hid]

theorem streamArm_primes : Gives (.streamArm w q) s (fun t => t.starts c.id ∧ t.g (VS_STATUS_STATE v.val) = 1 ∧ t.gb (VS_STATUS_BOUND v.val) = true ∧
    t.g (VS_STATUS_SEQ v.val) = k.val ∧ t.gb (VS_STATUS_SRC_VB v.val) = vb ∧ t.g (VS_POS_OFFSET v.val) = 0 ∧
    t.g (VS_COUNT_SETS v.val) = 0 ∧ t.g (VS_ARM_SRC_STREAM_OFF v.val) = off ∧ t.g (VS_ARM_LEN_STREAM_LEN v.val) = len ∧
    t.g (VS_ARM_RING_RING_OFF v.val) = roff ∧ t.g (VS_ARM_RING_RING_SIZE v.val) = rsize ∧ t.vse v.val = VsEng.priming n c.id ∧
    (∀ j, j ≠ v.val → t.vse j = s.vse j) ∧ RegsKept (vsArmWritten v) s t ∧ OnlyJournal { s with regs := t.regs, vs := t.vs } t) := by
  obtain ⟨hroff, hrsize⟩ := hmay.ring_fits
  have hoff := hmay.offset
  have hlen := hmay.length
  obtain ⟨hpos, hcount⟩ := (s.begun c).bound_start v k vb off len roff rsize (VsEng.priming n c.id)
  have hfield {f : FRef} {x : Nat} := (s.begun c).bound_field v k vb off len roff rsize (VsEng.priming n c.id) (f := f) (n := x)
  have hframe := (s.begun c).bound_frame v k vb off len roff rsize (VsEng.priming n c.id)
  have hvs := (s.begun c).bound_vs v k vb off len roff rsize (VsEng.priming n c.id)
  have hkept := (s.begun c).bound_kept v k vb off len roff rsize (VsEng.priming n c.id)
  refine ⟨_, exec_streamArm_binds h hargs hmay, ?_⟩
  generalize (s.begun c).bound v k vb off len roff rsize (VsEng.priming n c.id) = t at *
  have hbegun := h.begun_onlyJournal
  have hbvs : (s.begun c).vs = s.vs := by rw [hbegun]
  refine ⟨State.holdsDue_congr (by rw [hframe]) h.begun_starts, ?_, ?_, ?_, ?_, hpos, hcount, ?_, ?_, ?_, ?_, ?_, fun j hj => ?_, fun a ha => ?_, ?_⟩
  · exact hfield (by simp [vsArmPuts]) (by simp [VS_STATUS_STATE]) (by simp [VS_STATUS_STATE])
  · exact State.gb_of_g (b := true) (hfield (by simp [vsArmPuts, b2n]) (by simp [VS_STATUS_BOUND]) (by simp [VS_STATUS_BOUND, b2n]))
  · exact hfield (by simp [vsArmPuts]) (by simp [VS_STATUS_SEQ]) (by simp [VS_STATUS_SEQ])
  · exact State.gb_of_g (hfield (by simp [vsArmPuts]) (by simp [VS_STATUS_SRC_VB]) (by cases vb <;> simp [VS_STATUS_SRC_VB, b2n]))
  · exact hfield (by simp [vsArmPuts]) (by simp [VS_ARM_SRC_STREAM_OFF]) (by simp [VS_ARM_SRC_STREAM_OFF]; omega)
  · exact hfield (by simp [vsArmPuts]) (by simp [VS_ARM_LEN_STREAM_LEN]) (by simp [VS_ARM_LEN_STREAM_LEN]; omega)
  · exact hfield (by simp [vsArmPuts]) (by simp [VS_ARM_RING_RING_OFF]) (by simp [VS_ARM_RING_RING_OFF]; omega)
  · exact hfield (by simp [vsArmPuts]) (by simp [VS_ARM_RING_RING_SIZE]) (by simp [VS_ARM_RING_RING_SIZE]; omega)
  · rw [State.vse_congr hvs, State.vse_modVs_self _ _ _ v.isLt]
  · rw [State.vse_congr hvs, State.vse_modVs_ne _ _ hj, State.vse_congr hbvs]
  · rw [hkept a ha, State.rd_congr hbegun.regs]
  · have hmoved := hbegun.setVs t.regs t.vs
    rwa [← hframe] at hmoved

end

/-! ### STREAM_ARM -/

/-- Settles O23: what STREAM_ARM binds, DISARM of an idle and of a bound engine, and the completion of a PRIMED one. -/
theorem streamsArm : Obligations.StreamsArm := by
  unfold Obligations.StreamsArm
  intro s v
  refine ⟨fun w q c k vb pre n off len roff rsize de doff h hargs hsealed hengine hsequencer hblocks hn hoff hlen hoff64 hlen64 hlenPos hsource
    hbare hring hde hdoff hidle hunbound hstopped => ?_, fun w q c h hargs hsealed hward => ?_,
    fun i hticks halone hst hprimed hvb hqueue harm hopen => streamPrimed_completes hticks halone hst hprimed hvb hqueue harm hopen⟩
  · subst hde hdoff
    exact streamArm_primes (pre := pre) h (hargs.trans (by simp [packed, armArgs]))
      ⟨hsealed, hengine, hsequencer, hblocks, hn, hoff, hlen, hoff64, hlen64, hlenPos, hsource, hbare, hring, hidle, hunbound, hstopped⟩
  · have hpacked : c.args = packed [(1, v.val), (1, 0), (1, 2), (45, 0)] := hargs.trans (by simp [packed])
    exact ⟨fun hst => disarm_idle_completes h hpacked hsealed hward hst,
      fun i hst hburst harm hne hopen => disarm_bound_completes h hpacked hsealed hward hst hburst harm hne hopen⟩

end Sys2Proof.Machine
end

section
/-! SUPPORT. O40: UR_TIMEOUT on a sequencer whose state says it runs a burst while it holds none (R131). -/

namespace Sys2Proof.Machine

/-- The command leaves a burst that has ended on sequencer `k`. -/
def State.leavesEnded (s : State) (i : Instr) (k : Nat) : Bool :=
  match exec i s with
  | .next t => ((t.seq k).burst.bind (·.ended)).isSome
  | _ => true

theorem State.leavesEnded_of_gives {s : State} {i : Instr} {k : Nat}
    (h : Gives i s (fun t => ((t.seq k).burst.bind (·.ended)).isSome = true)) : s.leavesEnded i k = true := by
  obtain ⟨t, hexec, hended⟩ := h
  unfold State.leavesEnded
  rw [hexec]
  exact hended

/-- A running device whose engine 0 is bound to sequencer 0, with an empty queue and its stream not ended. The sequencer stands in BEAT
and waits for a set at a word of the user area, but it holds no burst. -/
def burstlessUnderrun : State :=
  { (((State.reset.p (CLK_ON_ON 1) 2).pb (VS_STATUS_BOUND 0) true).p (VS_STATUS_STATE 0) 3).modSeq 0
      (fun x => { x with st := .beat, urWait := true, arch := { x.arch with pc := 0x800 } }) with
    pwr := { PwrSt.zero with resetN := true, waitRise := false, gatedAll := false } }

/-- It satisfies what the clause of UR_TIMEOUT asks for, and is in canonical form. -/
theorem burstlessUnderrun_waits : burstlessUnderrun.ticksOf (vsDom 0) = true ∧ burstlessUnderrun.gb (VS_STATUS_BOUND 0) = true ∧
    burstlessUnderrun.g (VS_STATUS_SEQ 0) = 0 ∧ (burstlessUnderrun.seq 0).urWait = true ∧ burstlessUnderrun.bursting 0 = true ∧
    burstlessUnderrun.drawMeets 0 = 2 ∧ burstlessUnderrun.canonical = true := by
  decide +kernel

/-- UR_TIMEOUT stops the sequencer, which still holds no burst. -/
theorem burstlessUnderrun_stops : burstlessUnderrun.leavesEnded (.urTimeout 0) 0 = false := by
  decide +kernel

/-- Refutes O40: its clause of UR_TIMEOUT asks for a burst that has ended behind every underrun of a sequencer in SETUP, BEAT, WAIT or
PAUSED, also for `burstlessUnderrun`, which is in BEAT and holds no burst: the fault stops that sequencer (R131) and there is no burst to
end. (BURST_START puts a burst in place before any of these states; the clause does not ask for one.) -/
theorem not_streamsFetchAndFail : ¬ Obligations.StreamsFetchAndFail := by
  unfold Obligations.StreamsFetchAndFail
  intro h
  obtain ⟨-, -, htimeout⟩ := h burstlessUnderrun 0
  obtain ⟨hticks, hbound, hseq, hwait, hburst, hdraw, -⟩ := burstlessUnderrun_waits
  obtain ⟨t, hexec, -, -, -, hended, -⟩ := htimeout hticks hbound (by rw [Fin.val_zero, hseq, hwait]) (by rw [Fin.val_zero, hseq, hburst])
    (by rw [Fin.val_zero, hseq, hdraw])
  rw [Fin.val_zero, hseq] at hended
  have hleft := State.leavesEnded_of_gives ⟨t, hexec, hended⟩
  rw [burstlessUnderrun_stops] at hleft
  exact Bool.false_ne_true hleft

end Sys2Proof.Machine
end
